-- ==== Sys2Proof/Word.lean ====
section
/-! DEFINITION. The plain word types of the device and nothing else. -/
namespace Sys2Proof

/-- One byte of a packet, a record or a memory. -/
abbrev Byte := BitVec 8

/-- A Fountainhead time in units of 2⁻¹⁶ ns since time zero (R260): the 96-bit format read as one number. -/
abbrev FTime := Nat

/-- An instant of elapsed time since power-on, in units of 2⁻¹⁶ ns.  The reference of every hardware timeout. -/
abbrev Instant := Nat

/-- Nanoseconds as units of 2⁻¹⁶ ns. -/
abbrev nsec (n : Nat) : Nat := n * 65536

/-- Microseconds as units of 2⁻¹⁶ ns. -/
abbrev usec (n : Nat) : Nat := n * 65536000

/-- Milliseconds as units of 2⁻¹⁶ ns. -/
abbrev msec (n : Nat) : Nat := n * 65536000000

/-- Seconds as units of 2⁻¹⁶ ns. -/
abbrev secs (n : Nat) : Nat := n * 65536000000000

end Sys2Proof
end

