-- ==== Sys2Proof/Syntax.lean ====
section
/-! DEFINITION. The commands and events of the block: one constructor of `Instr` per row of the opcode table, and the
names its operands use. -/
namespace Sys2Proof

namespace Machine
/-- The four command queues (R74).  `q0` host normal, `q1` host urgent, `q2` manager over Rill, `q3` firmware. -/
inductive QId where
  | q0 | q1 | q2 | q3
  deriving DecidableEq, Repr

/-- A configurable block of Table 2.9 (R88). -/
inductive Block where
  | lineTx (n : Fin 8) | lineRx (n : Fin 8) | port (n : Fin 8) | host (n : Fin 16) | servo | ppsOut | rill | weir
  | channel (n : Fin 8) | decim (n : Fin 4) | cistern | spillway | gauge (n : Fin 4) | jets (n : Fin 24)
  | pwm (n : Fin 8) | timer (n : Fin 4) | sluice
  deriving DecidableEq, Repr

/-- A lane that runs the superframe: a line lane, or a host lane in relay mode (R242). -/
inductive LaneRef where
  | line (n : Fin 8) | relay (n : Fin 16)
  deriving DecidableEq, Repr
/-- What a lane's receiver has at hand as a superframe's marker arrives: the index in its receive word of the marker's first symbol;
the mean output of the phase detector, in 2⁻³² UI, and its mean square, in 2⁻³² UI², in each island cycle since the last marker (R118);
the FFE output for the superframe's symbols in 1/256 of the level spacing, none at the centre (R123); the blocks of a relay lane (R242);
and, in S200, whether an alignment marker was found by the rules of IEEE 802.3dj (R144). -/
structure RxFrame where
  pos : Nat
  cycles : List (Int × Nat)
  samples : List Int
  blocks : List Nat
  found : Bool
  deriving DecidableEq, Repr

/-- What leaves with a superframe's marker: the index in its word of the marker's first symbol, and the codeword pairs that the host
supplied to each slice during the superframe, or in S200 to each port's lead slice, as received (R208, R240). -/
structure TxFrame where
  pos : Nat
  host : List (List Nat)
  deriving DecidableEq, Repr

/-- What a foreground calibration measured: values for every sub-converter, gain step, sub-DAC or table entry, in the
units of the tables, three lists as the kind uses them. -/
abbrev CalMeasure := List Int × List Int × List Int
/-- A sample of a capture source as it is stored, with the elapsed instant at which it was taken: an ADC code, an equaliser or
timing-error value, or a level (Table 10.1).  Its stamp is the island replica's (R368). -/
structure SrcSample where
  at' : Nat
  value : Int
  deriving DecidableEq, Repr

/-- What the source of a capture channel has brought since ARM, earliest first; the results of a Gauge source are the device's own
(R407). -/
structure Captured where
  channel : Fin 8
  samples : List SrcSample
  deriving DecidableEq, Repr

/-- A block of memory in which an uncorrectable word is found (Table 12.2, R439). -/
inductive EccPlace where
  /-- A buffer of a line lane's engine on the way to the port island: the first of the word's 64 bits, by its place in the superframe
  (R210). -/
  | engine (n : Fin 8) (bit : Nat)
  /-- A port-island or gearbox buffer of a slice, and whether the word's bits lie in two codeword pairs (R211). -/
  | buffer (n : Fin 8) (toLine : Bool) (two : Bool)
  /-- A Cistern word of a record, by its index (R380). -/
  | capture (index : Nat)
  /-- A frame buffer or queue of a Rill port. -/
  | rill (p : Fin 16)
  | shadow (b : Block)
  /-- The snapshot of a block in a pending commit. -/
  | snapshot (id : Nat) (b : Block)
  | active (b : Block)
  | previous (b : Block)
  /-- An entry of an ADC table (R116), a gain table, a DAC table or a delay table of a line lane. -/
  | adcEntry (n : Fin 8) (k : Fin 129)
  | gainEntry (n : Fin 8) (k : Fin 73)
  | dacEntry (n : Fin 8) (k : Fin 4)
  | delayTable (n : Fin 8)
  /-- A calibration set of a converter or a Jets channel (R425). -/
  | gaugeSet (g : Fin 4) (k : Fin 5)
  | jetsSet (j : Fin 24) (k : Fin 5)
  | filter (d : Fin 4)
  /-- An entry of a Jets queue or a Gauge FIFO. -/
  | jetsQueue (j : Fin 24) (i : Nat)
  | gaugeFifo (g : Fin 4) (i : Nat)
  /-- The management domain. -/
  | mgmt
  deriving DecidableEq, Repr

/-- A multiply-add whose residue mismatches (R433 to R435): of a line lane's receiver, in the engine cycle of 256 symbols that starts
with a symbol of the superframe; of a line lane's transmitter, in the cycle that starts with a symbol of the one in progress; of a host
lane's receiver, in a word of 256 bits that lies in one codeword pair or in two; of a host lane's transmitter. -/
inductive ResiduePlace where
  | lineRx (n : Fin 8) (symbol : Nat) | lineTx (n : Fin 8) (symbol : Nat) | hostRx (n : Fin 16) (two : Bool) | hostTx (n : Fin 16)
  deriving DecidableEq, Repr

/-- Where a symbol crosses a stamp place: the elapsed time of the island clock edge, the symbol's index in the word of that
cycle, and the CDR phase of a host lane in 1/64 UI (R24, R222, R316). -/
structure Crossing where
  edge : Nat
  index : Nat
  phase : Int
  deriving DecidableEq, Repr

/-- A CCC that changes nothing: RSTACT, broadcast or direct, with an action other than 0x01 and 0x02, which have rows of their own; and a
CCC outside Table 2.1, directed at an address or broadcast, which has none (R57). -/
inductive IdleCcc where
  | rstact (addr : Option Nat) (action : Nat) | direct (addr : Nat) | broadcast
  deriving DecidableEq, Repr

/-- An access of the debug port (R507). -/
inductive DebugOp where
  | halt | resume | step | read (addr : Nat) | write (addr : Nat) (value : Byte) | factory
  deriving DecidableEq, Repr

/-- What a host lane lost. -/
inductive HostLoss where
  | signal | cdr | marker
  deriving DecidableEq, Repr

end Machine

open Machine in
/-- The commands and events: one constructor per row of the opcode table.  Each carries first the instant at which it falls; a host
command carries the queue at whose head it stands. -/
inductive Instr where
  /-- PRIVATE_WRITE: A private I3C write carrying one command packet is checked and either dropped, rejected or received into its queue (R70). -/
  | privateWrite (t : Nat) (addr : Nat) (hdr : Option Nat) (err : Bool) (bytes : List Byte)
  /-- IBI_RETRY: A NACKed IBI request is repeated at the next bus idle while its condition lasts (R64). -/
  | ibiRetry (t : Nat) (acked : Bool)
  /-- PRIVATE_READ: A private read returns bytes of the outbound stream from the read position, and packets read in full leave the stream (R61). -/
  | privateRead (t : Nat) (addr : Nat) (hdr : Option Nat) (n : Nat)
  /-- ENTDAA: Broadcast ENTDAA; the device takes part with its PID, BCR and DCR and may receive a dynamic address (R57). -/
  | entdaa (t : Nat) (given : Option Nat)
  /-- SETDASA: Direct SETDASA gives the device a dynamic address and ends legacy mode (R55). -/
  | setdasa (t : Nat) (static : Nat) (addr : Nat)
  /-- SETNEWDA: Direct SETNEWDA replaces the device's dynamic address (R57). -/
  | setnewda (t : Nat) (addr : Nat) (new : Nat)
  /-- RSTDAA: Broadcast RSTDAA drops the dynamic address and returns the device to legacy mode, emptying no queue (R55). -/
  | rstdaa (t : Nat)
  /-- GETPID: Direct GETPID returns the 48-bit PID (R58). -/
  | getpid (t : Nat) (addr : Nat)
  /-- GETBCR: Direct GETBCR returns 0x06 (R57). -/
  | getbcr (t : Nat) (addr : Nat)
  /-- GETDCR: Direct GETDCR returns 0x00 (R57). -/
  | getdcr (t : Nat) (addr : Nat)
  /-- GETSTATUS: Direct GETSTATUS returns the 16-bit status in every power state and clears PROTOCOL_ERROR (R58). -/
  | getstatus (t : Nat) (addr : Nat)
  /-- GETMWL: Direct GETMWL returns the maximum write length (R57). -/
  | getmwl (t : Nat) (addr : Nat)
  /-- SETMWL: Direct SETMWL stores the maximum write length, capped at 1,036 (R60). -/
  | setmwl (t : Nat) (addr : Nat) (v : Nat)
  /-- GETMRL: Direct GETMRL returns the maximum read length and IBI payload size (R57). -/
  | getmrl (t : Nat) (addr : Nat)
  /-- SETMRL: Direct SETMRL stores the maximum read length and IBI payload size, with clamping (R65). -/
  | setmrl (t : Nat) (addr : Nat) (v : Nat) (ibi : Nat)
  /-- ENEC: ENEC with ENINT enables IBI requests (R57). -/
  | enec (t : Nat) (addr : Option Nat) (ev : Nat)
  /-- DISEC: DISEC with ENINT disables IBI requests (R57). -/
  | disec (t : Nat) (addr : Option Nat) (ev : Nat)
  /-- RSTACT_NO_RESET: RSTACT action 0x00 performs no reset (R57). -/
  | rstactNoReset (t : Nat) (c : IdleCcc)
  /-- RSTACT_TRANSFER_RESET: RSTACT action 0x01 discards a partly received packet and resets the read position (R63). -/
  | rstactTransferReset (t : Nat) (addr : Option Nat)
  /-- RSTACT_FULL_RESET: RSTACT action 0x02 performs a full reset equal to RESET_N (R57). -/
  | rstactFullReset (t : Nat) (addr : Option Nat)
  /-- ENTHDR0: Broadcast ENTHDR0 enters HDR-DDR mode (R57). -/
  | enthdr0 (t : Nat)
  /-- CMIS_READ: A legacy I2C read at 0x50 returns bytes of the selected CMIS page without clock stretching (R508). -/
  | cmisRead (t : Nat) (off : Fin 256) (n : Nat)
  /-- CMIS_WRITE: A legacy I2C write at 0x50 of up to 8 bytes updates CMIS bytes, page or bank select, acting within 10 ms (R508). -/
  | cmisWrite (t : Nat) (off : Fin 256) (bytes : List Byte)
  /-- IDENTIFY: Returns part, option, stepping, PID, firmware version and slot, lock states, serial and boot count (R490). -/
  | identify (t : Nat) (q : QId)
  /-- GET_STATUS: Returns the summary word and status counts, then clears the requested loss flags (R100). -/
  | getStatus (t : Nat) (q : QId)
  /-- ABORT: Discards the named Q0 commands not yet accepted or waiting, each replying DISCARDED, then replies with the count (R83). -/
  | abort (t : Nat) (q : QId)
  /-- ECHO: Returns the bytes sent (R91). -/
  | echo (t : Nat) (q : QId)
  /-- SET_NOTIFY: Sets the event enable mask and the INT_N class mask (R99). -/
  | setNotify (t : Nat) (q : QId)
  /-- APPLY: Snapshots the shadow sets of the named blocks and sets Tc to acceptance plus 8 us for an all-or-none commit (R36). -/
  | apply (t : Nat) (q : QId)
  /-- COMMIT: Snapshots the named blocks with activation time T and replies once snapshots are validated (R40). -/
  | commit (t : Nat) (q : QId)
  /-- COMMIT_CANCEL: Cancels a pending COMMIT accepted before or in the cycle of its Tc (R42). -/
  | commitCancel (t : Nat) (q : QId)
  /-- SET_READ: Returns part of the parameter image of the shadow, active or previous set of one block (R103). -/
  | setRead (t : Nat) (q : QId)
  /-- SHADOW_RESET: Reloads the named shadow sets from their active sets (R104). -/
  | shadowReset (t : Nat) (q : QId)
  /-- SESSION_EXPERT: Opens an expert session in the queue that carries it (R49). -/
  | sessionExpert (t : Nat) (q : QId)
  /-- SESSION_BASIC: Closes the expert session of the queue (R49). -/
  | sessionBasic (t : Nat) (q : QId)
  /-- EXPERT_RELEASE: Releases pins on named parameters of a block, adaptation resuming at the next block boundary (R51). -/
  | expertRelease (t : Nat) (q : QId)
  /-- LIMIT_SET: Writes bounds of a lockable hardware limit while the limits are unlocked (R107). -/
  | limitSet (t : Nat) (q : QId)
  /-- LIMIT_LOCK: Locks the hardware limits until reset (R47). -/
  | limitLock (t : Nat) (q : QId)
  /-- LIMIT_READ: Returns the bounds in force and lock state of one limit (R107). -/
  | limitRead (t : Nat) (q : QId)
  /-- OWNER_READ: Returns the owning function of a resource and the time of its claim (R108). -/
  | ownerRead (t : Nat) (q : QId)
  /-- OWNER_RELEASE: Releases ownership of a resource not in use (R108). -/
  | ownerRelease (t : Nat) (q : QId)
  /-- SET_GROUPING: Writes the port grouping into the shadow sets of PI0 to PI7 (R106). -/
  | setGrouping (t : Nat) (q : QId)
  /-- LINE_MODE: Writes N425 or S200 into the transmit and receive shadow sets of selected lanes (R214). -/
  | lineMode (t : Nat) (q : QId)
  /-- LINE_ENABLE: Writes receive and transmit enables of selected line lanes into their shadow sets (R132). -/
  | lineEnable (t : Nat) (q : QId)
  /-- LINE_STATE: Returns acquisition state, stage, retries, last exit and time in state per lane (R133). -/
  | lineState (t : Nat) (q : QId)
  /-- RX_EQ: Sets equaliser targets from which firmware chooses cursor, target response and rates (R124). -/
  | rxEq (t : Nat) (q : QId)
  /-- RX_EQ_EXPERT: Writes FFE taps, rates, leakage and detector target directly and pins them (R124). -/
  | rxEqExpert (t : Nat) (q : QId)
  /-- RX_GAIN: Sets the RMS target of the front-end gain loop (R112). -/
  | rxGain (t : Nat) (q : QId)
  /-- RX_GAIN_EXPERT: Writes a fixed gain code, pinning the gain and stopping the loop (R112). -/
  | rxGainExpert (t : Nat) (q : QId)
  /-- RX_TIMING: Selects a timing-recovery loop bandwidth class (R120). -/
  | rxTiming (t : Nat) (q : QId)
  /-- RX_TIMING_EXPERT: Writes timing loop gains and phase offset directly and pins them (R120). -/
  | rxTimingExpert (t : Nat) (q : QId)
  /-- RX_DECODE: Selects soft or hard inner decoding (R204). -/
  | rxDecode (t : Nat) (q : QId)
  /-- RX_DECODE_EXPERT: Writes CHASE_DEPTH and LLR_SCALE and pins them (R204). -/
  | rxDecodeExpert (t : Nat) (q : QId)
  /-- LOCK_LOSS_CONFIG: Sets the inner-failure threshold and the optical monitor of selected lanes (R140). -/
  | lockLossConfig (t : Nat) (q : QId)
  /-- TX_SWING: Sets the transmit swing in mVppd, clamped to the swing ceiling (R156). -/
  | txSwing (t : Nat) (q : QId)
  /-- TX_SWING_EXPERT: Writes FS_CODE directly and pins it (R156). -/
  | txSwingExpert (t : Nat) (q : QId)
  /-- TX_FFE: Selects a transmit FFE preset (R158). -/
  | txFfe (t : Nat) (q : QId)
  /-- TX_FFE_EXPERT: Writes all seven transmit taps and pins them (R158). -/
  | txFfeExpert (t : Nat) (q : QId)
  /-- TX_PREDIST: Selects predistortion OFF or ADAPTIVE (R161). -/
  | txPredist (t : Nat) (q : QId)
  /-- TX_PREDIST_EXPERT: Writes the 64 predistortion entries and pins the table (R161). -/
  | txPredistExpert (t : Nat) (q : QId)
  /-- TX_SKEW: Selects skew NONE or ALIGN to the lane group (R164). -/
  | txSkew (t : Nat) (q : QId)
  /-- TX_SKEW_EXPERT: Writes the transmit skew directly and pins it (R164). -/
  | txSkewExpert (t : Nat) (q : QId)
  /-- TX_CLOCK_SOURCE: Writes local or loop-timed transmit clock source into shadow sets (R165). -/
  | txClockSource (t : Nat) (q : QId)
  /-- LANE_CALIBRATE: Starts a receive or transmit foreground calibration of one lane after its precondition check (R145). -/
  | laneCalibrate (t : Nat) (q : QId)
  /-- LANE_CALIBRATION_END: After 1.8 ms CALIBRATING ends, results are bounds-checked and applied, and the lane moves on (R146). -/
  | laneCalibrationEnd (t : Nat) (n : Fin 8) (m : CalMeasure)
  /-- CAL_TABLE_READ: Returns a receive, transmit or fixed-delay calibration table of a lane (R117). -/
  | calTableRead (t : Nat) (q : QId)
  /-- RX_MONITOR: Returns optical power, SNR, counts and level histogram of a lane and restarts its BER counts (R148). -/
  | rxMonitor (t : Nat) (q : QId)
  /-- EYE_SCAN: Runs the standard eye contour scan on the parked sub-converter (R151). -/
  | eyeScan (t : Nat) (q : QId)
  /-- EYE_SCAN_EXPERT: Runs an eye scan with a given grid, depth and error limit (R151). -/
  | eyeScanExpert (t : Nat) (q : QId)
  /-- EYE_SCAN_END: An eye scan finishes or stops on loss of LOCKED and replies with the phases done (R150); `done` is the lane and its phases done. -/
  | eyeScanEnd (t : Nat) (n : Fin 8) (errors : List Nat)
  /-- LINE_COUNTERS: Latches and returns lane and slice counters, clearing them when asked (R215). -/
  | lineCounters (t : Nat) (q : QId)
  /-- ERROR_INJECT: Selects a preset random error injection rate (R217). -/
  | errorInject (t : Nat) (q : QId)
  /-- ERROR_INJECT_EXPERT: Sets error injection kind, point, rate, burst or marker pattern (R217). -/
  | errorInjectExpert (t : Nat) (q : QId)
  /-- LINE_LOOP: Writes a line loop kind into the lane's shadow sets (R247). -/
  | lineLoop (t : Nat) (q : QId)
  /-- HOST_MODE: Writes target rate, relay mode and enable of selected host lanes (R227). -/
  | hostMode (t : Nat) (q : QId)
  /-- HOST_STATE: Returns state, rate, retries and loop status per host lane (R233). -/
  | hostState (t : Nat) (q : QId)
  /-- HOST_EQ: Sets the host equalisation adaptation mode (R226). -/
  | hostEq (t : Nat) (q : QId)
  /-- HOST_EQ_EXPERT: Writes host transmit taps, CTLE, DFE and receive FFE groups and pins them (R226). -/
  | hostEqExpert (t : Nat) (q : QId)
  /-- HOST_LOOP: Writes a host loop kind into the lane's shadow set (R247). -/
  | hostLoop (t : Nat) (q : QId)
  /-- HOST_REF: Selects REFCLK or HOSTREF as acquisition reference of all host receive CDRs (R220). -/
  | hostRef (t : Nat) (q : QId)
  /-- PORT_FAULT_MODE: Writes the fault mode toward the host and CLEAR_HOLD of a port (R257). -/
  | portFaultMode (t : Nat) (q : QId)
  /-- HOST_COUNTERS: Latches and returns host lane and slice counters (R259). -/
  | hostCounters (t : Nat) (q : QId)
  /-- TIME_GET: Returns the Fountainhead time at acceptance with servo flags (R278). -/
  | timeGet (t : Nat) (q : QId)
  /-- TIME_SET: Steps the time to a given value at acceptance or at the next PPS_IN edge, within the maximum step (R281). -/
  | timeSet (t : Nat) (q : QId)
  /-- TIME_STEP: Expert command applying a signed step of any size at the next epoch tick (R281). -/
  | timeStep (t : Nat) (q : QId)
  /-- SERVO_SOURCE: Writes the servo source and lane group into class 0x05 (R274). -/
  | servoSource (t : Nat) (q : QId)
  /-- SERVO_PARAMS: Selects a reference type from which firmware chooses servo gains and thresholds (R275). -/
  | servoParams (t : Nat) (q : QId)
  /-- SERVO_PARAMS_EXPERT: Writes k, gains, thresholds or rate word directly and pins them (R275). -/
  | servoParamsExpert (t : Nat) (q : QId)
  /-- SERVO_STATUS: Returns servo state, offset, rate word and flags (R276). -/
  | servoStatus (t : Nat) (q : QId)
  /-- TIMEREF_CONFIG: Writes the selected time-base reference and TIMEREF frequency (R265). -/
  | timerefConfig (t : Nat) (q : QId)
  /-- PPS_OUT_CONFIG: Writes PPS_OUT enable, polarity, gate, EVT copies, width and offset (R284). -/
  | ppsOutConfig (t : Nat) (q : QId)
  /-- REFOUT_CONFIG: Writes REFOUT enable, frequency and realign and replies with REFOUT_ALIGNED (R286). -/
  | refoutConfig (t : Nat) (q : QId)
  /-- PPS_IN_CONFIG: Writes PPS_IN enable, edge and cable delay (R280). -/
  | ppsInConfig (t : Nat) (q : QId)
  /-- XFER_STATUS: Returns the combined offset and per-lane time-transfer status (R303). -/
  | xferStatus (t : Nat) (q : QId)
  /-- XFER_CAL: Starts a near-end loop measurement of a lane's fixed delays (R306). -/
  | xferCal (t : Nat) (q : QId)
  /-- XFER_CAL_PHASE_END: A phase of the loop measurement ends and the next begins, the last bounds-checking and replying (R306). -/
  | xferCalPhaseEnd (t : Nat) (n : Fin 8)
  /-- XFER_CAL_EXPERT: Writes TX_INT, RX_INT, TX_MOD or RX_MOD of a lane and pins them (R308). -/
  | xferCalExpert (t : Nat) (q : QId)
  /-- ASYMMETRY: Writes asymmetry estimation enable, fit order and wavelengths of selected lanes (R313). -/
  | asymmetry (t : Nat) (q : QId)
  /-- ASYMMETRY_EXPERT: Writes an entered ASYM for one line or relay lane and pins it (R313). -/
  | asymmetryExpert (t : Nat) (q : QId)
  /-- PTP_CORR_CONFIG: Writes PTP correction directions, encapsulations and host delays of a port (R321). -/
  | ptpCorrConfig (t : Nat) (q : QId)
  /-- PTP_CORR_STATUS: Returns PTP correction counters and residence times of a port (R322). -/
  | ptpCorrStatus (t : Nat) (q : QId)
  /-- ROLE_SET: Writes the device role and its worker options into class 0x07 (R323). -/
  | roleSet (t : Nat) (q : QId)
  /-- HIER_STATUS: Returns role, worker ID, upstream route, Rill lanes and Rill counters (R344). -/
  | hierStatus (t : Nat) (q : QId)
  /-- DISCOVER: Explores the tree breadth-first with PROBEs, recording and optionally assigning workers (R340). -/
  | discover (t : Nat) (q : QId)
  /-- PROBE_TIMEOUT: A PROBE left unanswered for 10 ms is counted unreachable (R340). -/
  | probeTimeout (t : Nat)
  /-- WORKER_ASSIGN: Sends ASSIGN to give a worker an ID along a route (R342). -/
  | workerAssign (t : Nat) (q : QId)
  /-- WORKER_LIST: Returns entries of the worker table from a start index (R343). -/
  | workerList (t : Nat) (q : QId)
  /-- TUNNEL: Sends one command packet to one worker and replies with the worker's packet (R346). -/
  | tunnel (t : Nat) (q : QId)
  /-- TUNNEL_TIMEOUT: TMO_MS expires and the TUNNEL replies TIMEOUT (R346). -/
  | tunnelTimeout (t : Nat)
  /-- EPOCH_STAGE: Sends STAGE to a worker set and replies with READY and NOT_READY counts (R352). -/
  | epochStage (t : Nat) (q : QId)
  /-- EPOCH_COMMIT: Broadcasts COMMIT with activation time T for a staged epoch (R352). -/
  | epochCommit (t : Nat) (q : QId)
  /-- ABORT_EPOCH: Broadcasts ABORT for an epoch and replies with per-worker outcome (R352). -/
  | abortEpoch (t : Nat) (q : QId)
  /-- REVERT_EPOCH: Broadcasts REVERT with time T2 for a committed epoch (R352). -/
  | revertEpoch (t : Nat) (q : QId)
  /-- EPOCH_STATUS: Returns outcome bytes per worker, optionally querying first (R352). -/
  | epochStatus (t : Nat) (q : QId)
  /-- EPOCH_RESEND: At 5 ms and 10 ms, COMMIT, ABORT or REVERT is resent by unicast to workers that have not answered (R350). -/
  | epochResend (t : Nat) (id : Nat)
  /-- EPOCH_RESULT_TIMEOUT: 100 ms after T or T2, EPOCH_RESULT is produced with missing workers as UNREACHABLE (R353). -/
  | epochResultTimeout (t : Nat) (id : Nat)
  /-- FW_BROADCAST: Copies a verified firmware image to a worker set by select, broadcast blocks, queries and end (R349). -/
  | fwBroadcast (t : Nat) (q : QId)
  /-- RILL_CONFIG: Enables or disables Rill (R337). -/
  | rillConfig (t : Nat) (q : QId)
  /-- RILL_CONFIG_EXPERT: Writes Rill lane preference, retries and ACK_ALLOW (R337). -/
  | rillConfigExpert (t : Nat) (q : QId)
  /-- ACQ_STATUS: Returns acquisition state, records and counters (R385). -/
  | acqStatus (t : Nat) (q : QId)
  /-- CHANNEL_SOURCE: Writes source, decimator and destination of a capture channel (R357). -/
  | channelSource (t : Nat) (q : QId)
  /-- DECIMATOR_CONFIG: Sets a decimator's output rate, firmware choosing stages and step word (R363). -/
  | decimatorConfig (t : Nat) (q : QId)
  /-- DECIMATOR_CONFIG_EXPERT: Writes decimator stages and step word directly and pins them (R363). -/
  | decimatorConfigExpert (t : Nat) (q : QId)
  /-- FILTER_LOAD: Loads a preset coefficient bank into a decimator that is not running (R365). -/
  | filterLoad (t : Nat) (q : QId)
  /-- FILTER_LOAD_EXPERT: Writes coefficients into a decimator bank and pins it (R365). -/
  | filterLoadExpert (t : Nat) (q : QId)
  /-- MINMAX_CONFIG: Writes min/max reducer enable and interval of a channel (R366). -/
  | minmaxConfig (t : Nat) (q : QId)
  /-- TRIGGER_CONFIG: Writes a trigger unit's source, condition and thresholds (R367). -/
  | triggerConfig (t : Nat) (q : QId)
  /-- TRIGGER_CONFIG_EXPERT: Writes trigger hysteresis and interpolation as well, pinning them (R367). -/
  | triggerConfigExpert (t : Nat) (q : QId)
  /-- TRIGGER_COMBINE: Writes trigger combination mode, units, EVT pulses, full policy, window and record limit (R371). -/
  | triggerCombine (t : Nat) (q : QId)
  /-- RECORD_CONFIG: Writes record region and PRE and POST lengths of a channel (R374). -/
  | recordConfig (t : Nat) (q : QId)
  /-- ARM: Claims resources, checks state and admission, and commits and starts acquisition at ARM_STAMP (R381). -/
  | arm (t : Nat) (q : QId)
  /-- DISARM: Stops every channel, trigger unit and decimator and releases ARM's claims (R383). -/
  | disarm (t : Nat) (q : QId)
  /-- FORCE_TRIGGER: Makes a forced record trigger stamped at acceptance (R373). -/
  | forceTrigger (t : Nat) (q : QId)
  /-- RECORD_READ: Returns bytes of a record image and optionally frees its slot (R387). -/
  | recordRead (t : Nat) (q : QId)
  /-- SPILLWAY_CONFIG: Writes the external ring base, size and wrap policy (R391). -/
  | spillwayConfig (t : Nat) (q : QId)
  /-- SPILLWAY_START: Starts the record port in STREAM or DRAIN after checks, sending IDLE for 100 us first (R392). -/
  | spillwayStart (t : Nat) (q : QId)
  /-- SPILLWAY_STOP: Stops the record port and replies with the next ring address (R395). -/
  | spillwayStop (t : Nat) (q : QId)
  /-- SPILLWAY_STATUS: Returns record-port state, address and counters (R395). -/
  | spillwayStatus (t : Nat) (q : QId)
  /-- GAUGE_SEQUENCE: Writes the channel list of a converter's regular sequence (R402). -/
  | gaugeSequence (t : Nat) (q : QId)
  /-- GAUGE_SEQUENCE_EXPERT: Writes every field of each sequence entry and pins the sequence (R402). -/
  | gaugeSequenceExpert (t : Nat) (q : QId)
  /-- GAUGE_INJECT: Queues up to 4 injected conversion entries on a converter (R406). -/
  | gaugeInject (t : Nat) (q : QId)
  /-- GAUGE_RUN: Writes run, trigger source and delay of a converter (R403). -/
  | gaugeRun (t : Nat) (q : QId)
  /-- GAUGE_READ: Removes results from a converter's FIFO and clears OVERFLOWS (R408). -/
  | gaugeRead (t : Nat) (q : QId)
  /-- JETS_CONFIG: Writes range, reference and park level of a Jets channel (R411). -/
  | jetsConfig (t : Nat) (q : QId)
  /-- JETS_QUEUE: Appends clamped codes to a Jets channel queue, optionally flushing first (R412). -/
  | jetsQueue (t : Nat) (q : QId)
  /-- JETS_ENABLE: Writes enable, sample timer and divider of selected Jets channels (R413). -/
  | jetsEnable (t : Nat) (q : QId)
  /-- PWM_CONFIG: Sets a PWM unit's frequency and duty, clamped to the maximum duty (R423). -/
  | pwmConfig (t : Nat) (q : QId)
  /-- PWM_CONFIG_EXPERT: Writes PWM period, source, edges and dead time and pins them (R423). -/
  | pwmConfigExpert (t : Nat) (q : QId)
  /-- TIMER_CONFIG: Writes enable, grid alignment and period of a timer (R418). -/
  | timerConfig (t : Nat) (q : QId)
  /-- HK_CALIBRATE: Runs a Gauge or Jets calibration at the current temperature (R426). -/
  | hkCalibrate (t : Nat) (q : QId)
  /-- HK_CALIBRATION_END: A housekeeping calibration ends, its difference bounds-checked and added to unpinned sets (R426). -/
  | hkCalibrationEnd (t : Nat) (b : Block) (m : List (Int × Int))
  /-- HK_CALIBRATE_EXPERT: Writes one calibration set of a converter or channel and pins it (R428). -/
  | hkCalibrateExpert (t : Nat) (q : QId)
  /-- BIST_RUN: Starts an on-demand self-test, taking over an engine's lane where needed (R451). -/
  | bistRun (t : Nat) (q : QId)
  /-- BIST_RESULT: Returns the last result record of a test, or the integrity record for TEST_ID 0 (R450). -/
  | bistResult (t : Nat) (q : QId)
  /-- BIST_SCHEDULE: Enables or pauses periodic self-test and rotation (R451). -/
  | bistSchedule (t : Nat) (q : QId)
  /-- BIST_ABORT: Stops a running test at the end of its slice and replies with the partial record (R451). -/
  | bistAbort (t : Nat) (q : QId)
  /-- POWER_ENTER: Prepares and requests entry to STANDBY, SLEEP or DEEP with given wake sources (R471). -/
  | powerEnter (t : Nat) (q : QId)
  /-- POWER_RECOVER: Clears wake failures, returns STANDBY to RUN and lifts the recovery restriction (R478). -/
  | powerRecover (t : Nat) (q : QId)
  /-- LANE_POWER: Changes selected line and host lanes to L0, L1 or L2 (R250). -/
  | lanePower (t : Nat) (q : QId)
  /-- WAKE_CONFIG: Writes WAKE_N type and always-on timer length (R474). -/
  | wakeConfig (t : Nat) (q : QId)
  /-- SHED_CONFIG: Takes the nominal VIN from which firmware sets shedding thresholds (R468). -/
  | shedConfig (t : Nat) (q : QId)
  /-- SHED_CONFIG_EXPERT: Writes shedding thresholds and hysteresis and pins them (R468). -/
  | shedConfigExpert (t : Nat) (q : QId)
  /-- POWER_STATUS: Returns power state, shed stage, VIN and rail readings (R480). -/
  | powerStatus (t : Nat) (q : QId)
  /-- UPDATE_BEGIN: Marks a slot invalid, erases it and opens it for reception (R492). -/
  | updateBegin (t : Nat) (q : QId)
  /-- UPDATE_CHUNK: Writes bytes of an image into the open slot (R493). -/
  | updateChunk (t : Nat) (q : QId)
  /-- UPDATE_END: Closes the reception and verifies the slot (R494). -/
  | updateEnd (t : Nat) (q : QId) (key : Option (Fin 4)) (sigOk : Bool) (digestOk : Bool)
  /-- UPDATE_ACTIVATE: Re-verifies a slot and makes it active, optionally restarting now (R495). -/
  | updateActivate (t : Nat) (q : QId)
  /-- ATTEST: Returns a signed attestation report over the nonce (R502). -/
  | attest (t : Nat) (q : QId) (sig : List Byte)
  /-- CERT_READ: Returns bytes of the certificate chain (R501). -/
  | certRead (t : Nat) (q : QId)
  /-- LOG_READ: Returns entries of the RAM or flash event log from a sequence number (R505). -/
  | logRead (t : Nat) (q : QId)
  /-- DEBUG_UNLOCK: Unlocks the debug port with a signed token for one boot (R507). -/
  | debugUnlock (t : Nat) (q : QId) (keyOk : Bool) (sigOk : Bool)
  /-- KEY_REVOKE: Sets the revocation bit of a key-hash slot under a signed authorisation (R498). -/
  | keyRevoke (t : Nat) (q : QId) (keyOk : Bool) (sigOk : Bool)
  /-- CMIS_PROFILE: Selects the CMIS mapping profile (R509). -/
  | cmisProfile (t : Nat) (q : QId)
  /-- DEBUG_PORT_ACCESS: A debug port access acts within the unlocked scope, or is ignored while locked (R507). -/
  | debugPortAccess (t : Nat) (op : DebugOp)
  /-- COMMAND_TIMEOUT: A command still unfinished at its time limit replies TIMEOUT with shadow sets unchanged (R87). -/
  | commandTimeout (t : Nat) (q : QId)
  /-- SNAPSHOT_VALIDATE: A block receives and validates its snapshot, a failure making the APPLY or COMMIT fail at once (R37). -/
  | snapshotValidate (t : Nat) (id : Nat) (bs : List Block)
  /-- APPLY_TC_REACHED: Tc of an APPLY is reached with snapshots not yet validated and it replies PRECONDITION (R37). -/
  | applyTcReached (t : Nat) (id : Nat)
  /-- COMMIT_VALIDATION_TIMEOUT: A COMMIT whose snapshots are not validated within 1 ms replies TIMEOUT (R37). -/
  | commitValidationTimeout (t : Nat) (id : Nat)
  /-- BLOCK_COMMIT: At its first boundary at or after Tc a block copies active to previous and snapshot to active (R33). -/
  | blockCommit (t : Nat) (b : Block) (good : Bool)
  /-- BLOCK_REVERT: After a failed commit, a committed block exchanges its active and previous sets at its next boundary (R38). -/
  | blockRevert (t : Nat) (b : Block)
  /-- ISLAND_CLOCK_SWITCH: Firmware switches an island from FIRC to its island clock (R21). -/
  | islandClockSwitch (t : Nat) (n : Fin 64)
  /-- TIME_BUS_EPOCH_MESSAGE: A replica checks an epoch message every 1,024 ticks, setting or clearing TIME_BUS_ERROR (R26); `m` is its tick count and the skew of its edge. -/
  | timeBusEpochMessage (t : Nat) (n : Fin 64) (m : Nat × Int)
  /-- GAIN_LOOP_STEP: At a marker boundary the gain loop steps the gain code by one toward the RMS target (R111). -/
  | gainLoopStep (t : Nat) (n : Fin 8) (rms : Nat)
  /-- ADC_ROTATION_MOVE: Every 8 ms the parked sub-converter index moves by one at a marker boundary (R114). -/
  | adcRotationMove (t : Nat) (n : Fin 8) (result : Int × Int × Int)
  /-- LMS_UPDATE: Once per island cycle each unpinned FFE tap and detector target adapts by block LMS (R122). -/
  | lmsUpdate (t : Nat) (n : Fin 8) (sums : List Int) (h1Sum : Int) (h2Sum : Int)
  /-- CDR_LOCK_DECLARE: Timing recovery declares CDR lock after 4,096 consecutive qualifying cycles (R118); `r` is the lane and its cycles. -/
  | cdrLockDeclare (t : Nat) (r : LaneRef × List (Int × Nat))
  /-- CDR_LOCK_LOSS: Timing recovery declares loss of CDR lock after 4,096 consecutive bad cycles (R118); `r` is the lane and its cycles. -/
  | cdrLockLoss (t : Nat) (r : LaneRef × List (Int × Nat))
  /-- SIGNAL_QUALIFIED: Signal detect held for 100 us with adequate optical power moves the lane from DARK to SIGNAL (R137); `r` is the lane and whether HOSTREF is present. -/
  | signalQualified (t : Nat) (r : LaneRef × Bool)
  /-- LOSS_OF_SIGNAL: Signal detect low for 1 us or low optical power moves the lane to DARK (R137). -/
  | lossOfSignal (t : Nat) (r : LaneRef) (optical : Bool)
  /-- GAIN_SETTLED: Gain within its dead band for 16 superframes moves SIGNAL to CDR_LOCK (R127). -/
  | gainSettled (t : Nat) (r : LaneRef)
  /-- EQUALISER_CONVERGED: CDR lock and equaliser convergence move CDR_LOCK to FRAME_LOCK (R127). -/
  | equaliserConverged (t : Nat) (r : LaneRef)
  /-- MARKER_RECEIVE: A received marker block is judged missing, corrupt or good and its payload delivered (R186). -/
  | markerReceive (t : Nat) (r : LaneRef) (block : Nat) (rx : RxFrame)
  /-- MISSING_MARKER_LOCK_LOSS: Eight consecutive missing markers declare lock loss at the expected position of the eighth (R135). -/
  | missingMarkerLockLoss (t : Nat) (r : LaneRef)
  /-- INNER_FAIL_WINDOW_END: At the end of a 64-superframe window the inner failures are judged against FAIL_THRESHOLD (R136). -/
  | innerFailWindowEnd (t : Nat) (r : LaneRef)
  /-- LANE_STATE_TIMEOUT: A line lane state times out, moving as Table 3.8 gives and incrementing RETRIES (R128). -/
  | laneStateTimeout (t : Nat) (r : LaneRef)
  /-- STAGE_SWITCH: Transmitter and receiver change stage at the marker closing superframe S-1 (R130). -/
  | stageSwitch (t : Nat) (r : LaneRef) (tx : Bool)
  /-- STAGE_CLOCK_READY: The clock of the new stage becomes ready and the lane enters CDR_LOCK at the next stage (R127). -/
  | stageClockReady (t : Nat) (r : LaneRef)
  /-- RESTART_END: After 64 superframes of RESTART the transmitter moves to stage A (R139). -/
  | restartEnd (t : Nat) (r : LaneRef)
  /-- TX_STAGE_FALLBACK: The transmitter moves to stage A at the next superframe boundary after its receive half drops (R130). -/
  | txStageFallback (t : Nat) (r : LaneRef)
  /-- TX_MARKER: A transmitted superframe ends with a marker block, time markers stamped on departure (R178); `r` is the lane and what it sent. -/
  | txMarker (t : Nat) (r : LaneRef × TxFrame)
  /-- TIME_MARKER_ARRIVAL: An arriving time marker is stamped and yields round-trip and offset samples (R297). -/
  | timeMarkerArrival (t : Nat) (r : LaneRef)
  /-- HELLO: A received HELLO gives the far-end serial number and decides the proposer (R192). -/
  | hello (t : Nat) (r : LaneRef)
  /-- STEP_PROPOSE: A received STEP_PROPOSE proposes a stage step at superframe S_P (R192). -/
  | stepPropose (t : Nat) (r : LaneRef)
  /-- STEP_CONFIRM: A received STEP_CONFIRM confirms a stage step at S_C (R192). -/
  | stepConfirm (t : Nat) (r : LaneRef)
  /-- TAP_REQUEST: A received tap request is applied through an APPLY in Q3 or declined and answered (R159). -/
  | tapRequest (t : Nat) (r : LaneRef)
  /-- TAP_REPLY: A received TAP_REPLY reports the outcome of a tap request (R191). -/
  | tapReply (t : Nat) (r : LaneRef)
  /-- PD_REPORT: A received predistortion report drives adaptation of the predistortion table by one code per entry (R161). -/
  | pdReport (t : Nat) (n : Fin 8)
  /-- SKEW_REPORT_LO: A received skew report for LN0 to LN3 may trigger re-alignment (R164). -/
  | skewReportLo (t : Nat) (n : Fin 8)
  /-- SKEW_REPORT_HI: A received skew report for LN4 to LN7 may trigger re-alignment (R164). -/
  | skewReportHi (t : Nat) (n : Fin 8)
  /-- TRAFFIC_START: A received TRAFFIC_START gives S_T at which the far end starts traffic (R196). -/
  | trafficStart (t : Nat) (n : Fin 8)
  /-- LANE_REPORT_TIMER: Once per second a lane sends its PD_REPORT series and skew reports (R194). -/
  | laneReportTimer (t : Nat) (n : Fin 8) (farAdaptive : Bool) (errors : List Int) (skews : List Int)
  /-- TX_TUNING_TIMEOUT: After 400 ms transmit tuning ends with the taps in force (R159). -/
  | txTuningTimeout (t : Nat) (n : Fin 8)
  /-- TRAFFIC_BEGIN: From superframe S_T the transmitter payload carries the slice's flow (R196). -/
  | trafficBegin (t : Nat) (n : Fin 8)
  /-- RECEIVER_FORWARD_START: The receiver starts forwarding the flow at S_T or the next multiple of 5 (R197). -/
  | receiverForwardStart (t : Nat) (n : Fin 8)
  /-- RILL_DATA_MARKER: A received Rill data marker delivers bytes of the Rill link byte stream (R195). -/
  | rillDataMarker (t : Nat) (r : LaneRef)
  /-- TX_DISABLE_ASSERT: TX_DISABLE high squelches every line transmitter within 100 ns (R173). -/
  | txDisableAssert (t : Nat)
  /-- TX_DISABLE_RELEASE: TX_DISABLE low for 1 us releases its squelch (R171). -/
  | txDisableRelease (t : Nat)
  /-- RESIDUE_MISMATCH: A mod-3 residue mismatch marks receive data or makes a transmit cycle use bypass levels (R433). -/
  | residueMismatch (t : Nat) (p : ResiduePlace)
  /-- ECC_CORRECTABLE: A SECDED read finds one bit in error, corrects and writes it back (R432). -/
  | eccCorrectable (t : Nat) (array : Nat) (cistern : Bool)
  /-- ECC_UNCORRECTABLE: A SECDED read finds an uncorrectable word, handled by its domain (R439). -/
  | eccUncorrectable (t : Nat) (place : EccPlace)
  /-- SCRUB_PASS: Every 1 s a scrub pass reads every word of the parameter and management arrays (R437). -/
  | scrubPass (t : Nat)
  /-- HOST_SIGNAL_DETECT: Signal detect held 100 us moves a host lane from DARK to TRAIN (R228). -/
  | hostSignalDetect (t : Nat) (n : Fin 16) (hostref : Bool)
  /-- HOST_TRAINING_COMPLETE: Training complete both ways moves a host lane to STEP, ALIGN or TEST (R228). -/
  | hostTrainingComplete (t : Nat) (n : Fin 16)
  /-- HOST_RATE_STEP: The transmitter changes rate at the first 4,096-cycle boundary 100 us after completion (R230). -/
  | hostRateStep (t : Nat) (n : Fin 16)
  /-- HOST_RX_LOCKED: The receiver locks at the next rate and the host lane enters TRAIN at that rate (R228). -/
  | hostRxLocked (t : Nat) (n : Fin 16)
  /-- HOST_ALIGN_COMPLETE: Every PCS lane locked and deskewed moves a host lane to ACTIVE (R228). -/
  | hostAlignComplete (t : Nat) (n : Fin 16) (badMap : Bool) (skew : Nat)
  /-- HOST_LANE_LOSS: Signal, CDR or marker lock loss moves a host lane to RECOVER or DARK (R228). -/
  | hostLaneLoss (t : Nat) (n : Fin 16) (what : HostLoss)
  /-- HOST_RECOVER_RESTORED: CDR and marker lock restored return a host lane from RECOVER to ACTIVE (R228). -/
  | hostRecoverRestored (t : Nat) (n : Fin 16)
  /-- HOST_LANE_TIMEOUT: A host lane state times out and the lane restarts from DARK (R229). -/
  | hostLaneTimeout (t : Nat) (n : Fin 16)
  /-- HOSTREF_LOST: No HOSTREF edge for 2 us moves host receivers to REFCLK and sets HOSTREF_LOST (R223). -/
  | hostrefLost (t : Nat)
  /-- MATCH_OVERRUN: A rate matcher overrun or underrun marks the pair and faults the port direction (R238). -/
  | matchOverrun (t : Nat) (n : Fin 8) (toLine : Bool)
  /-- PORT_FAULT_CLEAR: No cause for CLEAR_HOLD clears a faulted direction and resumes the flow (R256). -/
  | portFaultClear (t : Nat) (port : Fin 8) (toLine : Bool)
  /-- PTP_EVENT_MESSAGE: A recognised PTP event message has its residence time added to correctionField (R319). -/
  | ptpEventMessage (t : Nat) (lane : Fin 8) (hl : Fin 16) (toLine : Bool) (frame : List Byte) (line : Crossing) (host : Crossing) (errored : Bool)
  /-- LANE_POWER_EXIT_COMPLETE: A lane completes its exit from L1 or L2 and enters the state its active sets command (R251). -/
  | lanePowerExitComplete (t : Nat) (r : LaneRef)
  /-- REFERENCE_LOST: A time-base reference is lost and the PLL moves hitlessly or freezes (R264). -/
  | referenceLost (t : Nat) (timeref : Bool)
  /-- REFERENCE_QUALIFIED: A reference is qualified after 1 s and the PLL returns to the selected one (R264). -/
  | referenceQualified (t : Nat) (timeref : Bool)
  /-- SERVO_UPDATE: At a servo update the lanes are combined and the servo steps or computes a new rate word (R270). -/
  | servoUpdate (t : Nat)
  /-- SERVO_EMPTY_UPDATE: No counted marker for 1.25 Tu makes an empty update fall due (R269). -/
  | servoEmptyUpdate (t : Nat)
  /-- PPS_IN_EDGE: A PPS_IN edge is stamped and accepted or rejected (R279). -/
  | ppsInEdge (t : Nat)
  /-- PPS_WINDOW_MISSED: A 0.9 to 1.1 s window passes without an accepted edge, giving an empty update (R279). -/
  | ppsWindowMissed (t : Nat)
  /-- TIME_STEP_APPLY: A new rate word or time step takes effect at the next epoch tick (R266). -/
  | timeStepApply (t : Nat)
  /-- PPS_OUT_EDGE: PPS_OUT drives a leading edge as time crosses a whole second plus OFFSET (R282). -/
  | ppsOutEdge (t : Nat)
  /-- PPS_OUT_TRAILING: PPS_OUT drives its trailing edge after WIDTH (R282). -/
  | ppsOutTrailing (t : Nat)
  /-- ASYM_ESTIMATE_RUN: Every 2^18 time markers an asymmetry estimate run fits delays by wavelength (R311). -/
  | asymEstimateRun (t : Nat)
  /-- RILL_FRAME_RECEIVE: A received Rill frame is judged by CRC, sequence and format and accepted or discarded (R332). -/
  | rillFrameReceive (t : Nat) (p : Fin 16)
  /-- ACK: A received ACK frame acknowledges frames cumulatively or signals BUSY (R333). -/
  | ack (t : Nat) (p : Fin 16)
  /-- RILL_COMMAND: A COMMAND frame's packet is checked and received into Q2 or forwarded (R346). -/
  | rillCommand (t : Nat) (p : Fin 16)
  /-- RILL_REPLY: A REPLY frame is forwarded up or delivered to the manager's command (R346). -/
  | rillReply (t : Nat) (p : Fin 16)
  /-- RILL_EVENT: An EVENT frame is forwarded up or reported by the manager (R347). -/
  | rillEvent (t : Nat) (p : Fin 16)
  /-- PROBE: A PROBE at its destination is answered with the PROBE_ANSWER body (R339). -/
  | probe (t : Nat) (p : Fin 16)
  /-- PROBE_ANSWER: A PROBE_ANSWER records a device during discovery (R340). -/
  | probeAnswer (t : Nat) (p : Fin 16)
  /-- ASSIGN: An ASSIGN gives a worker its ID, upstream port and route (R342). -/
  | assign (t : Nat) (p : Fin 16)
  /-- ASSIGN_ANSWER: An ASSIGN_ANSWER updates the worker table and marks child ports (R342). -/
  | assignAnswer (t : Nat) (p : Fin 16)
  /-- EP_STAGE: An EPOCH STAGE makes a worker take snapshots and answer READY or NOT_READY (R351). -/
  | epStage (t : Nat) (p : Fin 16)
  /-- EP_COMMIT: An EPOCH COMMIT sets Tc = T on a staged worker or is refused as late (R351). -/
  | epCommit (t : Nat) (p : Fin 16)
  /-- EP_ABORT: An EPOCH ABORT releases staging before Tc (R351). -/
  | epAbort (t : Nat) (p : Fin 16)
  /-- EP_REVERT: An EPOCH REVERT schedules an exchange of active and previous sets at T2 or is refused (R351). -/
  | epRevert (t : Nat) (p : Fin 16)
  /-- EP_QUERY: An EPOCH QUERY returns the worker's current outcome (R351). -/
  | epQuery (t : Nat) (p : Fin 16)
  /-- EPOCH_ANSWER: An EPOCH_ANSWER updates the manager's epoch record (R352). -/
  | epochAnswer (t : Nat) (p : Fin 16)
  /-- EPOCH_TC_REACHED: A worker's epoch Tc or T2 is reached and its blocks commit or revert (R351). -/
  | epochTcReached (t : Nat) (id : Nat)
  /-- EPOCH_STAGING_EXPIRY: No COMMIT within 10 s of READY releases staging and reports EXPIRED (R351). -/
  | epochStagingExpiry (t : Nat) (id : Nat)
  /-- FW_SELECT: A worker opens reception into its idle slot (R349). -/
  | fwSelect (t : Nat) (p : Fin 16)
  /-- FW_BLOCK: A worker stores a firmware block and forwards it (R349). -/
  | fwBlock (t : Nat) (p : Fin 16)
  /-- FW_QUERY: A worker reports its missing blocks (R349). -/
  | fwQuery (t : Nat) (p : Fin 16)
  /-- FW_END: A worker verifies the received image and answers its status (R349). -/
  | fwEnd (t : Nat) (p : Fin 16) (key : Option (Fin 4)) (sigOk : Bool) (digestOk : Bool)
  /-- FW_ANSWER: An FW_ANSWER updates the manager's broadcast progress and LAST_FW (R349). -/
  | fwAnswer (t : Nat) (p : Fin 16)
  /-- UNDELIVERED: An UNDELIVERED frame reports a down frame not delivered, ending its command (R332). -/
  | undelivered (t : Nat) (p : Fin 16)
  /-- RILL_ACK_TIMEOUT: The oldest unacknowledged frame times out and is resent, or delivery ends after MAX_RETRIES (R334). -/
  | rillAckTimeout (t : Nat) (p : Fin 16)
  /-- RILL_BUSY_RESEND: 20 us after a BUSY acknowledgement the frame is sent again (R334). -/
  | rillBusyResend (t : Nat) (p : Fin 16)
  /-- RILL_BUSY_LIMIT: BUSY lasting 10 ms ends delivery with reason BUSY_LIMIT (R334). -/
  | rillBusyLimit (t : Nat) (p : Fin 16)
  /-- RILL_LINK_DOWN_TIMEOUT: A link down for Rill for 10 ms settles every frame of its window and queue (R335). -/
  | rillLinkDownTimeout (t : Nat) (p : Fin 16)
  /-- TRIGGER_FIRING: A trigger unit's condition is met on its samples and it fires with a stamp (R370). -/
  | triggerFiring (t : Nat) (n : Fin 4) (samples : List SrcSample)
  /-- TRIGGER_TIMEOUT_FIRE: No falling crossing by t_r + T1 fires a TIMEOUT trigger unit (R370). -/
  | triggerTimeoutFire (t : Nat) (n : Fin 4)
  /-- TRIGGER_DECISION: Once time passes a firing's stamp by D, Weir decides on a record trigger (R372). -/
  | triggerDecision (t : Nat)
  /-- RECORD_COMPLETE: A record completes when every record channel has written its POST samples (R376). -/
  | recordComplete (t : Nat) (data : List Captured)
  /-- REARM: Re-arm completes once the next slot is free, ending the dead time (R377). -/
  | rearm (t : Nat)
  /-- SPILLWAY_START_COMPLETE: After 100 us of IDLE the record port enters STREAM or DRAIN and replies (R392). -/
  | spillwayStartComplete (t : Nat)
  /-- SPILLWAY_UNIT_SEND: A filled unit leaves on the record port at the next ring address (R393). -/
  | spillwayUnitSend (t : Nat) (u : Option Captured)
  /-- SPW_FAULT_STOP: SPW_FAULT high for 1 us stops the record port (R394). -/
  | spwFaultStop (t : Nat) (high : Bool) (since : Nat)
  /-- TIMER_TICK: A timer ticks at the end of each period (R418). -/
  | timerTick (t : Nat) (n : Fin 4)
  /-- GAUGE_TRIGGER_EVENT: A timer tick or PWM event triggers a converter pass or counts an overrun (R404). -/
  | gaugeTriggerEvent (t : Nat) (g : Fin 4)
  /-- GAUGE_PASS_START: A pass starts sampling at the event instant plus DELAY (R404). -/
  | gaugePassStart (t : Nat) (g : Fin 4)
  /-- GAUGE_RESULT: At an entry boundary a conversion result goes to the FIFO, crossbar, interlock, monitors and firmware (R407); `raw` is the result and those of other converters in the same cycle. -/
  | gaugeResult (t : Nat) (g : Fin 4) (raw : Int × List (Fin 4 × Int))
  /-- JETS_TICK: At every DIV-th timer tick a Jets channel takes a due commit and outputs its head code (R414). -/
  | jetsTick (t : Nat) (j : Fin 24)
  /-- JETS_DEGLITCH_END: 300 ns after the tick the deglitcher releases the output to the new value (R415). -/
  | jetsDeglitchEnd (t : Nat) (j : Fin 24)
  /-- JETS_PARK_TIMER: 20 us after a range or reference commit the range-change park cause clears (R416). -/
  | jetsParkTimer (t : Nat) (j : Fin 24)
  /-- PWM_PERIOD_END: A PWM period ends, producing an EDGE event and taking due commits (R424). -/
  | pwmPeriodEnd (t : Nat) (n : Fin 8)
  /-- PWM_CENTRE_EVENT: A PWM unit's counter reaches its centre count and produces a CENTRE event (R424). -/
  | pwmCentreEvent (t : Nat) (n : Fin 8)
  /-- THERMAL_MONITOR_READ: Every 1 ms the thermal monitor reads the die sensors, updating corrections and checking the trip (R409). -/
  | thermalMonitorRead (t : Nat) (readings : List Int)
  /-- ROTATION_STEP: Every 250 ms the spare engine loads and shadows the next LOCKED lane (R452). -/
  | rotationStep (t : Nat)
  /-- ENGINE_SWAP: At the first received marker at or after 12 us the spare serves the lane and the old engine becomes spare (R452). -/
  | engineSwap (t : Nat) (matches' : Bool)
  /-- BIST_SLICE_END: A self-test slice ends and the next runs or the test completes (R449). -/
  | bistSliceEnd (t : Nat) (id : Nat) (failure : Option Nat)
  /-- CISTERN_TEST_SCHEDULE: Every 10 s an eligible Cistern region test starts (R449). -/
  | cisternTestSchedule (t : Nat) (bulk : Bool)
  /-- WATCHDOG_EXPIRY: The firmware misses the watchdog for 100 ms and the management processor is reset (R432). -/
  | watchdogExpiry (t : Nat)
  /-- CLOCK_LOSS: REFCLK or an island clock is lost and the island moves to FIRC (R432). -/
  | clockLoss (t : Nat) (n : Fin 64)
  /-- SUPPLY_FAULT: A rail outside its window for 10 us is a supply fault (R458). -/
  | supplyFault (t : Nat) (rails : Nat)
  /-- FAULT_RECOVERY_COMPLETE: Recovery ends, the FAULT event enters the stream and commands are accepted again (R445). -/
  | faultRecoveryComplete (t : Nat)
  /-- SUPPLY_COMPARATOR_UPDATE: Every 1 us VIN is read and shedding stages are shed or restored (R465). -/
  | supplyComparatorUpdate (t : Nat) (vin : Nat)
  /-- SHED_STEP: Every 100 us in stage 6 the next lanes are held off while VIN stays low (R466). -/
  | shedStep (t : Nat)
  /-- UVLO_FALL: VIN below 2.7 V removes every rail (R459). -/
  | uvloFall (t : Nat)
  /-- POWER_ON: VIN above 2.9 V starts the always-on domain and the rail soft-start (R462). -/
  | powerOn (t : Nat)
  /-- RAIL_IN_WINDOW: A rail reaches its window and the next rail's soft-start begins (R462). -/
  | railInWindow (t : Nat) (r : Fin 8) (bypass : Bool)
  /-- RAIL_START_TIMEOUT: A rail not in window within 2 ms of its start causes a supply shutdown (R462). -/
  | railStartTimeout (t : Nat)
  /-- SUPPLY_SHUTDOWN: A rail below 80 % or above 110 % for 10 us switches off the rails and asserts FAULT_N (R460). -/
  | supplyShutdown (t : Nat) (rails : Nat)
  /-- SHUTDOWN_RESTART: 10 ms after a shutdown Sluice restarts as at power-on, unless the third in 1 s (R460). -/
  | shutdownRestart (t : Nat)
  /-- RESET_N_ASSERT: RESET_N low for at least 1 us is a full reset (R462). -/
  | resetNAssert (t : Nat)
  /-- RESET_RELEASE: Reset is released once rails have been in window 1 ms and RESET_N is high (R462). -/
  | resetRelease (t : Nat) (saddr : Bool)
  /-- BOOT_ROM_RUN: The boot ROM updates the boot record, verifies slots and starts firmware or enters recovery (R488). -/
  | bootRomRun (t : Nat)
  /-- BOOT_DONE: Firmware confirms its image, runs its configuration and reports BOOT_DONE (R489). -/
  | bootDone (t : Nat)
  /-- LOG_FLASH_COPY: A log entry of severity 1 or 2 is copied to flash within 2 ms (R504). -/
  | logFlashCopy (t : Nat)
  /-- SLEEP_REQUEST: The sleep request falls once preparation ends and the reply has been read or 1 ms has passed (R472). -/
  | sleepRequest (t : Nat)
  /-- POWER_STATE_ENTRY: At cycle 4 of the entry window the state is entered and the wake logic armed (R472). -/
  | powerStateEntry (t : Nat)
  /-- WAKE_SOURCE: An enabled wake source fires, cancelling an entry or starting a wake (R473). -/
  | wakeSource (t : Nat) (src : Fin 4) (active : Bool)
  /-- ALWAYS_ON_TIMER: The always-on timer expires and becomes an active wake level (R474). -/
  | alwaysOnTimer (t : Nat)
  /-- WAKE_STAGE_COMPLETE: A wake stage completes and the next begins (R475). -/
  | wakeStageComplete (t : Nat)
  /-- WAKE_STAGE_TIMEOUT: A wake stage times out after 2 ms and the device records a wake failure (R476). -/
  | wakeStageTimeout (t : Nat) (rails : Nat)
  /-- WAKE_RETRY: 10 ms after a wake failure the device tries again or enters the stuck state (R476). -/
  | wakeRetry (t : Nat)
  /-- COMMAND_READY: After a wake the device becomes command-ready in RUN and lanes leave L2 (R475). -/
  | commandReady (t : Nat)
  /-- RECOVERY_WINDOW_EXPIRY: No POWER_RECOVER within 1 s of BOOT_DONE returns the device to the stuck state (R477). -/
  | recoveryWindowExpiry (t : Nat)
  /-- HOST_TRAINING_REQUEST: A coefficient request from the host's receiver arrives during AUI link training and adjusts the device's transmit taps, or is answered as not updated (R225). -/
  | hostTrainingRequest (t : Nat) (n : Fin 16) (tap : Fin 5) (delta : Int)
  /-- LANE_POWER_ENTRY_COMPLETE: A lane completes its entry into L1 (1 us) or L2 (10 us), and LANE_POWER replies once every selected lane has done so (R249). -/
  | lanePowerEntryComplete (t : Nat) (r : LaneRef)
  /-- CLOCK_RESTORED: An absent island clock has been present for 1 us, the island returns to it, and the class 0x07 hold on FAULT_N ends (R432). -/
  | clockRestored (t : Nat) (n : Fin 64)
  /-- EPOCH_COMMAND_DEADLINE: A manager epoch command reaches its reply deadline (1 s for EPOCH_STAGE, T minus 100 us, 20 ms, or T2 minus 100 us) and replies with the answers it has (R352). -/
  | epochCommandDeadline (t : Nat) (id : Nat)
  /-- FW_SELECT_TIMEOUT: A worker that has not answered SELECT with OK within 100 ms is left out of the broadcast and keeps its LAST_FW (R349). -/
  | fwSelectTimeout (t : Nat)
  /-- LPMODE_CHANGE: The LPMODE input changes level, the firmware reports it, and under CMIS policy it may hold lanes disabled or in L2 (R509). -/
  | lpmodeChange (t : Nat) (level : Bool)
  deriving DecidableEq, Repr

end Sys2Proof
end

