-- ==== Sys2Proof/Decode.lean ====
section
/-! DEFINITION. Words of the opcode table.  The table gives no row a bit pattern: a command reaches the device as a packet on
a bus, or is an event on a pin or inside, so no word spells one. -/
namespace Sys2Proof

/-- The command that a word spells by the table's bits: none, since no row has bits. -/
def decodeTableWord (_nbits _w : Nat) : Option Instr := none

end Sys2Proof
end

