-- ==== Sys2Proof/Config.lean ====
section
/-! DEFINITION. What one implementation fixes and what the manual leaves open: constants with no body, so that no proof
can see a value of them.  Each is applied to the free-value counter of the state (State.free), which every use advances,
or to the operands it depends on. -/
namespace Sys2Proof.Config

/-- Dolhar's MIPI manufacturer ID, PID [47:33] (Table 2.2 names it and gives no number). -/
opaque mfrId : Nat

/-- A measured quantity that the manual lets a command report and gives no source for: which one, and the index. -/
opaque reading : Nat → Nat → Nat

/-- A value that firmware policy chooses and the manual does not give: which one, and the index. -/
opaque policy : Nat → Nat → Nat

/-- Good alignment markers after which the rules of IEEE 802.3dj, which the manual names and does not quote, call an
S200 lane locked. -/
opaque s200LockMarkers : Nat

/-- Missing alignment markers after which those rules call it lost. -/
opaque s200LossMarkers : Nat

/-- The S200 symbol rate of IEEE 802.3dj in symbols per second, which the manual names and does not quote. -/
opaque s200SymbolRate : Nat

/-- Bits of one inner codeword of an S200 lane, by IEEE 802.3dj. -/
opaque s200InnerLength : Nat

/-- Payload bits of one inner codeword of an S200 lane, by IEEE 802.3dj. -/
opaque s200PayloadLength : Nat

/-- The S200 inner codeword of a payload, by IEEE 802.3dj. -/
opaque s200Encode : Nat → Nat

/-- What the hard-decision decoder of the S200 inner code delivers of a word; none for an inner failure. -/
opaque s200Hard : Nat → Option Nat

/-- The payload of an S200 inner codeword. -/
opaque s200Payload : Nat → Nat

/-- Inner codewords between two alignment markers of an S200 lane, by IEEE 802.3dj. -/
opaque s200Words : Nat

/-- The alignment marker of an S200 line lane, and its length in bits, by IEEE 802.3dj. -/
opaque s200Marker : Nat → Nat

/-- Bits of an alignment marker of an S200 lane. -/
opaque s200MarkerLength : Nat

/-- The 257-bit blocks of the group of PCS alignment markers of a port, by its slices, and by IEEE 802.3. -/
opaque pcsMarkers : Nat → List Nat

/-- Codeword pairs of a flow from one group of PCS alignment markers to the next, by the port's slices. -/
opaque pcsMarkerPairs : Nat → Nat

/-- The fill of a rate matcher, in 66-bit blocks, above which it deletes idle blocks: the manual does not give its depth (R238). -/
opaque matchDepth : Nat

/-- The coefficients of a half-band stage on one side of its centre, outermost first, in 2⁻³²: the manual gives the response that they meet
and not the coefficients (R360). -/
opaque halfBandTap : Nat → Int

/-- The voltage at the JREF ball above 1.000 V, in µV: what stands there is the board's, and it must lie from 1.000 to 1.300 V (R410). -/
opaque jref : Nat

/-- Length of the certificate chain, from 1 to 16,384 bytes once taken modulo 16,384 plus 1, and its bytes: two certificates put into
flash at manufacture (R501). -/
opaque certLength : Nat

/-- A byte of the certificate chain. -/
opaque certByte : Nat → BitVec 8

end Sys2Proof.Config
end

