-- ==== Sys2Proof/Machine/Operands.lean ====
section
/-! DEFINITION. Bit fields, little-endian words, signed numbers, rounding and the two CRCs: how every payload is read
and written. -/
namespace Sys2Proof.Machine

/-- Bits `[lo + n - 1 : lo]` of a word (R11). -/
def bits (w lo n : Nat) : Nat := w / 2 ^ lo % 2 ^ n

/-- Bit `[i]` of a word (R11). -/
def bit (w i : Nat) : Bool := Nat.testBit w i

/-- A flag as a one-bit number. -/
def flag (b : Bool) : Nat := if b then 1 else 0

/-- Fields laid side by side from bit 0 up: each is a value and its width (R11). -/
def pack : List (Nat × Nat) → Nat
  | [] => 0
  | (v, w) :: fs => v % 2 ^ w + 2 ^ w * pack fs

/-- A number as `n` bytes, least significant first (R12). -/
def leBytes : Nat → Nat → List Byte
  | 0, _ => []
  | n + 1, v => BitVec.ofNat 8 v :: leBytes n (v / 256)

/-- The number that bytes spell, least significant first (R12). -/
def ofLe : List Byte → Nat
  | [] => 0
  | b :: bs => b.toNat + 256 * ofLe bs

/-- 32-bit words as bytes (R12, R68). -/
def wordsLe (ws : List Nat) : List Byte := ws.flatMap (leBytes 4)

/-- Word `i` of a payload, bytes beyond its end reading 0 (R68). -/
def wordAt (p : List Byte) (i : Nat) : Nat := ofLe ((p.drop (4 * i)).take 4)

/-- The number held by `n` bytes from byte `off` of a payload. -/
def fieldAt (p : List Byte) (off n : Nat) : Nat := ofLe ((p.drop off).take n)

/-- Zero bytes up to the next multiple of 4 (R68, R72). -/
def padding (n : Nat) : List Byte := List.replicate ((4 - n % 4) % 4) 0

/-- The two's complement reading of an `n`-bit field. -/
def toSigned (n v : Nat) : Int := if v % 2 ^ n < 2 ^ (n - 1) then (v % 2 ^ n : Nat) else (v % 2 ^ n : Nat) - (2 ^ n : Nat)

/-- The two's complement `n`-bit field of an integer. -/
def ofSigned (n : Nat) (i : Int) : Nat := (i % (2 ^ n : Nat)).toNat

/-- round(a / b) for b > 0: the nearest integer, halves away from zero (R530). -/
def roundDiv (a : Int) (b : Nat) : Int :=
  if 0 ≤ a then (2 * a + b) / (2 * b : Nat) else -((2 * (-a) + b) / (2 * b : Nat))

/-- A rational rounded to the nearest integer, halves away from zero (R530). -/
def roundRat (x : Rat) : Int := roundDiv x.num x.den

/-- round(a / b) over the naturals (R530). -/
def roundDivN (a b : Nat) : Nat := (2 * a + b) / (2 * b)

/-- ⌈a / b⌉ over the naturals (R530). -/
def ceilDiv (a b : Nat) : Nat := (a + b - 1) / b

/-- The last `n` of a list. -/
def lastOf {α : Type} (n : Nat) (l : List α) : List α := l.drop (l.length - n)

/-- A value held between two bounds. -/
def clampTo (lo hi v : Nat) : Nat := if v < lo then lo else if hi < v then hi else v

/-- An integer held between two bounds. -/
def clampInt (lo hi v : Int) : Int := if v < lo then lo else if hi < v then hi else v

/-- A counter of `n` bits that saturates. -/
def satAdd (n a b : Nat) : Nat := min (a + b) (2 ^ n - 1)

/-- One bit of the reflected CRC register. -/
def crcBit (poly r : Nat) : Nat := if r % 2 = 1 then (r / 2) ^^^ poly else r / 2

/-- `k` bits of the reflected CRC register. -/
def crcBits (poly : Nat) : Nat → Nat → Nat
  | 0, r => r
  | k + 1, r => crcBits poly k (crcBit poly r)

/-- The reflected CRC register after a run of bytes. -/
def crcFold (poly : Nat) : Nat → List Byte → Nat
  | r, [] => r
  | r, b :: bs => crcFold poly (crcBits poly 8 (r ^^^ b.toNat)) bs

/-- CRC-32C: reflected polynomial 0x82F6_3B78, start and final XOR all ones (R69). -/
def crc32c (bs : List Byte) : Nat := crcFold 0x82F63B78 0xFFFFFFFF bs ^^^ 0xFFFFFFFF

/-- Whether reserved bits `[31:lo]` of a word are 0 (R13). -/
def rsvHigh (w lo : Nat) : Bool := w / 2 ^ lo % 2 ^ (32 - lo) == 0

/-- Whether `n` reserved bits from `lo` are 0 (R13). -/
def rsv (w lo n : Nat) : Bool := bits w lo n == 0

/-- The indices below `n` whose bit of a mask is set, ascending. -/
def maskIdx (n mask : Nat) : List (Fin n) := (List.finRange n).filter fun i => Nat.testBit mask i.val

/-- The mask of a list of indices. -/
def idxMask {n : Nat} (is : List (Fin n)) : Nat := is.foldl (fun m i => m ||| 2 ^ i.val) 0

/-- A vector with one element changed. -/
def upd {α : Type} {n : Nat} (v : Vector α n) (i : Fin n) (f : α → α) : Vector α n := v.set i (f v[i])

/-- A vector with the elements of a list of indices changed. -/
def updAll {α : Type} {n : Nat} (v : Vector α n) (is : List (Fin n)) (f : Fin n → α → α) : Vector α n :=
  is.foldl (fun v i => upd v i (f i)) v

/-- A vector built from another element by element. -/
def vmap {α β : Type} {n : Nat} (v : Vector α n) (f : Fin n → α → β) : Vector β n := Vector.ofFn fun i => f i v[i]

/-- The index of `k` below `n`, when there is one. -/
def idx? (n k : Nat) : Option (Fin n) := if h : k < n then some ⟨k, h⟩ else none

/-- A Fountainhead time as the three words of its 96-bit format: seconds in 48 bits, nanoseconds in 30 bits, two
reserved bits, and the fraction in 16 bits (R260). -/
def timeWords (f : FTime) : List Byte :=
  leBytes 2 (f % 65536) ++ leBytes 4 (f / 65536 % 1000000000) ++ leBytes 6 (f / 65536000000000)

end Sys2Proof.Machine
end

