-- ==== Sys2Proof/Machine/State.lean ====
section
/-! DEFINITION. The state of the whole device as plain data, its reset value, and the reasons a step can stop. -/
namespace Sys2Proof
namespace Machine

/-- A command packet as received into a queue (Table 2.5). -/
structure Cmd where
  /-- OPCODE, W1 [15:0]. -/
  op : Nat
  /-- EXPERT, W0 [15]. -/
  expert : Bool
  /-- BARRIER, W0 [14] (R80). -/
  barrier : Bool
  /-- NO_REPLY, W0 [13] (R81). -/
  noReply : Bool
  /-- TAG, W1 [31:16]. -/
  tag : Nat
  /-- The payload, LENGTH bytes. -/
  payload : List Byte
  deriving DecidableEq, Repr

/-- How far a command has come (R75): received, accepted and running, or replied with its reply still to be read. -/
inductive Phase where
  | received | running | replied
  deriving DecidableEq, Repr

/-- A command holding a slot of a queue (R75, R78). -/
structure QEntry where
  cmd : Cmd
  /-- Order of reception over all four queues (R76, R80). -/
  seq : Nat
  /-- MODEL'S OWN: a command of a configuration body (R484), or the packet of an epoch staging (R351): its reply goes to
  the firmware. -/
  local' : Bool := false
  phase : Phase
  /-- Elapsed time of acceptance (R75, R87). -/
  acceptedAt : Instant
  /-- Fountainhead time of acceptance (R36, R75). -/
  stamp : FTime
  /-- For Q2: XTAG, HOPS and return ROUTE of the Rill COMMAND frame that carried it (R346). -/
  origin : Nat × Nat × Nat := (0, 0, 0)
  deriving DecidableEq, Repr

/-- KIND of an outbound packet (Table 2.6). -/
inductive PacketKind where
  | reply | event | rejection
  deriving DecidableEq, Repr

/-- A packet of the outbound stream (R61, R72). -/
structure Packet where
  kind : PacketKind
  /-- FAULT_EPOCH when the packet entered the stream. -/
  epoch : Nat
  status : Nat
  tag : Nat
  /-- OPCODE, or the event code. -/
  code : Nat
  /-- QUEUE, 0xF for events. -/
  queue : Nat
  payload : List Byte
  /-- The queue entry whose reply this is: its slot is held until the packet has been read (R78). -/
  entry : Option Nat
  /-- Whether the packet asserts INT_N while it waits: its class was enabled when it entered (R67, R99). -/
  int : Bool
  deriving DecidableEq, Repr

/-- What the device last did on the bus, as the controller saw it. -/
inductive BusResult where
  | idle | ack | nack | data (bytes : List Byte) | ibi (bytes : List Byte) (acked : Bool)
  deriving DecidableEq, Repr

/-- The I3C target, the notification logic and the outbound stream. -/
structure Bus where
  /-- Dynamic address, none in legacy mode (R55). -/
  dynAddr : Option Nat := none
  /-- HDR-DDR entered (R57). -/
  hdr : Bool := false
  /-- Maximum write length (Table 2.1). -/
  mwl : Nat := 1036
  /-- Maximum read length (Table 2.1). -/
  mrl : Nat := 1040
  /-- IBI payload size (Table 2.1, R65). -/
  ibiSize : Nat := 5
  /-- ENINT (Table 2.1, R64). -/
  enint : Bool := true
  /-- PROTOCOL_ERROR (Table 2.2). -/
  protocolError : Bool := false
  /-- The outbound stream (R61). -/
  stream : List Packet := []
  /-- Bytes of the head packet already read (R61). -/
  readPos : Nat := 0
  /-- An IBI with a mandatory byte 0xA1 to 0xA3 is requested (R64). -/
  ibiReq : Bool := false
  /-- An IBI 0x01 is requested (R64). -/
  ibiBoot : Bool := false
  /-- An IBI 0x02 is requested (R64). -/
  ibiFault : Bool := false
  /-- An IBI has been acknowledged since the host's last private read (R64). -/
  ibiAcked : Bool := false
  /-- PKT_DROPS (R70). -/
  pktDrops : Nat := 0
  /-- REJECT_DROPS (R62). -/
  rejectDrops : Nat := 0
  /-- EVENT_DROPS (R62). -/
  eventDrops : Nat := 0
  /-- REJECT_LOSS (Table 2.4). -/
  rejectLoss : Bool := false
  /-- EVENT_LOSS (Table 2.4). -/
  eventLoss : Bool := false
  /-- EVENT_EN of SET_NOTIFY (Table 2.14). -/
  eventEn : Nat := 0x3FFF
  /-- INT_REPLIES, INT_REJECTIONS and INT_EVENTS, bits 0 to 2 (Table 2.14). -/
  intEn : Nat := 7
  /-- What the last bus row showed the controller. -/
  last : BusResult := .idle
  deriving DecidableEq, Repr

/-- The queues (R74) and sessions (R49). -/
structure Queues where
  q0 : List QEntry := []
  q1 : List QEntry := []
  q2 : List QEntry := []
  q3 : List QEntry := []
  /-- The next order of reception. -/
  nextSeq : Nat := 0
  /-- The last command-interface island cycle in which a command was accepted or completed later, and the place of the latest such queue in the order Q1, Q0, Q2,
  Q3 (R76). -/
  last : Option (Nat × Nat) := none
  /-- Expert session open in Q0. -/
  expert0 : Bool := false
  /-- Expert session open in Q2. -/
  expert2 : Bool := false
  deriving DecidableEq, Repr

/-- What a pending commit came from. -/
inductive CommitKind where
  /-- APPLY (R36). -/
  | apply
  /-- COMMIT (R40). -/
  | commit
  /-- A worker's epoch commit (R351). -/
  | epoch
  /-- A worker's epoch revert: its blocks exchange their active and previous sets (R351). -/
  | revert
  deriving DecidableEq, Repr

/-- One block of a pending commit. -/
structure CommitBlock where
  block : Block
  /-- Its snapshot has arrived and been validated (R37). -/
  validated : Bool
  /-- It has committed, with the commit stamp (R33, R36). -/
  done : Option FTime
  /-- It has committed and must revert at its next boundary (R38). -/
  revert : Bool
  deriving DecidableEq, Repr

/-- A timestamp with its validity flag (R24, R26). -/
structure Stamp where
  time : FTime
  valid : Bool
  deriving DecidableEq, Repr

/-- What the device keeps of a block beside its three sets. -/
structure BlockMeta where
  /-- Time of the commit that made the active set active (Table 2.16). -/
  activeStamp : Stamp := ⟨0, false⟩
  /-- Time of the commit that replaced the previous set (Table 2.16). -/
  previousStamp : Stamp := ⟨0, false⟩
  /-- The previous set is valid (R439). -/
  previousValid : Bool := true
  /-- The active set is valid: its parameter store holds no uncorrectable word (R439). -/
  storeGood : Bool := true
  /-- PINNED_SKIPS (R50). -/
  pinnedSkips : Nat := 0
  deriving DecidableEq, Repr

/-- A function that can own a resource (Table 2.18). -/
inductive Function where
  | none | trigger | auxPps | pwm | gpio | gaugeSeq | jetsClock | pwmBase | capture | loopTest | stampCal
  deriving DecidableEq, Repr

/-- The ownership of one resource (R52, R108). -/
structure Owner where
  fn : Function := .none
  /-- DETAIL of OWNER_READ. -/
  detail : Nat := 0xFFFF
  /-- Fountainhead time of the claim. -/
  claim : Stamp := ⟨0, false⟩
  deriving DecidableEq, Repr

/-- The laser-bias interlock bounds of a lane (Table 2.17). -/
structure InterlockLimit where
  enable : Bool := false
  biasCh : Nat := 0xFF
  powerCh : Nat := 0xFF
  biasLo : Nat := 0
  biasHi : Nat := 4095
  powerLo : Nat := 0
  powerHi : Nat := 4095
  jetsMask : Nat := 0
  deriving DecidableEq, Repr

/-- The lockable hardware limits and their lock (R46, R47, Table 2.17). -/
structure Limits where
  locked : Bool := false
  /-- Cause of the lock, coded as in R96; 0 while open. -/
  lockCause : Nat := 0
  jetsMin : Vector Nat 24 := Vector.replicate 24 0
  jetsMax : Vector Nat 24 := Vector.replicate 24 0xFFFF
  interlock : Vector InterlockLimit 8 := Vector.replicate 8 {}
  txSwing : Vector Nat 8 := Vector.replicate 8 900
  pwmMax : Vector Nat 8 := Vector.replicate 8 65536
  maxStep : Nat := 1000
  deriving DecidableEq, Repr

/-- Line lane receive states (Table 3.6). -/
inductive LaneState where
  | dark | signal | cdrLock | frameLock | negotiate | step | locked | retrain | calibrating | still | disabled
  deriving DecidableEq, Repr

/-- Line stages (R133, Table 5.2): A, B, C, and the single stage of S200. -/
inductive Stage where
  | a | b | c | s200
  deriving DecidableEq, Repr

/-- Lane power states (Table 6.11). -/
inductive LanePower where
  | l0 | l1 | l2
  deriving DecidableEq, Repr

/-- Parameters of class 0x01, line lane transmit (R152). -/
structure LineTxP where
  /-- MODE of LINE_MODE: S200 (Table 5.11). -/
  s200 : Bool := false
  /-- TX_EN (Table 3.9). -/
  txEn : Bool := false
  /-- FS_CODE (Table 4.2). -/
  fsCode : Nat := 640
  /-- PRESET (Table 4.4). -/
  preset : Nat := 1
  /-- Taps C₋₂ to C₄ (R157). -/
  taps : Vector Int 7 := (Vector.replicate 7 0).set 2 256
  /-- MODE of TX_PREDIST: ADAPTIVE (Table 4.5). -/
  pdAdaptive : Bool := false
  /-- The stored predistortion entries (R160). -/
  pd : Vector Int 64 := Vector.replicate 64 0
  /-- ALIGN (Table 4.6). -/
  skewAlign : Bool := false
  /-- SKEW (R162). -/
  skew : Int := 0
  /-- SOURCE of TX_CLOCK_SOURCE: loop-timed (Table 4.7). -/
  clkLoop : Bool := false
  /-- RX_LANE (Table 4.7). -/
  clkLane : Fin 8 := 0
  /-- KIND of error injection (Table 5.13). -/
  injKind : Nat := 0
  /-- POINT (Table 5.13). -/
  injPoint : Bool := false
  /-- RATE (Table 5.13). -/
  injRate : Nat := 0
  /-- BURST_LEN (Table 5.13). -/
  injBurst : Nat := 1
  /-- INTERVAL (Table 5.13). -/
  injInterval : Nat := 1
  /-- MARKER_COUNT (Table 5.13). -/
  injMarkers : Nat := 1
  /-- Loop KIND (Table 6.10). -/
  loop : Nat := 0
  deriving DecidableEq, Repr

/-- Parameters of class 0x02, line lane receive and its engine (R109). -/
structure LineRxP where
  /-- MODE of LINE_MODE: S200 (Table 5.11). -/
  s200 : Bool := false
  /-- RX_EN (Table 3.9). -/
  rxEn : Bool := false
  /-- TARGET of RX_EQ (Table 3.5). -/
  target : Nat := 0
  /-- CURSOR (Table 3.5): 0 AUTO. -/
  cursor : Nat := 0
  /-- ADAPT (Table 3.5). -/
  adapt : Nat := 0
  /-- MU_SHIFT (Table 3.5). -/
  mu : Nat := 10
  /-- LEAK_SHIFT (Table 3.5). -/
  leak : Nat := 0
  /-- H1 (Table 3.5). -/
  h1 : Int := 0
  /-- H2 (Table 3.5). -/
  h2 : Int := 0
  /-- TARGET_ADAPT (Table 3.5). -/
  targetAdapt : Bool := true
  /-- The 96 FFE taps (R121). -/
  taps : Vector Int 96 := (Vector.replicate 96 0).set 12 0x400
  /-- TARGET_RMS (Table 3.2). -/
  targetRms : Nat := 40
  /-- GAIN_CODE (Table 3.2). -/
  gainCode : Nat := 24
  /-- BW_CLASS (Table 3.4). -/
  bwClass : Nat := 1
  /-- KP_SHIFT (Table 3.4). -/
  kpShift : Nat := 8
  /-- KI_SHIFT (Table 3.4). -/
  kiShift : Nat := 16
  /-- PHASE_OFFSET (Table 3.4). -/
  phase : Int := 0
  /-- DECODE: hard (Table 5.9). -/
  hard : Bool := false
  /-- CHASE_DEPTH (Table 5.9). -/
  depth : Nat := 6
  /-- LLR_SCALE (Table 5.9). -/
  llrScale : Nat := 32
  /-- FAIL_THRESHOLD (Table 3.10). -/
  failThreshold : Nat := 4096
  /-- OPT_CHANNEL (Table 3.10). -/
  optChannel : Nat := 0xFF
  /-- OPT_SCALE (Table 3.10). -/
  optScale : Nat := 0
  /-- LOS_ASSERT (Table 3.10). -/
  losAssert : Nat := 200
  /-- LOS_DEASSERT (Table 3.10). -/
  losDeassert : Nat := 400
  /-- DARK_LEVEL (Table 3.10). -/
  darkLevel : Nat := 10
  /-- Loop KIND (Table 6.10). -/
  loop : Nat := 0
  /-- TX_INT of the expert XFER_CAL (Table 8.6); used while pinned. -/
  txInt : Int := 0
  /-- RX_INT (Table 8.6); used while pinned. -/
  rxInt : Int := 0
  /-- TX_MOD (Table 8.6). -/
  txMod : Nat := 0
  /-- RX_MOD (Table 8.6). -/
  rxMod : Nat := 0
  /-- ENABLE of ASYMMETRY (Table 8.8). -/
  asymEnable : Bool := false
  /-- FIT_ORDER (Table 8.8). -/
  asymOrder : Bool := false
  /-- WL_IN (Table 8.8). -/
  wlIn : Nat := 0
  /-- WL_OUT (Table 8.8). -/
  wlOut : Nat := 0
  /-- ASYM as entered (Table 8.8). -/
  asym : Int := 0
  deriving DecidableEq, Repr

/-- The stamp of one time marker, its Q, the elapsed time of the event, and the number of steps of the time applied
before it (R188, R293, R299). -/
structure MarkerStamp where
  q : Nat
  stamp : Stamp
  at' : Instant
  step : Nat
  deriving DecidableEq, Repr

/-- A payload delivered by a good marker and not yet taken up by the row of its type (R186). -/
structure Inbox where
  /-- COUNT of the marker. -/
  count : Nat
  /-- PAYLOAD P[95:0]. -/
  payload : Nat
  /-- Arrival stamp of the marker's first symbol (Table 1.2). -/
  arrival : Stamp
  /-- Elapsed time of its arrival. -/
  at' : Instant
  /-- Steps of the time applied before it. -/
  step : Nat
  deriving DecidableEq, Repr

/-- The acquisition state of one lane (R126 to R138). -/
structure LaneAcq where
  /-- Receive state (Table 3.6). -/
  state : LaneState := .disabled
  /-- Receive stage. -/
  stage : Stage := .a
  /-- RETRIES (R128). -/
  retries : Nat := 0
  /-- LAST_EXIT (R133). -/
  lastExit : Nat := 0
  /-- Elapsed time of the last state change. -/
  since : Instant := 0
  /-- Elapsed time from which the timeout of the state runs: of the last state change, or of the end of a hold (R128, R131). -/
  timer : Instant := 0
  /-- Held at FRAME_LOCK for its own transmitter (R131). -/
  holding : Bool := false
  /-- CDR lock declared (R118). -/
  cdrLock : Bool := false
  /-- Equaliser converged at the current stage (R125). -/
  converged : Bool := false
  /-- Signal detect of the front end (R137). -/
  sigDetect : Bool := false
  /-- Consecutive markers found at the superframe spacing (R127). -/
  found : Nat := 0
  /-- Consecutive superframes with the gain inside its dead band (R127). -/
  gainQuiet : Nat := 0
  /-- Inner failures of the window in progress, or PRBS31 errors of a relay lane (R136, R244). -/
  winFails : Nat := 0
  /-- Superframes of that window received (R136). -/
  winFrames : Nat := 0
  /-- Elapsed time of the marker boundary at which the gain loop last stepped (R111). -/
  gainAt : Option Instant := none
  /-- INNER_OK: the last window ended below FAIL_THRESHOLD (Table 5.6). -/
  innerOk : Bool := false
  /-- A window has so ended since the lane entered its state, or NEGOTIATE before LOCKED (R127, R138). -/
  winOk : Bool := false
  /-- Markers relocked in RETRAIN (R138). -/
  relocked : Bool := false
  /-- Elapsed time at which the coefficients were saved on exit from LOCKED (R138); none when they are not valid. -/
  saved : Option Instant := none
  /-- The coefficients saved on exit from LOCKED: FFE taps, detector target, gain code and NCO integrator (R138). -/
  savedTaps : Vector Int 96 := (Vector.replicate 96 0).set 12 0x400
  savedH1 : Int := 0
  savedH2 : Int := 0
  savedGain : Nat := 24
  savedNco : Int := 0
  /-- State held when CALIBRATING was entered (R146). -/
  calFrom : LaneState := .disabled
  /-- Kind of the foreground calibration in progress, 0 none (R145). -/
  calKind : Nat := 0
  /-- Lane power state commanded by LANE_POWER (R250, R466). -/
  powerCmd : LanePower := .l0
  /-- Lane power state (R249). -/
  power : LanePower := .l0
  /-- Power state an entry or exit in progress leads to (R249). -/
  powerTarget : LanePower := .l0
  /-- Elapsed time at which that entry or exit was commanded. -/
  powerSince : Instant := 0
  /-- Held off by supply-sag shedding (R466). -/
  shed : Bool := false
  /-- LOOP_SUSPENDED: the loop is suspended by L2 (R252). -/
  loopSuspended : Bool := false
  deriving DecidableEq, Repr

/-- The received-marker side of one lane (R186, R187, R190). -/
structure LaneRxMarker where
  /-- Superframe count of the last marker, counted on over missing and corrupt ones (R186). -/
  count : Nat := 0
  /-- Consecutive missing markers (R135). -/
  missing : Nat := 0
  /-- Elapsed time of the last marker received: a commit boundary (Table 1.4). -/
  markAt : Option Instant := none
  /-- A good or corrupt marker has been received since the lane last searched. -/
  seen : Bool := false
  /-- LANE_ORDER (R187). -/
  laneOrder : Bool := false
  /-- Consecutive good markers with the right LANE_ID (R187). -/
  laneIdGood : Nat := 0
  /-- Delivered payload waiting for its row. -/
  inbox : Option Inbox := none
  /-- Far end's STATE code in its latest lane-control marker (Table 5.6). -/
  farState : Nat := 0xF
  /-- Far end's STAGE (Table 5.6). -/
  farStage : Nat := 0
  /-- Far end's RESTART (Table 5.6). -/
  farRestart : Bool := false
  /-- Far end's TUNE_DONE (Table 5.6). -/
  farTuneDone : Bool := false
  /-- Far end's INNER_OK (Table 5.6). -/
  farInnerOk : Bool := false
  /-- MSG_SEQ of the last message received (R191); none before the first. -/
  rxSeq : Option Nat := none
  /-- ACK_SEQ last received (R191). -/
  rxAck : Nat := 0
  /-- Serial number of the last HELLO since the lane last left DARK (R302). -/
  peer : Option Nat := none
  /-- S_T of the far end's traffic (R196). -/
  farSt : Option Nat := none
  /-- The superframe S_T has begun (R197). -/
  stReached : Bool := false
  /-- The receiver forwards the flow (R197). -/
  forwarding : Bool := false
  /-- It has begun to since the far end's traffic started: a far-end transmitter that has not left traffic needs no new S_T (R197). -/
  begun : Bool := false
  /-- Inner codewords of the superframe in progress that are marked; 1,024 is its marker block, and 1,025 the first of the next superframe
  (R210, R212). -/
  marks : List Nat := []
  /-- Inner payloads received, each with its mark, that do not yet fill a codeword pair, the first one first (R207); in S200 the bits of
  the lane, each with its mark (R240). -/
  buf : List (Nat × Bool) := []
  /-- The hard decisions of the last superframe received in a far-end loop, its marker block last: what the loop sends (Table 6.9). -/
  looped : List Nat := []
  /-- Relay: the PRBS31 register expected at the next block; none before one is known (R242). -/
  prbs : Option Nat := none
  deriving DecidableEq, Repr

/-- Transmit squelch sources of Table 4.8. -/
structure Squelch where
  /-- Not yet enabled, or TX_EN 0 committed. -/
  notEnabled : Bool := true
  /-- TX_DISABLE high (R173). -/
  txDisable : Bool := false
  /-- Laser-bias interlock latched (R174). -/
  interlock : Bool := false
  /-- Lane power state L1 or L2. -/
  power : Bool := false
  /-- Supply-sag shedding, stage 6. -/
  shed : Bool := false
  /-- Thermal trip. -/
  thermal : Bool := false
  /-- Transmit calibration, or a loop measurement (Table 8.5). -/
  calibration : Bool := false
  deriving DecidableEq, Repr

/-- A step of stage under negotiation (R192). -/
structure StepNeg where
  /-- This end proposes. -/
  proposer : Bool
  /-- The target stage. -/
  target : Stage
  /-- The superframe count S at whose start this end's transmitter changes. -/
  txAt : Nat
  /-- The count S of the received stream. -/
  rxAt : Option Nat
  /-- Confirmed (proposer), or the confirmation acknowledged (confirmer). -/
  agreed : Bool
  /-- This end's transmitter has changed stage. -/
  txDone : Bool
  /-- This end's receiver has changed stage. -/
  rxDone : Bool
  /-- MSG_SEQ of this end's message. -/
  msgSeq : Nat
  deriving DecidableEq, Repr

/-- The transmit side of one lane. -/
structure LaneTx where
  /-- The lane island runs on its island clock (R21, R169). -/
  clocked : Bool := false
  /-- Transmit stage. -/
  stage : Stage := .a
  /-- Superframe count of the superframe being sent (R179). -/
  count : Nat := 0
  /-- Squelch sources (Table 4.8). -/
  squelch : Squelch := {}
  /-- The output drives: it resumed at an aligned marker after the last squelch source released (R172). -/
  driving : Bool := false
  /-- A move to stage A is due at the next superframe boundary (R130). -/
  fallback : Bool := false
  /-- One more than the superframes of RESTART still to send; 1 while the move to stage A is due (R139). -/
  restart : Nat := 0
  /-- Skew at the output, 1/64 UI at stage C (R163). -/
  skewApplied : Int := 0
  /-- Target of the slew (R163). -/
  skewTarget : Int := 0
  /-- CLK_HOLDOVER (R167). -/
  clkHoldover : Bool := false
  /-- TX_CLIP (R154). -/
  txClip : Nat := 0
  /-- Traffic sent (R196). -/
  traffic : Bool := false
  /-- S_T chosen and announced, not yet begun (R196). -/
  st : Option Nat := none
  /-- Messages waiting, the first one being sent (R191): type and BODY. -/
  msgs : List (Nat × Nat) := []
  /-- MSG_SEQ of the message being sent (R191). -/
  msgSeq : Nat := 0
  /-- Step of stage in progress (R192). -/
  step : Option StepNeg := none
  /-- TUNE_DONE: this end's receiver reports far-end transmit tuning complete (R159). -/
  tuneDone : Bool := false
  /-- Elapsed time at which transmit tuning of this end started, at NEGOTIATE stage C (R159). -/
  tuneSince : Option Instant := none
  /-- Markers still to invert by error injection kind 4 (R218). -/
  injLeft : Nat := 0
  /-- The last marker block sent, 144 bits (Table 5.4). -/
  marker : Nat := 0
  /-- Elapsed time of the last marker sent: a commit boundary (Table 1.4). -/
  markAt : Option Instant := none
  /-- Elapsed time of the last LANE_REPORT_TIMER (R194). -/
  reportAt : Instant := 0
  /-- TUNE_DONE received, or 400 ms gone: tuning of this lane's taps has ended (R159). -/
  tuned : Bool := false
  /-- ALIGN has aligned the lane since it was selected (R164). -/
  aligned : Bool := false
  /-- PRBS31 register at the next payload bit (R196, R242). -/
  prbs : Nat := 0x7FFFFFFF
  /-- Inner payloads of the slice's flow that wait to be sent (R196, R206); in S200 the bits of the lane (R240). -/
  flow : List Nat := []
  /-- MODEL'S OWN: the last superframe as sent, 1,024 blocks and the marker block (R178). -/
  frame : List Nat := []
  /-- The last six level indices sent before the next superframe (R153). -/
  tail : List Nat := []
  /-- Codewords until the next error burst (R218). -/
  injWait : Nat := 0
  /-- Bits still to invert of the bursts in progress (R218). -/
  injRuns : List Nat := []
  /-- First symbols, counted from that of the superframe in progress, of the transmit cycles that go out as bypass levels (R435). -/
  bypass : List Int := []
  /-- MODEL'S OWN: the DAC codes that a line lane sent with its last superframe (R154, R435). -/
  codes : List Int := []
  deriving DecidableEq, Repr

/-- Calibration tables of one line lane (Tables 3.3 and 4.10). -/
structure LaneCal where
  /-- Index of the parked sub-converter (R114). -/
  parked : Nat := 128
  /-- DIRECTION: the parked index ascends (Table 3.3). -/
  ascending : Bool := false
  /-- RETIRED (R115). -/
  retired : Bool := false
  /-- Consecutive rejections of the parked sub-converter (R115). -/
  rejections : Nat := 0
  /-- Elapsed time of the last move or background result (R114). -/
  movedAt : Instant := 0
  /-- OFFSET of each sub-converter, 1/16 LSB. -/
  adcOffset : Vector Int 129 := Vector.replicate 129 0
  /-- GAIN of each sub-converter, 2⁻¹³. -/
  adcGain : Vector Int 129 := Vector.replicate 129 0
  /-- SKEW of each sub-converter, 2⁻¹³ UI. -/
  adcSkew : Vector Int 129 := Vector.replicate 129 0
  /-- REJECTED of each sub-converter. -/
  adcRejected : Vector Bool 129 := Vector.replicate 129 false
  /-- Front-end offset (Table 3.11), 1/16 LSB. -/
  frontOffset : Int := 0
  /-- GAIN_ACTUAL of each gain code, 1/256 dB: nominal at reset (R110). -/
  gainTable : Vector Int 73 := Vector.ofFn fun g => -1536 + 64 * (g.val : Int)
  /-- CAL_TEMP of the last receive foreground calibration, 0.1 °C. -/
  rxTemp : Int := 0
  /-- CAL_STAMP of the last receive foreground calibration; 0 for none. -/
  rxStamp : FTime := 0
  /-- Sub-DAC offsets (Table 4.10). -/
  dacOffset : Vector Int 4 := Vector.replicate 4 0
  /-- Sub-DAC gains. -/
  dacGain : Vector Int 4 := Vector.replicate 4 0
  /-- Sub-DAC skews. -/
  dacSkew : Vector Int 4 := Vector.replicate 4 0
  /-- CAL_TEMP of the last transmit calibration. -/
  txTemp : Int := 0
  /-- CAL_STAMP of the last transmit calibration. -/
  txStamp : FTime := 0
  deriving DecidableEq, Repr

/-- The receive values in force in one lane, where adaptation may have moved them from the active set (R111, R122). -/
structure LaneEq where
  /-- FFE taps in force, 2⁻¹⁰. -/
  taps : Vector Int 96 := (Vector.replicate 96 0).set 12 0x400
  /-- Cursor position in force (R121). -/
  cursor : Nat := 12
  /-- Detector target in force, 2⁻⁸. -/
  h1 : Int := 0
  h2 : Int := 0
  /-- Gain code in force (R110). -/
  gain : Nat := 24
  /-- GAIN_AT_LIMIT (R111). -/
  gainAtLimit : Bool := false
  /-- NCO integrator: the rotation of the phase per island cycle, in 2⁻³² UI (R118; log 125). -/
  nco : Int := 0
  /-- NCO phase in 2⁻³² UI, below one UI; the NCO resolves 1/64 UI of it (R19, R118; log 125). -/
  ncoAcc : Nat := 0
  /-- Path metrics of the sequence detector's 16 states at the end of the last superframe (R123). -/
  path : List Nat := []
  /-- FFE outputs of the last 2²⁰ symbols, oldest first, in 1/256 of the level spacing (Table 3.13). -/
  outputs : List Int := []
  /-- Equaliser engine serving the lane (R30). -/
  engine : Nat := 0
  /-- Inner decoding depth forced to 0 by shedding stage 5 (R205). -/
  depthForced : Bool := false
  deriving DecidableEq, Repr

/-- Counters of one lane (Tables 3.13 and 5.12, and Table 6.14 for a relay lane). -/
structure LaneCnt where
  innerCodewords : Nat := 0
  innerCorrected : Nat := 0
  innerFailures : Nat := 0
  markersMissing : Nat := 0
  markerCrc : Nat := 0
  countJumps : Nat := 0
  markedBlocks : Nat := 0
  injected : Nat := 0
  /-- BITS of RX_MONITOR. -/
  bits : Nat := 0
  /-- PRE_ERRORS. -/
  preErrors : Nat := 0
  /-- POST_ERRORS. -/
  postErrors : Nat := 0
  /-- Relay: PRBS31 bits checked. -/
  prbsBits : Nat := 0
  /-- Relay: PRBS31 errors. -/
  prbsErrors : Nat := 0
  /-- Relay: entries into RETRAIN. -/
  recovers : Nat := 0
  deriving DecidableEq, Repr

/-- A near-end loop measurement of XFER_CAL: its phase (Table 8.5). -/
inductive XferPhase where
  | claim | bringUp | measure | release
  deriving DecidableEq, Repr

/-- The time-transfer side of one lane (R293 to R314). -/
structure LaneTime where
  /-- The last time marker that departed: Q and stamp, invalid where R189 says so (R188). -/
  lastDep : Option (Nat × Stamp) := none
  /-- Departure stamps of the last 64 time markers, latest first (R296). -/
  departures : List MarkerStamp := []
  /-- Arrival stamps of the far end's last 64 time markers, which may become pair markers, latest first (R293, R295). -/
  arrivals : List MarkerStamp := []
  /-- Pair formed for the last round-trip markers sent: Q, ARR_Q and TURN_C; none when PAIR_VALID is 0 (R293, R295). -/
  turns : List (Nat × Option (Nat × Nat)) := []
  /-- The far end's odd-Q description of a round-trip marker, waiting for TURN_C: its arrival here (t2) and ARR_Q. -/
  farPair : Option (MarkerStamp × Nat) := none
  /-- Arrival stamp of the last received time marker (t2 of the next DEP_STAMP). -/
  lastArrival : Option MarkerStamp := none
  /-- TIME_VALID last received. -/
  farTimeValid : Bool := false
  /-- CAL_VALID last received. -/
  farCalValid : Bool := false
  /-- TX_FIBRE last received, 2⁻¹⁶ ns. -/
  farTxFibre : Int := 0
  /-- Latest L_SUM and its t2 (R297, R299). -/
  lSum : Option (Int × FTime) := none
  /-- Elapsed time of that t2 (R299, R334). -/
  lSumAt : Instant := 0
  /-- Latest L_IN, DELAY_IN. -/
  delayIn : Nat := 0
  /-- Offset samples of the interval, each doubled, in 2⁻¹⁷ ns (R297). -/
  samples : List Int := []
  /-- STATUS at the last update (Table 8.2). -/
  status : Nat := 1
  /-- SAMPLES of the last interval. -/
  count : Nat := 0
  /-- OFFSET: the lane mean of the last interval; none before the first. -/
  mean : Option Int := none
  /-- OFFSET_RMS of the last interval, 10 fs. -/
  rms : Nat := 0
  /-- TX_INT in force (R305). -/
  txInt : Int := 0
  /-- RX_INT in force (R305). -/
  rxInt : Int := 0
  /-- TX_FIBRE latched for the interval (R299). -/
  txFibre : Int := 0
  /-- RX_FIBRE latched for the interval (R299). -/
  rxFibre : Int := 0
  /-- ASYM latched for the interval (R299). -/
  asymLatched : Int := 0
  /-- ASYM in force: entered or estimated (R310). -/
  asym : Int := 0
  /-- A valid run has given the lane its ASYM (R311). -/
  asymEstimated : Bool := false
  /-- LOOP_REF (Table 8.4), OTP. -/
  loopRef : Nat := 0
  /-- LOOP_DELAY (Table 8.4). -/
  loopDelay : Nat := 0
  /-- TX_SHARE, OTP. -/
  txShare : Nat := 32768
  /-- LOOP_K, OTP, 10 fs. -/
  loopK : Int := 0
  /-- TEMPCO, OTP, fs/°C. -/
  tempco : Int := 0
  /-- CAL_TEMP of the last accepted loop measurement, 0.1 °C: 250 before the first. -/
  calTemp : Int := 250
  /-- CAL_STAMP of the last accepted loop measurement. -/
  calStamp : FTime := 0
  /-- CAL_VALID. -/
  calValid : Bool := false
  /-- LAST_REJECTED. -/
  lastRejected : Bool := false
  /-- XFER_CAL phase in progress, with the queue entry that started it. -/
  xfer : Option XferPhase := none
  /-- The loop measurement left the lane waiting to be LOCKED with the far end (R306). -/
  xferSettling : Bool := false
  /-- LOOP measured in the measurement phase. -/
  loopMeas : Nat := 0
  /-- Arrival less departure summed over the time markers of the measurement phase, and how many there were (R306). -/
  loopSum : Int := 0
  loopCnt : Nat := 0
  /-- Die temperature at the end of the measurement phase, 0.1 °C (R307). -/
  loopTemp : Int := 250
  /-- Time markers of the lane counted for its own reports while SOURCE is not LOCK_LINE (R301). -/
  ownMarkers : Nat := 0
  /-- The latest d_n: its Q and value (R311). -/
  asymD : Option (Nat × Int) := none
  /-- Difference sums of the asymmetry run: sum of d_n − d_r and its count (R311). -/
  asymSum : Int := 0
  asymCnt : Nat := 0
  deriving DecidableEq, Repr

/-- One lane that runs the superframe. -/
structure Lane where
  acq : LaneAcq := {}
  rx : LaneRxMarker := {}
  tx : LaneTx := {}
  cal : LaneCal := {}
  eq : LaneEq := {}
  cnt : LaneCnt := {}
  time : LaneTime := {}
  deriving DecidableEq, Repr

/-- An eye scan in progress on a lane (R150). -/
structure EyeScan where
  /-- Sequence of the queue entry that started it. -/
  seq : Nat
  lane : Fin 8
  phases : Nat
  step : Nat
  depth : Nat
  limit : Nat
  /-- Elapsed time of its start (R151). -/
  startAt : Instant
  /-- Elapsed time at which the lane left LOCKED, which stopped the scan; none while it runs (R150). -/
  stopAt : Option Instant := none
  deriving DecidableEq, Repr

/-- Host lane states, AUI mode (Table 6.4). -/
inductive HostState where
  | dark | train | step | align | active | recover | test | quiet | still | disabled
  deriving DecidableEq, Repr

/-- PTP correction settings of a port (Table 8.12). -/
structure PtpP where
  toLine : Bool := false
  toHost : Bool := false
  eth : Bool := true
  udp4 : Bool := true
  udp6 : Bool := true
  vlan : Bool := true
  /-- HOST_TO_PIN, ps. -/
  hostToPin : Int := 0
  /-- PIN_TO_HOST, ps. -/
  pinToHost : Int := 0
  deriving DecidableEq, Repr

/-- Parameters of class 0x03, port island. -/
structure PortP where
  /-- GROUPING (R106). -/
  grouping : Nat := 0
  /-- MODE of PORT_FAULT_MODE: squelch (Table 6.13). -/
  squelchMode : Bool := false
  /-- CLEAR_HOLD, µs (Table 6.13). -/
  clearHold : Nat := 100
  ptp : PtpP := {}
  deriving DecidableEq, Repr

/-- Parameters of class 0x04, host lane (R219). -/
structure HostP where
  /-- TARGET (Table 6.3). -/
  target : Nat := 2
  /-- RELAY (Table 6.3). -/
  relay : Bool := false
  /-- ENABLE (Table 6.3). -/
  enable : Bool := false
  /-- ADAPT (Table 6.2). -/
  adapt : Nat := 0
  /-- Transmit taps C₋₃ to C₁ (R224). -/
  taps : Vector Int 5 := (Vector.replicate 5 0).set 3 64
  /-- CTLE_PEAK. -/
  ctlePeak : Nat := 12
  /-- CTLE_DC. -/
  ctleDc : Nat := 0
  /-- DFE_H1. -/
  dfe : Int := 0
  /-- Receive FFE taps (R224). -/
  rxFfe : Vector Int 16 := (Vector.replicate 16 0).set 3 0x100
  /-- Loop KIND (Table 6.10). -/
  loop : Nat := 0
  /-- HOST_REF: HOSTREF selected (R220). -/
  hostref : Bool := false
  /-- ASYM of a relay lane (Table 8.8). -/
  asym : Int := 0
  deriving DecidableEq, Repr

/-- The AUI side of one host lane. -/
structure HostLane where
  /-- State (Table 6.4). -/
  state : HostState := .disabled
  /-- Current rate (R233). -/
  rate : Nat := 0
  /-- RETRIES (R229). -/
  retries : Nat := 0
  /-- LAST_EXIT (R233). -/
  lastExit : Nat := 0
  /-- Elapsed time of the last state change. -/
  since : Instant := 0
  /-- Signal detect. -/
  sigDetect : Bool := false
  /-- Elapsed time from which the completion handshake stands, while a rate step waits (R230). -/
  stepSince : Option Instant := none
  /-- Transmit rate: it changes before the receiver locks (R230). -/
  txRate : Nat := 0
  /-- Transmit taps in force (R225). -/
  taps : Vector Int 5 := (Vector.replicate 5 0).set 3 64
  /-- The response to the last training request: the coefficient was updated (R225). -/
  updated : Bool := false
  /-- The request that the lane's own receiver sends to the host's transmitter: a tap and by how much it is to move; none while it
  sends none (R225). -/
  ask : Option (Fin 5 × Int) := none
  /-- Receive values in force, as last written or last adapted: CTLE_PEAK, CTLE_DC, DFE_H1 and the FFE taps (R224, R225). -/
  eqPeak : Nat := 12
  eqDc : Nat := 0
  eqDfe : Int := 0
  eqFfe : Vector Int 16 := (Vector.replicate 16 0).set 3 0x100
  /-- Lane power state commanded by LANE_POWER (R250, R466). -/
  powerCmd : LanePower := .l0
  /-- Lane power state (R249). -/
  power : LanePower := .l0
  powerTarget : LanePower := .l0
  powerSince : Instant := 0
  /-- State held on entry into QUIET (Table 6.5). -/
  quietFrom : HostState := .disabled
  /-- Its receiver stayed qualified in QUIET (Table 6.5). -/
  quietQualified : Bool := false
  /-- Held off by supply-sag shedding. -/
  shed : Bool := false
  /-- LOOP_SUSPENDED (R252). -/
  loopSuspended : Bool := false
  /-- Not yet enabled since power-up (R232). -/
  neverEnabled : Bool := true
  /-- Elapsed time of one of its 4,096-cycle boundaries, from which the others follow at its rate (R34, R35, Table 1.4). -/
  boundAt : Instant := 0
  /-- Its CDR has been moved to REFCLK by a loss of HOSTREF (R223). -/
  onRefclk : Bool := false
  /-- TRAININGS (Table 6.14). -/
  trainings : Nat := 0
  /-- RECOVERS. -/
  recovers : Nat := 0
  /-- MARKER_LOSSES. -/
  markerLosses : Nat := 0
  /-- BITS_CHECKED. -/
  bitsChecked : Nat := 0
  /-- PRBS_ERRORS. -/
  prbsErrors : Nat := 0
  /-- Elapsed time up to which the checking of TEST has been counted (R231). -/
  testAt : Instant := 0
  /-- PRBS31 registers at the next bit sent and at the next bit expected in TEST (R231). -/
  testTx : Nat := 0x7FFFFFFF
  testRx : Nat := 0x7FFFFFFF
  /-- MODEL'S OWN: the 10-bit symbols that went out on the lane with the last superframe of its slice (R237, R255). -/
  sent : List Nat := []
  /-- The state code that the lane left as its mode changed, for OLD of the event to come (R234). -/
  left : Option Nat := none
  deriving DecidableEq, Repr

/-- One direction of a port's fault state (R254 to R256). -/
structure FaultDir where
  /-- The direction is faulted: so at reset (R256). -/
  faulted : Bool := true
  /-- Cause mask last held (Table 6.12). -/
  causes : Nat := 0
  /-- Elapsed time since which no cause has held. -/
  clearSince : Option Instant := none
  deriving DecidableEq, Repr

/-- Slice counters of one direction (Table 5.12). -/
structure SliceCnt where
  codewords : Nat := 0
  corrected : Nat := 0
  uncorrectable : Nat := 0
  marked : Nat := 0
  hist : Vector Nat 17 := Vector.replicate 17 0
  deriving DecidableEq, Repr

/-- PTP correction counters of one direction (Table 8.13). -/
structure PtpCnt where
  corrected : Nat := 0
  skipErrored : Nat := 0
  skipRange : Nat := 0
  skipTag : Nat := 0
  saturated : Nat := 0
  resLast : Nat := 0
  resMin : Nat := 0xFFFFFFFF
  resMax : Nat := 0
  deriving DecidableEq, Repr

/-- One port island. -/
structure Port where
  toHost : FaultDir := {}
  toLine : FaultDir := {}
  /-- DESKEW of the port that the slice leads (R239). -/
  deskew : Bool := false
  /-- HOST_LANE_MAP (R236). -/
  laneMap : Bool := false
  /-- HOST_DESKEW. -/
  hostDeskew : Bool := false
  /-- MATCH_OVERRUN toward the host and toward the line (R238): held until the matcher runs again. -/
  overHost : Bool := false
  overLine : Bool := false
  /-- REGROUP toward the host and toward the line (R241). -/
  regHost : Bool := false
  regLine : Bool := false
  /-- The host's PCS lanes are locked and deskewed (R236). -/
  hostAligned : Bool := false
  rxCnt : SliceCnt := {}
  txCnt : SliceCnt := {}
  /-- Rate-matcher counters (Table 6.14). -/
  insLine : Nat := 0
  delLine : Nat := 0
  insHost : Nat := 0
  delHost : Nat := 0
  matchOverruns : Nat := 0
  portFaults : Nat := 0
  ptpLine : PtpCnt := {}
  ptpHost : PtpCnt := {}
  /-- Codeword pairs still to mark in each direction, from the one in progress on (R210, R211, R238). -/
  markHost : Nat := 0
  markLine : Nat := 0
  /-- MODEL'S OWN: the codeword pairs that went toward the host, and toward the line, with the last superframe (R208, R255). -/
  pairHost : List Nat := []
  pairLine : List Nat := []
  /-- 66-bit blocks held by the rate matcher toward the host and toward the line (R238). -/
  heldHost : List Nat := []
  heldLine : List Nat := []
  /-- Codeword pairs still to come before the next that carries PCS alignment markers, toward the host and toward the line (R238). -/
  leftHost : Nat := 0
  leftLine : Nat := 0
  /-- Elapsed time up to which pairs have gone toward the host (R238). -/
  sentAt : Instant := 0
  /-- Arrival differences of the eight lanes in the last skew reports, 1/64 UI, in the lead port island (R164). -/
  diffs : Vector (Option Int) 8 := Vector.replicate 8 none
  /-- Runs of 66-bit blocks that the PTP correction unit changes, and what they become, in the pairs that pass next toward the host and
  toward the line (R208, R319). -/
  patchHost : List (List Nat × List Nat) := []
  patchLine : List (List Nat × List Nat) := []
  /-- MODEL'S OWN: the last recognised PTP event message as forwarded, Ethernet header to FCS (R319). -/
  ptpFrame : List Byte := []
  deriving DecidableEq, Repr

/-- Servo states (Table 7.4). -/
inductive ServoState where
  | free | acquire | locked | holdover
  deriving DecidableEq, Repr

/-- Servo sources (Table 7.6). -/
inductive ServoSource where
  | free | line | pps
  deriving DecidableEq, Repr

/-- CLK_IN_USE (Table 7.8). -/
inductive ClkInUse where
  | refclk | timeref | dco
  deriving DecidableEq, Repr

/-- Parameters of class 0x05, Fountainhead servo. -/
structure ServoP where
  source : ServoSource := .free
  /-- LANE_MASK (Table 7.6). -/
  laneMask : Nat := 0
  /-- RELAY_PORT (Table 7.6). -/
  relayPort : Fin 8 := 0
  /-- RELAY (Table 7.6). -/
  relay : Bool := false
  /-- REF_TYPE (Table 7.7). -/
  refType : Nat := 0
  /-- K (Table 7.7). -/
  k : Nat := 8
  /-- KP (Table 7.7). -/
  kp : Nat := 0x800000
  /-- KI (Table 7.7). -/
  ki : Nat := 0x160000
  /-- STEP_THRESHOLD, ns. -/
  stepThreshold : Nat := 100
  /-- LOCK_WINDOW, ps. -/
  lockWindow : Nat := 1000
  /-- RATE_WORD. -/
  rateWord : Int := 0
  /-- CLK_SOURCE: TIMEREF (Table 7.2). -/
  timeref : Bool := false
  /-- TIMEREF_FREQ: 100 MHz. -/
  timeref100 : Bool := false
  /-- PPS_IN ENABLE (Table 7.11). -/
  ppsIn : Bool := false
  /-- EDGE: falling. -/
  ppsFalling : Bool := false
  /-- CABLE_DELAY, ps. -/
  cableDelay : Int := 0
  deriving DecidableEq, Repr

/-- Parameters of class 0x06, PPS_OUT and REFOUT settings. -/
structure PpsP where
  enable : Bool := false
  /-- POLARITY: falling leading edge. -/
  falling : Bool := false
  gate : Nat := 0
  evtMask : Nat := 0
  /-- WIDTH, 10 ns. -/
  width : Nat := 10
  /-- OFFSET, 2⁻¹⁶ ns. -/
  offset : Int := 0
  /-- REFOUT ENABLE (Table 7.13). -/
  refEnable : Bool := false
  /-- REFOUT FREQ: 100 MHz. -/
  ref100 : Bool := false
  deriving DecidableEq, Repr

/-- A change of rate or time waiting for the next epoch tick (R266). -/
structure PendingStep where
  /-- The new F; none to leave it. -/
  rate : Option Int := none
  /-- A servo step, 2⁻¹⁶ ns (R272). -/
  step : Option Int := none
  /-- The servo step sets TIME_VALID (R272). -/
  setsValid : Bool := false
  /-- Host steps (R281): the queue entry of the command, the step, and whether it was limited. -/
  hosts : List (Nat × Int × Bool) := []
  /-- Changes of the servo state whose SERVO_STATE event carries the stamp of this tick: OLD, NEW and CAUSE (R277). -/
  events : List (ServoState × ServoState × Nat) := []
  deriving DecidableEq, Repr

/-- The time base (Fountainhead). -/
structure TimeBase where
  /-- The counter runs: its PLL has locked (R287). -/
  running : Bool := false
  /-- Elapsed time at which it started: tick 0 (R22). -/
  startAt : Instant := 0
  /-- MODEL'S OWN: the last changes of F or of the time, latest first, each with the elapsed time of its tick and the
  counter and F before it; eight are kept.  An event stamped after a change but taken before it has the old time (R266). -/
  past : List (Instant × Nat × Int) := []
  /-- The counter in units of 2⁻⁶⁴ ns (R262). -/
  counter : Nat := 0
  /-- F, the rate word in force (R262). -/
  f : Int := 0
  /-- RATE_LIMITED (R262). -/
  rateLimited : Bool := false
  /-- Servo state (Table 7.4). -/
  state : ServoState := .free
  /-- The integrator I (R270). -/
  integ : Rat := 0
  /-- HOLD_RATE (R273). -/
  holdRate : Int := 0
  /-- F values applied at updates in LOCKED since the last commit of the source, latest first (R273). -/
  rates : List Int := []
  /-- STEP_BLOCKED (R272). -/
  stepBlocked : Bool := false
  /-- TIME_VALID (R272). -/
  timeValid : Bool := false
  /-- CLK_IN_USE (R264). -/
  clk : ClkInUse := .refclk
  /-- REFCLK qualified. -/
  refclkOk : Bool := false
  /-- TIMEREF qualified. -/
  timerefOk : Bool := false
  /-- REFCLK has been lost and has not qualified since (R264). -/
  refclkLost : Bool := false
  /-- TIMEREF has been lost and has not qualified since (R264). -/
  timerefLost : Bool := false
  /-- Last measured e (Table 7.8); none measured at reset. -/
  offset : Option Int := none
  /-- UPDATES (Table 7.8). -/
  updates : Nat := 0
  /-- Elapsed time of the last state change. -/
  since : Instant := 0
  /-- STATE_STAMP (Table 7.8). -/
  stateStamp : FTime := 0
  /-- LAST_CAUSE (Table 7.8). -/
  lastCause : Nat := 0
  /-- Consecutive non-empty updates within LOCK_WINDOW (Table 7.5). -/
  good : Nat := 0
  /-- Consecutive non-empty updates beyond 4 × LOCK_WINDOW (Table 7.5). -/
  bad : Nat := 0
  /-- Consecutive empty updates or missed edges (Table 7.5). -/
  empty : Nat := 0
  /-- Elapsed time of the last servo update (R269). -/
  updateAt : Instant := 0
  /-- Whether any update has fallen since the source was committed (R532). -/
  updated : Bool := false
  /-- Time markers counted on the group since the last update (R268). -/
  markers : Nat := 0
  /-- Changes waiting for the next epoch tick (R266). -/
  pending : PendingStep := {}
  /-- The step of the last epoch tick that had one, with its elapsed time: the epoch message of that tick carries it (R266). -/
  stepAt : Option (Instant × Int) := none
  /-- MODEL'S OWN: epoch ticks with a step since reset, which tells stamps taken on either side of one apart (R267). -/
  steps : Nat := 0
  /-- Stamp of the last accepted PPS_IN edge (R279). -/
  ppsLast : Option FTime := none
  /-- The instant from which the window of the next edge is counted (R279). -/
  ppsBase : Option FTime := none
  /-- PPS_REJECTS (R279). -/
  ppsRejects : Nat := 0
  /-- LANES_IN of the last combination (Table 8.3). -/
  lanesIn : Nat := 0
  /-- COMB_VALID. -/
  combValid : Bool := false
  /-- UPSTREAM_VALID. -/
  upstreamValid : Bool := false
  /-- COMBINED: last delivered offset. -/
  combined : Option Int := none
  /-- UPDATE_STAMP. -/
  updateStamp : Stamp := ⟨0, false⟩
  /-- PPS_OUT drives its active level. -/
  ppsOut : Bool := false
  /-- Elapsed time of the last leading edge driven. -/
  ppsEdgeAt : Instant := 0
  /-- WIDTH of the pulse begun, 2⁻¹⁶ ns (R282). -/
  ppsWidth : Nat := 0
  /-- POLARITY and EVT_MASK of the pulse begun: its edge obeyed the set then active (R282, R284). -/
  ppsFalling : Bool := false
  ppsMask : Nat := 0
  /-- Elapsed time of the last trailing edge. -/
  ppsTrailAt : Option Instant := none
  /-- REFOUT runs. -/
  refout : Bool := false
  /-- REFOUT_ALIGNED (R285). -/
  refAligned : Bool := false
  /-- A rising edge of REFOUT in Fountainhead time, 2⁻¹⁶ ns, from which its other edges follow by whole periods (R285). -/
  refEdge : Int := 0
  /-- A period of REFOUT whose low phase is lengthened, in Fountainhead time: its rising edge, its falling edge, and the rising edge
  that ends it (R285). -/
  refLong : Option (Int × Int × Int) := none
  /-- HOSTREF_LOST (R223). -/
  hostrefLost : Bool := false
  /-- Asymmetry run (Table 8.9): REASON, LANES_USED, SLOPE, CURVE, RESIDUAL and time of the last run. -/
  asymReason : Nat := 1
  asymUsed : Nat := 0
  asymSlope : Int := 0
  asymCurve : Int := 0
  asymResidual : Nat := 0
  asymStamp : FTime := 0
  /-- Time markers counted on the lowest-numbered eligible lane since the last run (R311). -/
  asymMarkers : Nat := 0
  deriving DecidableEq, Repr

/-- A time-bus receiver: its replica of the tick count, the epoch message in force, its skew, and its error flag
(R22, R23, R24, R26). -/
structure Replica where
  /-- The replica's own tick count at the last epoch message that it took or checked (R23, R26). -/
  count : Nat := 0
  /-- Fountainhead's tick count at that message. -/
  ref : Nat := 0
  /-- The tick count of the last message that mismatched, less Fountainhead's (R26): the next message that goes on from it
  matches. -/
  heard : Option Int := none
  /-- The epoch message in force: the Fountainhead time at its tick, and the rate (R22, R24). -/
  msgTime : FTime := 0
  msgRate : Int := 0
  /-- The step value of that message; none where its STEP flag is 0 (R266). -/
  msgStep : Option Int := none
  /-- Skew to the Fountainhead counter that the receiver's edge measurement shows, 2⁻¹⁶ ns (15.26 fs, R23). -/
  skew : Int := 0
  /-- Skew trim, 2⁻¹⁶ ns, OTP (R23). -/
  trim : Int := 0
  /-- Aligned: its stamps are valid (R26, R27). -/
  aligned : Bool := false
  /-- TIME_BUS_ERROR (R26). -/
  error : Bool := false
  /-- MISMATCHES of the episode (R95). -/
  mismatches : Nat := 0
  deriving DecidableEq, Repr

/-- Device roles (R323). -/
inductive Role where
  | standalone | worker | manager
  deriving DecidableEq, Repr

/-- Parameters of class 0x07, Rill router. -/
structure RillP where
  role : Role := .standalone
  timeFollow : Bool := true
  forwardEvents : Bool := true
  /-- ENABLE (Table 9.7). -/
  enable : Bool := true
  prefLanes : Nat := 0
  maxRetries : Nat := 4
  /-- ACK_ALLOW, µs. -/
  ackAllow : Nat := 50
  deriving DecidableEq, Repr

/-- A Rill frame (Table 9.3). -/
structure Frame where
  ftype : Nat
  lseq : Nat := 0
  hops : Nat
  hopPtr : Nat
  up : Bool
  bcast : Bool := false
  resync : Bool := false
  route : Nat
  wid : Nat := 0
  idValid : Bool := false
  xtag : Nat := 0
  body : List Byte := []
  /-- MODEL'S OWN: the Q2 entry whose REPLY this is; its slot is held until the first hop accepts the frame (R346). -/
  slot : Option Nat := none
  deriving DecidableEq, Repr

/-- The Rill link of one port ID (R326, R333 to R336). -/
structure Link where
  /-- Far-end serial of the line group the link serves (R326). -/
  peer : Option Nat := none
  /-- Lane carrying Rill, 0 to 7, or 0 and 1 of a relay port; none while the link is down for Rill (R327). -/
  lane : Option Nat := none
  /-- Elapsed time since which the link has been down for Rill (R335). -/
  downSince : Instant := 0
  /-- Next LSEQ to send. -/
  txSeq : Nat := 0
  /-- Frames sent but not acknowledged, oldest first, at most 4, each with the elapsed time from which its timeout
  runs: its last byte's departure, or the last BUSY acknowledgement (R333, R334). -/
  window : List (Frame × Instant) := []
  /-- Place in the window of the next frame to send (again); the window's length when all have been sent (R334). -/
  sendIdx : Nat := 0
  /-- Frames queued, at most 16 (R336). -/
  queue : List Frame := []
  /-- LSEQ expected next from the far end. -/
  rxSeq : Nat := 0
  /-- The next frame sent carries RESYNC (R335). -/
  resync : Bool := true
  /-- Retries counted against the oldest frame (R334). -/
  retries : Nat := 0
  /-- Elapsed time since which BUSY has lasted (R334). -/
  busySince : Option Instant := none
  /-- Elapsed time of the last BUSY acknowledgement, until the frame has been sent again (R334). -/
  busyAt : Option Instant := none
  /-- The window is to be sent again from its oldest frame once the frame being sent has left (R334). -/
  resend : Bool := false
  /-- A received ACK not yet taken up: ACK_SEQ and BUSY (R333). -/
  ackIn : Option (Nat × Bool) := none
  /-- ACK waiting to be sent: ACK_SEQ and BUSY (R333). -/
  ack : Option (Nat × Bool) := none
  /-- The last ACK formed, which a frame out of sequence repeats; none before the first (R332). -/
  lastAck : Option (Nat × Bool) := none
  /-- Bytes of the frame being received; none outside a frame (R195). -/
  rxBytes : Option (List Byte) := none
  /-- The lane on which that frame began (R327). -/
  rxLane : Option Nat := none
  /-- A whole frame received and not yet judged by its row. -/
  rxFrame : Option (List Byte) := none
  /-- Bytes of the frame being sent that have not left (R195). -/
  txBytes : List Byte := []
  /-- The bytes in txBytes start a frame. -/
  txSof : Bool := false
  /-- The frame being sent is an ACK. -/
  txAck : Bool := false
  /-- Frame accepted and waiting for the row of its type (R332). -/
  accepted : Option Frame := none
  deriving DecidableEq, Repr

/-- An entry of the manager's worker table (R338, Table 9.10). -/
structure WorkerEntry where
  serial : Nat
  route : Nat
  hops : Nat
  role : Nat
  present : Bool
  id : Option Nat
  lastFw : Nat
  deriving DecidableEq, Repr

/-- A PROBE outstanding in a discovery (R340). -/
structure ProbeOut where
  xtag : Nat
  route : Nat
  hops : Nat
  serial : Nat
  /-- Elapsed time at which it was sent. -/
  sentAt : Instant
  deriving DecidableEq, Repr

/-- A discovery in progress (R340). -/
structure Discovery where
  /-- Sequence of the queue entry. -/
  seq : Nat
  maxHops : Nat
  autoAssign : Bool
  depth : Nat
  /-- Links still to probe at this depth: route, hops and peer serial. -/
  frontier : List (Nat × Nat × Nat)
  /-- Links of the next depth. -/
  next : List (Nat × Nat × Nat)
  outstanding : List ProbeOut
  /-- IDs asked for by AUTO_ASSIGN and not yet answered: XTAG, serial, ID and elapsed time sent. -/
  assigning : List (Nat × Nat × Nat × Instant)
  fresh : Nat
  assigned : Nat
  unreachable : Nat
  loops : Nat
  tableFull : Bool
  deeper : Bool
  deriving DecidableEq, Repr

/-- A manager command waiting for an answer over Rill: TUNNEL or WORKER_ASSIGN. -/
structure RillWait where
  /-- Sequence of the queue entry. -/
  seq : Nat
  xtag : Nat
  /-- Elapsed time at which it times out. -/
  deadline : Instant
  /-- WORKER_ASSIGN: the ID, hops and route asked for. -/
  assign : Option (Nat × Nat × Nat)
  deriving DecidableEq, Repr

/-- The manager's record of one epoch (R352). -/
structure EpochRecord where
  id : Nat
  /-- Outcome per worker ID of the set (Table 9.16). -/
  outcomes : List (Nat × Nat)
  /-- Messages sent (EP_OP, Table 9.15), latest first: elapsed time and resends done (R350). -/
  sent : List (Nat × Instant × Nat) := []
  /-- Workers that have answered each message: EP_OP and worker ID. -/
  answered : List (Nat × Nat) := []
  /-- T, when committed. -/
  time : Option FTime := none
  /-- T2, when reverting. -/
  time2 : Option FTime := none
  /-- Epoch commands waiting: queue entry, EP_OP, elapsed time of acceptance, START of an EPOCH_STATUS. -/
  cmds : List (Nat × Nat × Instant × Nat) := []
  /-- TAG of the EPOCH_COMMIT and of the REVERT_EPOCH (R353). -/
  tag : Nat := 0
  tagRevert : Nat := 0
  /-- EPOCH_RESULT still owed for the commit, and for the revert. -/
  owe : Bool := false
  oweRevert : Bool := false
  deriving DecidableEq, Repr

/-- A worker's record of one epoch (R351). -/
structure WorkerEpoch where
  id : Nat
  outcome : Nat
  reason : Nat
  failBlock : Nat
  stamp : Stamp
  /-- Its pending commit. -/
  commit : Option Nat
  /-- Elapsed time of READY (R351). -/
  readyAt : Instant
  /-- Blocks it committed, with their commit stamps, for the test of REVERT. -/
  blocks : List (Block × FTime)
  /-- T2 of an accepted REVERT. -/
  time2 : Option FTime
  /-- XTAG of the last message, for the answer. -/
  xtag : Nat
  /-- A COMMIT has been acted on since the last STAGE (R348). -/
  commitHeard : Bool := false
  deriving DecidableEq, Repr

/-- What a unicast manager message was for. -/
inductive RillFor where
  /-- An EPOCH message of an epoch to a worker. -/
  | epoch (id op worker : Nat)
  /-- An FW message to a worker. -/
  | fw (op worker : Nat)
  deriving DecidableEq, Repr

/-- A firmware broadcast in progress at the manager (R349). -/
structure FwBroadcast where
  /-- The queue entry. -/
  seq : Nat
  /-- SLOT and the image's bytes. -/
  slot : Fin 2
  bytes : List Byte
  /-- Workers that have not answered SELECT: ID and elapsed time of the message. -/
  selecting : List (Nat × Instant)
  /-- Workers that answered OK and are still reached. -/
  selected : List Nat := []
  /-- Rounds of queries begun. -/
  round : Nat := 0
  /-- Workers whose QUERY answer is awaited. -/
  querying : List Nat := []
  /-- A block was missing in the answers of this round. -/
  lacking : Bool := false
  /-- Workers whose END answer is awaited. -/
  ending : List Nat := []
  /-- LAST_FW of each worker whose part is over (Table 9.10). -/
  results : List (Nat × Nat) := []
  deriving DecidableEq, Repr

/-- A STAGE whose packet a worker is running (R351): where its answer goes, and the packet's status once it has
replied. -/
structure Staging where
  frame : Frame
  seq : Nat
  status : Option Nat
  deriving DecidableEq, Repr

/-- The Rill router and the hierarchy. -/
structure Rill where
  links : Vector Link 16 := Vector.replicate 16 {}
  workerId : Option Nat := none
  /-- Upstream port (R329). -/
  upPort : Option Nat := none
  upHops : Nat := 0
  upRoute : Nat := 0
  /-- Child ports, bit p (R342). -/
  children : Nat := 0
  retries : Nat := 0
  undelivered : Nat := 0
  upDrops : Nat := 0
  crcDrops : Nat := 0
  formatDrops : Nat := 0
  lateReplies : Nat := 0
  /-- Worker table, in order of first discovery (R338). -/
  table : List WorkerEntry := []
  /-- Next XTAG. -/
  xtag : Nat := 0
  discovery : Option Discovery := none
  waits : List RillWait := []
  /-- MODEL'S OWN: XTAGs of epoch and firmware messages not answered, and what each was for; the last 8,192. -/
  out : List (Nat × RillFor) := []
  /-- The manager's own frames that wait for room in their output port's queue (R336). -/
  outbox : List (Fin 16 × Frame) := []
  /-- Upstream port and lanes for which TIME_FOLLOW last set the servo source (R342). -/
  followed : Option (Nat × Nat) := none
  /-- The manager's epoch records, oldest first, at most 4 (R352). -/
  epochs : List EpochRecord := []
  /-- The worker's epoch records (R351). -/
  workerEpochs : List WorkerEpoch := []
  fw : Option FwBroadcast := none
  /-- The worker's STAGE in progress (R351). -/
  staging : Option Staging := none
  deriving DecidableEq, Repr

/-- Parameters of one trigger unit (Table 10.6). -/
structure TrigP where
  src : Nat := 0
  cond : Nat := 0
  neg : Bool := false
  mode : Nat := 0
  interp : Bool := true
  tl : Int := 0
  th : Int := 0
  hyst : Nat := 0
  gaugeCh : Nat := 0xFF
  /-- T1, 2⁻¹⁶ ns. -/
  t1 : Nat := 0
  t2 : Nat := 0
  deriving DecidableEq, Repr

/-- Parameters of class 0x08, Weir (Tables 10.6 and 10.8). -/
structure WeirP where
  units : Vector TrigP 4 := Vector.replicate 4 {}
  /-- MODE of TRIGGER_COMBINE: AND. -/
  and' : Bool := false
  unitMask : Nat := 0
  evtMask : Nat := 0
  /-- FULL_POLICY: OVERWRITE. -/
  overwrite : Bool := false
  /-- WINDOW, ns. -/
  window : Nat := 1000
  recordLimit : Nat := 0
  deriving DecidableEq, Repr

/-- Parameters of class 0x09, capture channel (Table 10.3, R366, R374). -/
structure ChannelP where
  source : Nat := 0
  /-- DECIMATOR: 15 none. -/
  decim : Nat := 0xF
  /-- DEST: STREAM. -/
  stream : Bool := false
  gaugeCh : Nat := 0xFF
  /-- Min/max reducer ENABLE. -/
  minmax : Bool := false
  interval : Nat := 2
  /-- REGION: burst. -/
  burst : Bool := false
  pre : Nat := 1024
  post : Nat := 1024
  deriving DecidableEq, Repr

/-- Parameters of class 0x0A, decimator (Table 10.4). -/
structure DecimP where
  source : Nat := 0
  stages : Nat := 0
  step : Nat := 0x80000000
  outRate : Nat := 0
  deriving DecidableEq, Repr

/-- Parameters of class 0x0C, Spillway (R391), in units of 4 KiB. -/
structure SpillwayP where
  base : Nat := 0
  size : Nat := 0
  noWrap : Bool := false
  deriving DecidableEq, Repr

/-- An entry of a converter (R400, Table 11.2). -/
structure GaugeEntry where
  channel : Nat := 0
  /-- GAIN code: 0 to 3 for ×1 to ×8. -/
  gain : Nat := 0
  safety : Bool := false
  /-- SMP, 10 ns. -/
  smp : Nat := 16
  deriving DecidableEq, Repr

/-- Parameters of class 0x0D, converter sequence (Tables 11.2 and 11.3). -/
structure GaugeP where
  count : Nat := 1
  entries : Vector GaugeEntry 16 := Vector.replicate 16 {}
  run : Bool := false
  trig : Nat := 0x30
  /-- DELAY, 10 ns. -/
  delay : Nat := 0
  deriving DecidableEq, Repr

/-- Parameters of class 0x0E, Jets channel (Tables 11.7 and 11.9). -/
structure JetsP where
  range : Nat := 0
  /-- REF: JREF. -/
  ref : Bool := false
  parkLevel : Nat := 0
  enable : Bool := false
  timer : Fin 4 := 0
  div : Nat := 1
  deriving DecidableEq, Repr

/-- Parameters of class 0x0F, PWM unit (Table 11.12). -/
structure PwmP where
  enable : Bool := false
  invert : Bool := false
  bEnable : Bool := false
  evtMask : Nat := 0
  /-- FREQ of the last basic command, Hz. -/
  freq : Nat := 100000
  /-- DUTY of the last basic command, 2⁻¹⁶. -/
  duty : Nat := 0
  period : Nat := 1000
  /-- PSRC: 0 own counter, 1 to 4 a timer. -/
  psrc : Nat := 0
  rise : Nat := 0
  fall : Nat := 0
  dead : Nat := 0
  deriving DecidableEq, Repr

/-- Parameters of class 0x10, timer (Table 11.11). -/
structure TimerP where
  enable : Bool := false
  align : Bool := false
  /-- PERIOD, 10 ns. -/
  period : Nat := 100000
  deriving DecidableEq, Repr

/-- Parameters of class 0x11, Sluice (Table 13.4), in 10 mV. -/
structure SluiceP where
  vnom : Nat := 0
  /-- VSHED1 to VSHED6: 0 disabled. -/
  shed : Vector Nat 6 := Vector.replicate 6 0
  /-- HYST1 to HYST6. -/
  hyst : Vector Nat 6 := Vector.replicate 6 20
  deriving DecidableEq, Repr
/-- Acquisition states (Table 10.12). -/
inductive AcqState where
  | disarmed | armed | post | rearm
  deriving DecidableEq, Repr

/-- A sample that a source has delivered: when it was taken, its stamp, its stored value, and the channel of a Gauge result (Tables 10.1
and 10.2). -/
structure Sampled where
  inst : Instant
  at' : FTime
  valid : Bool
  value : Int
  channel : Nat := 0
  deriving DecidableEq, Repr

/-- What the captured sources that stand in one island have done while acquisition was armed (R356, R379): of a line lane, its stage and
when that changed, and from when to when its receive half, or that half or its engine, was stopped; and from when to when the island's
stamps were not valid (R26). -/
structure Carriage where
  stage : Stage := .a
  changes : List Instant := []
  silent : List (Instant × Instant) := []
  eqSilent : List (Instant × Instant) := []
  unstamped : List (Instant × Instant) := []
  deriving DecidableEq, Repr

/-- One arming: when it began and when it ended, in elapsed time, how many samples the units of each STREAM channel have taken, and whether the
STREAM channels have stopped with the record port (R383, R390, R393, R394). -/
structure Arming where
  start : Instant := 0
  ended : Option Instant := none
  streamed : Vector Nat 8 := Vector.replicate 8 0
  streamOff : Bool := false
  deriving DecidableEq, Repr

/-- What a trigger unit remembers of its samples (R368 to R370). -/
structure TrigUnit where
  /-- Samples of its source evaluated since ARM. -/
  fed : Nat := 0
  /-- The last sample: time and evaluated value. -/
  prev : Option (FTime × Int) := none
  /-- Comparator on TH is high. -/
  high : Bool := false
  /-- Comparator on TL is high. -/
  low : Bool := false
  /-- Time of the last rising crossing of TH not yet followed by a falling one. -/
  rise : Option FTime := none
  /-- A rising crossing of TL has been followed by no rising crossing of TH. -/
  runt : Bool := false
  /-- Time of the last rising crossing of TL not yet followed by a falling one. -/
  slew : Option FTime := none
  /-- FIRINGS (Table 10.12). -/
  firings : Nat := 0
  deriving DecidableEq, Repr

/-- A firing not yet consumed (R372). -/
structure Firing where
  unit : Fin 4
  stamp : Stamp
  /-- Weir has decided on it; it can still join a later AND. -/
  decided : Bool
  /-- The queue entry of the FORCE_TRIGGER that it is (R373). -/
  forced : Option Nat := none
  deriving DecidableEq, Repr

/-- What a capture channel wrote around a trigger: how many samples before it and from it on, the samples' bytes, whether
some are missing, and the times of the first and last sample (R379). -/
structure Segment where
  channel : Fin 8
  preValid : Nat
  postWritten : Nat
  gap : Bool
  tFirst : FTime
  tLast : FTime
  tValid : Bool
  bytes : List Byte
  deriving DecidableEq, Repr

/-- A segment of a record with the description of its channel (Table 10.10). -/
structure RecSeg where
  seg : Segment
  /-- REGION: it lies in the burst region. -/
  burst : Bool
  decimated : Bool
  minmax : Bool
  source : Nat
  deriving DecidableEq, Repr

/-- A record (Table 10.9). -/
structure Record where
  index : Nat
  slot : Nat
  cause : Nat
  primary : Nat
  forced : Bool
  shortPre : Bool := false
  stamp : Stamp
  truncated : Bool := false
  ecc : Bool := false
  postTriggers : Nat := 0
  /-- DEAD_TIME, ns. -/
  dead : Nat
  missed : Nat
  segs : List RecSeg := []
  deriving DecidableEq, Repr

/-- A decimator's coefficient bank (R364, R365): the preset last loaded, whose coefficients the manual does not list, and
the coefficients written over it. -/
structure FilterBank where
  preset : Nat := 0
  written : List (Nat × Int) := []
  pinned : Bool := false
  deriving DecidableEq, Repr

/-- Spillway states (R395). -/
inductive SpwState where
  | off | starting | stream | drain | stopping
  deriving DecidableEq, Repr

/-- The record port. -/
structure Spillway where
  state : SpwState := .off
  /-- SPW_FAULT level (R395): its pull-up holds an undriven ball high. -/
  fault : Bool := true
  /-- Last stop cause (Table 10.15). -/
  cause : Nat := 0
  /-- Next ring address, in units of 4 KiB. -/
  next : Nat := 0
  /-- UNIT_SEQ. -/
  seq : Nat := 0
  wraps : Nat := 0
  /-- The next unit is the first after a wrap. -/
  wrapped : Bool := false
  /-- STREAM_ID. -/
  id : Nat := 0
  /-- Elapsed time of the start. -/
  startAt : Instant := 0
  /-- MODE of the start: DRAIN. -/
  toDrain : Bool := false
  /-- Queue entry of the start, and of the stops waiting. -/
  startCmd : Nat := 0
  stopCmds : List Nat := []
  /-- Byte offset in the image of the record being drained. -/
  offset : Nat := 0
  /-- Start address of the last start, in units of 4 KiB. -/
  start : Nat := 0
  /-- The last unit sent: header and payload, 4,096 bytes. -/
  lastUnit : List Byte := []
  /-- Blocks sent on each lane since the start (R388). -/
  slots : Nat := 0
  /-- Scrambler registers of SPW0 and SPW1 (R388). -/
  scramblers : Vector Nat 2 := Vector.replicate 2 0
  /-- The 66-bit blocks in which the last unit left on SPW0 and SPW1, as they stand on the lane, the first bit highest (R388). -/
  lastBlocks : Vector (List Nat) 2 := Vector.replicate 2 []
  deriving DecidableEq, Repr

/-- Acquisition: Weir, the channels, the decimators, Cistern and Spillway. -/
structure Acq where
  state : AcqState := .disarmed
  /-- LAST_DISARM (Table 10.12). -/
  lastDisarm : Nat := 0
  nslots : Nat := 0
  saturated : Nat := 0
  nextIndex : Nat := 0
  /-- Records since ARM. -/
  taken : Nat := 0
  /-- Records held, oldest first. -/
  records : List Record := []
  missedTotal : Nat := 0
  units : Vector TrigUnit 4 := Vector.replicate 4 {}
  /-- Firings not consumed, in order of arrival. -/
  firings : List Firing := []
  /-- The record in POST. -/
  cur : Option Record := none
  /-- Fountainhead time of ARM or of the last re-arm complete (R377). -/
  slotFrom : FTime := 0
  /-- The same in elapsed time. -/
  slotAt : Instant := 0
  /-- Fountainhead time of the last POST write (R377). -/
  lastPost : FTime := 0
  /-- DEAD_TIME and MISSED for the next record. -/
  dead : Nat := 0
  missed : Nat := 0
  /-- A disarm waits for the record in POST: its cause, and the DISARM commands waiting (R383). -/
  disarming : Option (Nat × List Nat) := none
  eccCorrected : Nat := 0
  eccUncorrectable : Nat := 0
  armStamp : Stamp := ⟨0, false⟩
  banks : Vector FilterBank 4 := Vector.replicate 4 {}
  /-- EVT pins pulsed by the last record trigger, and the elapsed time at which the pulse begins (R371). -/
  pulse : Nat × Instant := (0, 0)
  /-- The present or last arming, and the one before it, whose last units may still leave (R393). -/
  run : Arming := {}
  lastRun : Arming := { streamOff := true }
  /-- Results that each converter has delivered to the capture crossbar since the arming before the present one (R407). -/
  gauge : Vector (List Sampled) 4 := Vector.replicate 4 []
  spw : Spillway := {}
  deriving DecidableEq, Repr
/-- The latest results of one Gauge channel: code, elapsed time and stamp, latest first, three kept (R137, R145). -/
structure GaugeLast where
  code : Nat
  at' : Instant
  stamp : Stamp
  deriving DecidableEq, Repr

/-- A result in a converter's FIFO (Table 11.5). -/
structure GaugeResult where
  value : Nat
  channel : Nat
  injected : Bool
  late : Bool
  clipped : Bool
  stamp : Stamp
  deriving DecidableEq, Repr

/-- The conversion in progress: its entry, the elapsed time at which its sampling started, and its flags. -/
structure GaugeCur where
  entry : GaugeEntry
  start : Instant
  injected : Bool
  late : Bool
  deriving DecidableEq, Repr

/-- A regular pass in progress (R401): the entry that comes next, LATE for the entries to come (R404, R406), and whether
entries without SAFETY are skipped (R429). -/
structure GaugePass where
  next : Nat
  late : Bool
  shed : Bool
  deriving DecidableEq, Repr

/-- A housekeeping calibration (R426): the queue entry, the kind, the elapsed time of its start, none while it waits for
an injected conversion (R427), and T in 0.1 °C. -/
structure HkCal where
  seq : Nat
  kind : Nat
  start : Option Instant
  temp : Int
  deriving DecidableEq, Repr

/-- The five calibration sets of a converter or a Jets channel, one offset (1/16 code) and gain (2⁻¹⁶) per gain or range,
with their pins, and the correction in force (R425, R428). -/
structure CalSets where
  sets : Vector (Vector (Int × Int) 4) 5 := Vector.replicate 5 (Vector.replicate 4 (0, 0))
  pins : Vector Bool 5 := Vector.replicate 5 false
  corr : Vector (Int × Int) 4 := Vector.replicate 4 (0, 0)
  deriving DecidableEq, Repr

/-- One converter (Gauge). -/
structure GaugeConv where
  /-- The FIFO, oldest first, at most 64. -/
  fifo : List GaugeResult := []
  overflows : Nat := 0
  overruns : Nat := 0
  /-- Injected entries pending (R406). -/
  injected : List GaugeEntry := []
  cur : Option GaugeCur := none
  pass : Option GaugePass := none
  /-- Elapsed time at which the next pass is to start sampling: an event plus DELAY (R404). -/
  startAt : Option Instant := none
  /-- Elapsed time at which injected entries or a calibration last let the converter go. -/
  freeAt : Instant := 0
  /-- Elapsed time of the last entry boundary or end of a calibration: the present gap, if there is one, began then (R430). -/
  idleAt : Instant := 0
  /-- Trigger events announced and not yet taken up by their row, in order. -/
  trigs : List Instant := []
  cal : CalSets := {}
  calRun : Option HkCal := none
  deriving DecidableEq, Repr

/-- One Jets channel. -/
structure JetsChan where
  /-- Codes queued, the head first, at most 64. -/
  queue : List Nat := []
  /-- The output code; none before the first (R416). -/
  out : Option Nat := none
  /-- The output switch is closed: connected, not parked. -/
  connected : Bool := false
  /-- The park cause of Table 11.10 that stands from reset or wake. -/
  notEnabled : Bool := true
  /-- Elapsed time of the commit tick of a range or reference change still parked for (Table 11.10). -/
  rangePark : Option Instant := none
  /-- The deglitcher's hold: the code held at the output and the elapsed time of the tick (R415). -/
  hold : Option (Nat × Instant) := none
  /-- Ticks of the timer since the channel's last tick. -/
  cnt : Nat := 0
  /-- A tick of the channel has fallen and its row has not been taken. -/
  tickDue : Bool := false
  cal : CalSets := {}
  calRun : Option HkCal := none
  deriving DecidableEq, Repr

/-- One PWM unit. -/
structure PwmUnit where
  /-- Periods run: from the first commit with ENABLE 1 to the end of the period after ENABLE 0 (R424). -/
  running : Bool := false
  /-- Elapsed time of count 0 of the current period. -/
  start : Instant := 0
  /-- The tick of its timer has fallen and ends the period: its elapsed time. -/
  endDue : Option Instant := none
  /-- The CENTRE event of the current period is still to come. -/
  centre : Bool := false
  deriving DecidableEq, Repr

/-- One timer. -/
structure TimerUnit where
  running : Bool := false
  /-- Elapsed time of the start or of the last tick, when the present period began. -/
  start : Instant := 0
  /-- A tick has fallen since the start. -/
  ticked : Bool := false
  deriving DecidableEq, Repr

/-- The housekeeping analog block. -/
structure House where
  /-- The latest results of each Gauge channel. -/
  last : Vector (List GaugeLast) 64 := Vector.replicate 64 []
  gauge : Vector GaugeConv 4 := Vector.replicate 4 {}
  jets : Vector JetsChan 24 := Vector.replicate 24 {}
  pwm : Vector PwmUnit 8 := Vector.replicate 8 {}
  timer : Vector TimerUnit 4 := Vector.replicate 4 {}
  /-- Readings of the thermal monitor, DT0 to DT11 and DTP, 0.25 °C (R409). -/
  temps : Vector Int 13 := Vector.replicate 13 100
  deriving DecidableEq, Repr
/-- An entry of the event log (Table 14.4). -/
structure LogEntry where
  /-- SEQ. -/
  seq : Nat
  /-- CODE (Table 14.5). -/
  code : Nat
  /-- CLASS (Table 12.1). -/
  cls : Nat
  /-- SEVERITY. -/
  severity : Nat
  /-- IN_FLASH. -/
  inFlash : Bool
  /-- SOURCE: a block ID, 0xFFFF none. -/
  source : Nat
  /-- BOOT_COUNT. -/
  boot : Nat
  stamp : Stamp
  /-- TIME_VALID. -/
  timeValid : Bool
  /-- DETAIL words W7 to W11. -/
  detail : List Nat
  /-- Elapsed time of the entry, for the 2 ms of R504. -/
  at' : Instant
  /-- It stays in RAM only: the limit of copies to flash had been reached (R504). -/
  skipped : Bool := false
  deriving DecidableEq, Repr

/-- A control-path fault whose FAULT event is still to come (R444, R447). -/
structure FaultRec where
  cls : Nat
  epoch : Nat
  detail : Nat
  discarded : Nat
  stamp : Stamp
  deriving DecidableEq, Repr

/-- The integrity record (Table 12.4) and what its rules remember. -/
structure Integrity where
  corrected : Nat := 0
  uncorrData : Nat := 0
  uncorrParam : Nat := 0
  uncorrMgmt : Nat := 0
  rxResidue : Vector Nat 8 := Vector.replicate 8 0
  txResidue : Vector Nat 8 := Vector.replicate 8 0
  hostResidue : Nat := 0
  watchdogs : Nat := 0
  clockLosses : Nat := 0
  supplyFaults : Nat := 0
  thermalTrips : Nat := 0
  lastStamp : Stamp := ⟨0, false⟩
  /-- Elapsed time of the last log entry of a class and array, or class and lane (R432, R438). -/
  logged : List (Nat × Nat × Instant) := []
  /-- The last receive mismatches of a line lane, latest first, four kept (R436). -/
  recent : Vector (List Instant) 8 := Vector.replicate 8 []
  /-- Faults whose recovery is not complete, in order (R444, R447). -/
  faults : List FaultRec := []
  /-- Commands received before the last control-path fault: entries of a lower order of reception (R441). -/
  cut : Nat := 0
  /-- Elapsed time of the last control-path fault (R440). -/
  faultAt : Instant := 0
  /-- Islands for which class 0x07 holds FAULT_N (Table 12.1). -/
  clockHold : List Nat := []
  deriving DecidableEq, Repr

/-- A self-test in progress (R449 to R456). -/
structure TestRun where
  /-- TEST_ID (Table 12.5). -/
  id : Nat
  /-- The BIST_RUN waiting for it: entry and tag; none for a periodic instance. -/
  cmd : Option (Nat × Nat)
  periodic : Bool
  /-- Slices that have run. -/
  slices : Nat := 0
  /-- Elapsed time of the end of the last slice; 0 before the first (R430). -/
  sliceAt : Instant := 0
  /-- Elapsed time of the first slice, and its stamp. -/
  start : Instant
  stamp : Stamp
  /-- FIRST_FAIL. -/
  fail : Option Nat := none
  /-- ABORT_CAUSE at the end of the slice in progress; 0 while the test goes on. -/
  stop : Nat := 0
  /-- The BIST_ABORT commands that wait for the end of the slice. -/
  aborts : List Nat := []
  /-- A test of the spare after a mismatch of the shadow compare: the lane whose engine it clears or convicts (R454). -/
  verdict : Option (Fin 8) := none
  deriving DecidableEq, Repr

/-- A self-test result record (Table 12.6). -/
structure TestRecord where
  pass : Bool := false
  complete : Bool := false
  periodic : Bool := false
  cause : Nat := 0
  covPrimary : Nat := 0
  covSecondary : Nat := 0
  duration : Nat := 0
  elapsed : Nat := 0
  firstFail : Nat := 0xFFFFFFFF
  stamp : Stamp := ⟨0, false⟩
  deriving DecidableEq, Repr

/-- Why the spare takes over a lane (R452 to R454). -/
inductive TakeoverKind where
  /-- A periodic rotation step. -/
  | periodic
  /-- The out-of-turn step of a BIST_RUN: its entry and tag. -/
  | onDemand (seq tag : Nat)
  /-- A priority takeover. -/
  | priority
  deriving DecidableEq, Repr

/-- A takeover in its load or shadow phase. -/
structure Takeover where
  lane : Fin 8
  kind : TakeoverKind
  start : Instant
  deriving DecidableEq, Repr

/-- The self-test controller. -/
structure Bist where
  /-- ENABLE of BIST_SCHEDULE (R451). -/
  enable : Bool := true
  /-- The spare engine; none with no healthy one. -/
  spare : Option (Fin 9) := some 8
  retired : Vector Bool 9 := Vector.replicate 9 false
  suspect : Vector Bool 9 := Vector.replicate 9 false
  /-- The lane of the previous rotation step. -/
  lastLane : Option (Fin 8) := none
  /-- Elapsed time of the last rotation step. -/
  stepAt : Instant := 0
  takeover : Option Takeover := none
  /-- Priority takeovers waiting. -/
  due : List (Fin 8) := []
  runs : List TestRun := []
  /-- The last record of each test. -/
  records : List (Nat × TestRecord) := []
  /-- Elapsed time of the last periodic test of each Cistern region. -/
  cisternAt : Vector Instant 2 := Vector.replicate 2 0
  deriving DecidableEq, Repr

/-- POWER_ENTER in progress (R472). -/
structure PowerEntry where
  /-- The queue, the entry and its tag. -/
  queue : QId
  seq : Nat
  /-- 1 STANDBY, 2 SLEEP, 3 DEEP. -/
  target : Nat
  /-- Elapsed time of acceptance. -/
  at' : Instant
  /-- The command has replied. -/
  replied : Bool
  /-- Elapsed time of the sleep request, always-on cycle 0. -/
  request : Option Instant := none
  deriving DecidableEq, Repr

/-- A wake in progress (R475 to R477). -/
structure Wake where
  /-- 1 STANDBY, 2 SLEEP, 3 DEEP. -/
  origin : Nat
  sources : Nat
  /-- Stage of Table 13.8 in progress: 1 to 3; 4 once they have completed; 5 while the WAKE event of a recovery attempt
  waits for POWER_RECOVER. -/
  stage : Nat
  stageAt : Instant
  /-- Retries made (R476). -/
  retry : Nat
  /-- A recovery attempt from the stuck state (R477). -/
  recovery : Bool
  cancelled : Bool := false
  deriving DecidableEq, Repr

/-- A recorded wake failure (R476). -/
structure WakeFailure where
  stage : Nat
  retry : Nat
  origin : Nat
  rails : Nat
  deriving DecidableEq, Repr

/-- Sluice, the rails, the power states and the wake logic. -/
structure Power where
  /-- VIN is above UVLO: the always-on island is powered. -/
  powered : Bool := true
  /-- The rails of Table 13.1 in window, in its order. -/
  railOk : Vector Bool 8 := Vector.replicate 8 true
  /-- Elapsed time since which each rail is in or out of window. -/
  railAt : Vector Instant 8 := Vector.replicate 8 0
  /-- The soft-start in progress: its place in the order of R462 and the elapsed time of its start. -/
  starting : Option (Nat × Instant) := none
  /-- Reset is held: since power-on, a shutdown or RESET_N. -/
  held : Bool := false
  /-- RESET_N is high. -/
  resetN : Bool := true
  /-- BYPASS as sampled at power-on (R461). -/
  bypass : Bool := false
  /-- BYPASS has been sampled since power-on (R516). -/
  bypassTaken : Bool := true
  /-- Elapsed times of the last shutdowns, latest first (R460). -/
  shutdowns : List Instant := []
  /-- A shutdown holds the rails off: the third within 1 s until RESET_N or UVLO (R460). -/
  isOff : Bool := false
  stuckOff : Bool := false
  /-- Rails out of window at each shutdown that the log does not hold yet (Table 14.5). -/
  shutRails : List Nat := []
  /-- VIN of the last comparator update, mV. -/
  vin : Nat := 0
  /-- VIN of the last comparator update as the next one sees it; none before the first (R465). -/
  vinPrev : Option Nat := none
  /-- Stage-6 step in force; none outside stage 6 (R466). -/
  step : Option Nat := none
  /-- Elapsed time of the last change of S or of a step (R465). -/
  shedAt : Instant := 0
  /-- WAKE_N_EDGE and TIMER_MS (Table 13.7). -/
  wakeEdge : Bool := false
  timerMs : Nat := 0
  /-- WAKE_MASK of the state entered or being entered: bit 0 I3C, 1 WAKE_N, 2 PPS_IN, 3 timer (Table 13.6). -/
  mask : Nat := 0
  /-- WAKE_N is high. -/
  wakeN : Bool := true
  /-- LPMODE is high. -/
  lpmode : Bool := true
  /-- Elapsed time at which the always-on timer started; none while it does not run (R474). -/
  timerFrom : Option Instant := none
  /-- The timer has expired: a level until the wake. -/
  timerUp : Bool := false
  entry : Option PowerEntry := none
  wake : Option Wake := none
  failures : List WakeFailure := []
  /-- Elapsed time of a wake failure awaiting its retry, with the wake that failed (R476). -/
  retryOf : Option (Instant × Wake) := none
  /-- The stuck state (R476). -/
  stuck : Bool := false
  /-- A recovery attempt has booted and POWER_RECOVER has not been accepted; the elapsed time of its BOOT_DONE (R477). -/
  restricted : Option Instant := none
  /-- SOURCES of the last WAKE event. -/
  lastSources : Nat := 0
  deriving DecidableEq, Repr

/-- An image in a slot: its header (Table 14.2) with what the computations of R486 over its bytes come to. -/
structure Image where
  /-- Check 1 of R486 but for the slot and the device's option: MAGIC, FORMAT, lengths and reserved bits. -/
  headerOk : Bool
  /-- KIND: configuration. -/
  config : Bool
  /-- OPTION_MASK: bit 0 ZK3208-X, bit 1 ZK3208-W. -/
  options : Nat
  version : Nat
  rollback : Nat
  /-- The key-hash slot whose hash equals SHA-384 of PUBKEY. -/
  keySlot : Option (Fin 4)
  /-- SIGNATURE is valid under PUBKEY. -/
  sigOk : Bool
  /-- SHA-384 of the body equals DIGEST. -/
  digestOk : Bool
  digest : List Byte
  body : List Byte
  deriving DecidableEq, Repr

/-- A flash slot: A, B, C0 or C1. -/
structure Slot where
  image : Option Image := none
  /-- VERIFIED (R494). -/
  verified : Bool := false
  /-- Bytes written since the erase: offset and byte, ascending; an offset not listed is not written (R493). -/
  data : List (Nat × Byte) := []
  deriving DecidableEq, Repr

/-- A boot record (R487). -/
structure BootRecord where
  seq : Nat
  fw : Fin 2
  cfg : Fin 2
  trial : Bool
  tries : Nat
  count : Nat
  deriving DecidableEq, Repr

/-- Kinds of boot (R488). -/
inductive BootKind where
  /-- After reset release, from recovery, or a watchdog expiry during such a boot. -/
  | reset
  /-- At a wake from DEEP. -/
  | deep
  /-- A restart over a running data path. -/
  | restart
  deriving DecidableEq, Repr

/-- The management processor, its flash and its OTP. -/
structure Firmware where
  /-- Slots A, B, C0, C1.  A holds the firmware of manufacture (its header apart from the rollback index is open). -/
  slots : Vector Slot 4 := (Vector.replicate 4 {}).set 0
    { image := some { headerOk := true, config := false, options := 3, version := Config.reading 0x1000 0, rollback := 0
                      keySlot := some 0, sigOk := true, digestOk := true, digest := [], body := [] }, verified := true }
  /-- The two boot records; the one with the higher sequence number governs. -/
  records : Vector BootRecord 2 := Vector.ofFn fun i => { seq := i.val, fw := 0, cfg := 0, trial := false, tries := 0, count := 0 }
  /-- The boot ROM is to run: what kind of boot. -/
  romDue : Option BootKind := some .reset
  /-- The boot in progress, from the boot ROM's run to BOOT_DONE, and the elapsed time of its start. -/
  boot : Option (BootKind × Instant) := none
  /-- The slot whose image runs; none in recovery and before the first boot. -/
  runSlot : Option (Fin 2) := none
  /-- The configuration slot in use. -/
  cfgSlot : Option (Fin 2) := none
  /-- The running image is not yet confirmed. -/
  trial : Bool := false
  fallback : Bool := false
  /-- Recovery (R491). -/
  recovery : Bool := false
  /-- The boot follows an activation with NOW. -/
  activated : Bool := false
  fromDeep : Bool := false
  configErrors : Nat := 0
  /-- MODEL'S OWN: the firmware's commands that wait for a place in Q3, each with whether it is of the configuration body (R74). -/
  q3Wait : List (Cmd × Bool) := []
  /-- The open reception: slot, BYTES, and whether it came over Rill (R492, R349). -/
  reception : Option (Fin 4 × Nat × Bool) := none
  /-- Key-hash slots programmed and revoked (R497). -/
  keys : Vector Bool 4 := #v[true, false, false, false]
  revoked : Vector Bool 4 := Vector.replicate 4 false
  /-- Values of the programmed anti-rollback words, the latest first (R500). -/
  rollback : List Nat := []
  /-- SCOPE of the debug unlock; none while locked (R507). -/
  dbgScope : Option Nat := none
  /-- The processor is halted by the debug port. -/
  halted : Bool := false
  /-- The last byte DBG_DO gave. -/
  dbgOut : Option Byte := none
  /-- Bytes of SRAM and flash that the debug port has written, by address, ascending; what others hold is open. -/
  mem : List (Nat × Byte) := []
  /-- The flash log, oldest first, at most 4,096 (R504). -/
  flashLog : List LogEntry := []
  flashSkipped : Nat := 0
  /-- Elapsed times of the copies to flash of the last second (R504). -/
  copied : List Instant := []
  /-- CMIS mapping profile (R509). -/
  cmisProfile : Nat := 1
  /-- Page and bank select (R508). -/
  cmisPage : Nat := 0
  cmisBank : Nat := 0
  /-- Bytes written through the window: 65,536 × bank + 256 × page + byte, ascending. -/
  cmis : List (Nat × Byte) := []
  deriving DecidableEq, Repr

/-- The rest of the device: options, boot, faults, self-test, power and management. -/
structure Sys where
  /-- SADDR_SEL as sampled at reset release (R462). -/
  saddrSel : Bool := false
  /-- BOOT_COUNT of the boot (R487). -/
  bootCount : Nat := 0
  /-- The next SEQ of the event log (R503). -/
  logSeq : Nat := 0
  /-- The ordering option is W (R1), OTP. -/
  optionW : Bool := false
  /-- SERIAL, OTP. -/
  serial : Nat := 0
  /-- BOOT_DONE has been reported since the boot began. -/
  booted : Bool := false
  /-- Recovery from a control-path fault (R445). -/
  recovering : Bool := false
  /-- PSTATE (Table 2.2): 0 RUN, 1 STANDBY, 2 SLEEP, 3 DEEP, 4 booting. -/
  pstate : Nat := 4
  /-- WAKE_FAIL (R476). -/
  wakeFail : Bool := false
  /-- LAST_CLASS (Table 12.4). -/
  lastClass : Nat := 0
  /-- FAULT_EPOCH (R73). -/
  faultEpoch : Nat := 0
  /-- TX_DISABLE is high; at reset it is low, as the reset of SQUELCH_CAUSE in Table 4.10 has it (log 11). -/
  txDisable : Bool := false
  /-- The thermal trip has fallen (Table 12.1). -/
  thermalTrip : Bool := false
  /-- S, the shedding stage in force (R465). -/
  shedStage : Nat := 0
  /-- The RAM log, oldest first (R504). -/
  log : List LogEntry := []
  /-- Islands on their island clock (R21). -/
  islands : Vector Bool 64 := Vector.replicate 64 false
  integ : Integrity := {}
  bist : Bist := {}
  pow : Power := {}
  fw : Firmware := {}
  deriving DecidableEq, Repr

/-- One copy of the parameters of every block (R31).  A set of one block is its slice of a bank. -/
structure Bank where
  lineTx : Vector LineTxP 8 := Vector.replicate 8 {}
  lineRx : Vector LineRxP 8 := Vector.replicate 8 {}
  port : Vector PortP 8 := Vector.replicate 8 {}
  host : Vector HostP 16 := Vector.replicate 16 {}
  servo : ServoP := {}
  pps : PpsP := {}
  rill : RillP := {}
  weir : WeirP := {}
  channel : Vector ChannelP 8 := Vector.replicate 8 {}
  decim : Vector DecimP 4 := Vector.replicate 4 {}
  spillway : SpillwayP := {}
  gauge : Vector GaugeP 4 := Vector.replicate 4 {}
  jets : Vector JetsP 24 := Vector.replicate 24 {}
  pwm : Vector PwmP 8 := Vector.replicate 8 {}
  timer : Vector TimerP 4 := Vector.replicate 4 {}
  sluice : SluiceP := {}
  /-- Pinned parameters (R50): the block, the expert opcode that writes it, and the element of that command's indexed
  field; elements from 128 up are the parameters outside the indexed field. -/
  pins : List (Block × Nat × Nat) := []
  /-- Fields that act once at a commit and were written since the last one (R218, R252, R270, R285): block, opcode and
  reception order of the write. -/
  marks : List (Block × Nat × Nat) := []
  deriving DecidableEq, Repr

/-- A commit that is pending (R36, R40, R41, R351). -/
structure Commit where
  /-- Its number in order of acceptance. -/
  id : Nat
  kind : CommitKind
  queue : QId
  tag : Nat
  /-- Sequence of the queue entry that waits for it. -/
  seq : Nat
  /-- Named blocks, in the order named. -/
  blocks : List CommitBlock
  /-- The shadow sets at acceptance: the snapshots (R36). -/
  snap : Bank
  /-- Resolved commit time Tc. -/
  tc : FTime
  /-- Elapsed time of acceptance. -/
  at' : Instant
  /-- The COMMIT has replied OK to its validation (R40). -/
  settled : Bool
  /-- Cancelled, discarded or failed before Tc: nothing of it commits (R42, R44). -/
  cancelled : Bool
  /-- A block failed to commit after Tc: FAIL_BLOCK (R38). -/
  failed : Option Block
  /-- Commit stamp of the last block to commit. -/
  last : Stamp
  deriving DecidableEq, Repr

/-- The whole state of the device. -/
structure State where
  /-- Commands and events waiting, first in, first out. -/
  pending : List Instr := []
  /-- Elapsed time since power-on. -/
  now : Instant := 0
  /-- MODEL'S OWN: index of the next free value. -/
  free : Nat := 0
  bus : Bus := {}
  q : Queues := {}
  shadow : Bank := {}
  active : Bank := {}
  previous : Bank := {}
  meta' : Vector BlockMeta 99 := Vector.replicate 99 {}
  commits : List Commit := []
  nextCommit : Nat := 0
  /-- Parameters released and still pinned in the active sets until their block's next boundary (R51): block, expert opcode
  and element. -/
  releases : List (Block × Nat × Nat) := []
  limits : Limits := {}
  /-- Owners of EVT0–7, TMR0–3, DC0–3, the burst region, the line loops and the host loops, in that order (Table 2.18). -/
  owners : Vector Owner 41 := Vector.replicate 41 {}
  lanes : Vector Lane 8 := Vector.ofFn fun i => { eq := { engine := i.val } }
  relays : Vector Lane 16 := Vector.replicate 16 {}
  /-- Eye scans in progress (R150). -/
  scans : List EyeScan := []
  hosts : Vector HostLane 16 := Vector.replicate 16 {}
  ports : Vector Port 8 := Vector.replicate 8 {}
  tb : TimeBase := {}
  /-- Time-bus replicas by island number (Table 2.13). -/
  replicas : Vector Replica 64 := Vector.replicate 64 {}
  rill : Rill := {}
  acq : Acq := {}
  /-- The carriage of the captured sources of each line lane, and of those of Weir's island, last (R356). -/
  carriage : Vector Carriage 9 := Vector.replicate 9 {}
  hk : House := {}
  sys : Sys := {}
  deriving DecidableEq, Repr

/-- Why the block could stop.  No meaning of the model stops: the one constructor names what the state's plain form
would admit and no operation raises. -/
inductive Fault where
  /-- Raised by nothing (safe). -/
  | none
  deriving DecidableEq, Repr

/-- Why a command has no meaning. -/
inductive Refusal where
  /-- Raised by an arm of `exec` whose meaning is not written (safe). -/
  | notModelled (mnemonic : String)
  deriving DecidableEq, Repr

/-- The device right after reset (R14, R31): every field at the value its declaration gives. -/
def State.reset : State := {}

end Machine
end Sys2Proof
end

