-- ==== Sys2Proof/Machine/Ops.lean ====
section
/-! DEFINITION. The named operations every meaning is written with: elapsed and Fountainhead time, lanes and blocks, the
outbound stream, replies and events, the event log, Rill frames toward the manager, acceptance and completion of
commands, and writes of shadow parameters. -/
namespace Sys2Proof.Machine

/-- Reply statuses (Table 2.7). -/
inductive Status where
  | ok | limitClamped | badOpcode | badParam | badLength | badCrc | expertRequired | resourceBusy | precondition
  | filterRunning | bandwidth | notReady | applyFailed | timeout | unreachable | discarded | queueFull | authFailed
  | rollback
  deriving DecidableEq, Repr

/-- The code of a status (Table 2.7). -/
def Status.code : Status → Nat
  | .ok => 0x0000 | .limitClamped => 0x0001 | .badOpcode => 0x0010 | .badParam => 0x0011 | .badLength => 0x0012
  | .badCrc => 0x0013 | .expertRequired => 0x0020 | .resourceBusy => 0x0021 | .precondition => 0x0022
  | .filterRunning => 0x0023 | .bandwidth => 0x0024 | .notReady => 0x0025 | .applyFailed => 0x0026
  | .timeout => 0x0030 | .unreachable => 0x0031 | .discarded => 0x0040 | .queueFull => 0x0041
  | .authFailed => 0x0050 | .rollback => 0x0051

/-! ### Time -/

/-- Fountainhead time (R260). -/
def State.fnow (s : State) : FTime := s.tb.counter / 2 ^ 48

/-- The receive half works: it is none of DISABLED, STILL and CALIBRATING. -/
def Lane.receiving (l : Lane) : Bool := decide (l.acq.state ≠ .disabled ∧ l.acq.state ≠ .still ∧ l.acq.state ≠ .calibrating)

/-- The island of an engine runs on its island clock, so that it carries traffic (R21). -/
def State.engineRuns (s : State) (e : Nat) : Bool := s.sys.islands.toList.getD (8 + e) false

/-- An island's stamps are valid: its replica is aligned and without error (R26, R27). -/
def State.stampsValid (s : State) (n : Fin 64) : Bool := s.tb.running && s.replicas[n].aligned && !s.replicas[n].error

/-- A span of time joins those noted, latest first. -/
def addSpan (xs : List (Instant × Instant)) (a b : Instant) : List (Instant × Instant) :=
  match xs with
  | x :: rest => if x.2 = a then (x.1, b) :: rest else (a, b) :: xs
  | [] => [(a, b)]

/-- What held from one instant to another is noted: the stage, whether the receive half worked, whether the engine ran, and whether stamps
were valid (R26, R356, R379). -/
def Carriage.note (c : Carriage) (stage : Stage) (rx engine stamps : Bool) (a b : Instant) : Carriage :=
  { stage
    changes := if stage = c.stage then c.changes else a :: c.changes
    silent := if rx then c.silent else addSpan c.silent a b
    eqSilent := if rx && engine then c.eqSilent else addSpan c.eqSilent a b
    unstamped := if stamps then c.unstamped else addSpan c.unstamped a b }

/-- The carriage of the captured sources as time moves on: noted while acquisition is armed (R356). -/
def State.noteCarriage (s : State) (t : Instant) : Vector Carriage 9 :=
  if s.acq.state = .disarmed then s.carriage
  else vmap s.carriage fun i c => match idx? 8 i.val with
    | some n => c.note s.lanes[n].acq.stage s.lanes[n].receiving (s.engineRuns s.lanes[n].eq.engine) (s.stampsValid ⟨n.val, by omega⟩) s.now t
    | none => c.note c.stage true true (s.stampsValid 49) s.now t

/-- Elapsed time moves to an instant; an instant already past leaves it where it stands.  The counter, while it runs,
advances by the elapsed time and the rate term (R262), and what the captured sources did until then is noted (R356). -/
def State.advanceTo (s : State) (t : Instant) : State :=
  if t ≤ s.now then s
  else
    let d := t - s.now
    let c := if s.tb.running then ((s.tb.counter : Int) + d * (2 ^ 48 + s.tb.f)).toNat else s.tb.counter
    { s with now := t, tb := { s.tb with counter := c }, carriage := s.noteCarriage t }

/-- The counter at an instant not after `now`, from its value and F at `now` and the changes since (R262, R266). -/
def counterBack (a : Instant) : Instant → Nat → Int → List (Instant × Nat × Int) → Nat
  | now, c, f, [] => ((c : Int) - ((now - a : Nat) : Int) * (2 ^ 48 + f)).toNat
  | now, c, f, (t, c', f') :: rest =>
    if t ≤ a then ((c : Int) - ((now - a : Nat) : Int) * (2 ^ 48 + f)).toNat else counterBack a t c' f' rest

/-- The Fountainhead time at an instant not after the present one (R262, R266). -/
def State.fAt (s : State) (a : Instant) : FTime :=
  if s.tb.running then counterBack a s.now s.tb.counter s.tb.f s.tb.past / 2 ^ 48 else s.fnow

/-- Fountainhead's tick count: counter ticks of 0.8 ns since the counter started (R22, R262). -/
def State.ticks (s : State) : Nat := 5 * (s.now - s.tb.startAt) / 262144

/-- The tick of an epoch message falls now: every 1,024 ticks (R22). -/
def State.atEpoch (s : State) : Bool := s.tb.running && decide (5 * (s.now - s.tb.startAt) % 268435456 < 5)

/-- Islands to which Fountainhead drives the time bus: line lanes, host lanes, Weir, the converters and the management
processor (R22, Table 2.13). -/
def stampingIsland (n : Fin 64) : Bool :=
  decide (n.val < 8 ∨ (17 ≤ n.val ∧ n.val < 33) ∨ n.val = 45 ∨ n.val = 49 ∨ (57 ≤ n.val ∧ n.val < 61))

/-- What remains of a replica's skew after its trim: at most 0.15 ps (R23). -/
def Replica.residual (r : Replica) : Int := clampInt (-9) 9 (r.skew - r.trim)

/-- The time of an event at an elapsed instant, formed by an island's replica with a granularity of `num / den` units of
2⁻¹⁶ ns, and valid while the replica is aligned and without error (R24 to R27).  DESIGN CHOICE (log 119): an instant
between two steps of the granularity takes the earlier one. -/
def State.stampAt (s : State) (n : Fin 64) (num den : Nat) (a : Instant) : Stamp :=
  ⟨((s.fAt (a * den / num * num / den) : Int) + s.replicas[n].residual).toNat, s.stampsValid n⟩

/-- A stamp of the present instant on an island, as its replica forms it (R24, R26, R27). -/
def State.stampOn (s : State) (n : Fin 64) : Stamp := s.stampAt n 1 1 s.now

/-- The island of a converter (Table 2.13). -/
def gaugeIsland (g : Fin 4) : Fin 64 := ⟨57 + g.val, by omega⟩

/-- A stamp of a converter at an instant, to 10 ns (Table 1.2).  DESIGN CHOICE (log 119): what the trim leaves of its replica's skew, far
below that step, moves no such stamp, so that the stamps of converters that sample at one instant are equal (R405). -/
def State.stampGauge (s : State) (g : Fin 4) (a : Instant) : Stamp := ⟨s.fAt (a / 655360 * 655360), s.stampsValid (gaugeIsland g)⟩

/-- A stamp of the management processor (island 45): an instruction, to 2 ns (Table 1.2). -/
def State.stampMgmt (s : State) : Stamp := s.stampAt 45 131072 1 s.now

/-- The 12 bytes of a stamp's time and the word of its validity flag. -/
def Stamp.bytes (st : Stamp) : List Byte := timeWords st.time ++ leBytes 4 (flag st.valid)

/-- The record-port islands SPW0 and SPW1 of a ZK3208-W, which stay powered down (R2, Table 2.13). -/
def State.absentIsland (s : State) (n : Fin 64) : Bool := s.sys.optionW && decide (n.val = 41 ∨ n.val = 42)

/-- The host lane of a host lane island (Table 1.1). -/
def hostIslandLane (n : Fin 64) : Option (Fin 16) := if n.val < 17 then none else idx? 16 (n.val - 17)

/-- The island of a host lane is powered off: the lane is in L2 or on its way there (R27, R249). -/
def HostLane.islandOff (h : HostLane) : Bool := decide (h.power = .l2 ∨ h.powerTarget = .l2)

/-- An island runs on its island clock: a line lane's while the lane is clocked, and a host lane's outside L2 (R21, R27). -/
def State.onIslandClock (s : State) (n : Fin 64) : Bool :=
  match idx? 8 n.val with
  | some k => s.lanes[k].tx.clocked
  | none => s.sys.islands[n] && !((hostIslandLane n).any fun k => s.hosts[k].islandOff)

/-- The port island of a slice runs on its island clock, so that it carries traffic (R21). -/
def State.portRuns (s : State) (n : Fin 8) : Bool := s.sys.islands[(⟨33 + n.val, by omega⟩ : Fin 64)]

/-- The island cycle in which a deadline falls is over, the cycle lasting `num / den` units: an event of that cycle has come before the
expiry (R45). -/
def State.past (s : State) (num den : Nat) (d : Instant) : Bool := decide (d * den / num < s.now * den / num)

/-- A deadline kept by the command interface or the firmware's 100 MHz side is past (Table 1.1, R45). -/
abbrev State.pastCmd (s : State) (d : Instant) : Bool := s.past 655360 1 d

/-- A deadline kept by an island of the 1.0 GHz core is past (Table 1.1, R45). -/
abbrev State.pastCore (s : State) (d : Instant) : Bool := s.past 65536 1 d

/-- A deadline kept by the firmware, whose processor runs at 500 MHz, is past (Table 1.1, R45). -/
abbrev State.pastMgmt (s : State) (d : Instant) : Bool := s.past 131072 1 d

/-- A deadline in Fountainhead time that the firmware keeps is past (Table 1.1, R45). -/
def State.pastTime (s : State) (f : FTime) : Bool := decide (f / 131072 < s.fnow / 131072)

/-- A deadline kept by the always-on island is past (Table 1.1, R45). -/
abbrev State.pastAlwaysOn (s : State) (d : Instant) : Bool := s.past 2621440 1 d

/-- Elapsed microseconds since an instant, saturating at 32 bits. -/
def State.microsSince (s : State) (t : Instant) : Nat := min ((s.now - t) / usec 1) 0xFFFFFFFF

/-- The next free value index, consumed. -/
def State.draw (s : State) : Nat × State := (s.free, { s with free := s.free + 1 })

/-! ### Blocks -/

/-- The block ID of a block (Table 2.9). -/
def Block.id : Block → Nat
  | .lineTx n => 0x0100 + n.val | .lineRx n => 0x0200 + n.val | .port n => 0x0300 + n.val | .host n => 0x0400 + n.val
  | .servo => 0x0500 | .ppsOut => 0x0600 | .rill => 0x0700 | .weir => 0x0800 | .channel n => 0x0900 + n.val
  | .decim n => 0x0A00 + n.val | .cistern => 0x0B00 | .spillway => 0x0C00 | .gauge n => 0x0D00 + n.val
  | .jets n => 0x0E00 + n.val | .pwm n => 0x0F00 + n.val | .timer n => 0x1000 + n.val | .sluice => 0x1100

/-- The place of a block in the device's per-block records. -/
def Block.index : Block → Fin 99
  | .lineTx n => ⟨n.val, by omega⟩ | .lineRx n => ⟨8 + n.val, by omega⟩ | .port n => ⟨16 + n.val, by omega⟩
  | .host n => ⟨24 + n.val, by omega⟩ | .servo => 40 | .ppsOut => 41 | .rill => 42 | .weir => 43
  | .channel n => ⟨44 + n.val, by omega⟩ | .decim n => ⟨52 + n.val, by omega⟩ | .cistern => 56 | .spillway => 57
  | .gauge n => ⟨58 + n.val, by omega⟩ | .jets n => ⟨62 + n.val, by omega⟩ | .pwm n => ⟨86 + n.val, by omega⟩
  | .timer n => ⟨94 + n.val, by omega⟩ | .sluice => 98

/-- One instance, or every instance for 0xFF, of a class with `n` instances. -/
def instances (n i : Nat) (mk : Fin n → Block) : Option (List Block) :=
  if i = 0xFF then some ((List.finRange n).map mk) else (idx? n i).map fun k => [mk k]

/-- The blocks a block ID names, none for an unlisted class or instance (R88). -/
def blocksOf (id : Nat) : Option (List Block) :=
  let i := bits id 0 8
  match bits id 8 8 with
  | 0x01 => instances 8 i .lineTx
  | 0x02 => instances 8 i .lineRx
  | 0x03 => instances 8 i .port
  | 0x04 => instances 16 i .host
  | 0x05 => instances 1 i fun _ => .servo
  | 0x06 => instances 1 i fun _ => .ppsOut
  | 0x07 => instances 1 i fun _ => .rill
  | 0x08 => instances 1 i fun _ => .weir
  | 0x09 => instances 8 i .channel
  | 0x0A => instances 4 i .decim
  | 0x0B => instances 1 i fun _ => .cistern
  | 0x0C => instances 1 i fun _ => .spillway
  | 0x0D => instances 4 i .gauge
  | 0x0E => instances 24 i .jets
  | 0x0F => instances 8 i .pwm
  | 0x10 => instances 4 i .timer
  | 0x11 => instances 1 i fun _ => .sluice
  | _ => none

/-- Blocks named by a list of IDs, each once, in the order first named (R88); none when an ID is unlisted. -/
def namedBlocks (ids : List Nat) : Option (List Block) :=
  (ids.mapM blocksOf).map fun bss => bss.flatten.eraseDups

/-- One bank with the set of one block, its pins and its act-once marks replaced by another bank's. -/
def Bank.copy (b : Block) (src dst : Bank) : Bank :=
  let d := { dst with
    pins := dst.pins.filter (fun p => decide (p.1 ≠ b)) ++ src.pins.filter (fun p => decide (p.1 = b))
    marks := dst.marks.filter (fun p => decide (p.1 ≠ b)) ++ src.marks.filter (fun p => decide (p.1 = b)) }
  match b with
  | .lineTx n => { d with lineTx := d.lineTx.set n src.lineTx[n] }
  | .lineRx n => { d with lineRx := d.lineRx.set n src.lineRx[n] }
  | .port n => { d with port := d.port.set n src.port[n] }
  | .host n => { d with host := d.host.set n src.host[n] }
  | .servo => { d with servo := src.servo }
  | .ppsOut => { d with pps := src.pps }
  | .rill => { d with rill := src.rill }
  | .weir => { d with weir := src.weir }
  | .channel n => { d with channel := d.channel.set n src.channel[n] }
  | .decim n => { d with decim := d.decim.set n src.decim[n] }
  | .cistern => d
  | .spillway => { d with spillway := src.spillway }
  | .gauge n => { d with gauge := d.gauge.set n src.gauge[n] }
  | .jets n => { d with jets := d.jets.set n src.jets[n] }
  | .pwm n => { d with pwm := d.pwm.set n src.pwm[n] }
  | .timer n => { d with timer := d.timer.set n src.timer[n] }
  | .sluice => { d with sluice := src.sluice }

/-- The device's record of a block. -/
def State.meta (s : State) (b : Block) : BlockMeta := s.meta'[b.index]

/-- The device's record of a block, changed. -/
def State.modMeta (s : State) (b : Block) (f : BlockMeta → BlockMeta) : State :=
  { s with meta' := upd s.meta' b.index f }

/-- A parameter is pinned in a bank (R50). -/
def Bank.pinned (k : Bank) (b : Block) (op el : Nat) : Bool := k.pins.contains (b, op, el)

/-! ### Writes of shadow parameters (R32, R50) -/

/-- A change of the shadow sets. -/
def State.modShadow (s : State) (f : Bank → Bank) : State := { s with shadow := f s.shadow }

/-- A basic command writes one parameter: a pinned one is left unchanged and counted in PINNED_SKIPS (R50). -/
def State.writeBasic (s : State) (b : Block) (op el : Nat) (f : Bank → Bank) : State :=
  if s.shadow.pinned b op el then s.modMeta b fun m => { m with pinnedSkips := satAdd 16 m.pinnedSkips 1 }
  else s.modShadow f

/-- An expert command writes one parameter and pins it (R50). -/
def State.writeExpert (s : State) (b : Block) (op el : Nat) (f : Bank → Bank) : State :=
  s.modShadow fun k =>
    let k := f k
    if k.pinned b op el then k else { k with pins := k.pins ++ [(b, op, el)] }

/-- A write of a field that acts at its commit whatever its value is remembered until that commit. -/
def State.mark (s : State) (b : Block) (op : Nat) : State :=
  { s with
    shadow := { s.shadow with marks := s.shadow.marks.filter (fun m => decide (m.1 ≠ b ∨ m.2.1 ≠ op)) ++ [(b, op, s.q.nextSeq)] }
    q := { s.q with nextSeq := s.q.nextSeq + 1 } }

/-- A field that acts at its commit is written to act at none. -/
def State.unmark (s : State) (b : Block) (op : Nat) : State :=
  s.modShadow fun k => { k with marks := k.marks.filter fun m => decide (m.1 ≠ b ∨ m.2.1 ≠ op) }

/-- A bank holds a mark of a block for an opcode. -/
def Bank.marked (k : Bank) (b : Block) (op : Nat) : Bool := k.marks.any fun m => decide (m.1 = b ∧ m.2.1 = op)

/-- One change applied for each of a list of lanes or units. -/
def State.forEach {α : Type} (s : State) (xs : List α) (f : α → State → State) : State := xs.foldl (fun s x => f x s) s

/-! ### Lanes -/

/-- A lane. -/
def State.lane (s : State) : LaneRef → Lane
  | .line n => s.lanes[n]
  | .relay n => s.relays[n]

/-- A lane, changed. -/
def State.modLane (s : State) (r : LaneRef) (f : Lane → Lane) : State :=
  match r with
  | .line n => { s with lanes := upd s.lanes n f }
  | .relay n => { s with relays := upd s.relays n f }

/-- A host lane, changed. -/
def State.modHost (s : State) (n : Fin 16) (f : HostLane → HostLane) : State := { s with hosts := upd s.hosts n f }

/-- A port island, changed. -/
def State.modPort (s : State) (n : Fin 8) (f : Port → Port) : State := { s with ports := upd s.ports n f }

/-- The Rill link of a port ID, changed. -/
def State.modLink (s : State) (p : Fin 16) (f : Link → Link) : State :=
  { s with rill := { s.rill with links := upd s.rill.links p f } }

/-- The island number of a lane (Table 2.13). -/
def LaneRef.island : LaneRef → Fin 64
  | .line n => ⟨n.val, by omega⟩
  | .relay n => ⟨17 + n.val, by omega⟩

/-- The lane's number in reports. -/
def LaneRef.num : LaneRef → Nat
  | .line n => n.val
  | .relay n => n.val

/-- A thermal monitor reading of 0.25 °C steps in 0.1 °C (R409). -/
def tenths (q : Int) : Int := roundDiv (5 * q) 2

/-- The temperature of the die sensor beside a lane, 0.1 °C: DT0 to DT7 by line lane, DT9 and DT10 by host lane
(Table 11.1). -/
def State.laneTemp (s : State) : LaneRef → Int
  | .line n => tenths (s.hk.temps[n.val]'(by omega))
  | .relay n => if n.val < 8 then tenths s.hk.temps[9] else tenths s.hk.temps[10]

/-! ### The event log (R503, R504) -/

/-- An entry enters the RAM log, a ring of 512 entries. -/
def State.logEntry (s : State) (code cls severity source : Nat) (detail : List Nat) : State :=
  let e : LogEntry := { seq := s.sys.logSeq, code, cls, severity, inFlash := false, source,
                        boot := s.sys.bootCount % 65536, stamp := s.stampMgmt, timeValid := s.tb.timeValid,
                        detail, at' := s.now }
  let l := s.sys.log ++ [e]
  { s with sys := { s.sys with log := l.drop (l.length - 512), logSeq := (s.sys.logSeq + 1) % 2 ^ 32 } }

/-! ### Packets and the outbound stream -/

/-- KIND of a packet (Table 2.6). -/
def PacketKind.code : PacketKind → Nat
  | .reply => 0x00
  | .event => 0x01
  | .rejection => 0x02

/-- The bytes of an outbound packet: header, payload, padding and CRC-32C (R72). -/
def Packet.bytes (p : Packet) : List Byte :=
  let body := wordsLe [pack [(0x5A, 8), (p.epoch, 8), (p.status, 16)], pack [(p.tag, 16), (p.code, 16)],
      pack [(p.payload.length, 16), (p.kind.code, 8), (p.queue, 4)]] ++ p.payload ++ padding p.payload.length
  body ++ leBytes 4 (crc32c body)

/-- Packets of one kind waiting in the stream. -/
def State.waiting (s : State) (k : PacketKind) : Nat := s.bus.stream.countP fun p => decide (p.kind = k)

/-- INT_REPLIES, INT_EVENTS or INT_REJECTIONS of a packet's class (Table 2.14). -/
def Bus.intFor (b : Bus) : PacketKind → Bool
  | .reply => bit b.intEn 0
  | .rejection => bit b.intEn 1
  | .event => bit b.intEn 2

/-- A packet enters the stream; an IBI is requested unless one has been acknowledged since the last read (R61, R64). -/
def State.push (s : State) (p : Packet) : State :=
  { s with bus := { s.bus with
      stream := s.bus.stream ++ [{ p with int := s.bus.intFor p.kind }]
      ibiReq := s.bus.ibiReq || (s.bus.enint && !s.bus.ibiAcked) } }

/-- The bit of EVENT_EN that masks an event; none for the events that cannot be masked (Table 2.14). -/
def eventBit : Nat → Option Nat
  | 0xE010 => some 0 | 0xE011 => some 1 | 0xE012 => some 2 | 0xE020 => some 3 | 0xE021 => some 4 | 0xE030 => some 5
  | 0xE031 => some 6 | 0xE040 => some 7 | 0xE041 => some 8 | 0xE050 => some 9 | 0xE060 => some 10 | 0xE070 => some 11
  | 0xE071 => some 12 | 0xE080 => some 13
  | _ => none

/-- SET_NOTIFY lets an event through (R92). -/
def State.eventOn (s : State) (code : Nat) : Bool :=
  match eventBit code with
  | none => true
  | some i => bit s.bus.eventEn i

/-- The two host lanes of a slice. -/
def hostLow (n : Fin 8) : Fin 16 := ⟨2 * n.val, by omega⟩
/-- The odd host lane of a slice. -/
def hostHigh (n : Fin 8) : Fin 16 := ⟨2 * n.val + 1, by omega⟩

/-- A host port is in relay mode (Table 6.3). -/
def State.relayOn (s : State) (p : Fin 8) : Bool := s.active.host[hostLow p].relay && s.active.host[hostLow p].enable

/-- The canonical ID of a port ID, none where it names no link (R326). -/
def State.canonical (s : State) (p : Fin 16) : Option (Fin 16) :=
  if h : p.val < 8 then
    match s.lanes[p.val].rx.peer with
    | none => none
    | some x => ((List.finRange 8).find? fun n : Fin 8 => decide (s.lanes[n].rx.peer = some x)).map fun n => ⟨n.val, by omega⟩
  else if s.relayOn ⟨p.val - 8, by omega⟩ then some p else none

/-- Hop `i` of a route (R328). -/
def hopPort (route i : Nat) : Fin 16 := ⟨bits route (4 * (i - 1)) 4, by simp only [bits]; omega⟩

/-- A frame joins the queue of an output port; with 16 frames queued there, or on a port that names no link, it is not
taken (R332, R336). -/
def State.queueFrame (s : State) (p : Fin 16) (f : Frame) : Option State :=
  match s.canonical p with
  | none => none
  | some c => if s.rill.links[c].queue.length < 16 then some (s.modLink c fun l => { l with queue := l.queue ++ [f] }) else none

/-- A Q2 entry whose REPLY frame is gone frees its slot (R346). -/
def State.freeSlot (s : State) (f : Frame) : State :=
  match f.slot with
  | none => s
  | some seq => { s with q := { s.q with q2 := s.q.q2.filter fun e => decide (e.seq ≠ seq) } }

/-- An up frame or a broadcast one is dropped and counted (R332). -/
def State.dropUp (s : State) (f : Frame) : State :=
  { s.freeSlot f with rill := { s.rill with upDrops := satAdd 32 s.rill.upDrops 1 } }

/-- An up frame of this device leaves on the last hop of its return route (R328); one that finds no room is dropped and
counted in UP_DROPS (R332). -/
def State.sendUp (s : State) (hops route : Nat) (f : Frame) : State :=
  let f := { f with up := true, hops, hopPtr := hops, route, wid := s.rill.workerId.getD 0, idValid := s.rill.workerId.isSome }
  match s.queueFrame (hopPort route hops) f with
  | some s' => s'
  | none => s.dropUp f

/-- An event: produced when SET_NOTIFY lets it through, dropped and counted while 32 events wait (R62, R92), and sent
up in an EVENT frame by an assigned worker with FORWARD_EVENTS 1 (R347). -/
def State.event (s : State) (code tag : Nat) (payload : List Byte) : State :=
  if s.eventOn code then
    let p : Packet := { kind := .event, epoch := s.sys.faultEpoch, status := 0, tag, code, queue := 0xF, payload,
                        entry := none, int := false }
    let s1 := if s.waiting .event < 32 then s.push p
      else { s with bus := { s.bus with eventDrops := satAdd 32 s.bus.eventDrops 1, eventLoss := true } }
    if s.active.rill.role = .worker ∧ s.rill.workerId.isSome ∧ s.active.rill.forwardEvents then
      s1.sendUp s.rill.upHops s.rill.upRoute { ftype := 3, hops := 0, hopPtr := 0, up := true, route := 0, body := p.bytes }
    else s1
  else s

/-! ### Queues -/

/-- The entries of a queue, in order of reception. -/
def Queues.get (q : Queues) : QId → List QEntry
  | .q0 => q.q0 | .q1 => q.q1 | .q2 => q.q2 | .q3 => q.q3

/-- The queues with one of them replaced. -/
def Queues.put (q : Queues) (i : QId) (es : List QEntry) : Queues :=
  match i with
  | .q0 => { q with q0 := es } | .q1 => { q with q1 := es } | .q2 => { q with q2 := es } | .q3 => { q with q3 := es }

/-- The number of a queue. -/
def QId.num : QId → Nat
  | .q0 => 0 | .q1 => 1 | .q2 => 2 | .q3 => 3

/-- Every entry of every queue, in the order of R76. -/
def Queues.all (q : Queues) : List QEntry := q.q1 ++ q.q0 ++ q.q2 ++ q.q3

/-- The first command of a queue that has not replied: the one at its head (R75). -/
def State.head (s : State) (q : QId) : Option QEntry := (s.q.get q).find? fun e => decide (e.phase ≠ .replied)

/-- An entry changed. -/
def State.modEntry (s : State) (q : QId) (seq : Nat) (f : QEntry → QEntry) : State :=
  { s with q := s.q.put q ((s.q.get q).map fun e => if e.seq = seq then f e else e) }

/-- An entry gone: its slot is free (R78). -/
def State.dropEntry (s : State) (q : QId) (seq : Nat) : State :=
  { s with q := s.q.put q ((s.q.get q).filter fun e => decide (e.seq ≠ seq)) }

/-- The queue that holds an entry. -/
def State.queueOf (s : State) (seq : Nat) : Option (QId × QEntry) :=
  [QId.q0, .q1, .q2, .q3].findSome? fun q => ((s.q.get q).find? fun e => decide (e.seq = seq)).map fun e => (q, e)

/-- A command received in the island cycle of a control-path fault counts as received before it (R440). -/
def Integrity.late (i : Integrity) (now : Instant) (next : Nat) : Integrity :=
  match i.faults.getLast? with
  | some f =>
    if now / nsec 10 = i.faultAt / nsec 10 then
      { i with cut := next + 1, faults := i.faults.dropLast ++ [{ f with discarded := f.discarded + 1 }] }
    else i
  | none => i

/-- A command is received into a queue (R75). -/
def State.receive (s : State) (q : QId) (c : Cmd) (origin : Nat × Nat × Nat) : State :=
  { s with
    q := { s.q.put q (s.q.get q ++ [{ cmd := c, seq := s.q.nextSeq, phase := .received, acceptedAt := 0, stamp := 0, origin }])
           with nextSeq := s.q.nextSeq + 1 }
    sys := { s.sys with integ := s.sys.integ.late s.now s.q.nextSeq } }

/-- The firmware's commands enter Q3 in order while it holds fewer than 16 (R74). -/
def State.fillQ3 (s : State) : State :=
  let n := 16 - s.q.q3.length
  let new := (s.sys.fw.q3Wait.take n).mapIdx fun i c =>
    ({ cmd := c.1, seq := s.q.nextSeq + i, local' := c.2, phase := .received, acceptedAt := 0, stamp := 0 } : QEntry)
  { s with q := { s.q with q3 := s.q.q3 ++ new, nextSeq := s.q.nextSeq + new.length }
           sys := { s.sys with fw := { s.sys.fw with q3Wait := s.sys.fw.q3Wait.drop n } } }

/-- The firmware sends itself a command through Q3. -/
def State.toQ3 (s : State) (c : Cmd) (local' : Bool) : State :=
  { s with sys := { s.sys with fw := { s.sys.fw with q3Wait := s.sys.fw.q3Wait ++ [(c, local')] } } }.fillQ3

/-- The firmware sends itself an APPLY of named blocks through Q3 (R90, R159, R161). -/
def State.q3Apply (s : State) (blocks : List Block) : State :=
  s.toQ3 { op := 0x1010, expert := false, barrier := false, noReply := false, tag := 0
           payload := leBytes 4 blocks.length ++ blocks.flatMap fun b => leBytes 2 b.id } false

/-- The reply packet of a command. -/
def replyPacket (s : State) (q : QId) (e : QEntry) (st : Status) (payload : List Byte) : Packet :=
  { kind := .reply, epoch := s.sys.faultEpoch, status := st.code, tag := e.cmd.tag, code := e.cmd.op, queue := q.num,
    payload, entry := some e.seq, int := false }

/-- A status that a configuration body may give without being counted (R484). -/
def configOk (s : State) (op : Nat) : Status → Bool
  | .ok | .limitClamped => true
  | .precondition => decide (op = 0x1030) && s.limits.locked
  | _ => false

/-- The reply of a command that the firmware runs for a configuration body or for an epoch staging (R351, R484). -/
def State.localReply (s : State) (q : QId) (e : QEntry) (st : Status) : State :=
  match q with
  | .q2 => { s with rill := { s.rill with staging := s.rill.staging.map fun g => if g.seq = e.seq then { g with status := some st.code } else g } }
  | _ => if configOk s e.cmd.op st then s else { s with sys := { s.sys with fw := { s.sys.fw with configErrors := satAdd 8 s.sys.fw.configErrors 1 } } }

/-- A command replies (R75, R78, R81, R346): in Q0 and Q1 into the stream, unless NO_REPLY suppresses it; in Q2 in a
REPLY frame by the return route; in Q3, and for the firmware's own commands, to the firmware. -/
def State.replyTo (s : State) (q : QId) (e : QEntry) (st : Status) (payload : List Byte) : State :=
  if e.local' then (s.dropEntry q e.seq).fillQ3.localReply q e st
  else match q with
  | .q3 => (s.dropEntry q e.seq).fillQ3
  | .q2 =>
    (s.modEntry q e.seq fun e => { e with phase := .replied }).sendUp e.origin.2.1 e.origin.2.2
      { ftype := 2, hops := 0, hopPtr := 0, up := true, route := 0, xtag := e.origin.1,
        body := (replyPacket s q e st payload).bytes, slot := some e.seq }
  | _ =>
    if e.cmd.noReply ∧ (st = .ok ∨ st = .limitClamped) then s.dropEntry q e.seq
    else (s.modEntry q e.seq fun e => { e with phase := .replied }).push (replyPacket s q e st payload)

/-- The opcodes of Table 2.11. -/
def opcodes : List Nat :=
  [0x1000, 0x1001, 0x1002, 0x1003, 0x1004, 0x1010, 0x1011, 0x1012, 0x1013, 0x1014, 0x1020, 0x1021, 0x1022, 0x1030, 0x1031,
   0x1032, 0x1040, 0x1041, 0x1050] ++
  [0x2000, 0x2001, 0x2002, 0x2010, 0x2810, 0x2011, 0x2811, 0x2012, 0x2812, 0x2013, 0x2813, 0x2014, 0x2020, 0x2820, 0x2021,
   0x2821, 0x2022, 0x2822, 0x2023, 0x2823, 0x2024, 0x2030, 0x2031, 0x2040, 0x2041, 0x2841, 0x2050, 0x2051, 0x2851, 0x2060] ++
  [0x3000, 0x3001, 0x3010, 0x3810, 0x3020, 0x3030, 0x3040, 0x3050] ++
  [0x4000, 0x4001, 0x4801, 0x4010, 0x4011, 0x4811, 0x4012, 0x4020, 0x4021, 0x4022, 0x4023, 0x4030, 0x4031, 0x4831, 0x4032,
   0x4832, 0x4040, 0x4041] ++
  [0x5000, 0x5001, 0x5010, 0x5011, 0x5012, 0x5020, 0x5030, 0x5031, 0x5032, 0x5033, 0x5034, 0x5040, 0x5050, 0x5850] ++
  [0x6000, 0x6010, 0x6011, 0x6811, 0x6012, 0x6812, 0x6013, 0x6020, 0x6820, 0x6021, 0x6022, 0x6030, 0x6031, 0x6032, 0x6033,
   0x6040, 0x6041, 0x6042, 0x6043] ++
  [0x7000, 0x7800, 0x7001, 0x7002, 0x7003, 0x7010, 0x7011, 0x7012, 0x7020, 0x7820, 0x7021, 0x7030, 0x7830] ++
  [0x8000, 0x8001, 0x8002, 0x8003, 0x9000, 0x9001, 0x9002, 0x9003, 0x9010, 0x9810, 0x9011] ++
  [0xA000, 0xA001, 0xA002, 0xA003, 0xA010, 0xA011, 0xA020, 0xA030, 0xA040, 0xA050]

/-- The device accepts commands from its queues: booted, in RUN or STANDBY, not recovering from a fault,
and its processor not halted by the debug port.  Before
BOOT_DONE it accepts those of the configuration body, in Q3 (R484). -/
def State.accepting (s : State) (e : QEntry) : Bool :=
  !s.sys.recovering && !s.sys.fw.halted && ((s.sys.booted && decide (s.sys.pstate ≤ 1)) || (e.local' && s.sys.fw.boot.isSome))

/-- Opcodes that recovery executes (R491). -/
def recoveryOps : List Nat := [0x1000, 0x1001, 0x1003, 0xA000, 0xA001, 0xA002, 0xA003, 0xA010, 0xA011, 0xA020]

/-- Opcodes that a device woken from the stuck state executes: those of Q1 but POWER_ENTER and LANE_POWER (R477). -/
def restrictedOps : List Nat :=
  [0x1000, 0x1001, 0x1002, 0x1003, 0x1012, 0x1013, 0x1032, 0x1040, 0x2002, 0x2031, 0x2040, 0x2050, 0x3001, 0x3050, 0x4000,
   0x4012, 0x4030, 0x4041, 0x5001, 0x5012, 0x5032, 0x5034, 0x6000, 0x6043, 0x7003, 0x8000, 0x8001, 0x8003, 0x9001, 0x9011,
   0xA011, 0xA020]

/-- A command that reaches execution is not executed in the device's present condition (R477, R491). -/
def State.barred (s : State) (op : Nat) : Bool :=
  (s.sys.fw.recovery && !recoveryOps.contains op) || (s.sys.pow.restricted.isSome && !restrictedOps.contains op)

/-- Opcodes refused in a configuration body (R484). -/
def configBars (op : Nat) : Bool :=
  decide (op / 4096 = 8 ∨ (op / 4096 = 0xA ∧ op ≠ 0xA050) ∨ (op / 4096 = 9 ∧ op ≠ 0x9010 ∧ op ≠ 0x9810 ∧ op ≠ 0x9003)) ||
    [0x5010, 0x5020, 0x5030, 0x5031, 0x5032, 0x5033, 0x5034, 0x5040].contains op

/-- The barrier condition of a command holds: every command received earlier, in all four queues, has replied (R79,
R80).  ABORT and COMMIT_CANCEL do not wait for it. -/
def State.barrierMet (s : State) (e : QEntry) : Bool :=
  !e.cmd.barrier || e.cmd.op == 0x1002 || e.cmd.op == 0x1012 ||
    s.q.all.all fun x => decide (e.seq ≤ x.seq ∨ x.phase = .replied)

/-- The command at the head of a queue, when it can be accepted now (R75, R80). -/
def State.acceptable (s : State) (q : QId) : Option QEntry :=
  match s.head q with
  | some e => if s.accepting e && decide (e.phase = .received ∧ s.sys.integ.cut ≤ e.seq) && s.barrierMet e then some e else none
  | none => none

/-- A command received before the last control-path fault that has not been accepted: it is discarded (R441). -/
def State.stale (s : State) (q : QId) : Option QEntry :=
  (s.head q).filter fun e => decide (e.phase = .received ∧ e.seq < s.sys.integ.cut)

/-- One queue's head replies DISCARDED when a fault discards it (R443), or BAD_OPCODE when it can be accepted and its opcode
is undefined (R86, check 1; R91). -/
def State.sweepOne (s : State) (q : QId) : State :=
  match s.stale q with
  | some e => s.replyTo q e .discarded []
  | none => match s.acceptable q with
    | some e => if opcodes.contains e.cmd.op then s else s.replyTo q e .badOpcode []
    | none => s

/-- Every head that a fault discards or whose opcode is undefined replies, in the order Q1, Q0, Q2, Q3, until none is left (R76). -/
def State.sweep (s : State) : State :=
  (List.range 16).foldl (fun s _ => [QId.q1, .q0, .q2, .q3].foldl State.sweepOne s) s

/-- The place of a queue in the order of R76. -/
def QId.rank : QId → Nat
  | .q1 => 0 | .q0 => 1 | .q2 => 2 | .q3 => 3

/-- A command of a queue can be accepted, or complete, in this command-interface island cycle: none of a later queue in the order Q1, Q0,
Q2, Q3 has been accepted or has completed in it (R76). -/
def State.inOrder (s : State) (q : QId) : Bool :=
  match s.q.last with
  | some (c, r) => !decide (c = s.now / nsec 10) || decide (r ≤ q.rank)
  | none => true

/-- The latest queue, in the order of R76, of which a command has been accepted or has completed in this cycle. -/
def State.tookPart (s : State) (q : QId) : State :=
  { s with q := { s.q with last := some (s.now / nsec 10, match s.q.last with
      | some (c, r) => if c = s.now / nsec 10 then max r q.rank else q.rank
      | none => q.rank) } }

/-- A command that is running or waiting completes with a reply. -/
def State.complete (s : State) (seq : Nat) (st : Status) (payload : List Byte) : State :=
  match s.queueOf seq with
  | some (q, e) => if e.phase = .replied then s else ((s.tookPart q).replyTo q e st payload).sweep
  | none => s

/-- What a command's own work comes to. -/
inductive Res where
  /-- It completes with OK. -/
  | ok (payload : List Byte) (s : State)
  /-- It completes with LIMIT_CLAMPED. -/
  | clamped (payload : List Byte) (s : State)
  /-- It replies another status; nothing has changed. -/
  | fail (st : Status) (payload : List Byte)
  /-- It replies another status after a change of something other than a shadow set. -/
  | failWith (st : Status) (payload : List Byte) (s : State)
  /-- It goes on; its reply comes later. -/
  | wait (s : State)

/-- Checks 1 to 3 of R86, shared by every command: the EXPERT flag, the queue, which refuses POWER_ENTER in Q3, and the expert session
(R49, R80, R82, R91). -/
def precheck (s : State) (q : QId) (e : QEntry) (inQ1 : Bool) : Option Status :=
  if e.cmd.expert ≠ bit e.cmd.op 11 then some .badOpcode
  else if e.local' ∧ q = .q3 ∧ configBars e.cmd.op then some .badParam
  else if (q = .q1 ∧ inQ1 = false) ∨ (q = .q3 ∧ e.cmd.op = 0x9000) ∨ (e.cmd.barrier ∧ (e.cmd.op = 0x1002 ∨ e.cmd.op = 0x1012)) then some .badParam
  else if bit e.cmd.op 11 ∧ ((q = .q0 ∧ s.q.expert0 = false) ∨ (q = .q2 ∧ s.q.expert2 = false) ∨ q = .q1) then some .expertRequired
  else none

/-- A device in recovery, or woken from the stuck state, answers PRECONDITION to a command outside its list that its
checks let through (R477, R491). -/
def Res.barred (s : State) (op : Nat) (r : Res) : Res :=
  if s.barred op then
    match r with
    | .fail .badLength p => .fail .badLength p
    | .fail .badParam p => .fail .badParam p
    | .fail .resourceBusy p => .fail .resourceBusy p
    | _ => .fail .precondition []
  else r

/-- A command's outcome becomes its reply.  Shadow writes stand only for OK and LIMIT_CLAMPED (R77), and in Q2 a payload
above 1,008 bytes is refused with BAD_PARAM (R346). -/
def settle (base : State) (q : QId) (e : QEntry) : Res → State
  | .ok p s => if q = .q2 ∧ 1008 < p.length then base.replyTo q e .badParam [] else s.replyTo q e .ok p
  | .clamped p s => if q = .q2 ∧ 1008 < p.length then base.replyTo q e .badParam [] else s.replyTo q e .limitClamped p
  | .fail st p => base.replyTo q e st p
  | .failWith st p s => { s with shadow := base.shadow }.replyTo q e st p
  | .wait s => s

/-- The queue entry as accepted now (R75). -/
def QEntry.accept (e : QEntry) (s : State) : QEntry := { e with phase := .running, acceptedAt := s.now, stamp := s.fnow }

/-- A command's entry is accepted (R75, R76). -/
def State.accept (s : State) (q : QId) (e : QEntry) : State :=
  let s1 := s.modEntry q e.seq fun _ => e
  { s1 with q := { s1.q with last := some (s.now / nsec 10, q.rank) } }

/-- One row of a command (R75 to R87): when the head of the queue carries the opcode and can be accepted, it is accepted,
checked, done, and replies or waits; otherwise nothing happens but the passing of time. -/
def runCmd (t : Instant) (q : QId) (op : Nat) (inQ1 : Bool) (body : QId → QEntry → State → Res) (s : State) : State :=
  let s := s.advanceTo t
  match s.acceptable q with
  | some e0 =>
    if e0.cmd.op = op ∧ s.inOrder q = true then
      let e := e0.accept s
      let s1 := s.accept q e
      match precheck s1 q e inQ1 with
      | some st => (s1.replyTo q e st []).sweep
      | none => (settle s1 q e ((body q e s1).barred s1 op)).sweep
    else s
  | none => s

/-- The LENGTH of a command's payload. -/
def QEntry.len (e : QEntry) : Nat := e.cmd.payload.length

/-- Word `i` of a command's payload. -/
def QEntry.w (e : QEntry) (i : Nat) : Nat := wordAt e.cmd.payload i

/-- Check 4, then checks 5 and 6, then the rest of a command (R86). -/
def checked (e : QEntry) (len : Nat → Bool) (params : Bool) (rest : Unit → Res) : Res :=
  if len e.len = false then .fail .badLength []
  else if params = false then .fail .badParam []
  else rest ()

/-! ### Owned resources (R52) -/

/-- The place of a resource code in the ownership records (Table 2.18). -/
def resourceIndex (c : Nat) : Option (Fin 41) :=
  if h : c < 8 then some ⟨c, by omega⟩
  else if h : 0x10 ≤ c ∧ c < 0x14 then some ⟨c - 8, by omega⟩
  else if h : 0x20 ≤ c ∧ c < 0x24 then some ⟨c - 20, by omega⟩
  else if c = 0x30 then some 16
  else if h : 0x40 ≤ c ∧ c < 0x48 then some ⟨c - 47, by omega⟩
  else if h : 0x50 ≤ c ∧ c < 0x60 then some ⟨c - 55, by omega⟩
  else none

/-- The code of a function (Table 2.18). -/
def Function.code : Function → Nat
  | .none => 0 | .trigger => 1 | .auxPps => 2 | .pwm => 3 | .gpio => 4 | .gaugeSeq => 5 | .jetsClock => 6
  | .pwmBase => 7 | .capture => 8 | .loopTest => 9 | .stampCal => 0xA

/-- A function may take a resource: it is unowned or already the function's (R52). -/
def State.mayOwn (s : State) (r : Fin 41) (fn : Function) : Bool :=
  decide (s.owners[r].fn = .none ∨ s.owners[r].fn = fn)

/-- A claim of a resource: the first one holds (R52). -/
def State.claim (s : State) (r : Fin 41) (fn : Function) (detail : Nat) : State :=
  if s.owners[r].fn = .none then { s with owners := s.owners.set r { fn, detail, claim := s.stampMgmt } } else s

/-- The end of a function's ownership of a resource (R52). -/
def State.disown (s : State) (r : Fin 41) (fn : Function) : State :=
  if s.owners[r].fn = fn then { s with owners := s.owners.set r {} } else s

/-- The loop resource of a line lane. -/
def lineLoopRes (n : Fin 8) : Fin 41 := ⟨17 + n.val, by omega⟩

/-- The loop resource of a host lane. -/
def hostLoopRes (n : Fin 16) : Fin 41 := ⟨25 + n.val, by omega⟩

/-- The pin resource of an EVT pin. -/
def evtRes (n : Fin 8) : Fin 41 := ⟨n.val, by omega⟩

/-- The resource of a timer. -/
def timerRes (n : Fin 4) : Fin 41 := ⟨8 + n.val, by omega⟩

/-- The resource of a decimator. -/
def decimRes (n : Fin 4) : Fin 41 := ⟨12 + n.val, by omega⟩

end Sys2Proof.Machine
end

