-- ==== Sys2Proof/Machine/Flags.lean ====
section
/-! DEFINITION. Status words and pins that are computed from the state: GETSTATUS, the IBI summary, INT_N and FAULT_N. -/
namespace Sys2Proof.Machine

/-- The firmware is being restarted over a running data path (R488). -/
def State.restarting (s : State) : Bool :=
  decide (s.sys.fw.romDue = some .restart) || (match s.sys.fw.boot with | some (.restart, _) => true | _ => false)

/-- BOOT_DONE has been reported since reset.  A restart over a running data path is no reset: the flag stands through it
(Table 2.4, R488, R495; log 121). -/
def State.bootDone (s : State) : Bool := s.sys.booted || s.restarting

/-- FAULT_N is asserted (Table 12.1, R460, R476, R491): until recovery for classes 0x05 and 0x06, while a lost clock or a
rail out of window holds it, after a thermal trip, a supply shutdown, in the stuck state and after it, and in recovery. -/
def State.faultN (s : State) : Bool :=
  (s.sys.recovering && s.sys.integ.faults.any fun f => decide (f.cls = 5 ∨ f.cls = 6)) || !s.sys.integ.clockHold.isEmpty ||
    (!s.sys.pow.held && (List.finRange 8).any fun r : Fin 8 => !s.sys.pow.railOk[r] || (decide (0 < s.sys.pow.railAt[r]) && decide (s.now < s.sys.pow.railAt[r] + usec 10))) ||
    s.sys.thermalTrip || s.sys.pow.isOff || s.sys.pow.stuck || s.sys.pow.restricted.isSome || s.sys.fw.recovery

/-- The IBI summary word (Table 2.4). -/
def State.summary (s : State) : Nat :=
  pack [(min (s.waiting .reply + s.waiting .rejection) 255, 8), (s.waiting .event, 8), (s.sys.faultEpoch, 8),
    (flag s.bootDone, 1), (flag s.bus.eventLoss, 1), (flag s.bus.rejectLoss, 1), (flag s.q.expert0, 1),
    (flag s.q.expert2, 1), (flag s.sys.wakeFail, 1), (flag s.faultN, 1)]

/-- The GETSTATUS word (Table 2.2).  DESIGN CHOICE (log 121): BOOTED and PSTATE do not fall back during a restart over a
running data path. -/
def State.getStatusWord (s : State) : Nat :=
  pack [(min s.bus.stream.length 15, 4), (0, 1), (flag s.bus.protocolError, 1), (0, 2), (0, 2), (flag s.bootDone, 1),
    (flag s.sys.wakeFail, 1), (flag s.faultN, 1), (if s.sys.pstate ≤ 1 ∧ s.bootDone = false then 4 else s.sys.pstate, 3)]

/-- INT_N is asserted: a packet whose class was enabled when it entered the stream waits there; released until BOOT_DONE
(R67, R99). -/
def State.intN (s : State) : Bool := s.bootDone && s.bus.stream.any fun p => p.int

/-- PID, 48 bits (Table 2.2). -/
def State.pid (s : State) : Nat :=
  pack [(0xB0, 8), (flag s.sys.optionW, 4), (flag s.sys.saddrSel, 4), (0x3208, 16), (0, 1), (Config.mfrId, 15)]

/-- The static I3C address (R54). -/
def State.staticAddr (s : State) : Nat := if s.sys.saddrSel then 0x3B else 0x3A

/-- The mandatory data byte of the IBI the device would present now: none in legacy mode, where it has no dynamic address
(R55, R64, R65, Table 2.3). -/
def State.ibiCode (s : State) : Option Nat :=
  if s.bus.enint = false ∨ s.bus.dynAddr = none then none
  else if s.bus.ibiBoot then some 0x01
  else if s.bus.ibiFault then some 0x02
  else if s.bus.ibiReq ∧ s.bus.stream.isEmpty = false then
    some (if s.waiting .event = 0 then 0xA1 else if s.waiting .event = s.bus.stream.length then 0xA2 else 0xA3)
  else none

end Sys2Proof.Machine
end

