-- ==== Sys2Proof/Machine/Bus.lean ====
section
/-! DEFINITION. The I3C target: command packets in, the outbound stream out, the CCCs and the IBIs. -/
namespace Sys2Proof.Machine

/-- A meaning of the block: it always goes on. -/
abbrev Out := Host.Outcome State Fault Refusal

/-- What the bus shows the controller. -/
def State.answer (s : State) (r : BusResult) : State := { s with bus := { s.bus with last := r } }

/-- The device answers private transfers: it holds the address, has booted, and is in RUN or STANDBY (R55, R56).  Packets
sent during a restart over a running data path wait in their queues (R495). -/
def State.privateOpen (s : State) (addr : Nat) : Bool :=
  decide (s.bus.dynAddr = some addr) && s.bootDone && decide (s.sys.pstate ≤ 1)

/-- A rejection enters the stream (R62, R71). -/
def State.reject (s : State) (st : Status) (tag op queue : Nat) : State :=
  if s.waiting .rejection < 8 then
    s.push { kind := .rejection, epoch := s.sys.faultEpoch, status := st.code, tag, code := op, queue, payload := [],
             entry := none, int := false }
  else { s with bus := { s.bus with rejectDrops := satAdd 32 s.bus.rejectDrops 1, rejectLoss := true } }

/-- The outcome of the packet checks (R70). -/
inductive PacketCheck where
  /-- Dropped by check 1. -/
  | drop
  /-- Rejected, with the status of the check that failed. -/
  | reject (st : Status)
  /-- Received. -/
  | good (q : Nat) (c : Cmd)
  deriving DecidableEq, Repr

/-- Checks 1 to 4 of R70 on the bytes of a write; `cut` says the write was cut at MWL (R60), `maxQ` is the highest
QUEUE check 4 takes: 1 from the host, 0 in a COMMAND frame (R346). -/
def checkPacket (bs : List Byte) (cut : Bool) (maxQ : Nat) : PacketCheck :=
  let w0 := wordAt bs 0
  let w1 := wordAt bs 1
  let len := bits w0 16 16
  if bs.length < 8 ∨ bits w0 0 8 ≠ 0xA5 then .drop
  else if 1024 < len ∨ bs.length ≠ 12 + 4 * ceilDiv len 4 ∨ cut then .reject .badLength
  else if ofLe (bs.drop (bs.length - 4)) ≠ crc32c (bs.take (bs.length - 4)) then .reject .badCrc
  else if maxQ < bits w0 8 4 ∨ bit w0 12 then .reject .badParam
  else .good (bits w0 8 4)
    { op := bits w1 0 16, expert := bit w0 15, barrier := bit w0 14, noReply := bit w0 13, tag := bits w1 16 16,
      payload := (bs.drop 8).take len }

/-- A command packet as the host writes it is checked and dropped, rejected or received (R70). -/
def State.takePacket (s : State) (bs : List Byte) (cut : Bool) : State :=
  let q := bits (wordAt bs 0) 8 4
  let op := bits (wordAt bs 1) 0 16
  let tag := bits (wordAt bs 1) 16 16
  match checkPacket bs cut 1 with
  | .drop => { s with bus := { s.bus with pktDrops := satAdd 32 s.bus.pktDrops 1 } }
  | .reject st => s.reject st tag op q
  | .good n c =>
    let qi := if n = 0 then QId.q0 else .q1
    if 16 ≤ (s.q.get qi).length then s.reject .queueFull tag op q
    else (s.receive qi c (0, 0, 0)).sweep

/-- A private write carries one command packet (R56, R59, R60, R70).  `hdr` is the HDR-DDR command
code, none in SDR; `err` says that the target saw an I3C protocol error. -/
def State.privateWrite (s : State) (addr : Nat) (hdr : Option Nat) (err : Bool) (bytes : List Byte) : State :=
  let s := { s with bus := { s.bus with protocolError := s.bus.protocolError || err, hdr := s.bus.hdr && hdr.isSome } }
  if s.privateOpen addr = false then s.answer .nack
  else if hdr.isSome ∧ (s.bus.hdr = false ∨ hdr ≠ some 0x01) then s.answer .nack
  else (s.takePacket (bytes.take s.bus.mwl) (decide (s.bus.mwl < bytes.length))).answer .ack

/-- The bytes of the stream from the read position (R61). -/
def State.streamBytes (s : State) : List Byte := (s.bus.stream.flatMap Packet.bytes).drop s.bus.readPos

/-- The read position moves over `n` bytes; packets read in full leave, and their commands free their slots (R61, R78). -/
def consume : Nat → List Packet → Nat → State → State
  | 0, _, _, s => s
  | fuel + 1, ps, n, s =>
    match ps with
    | [] => { s with bus := { s.bus with stream := [], readPos := 0 } }
    | p :: rest =>
      if p.bytes.length ≤ n then
        let s1 := match p.entry with
          | some seq => match s.queueOf seq with
            | some (q, _) => s.dropEntry q seq
            | none => s
          | none => s
        consume fuel rest (n - p.bytes.length) s1
      else { s with bus := { s.bus with stream := ps, readPos := n } }

/-- A private read takes up to `n` bytes of the stream, cut at MRL and at the end of the last packet (R61).  It ends the limit
that an acknowledged IBI set (R64).  DESIGN CHOICE (log 122): a read that is NACKed because no byte is pending is not the host's
last private read in the sense of R64, and ends no limit. -/
def State.privateRead (s : State) (addr : Nat) (hdr : Option Nat) (n : Nat) : State :=
  let s := { s with bus := { s.bus with hdr := s.bus.hdr && hdr.isSome } }
  if s.privateOpen addr = false ∨ (hdr.isSome ∧ (s.bus.hdr = false ∨ hdr ≠ some 0x81)) ∨ s.streamBytes = [] then
    s.answer .nack
  else
    let out := s.streamBytes.take (min n s.bus.mrl)
    let s1 := consume (s.bus.stream.length + 1) s.bus.stream (s.bus.readPos + out.length) s
    { s1 with bus := { s1.bus with ibiAcked := false, ibiReq := s1.bus.ibiReq && !s1.bus.stream.isEmpty } }.answer (.data out)

/-- IBI_RETRY: at a bus idle the device presents the IBI it requests, again while NACKed; the controller's answer is
`acked` (R64, R65). -/
def execIbiRetry (t : Instant) (acked : Bool) (s : State) : Out :=
  let s := s.advanceTo t
  match s.ibiCode with
  | none => .next s
  | some c =>
    let bytes := BitVec.ofNat 8 c :: (leBytes 4 s.summary).take (s.bus.ibiSize - 1)
    let s1 := s.answer (.ibi bytes acked)
    if acked then
      .next { s1 with bus := { s1.bus with ibiAcked := true, ibiReq := false, ibiBoot := s1.bus.ibiBoot && decide (c ≠ 0x01),
                                           ibiFault := s1.bus.ibiFault && decide (c ≠ 0x02) } }
    else .next s1

/-- The dynamic address is given: legacy mode ends (R55). -/
def State.takeAddress (s : State) (a : Nat) : State := { s with bus := { s.bus with dynAddr := some a, last := .ack } }

/-- ENTDAA: the device takes part with its PID, BCR and DCR while it holds no dynamic address; `given` is the address it receives, if any (R57). -/
def execEntdaa (t : Instant) (given : Option Nat) (s : State) : Out :=
  let s := s.advanceTo t
  if s.sys.pow.held then .next (s.answer .idle)
  else match s.bus.dynAddr, given with
  | none, some a => .next ((s.takeAddress a).answer (.data ((leBytes 6 s.pid).reverse ++ [0x06, 0x00])))
  | none, none => .next (s.answer (.data ((leBytes 6 s.pid).reverse ++ [0x06, 0x00])))
  | some _, _ => .next (s.answer .idle)

/-- SETDASA at a static address (R55, R57). -/
def execSetdasa (t : Instant) (static addr : Nat) (s : State) : Out :=
  let s := s.advanceTo t
  if static = s.staticAddr ∧ s.bus.dynAddr = none ∧ s.sys.pow.held = false then .next (s.takeAddress addr) else .next (s.answer .nack)

/-- A direct CCC reaches the device: it holds the address, and no reset holds it. -/
def State.addressed (s : State) (addr : Nat) : Bool := decide (s.bus.dynAddr = some addr) && !s.sys.pow.held

/-- A CCC that may be broadcast (no address) or direct reaches the device. -/
def State.reached (s : State) (addr : Option Nat) : Bool :=
  match addr with
  | none => !s.sys.pow.held
  | some a => s.addressed a

/-- A direct CCC that reads: the device answers the bytes, most significant first, or NACKs. -/
def readCcc (t : Instant) (addr : Nat) (bytes : State → List Byte) (s : State) : State :=
  let s := s.advanceTo t
  if s.addressed addr then s.answer (.data (bytes s)) else s.answer .nack

/-- A CCC that writes: the change, or a NACK where it is directed at another address. -/
def writeCcc (t : Instant) (addr : Option Nat) (f : Bus → Bus) (s : State) : State :=
  let s := s.advanceTo t
  if s.reached addr then { s with bus := f s.bus }.answer .ack else s.answer .nack

/-- SETNEWDA (R57). -/
def execSetnewda (t : Instant) (addr new : Nat) (s : State) : Out :=
  .next (writeCcc t (some addr) (fun b => { b with dynAddr := some new }) s)

/-- RSTDAA: back to legacy mode; no queue is emptied and pending replies stay (R55). -/
def execRstdaa (t : Instant) (s : State) : Out := .next (writeCcc t none (fun b => { b with dynAddr := none }) s)

/-- GETPID (R58). -/
def execGetpid (t : Instant) (addr : Nat) (s : State) : Out := .next (readCcc t addr (fun s => (leBytes 6 s.pid).reverse) s)

/-- GETBCR: 0x06 (R57). -/
def execGetbcr (t : Instant) (addr : Nat) (s : State) : Out := .next (readCcc t addr (fun _ => [0x06]) s)

/-- GETDCR: 0x00 (R57). -/
def execGetdcr (t : Instant) (addr : Nat) (s : State) : Out := .next (readCcc t addr (fun _ => [0x00]) s)

/-- GETSTATUS, in every power state; reading it clears PROTOCOL_ERROR (R57, R58). -/
def execGetstatus (t : Instant) (addr : Nat) (s : State) : Out :=
  let r := readCcc t addr (fun s => (leBytes 2 s.getStatusWord).reverse) s
  .next { r with bus := { r.bus with protocolError := r.bus.protocolError && !r.addressed addr } }

/-- GETMWL (R57). -/
def execGetmwl (t : Instant) (addr : Nat) (s : State) : Out :=
  .next (readCcc t addr (fun s => (leBytes 2 s.bus.mwl).reverse) s)

/-- SETMWL stores at most 1,036 (R60). -/
def execSetmwl (t : Instant) (addr v : Nat) (s : State) : Out :=
  .next (writeCcc t (some addr) (fun b => { b with mwl := min v 1036 }) s)

/-- GETMRL returns the stored read length and IBI payload size (R57). -/
def execGetmrl (t : Instant) (addr : Nat) (s : State) : Out :=
  .next (readCcc t addr (fun s => (leBytes 2 s.bus.mrl).reverse ++ [BitVec.ofNat 8 s.bus.ibiSize]) s)

/-- SETMRL stores at most 1,040, and an IBI payload size from 1 to 5 (R60, R65). -/
def execSetmrl (t : Instant) (addr v ibi : Nat) (s : State) : Out :=
  .next (writeCcc t (some addr) (fun b => { b with mrl := min v 1040, ibiSize := clampTo 1 5 ibi }) s)

/-- ENEC: ENINT, bit 0 of the event byte, enables IBI requests (R57). -/
def execEnec (t : Instant) (addr : Option Nat) (ev : Nat) (s : State) : Out :=
  .next (writeCcc t addr (fun b => { b with enint := b.enint || bit ev 0 }) s)

/-- DISEC: ENINT disables IBI requests (R57). -/
def execDisec (t : Instant) (addr : Option Nat) (ev : Nat) (s : State) : Out :=
  .next (writeCcc t addr (fun b => { b with enint := b.enint && !bit ev 0 }) s)

/-- RSTACT action 0x00, which is acknowledged, and the CCCs that the device refuses or ignores: RSTACT with an action of none of
0x00 to 0x02 and an unsupported direct CCC are NACKed, and an unsupported broadcast CCC is ignored (R57). -/
def execRstactNoReset (t : Instant) (c : IdleCcc) (s : State) : Out :=
  match c with
  | .rstact addr action => .next (if action = 0 then writeCcc t addr id s else (s.advanceTo t).answer .nack)
  | .direct _ => .next ((s.advanceTo t).answer .nack)
  | .broadcast => .next ((s.advanceTo t).answer .idle)

/-- RSTACT action 0x01: the read position returns to the first byte of the head packet; queues, running commands and
pending packets stay (R63). -/
def execRstactTransferReset (t : Instant) (addr : Option Nat) (s : State) : Out :=
  .next (writeCcc t addr (fun b => { b with readPos := 0 }) s)

/-- ENTHDR0: HDR-DDR entered (R57). -/
def execEnthdr0 (t : Instant) (s : State) : Out := .next (writeCcc t none (fun b => { b with hdr := true }) s)

end Sys2Proof.Machine
end

