-- ==== Sys2Proof/Machine/System.lean ====
section
/-! DEFINITION. The system command group: status, notification, sessions, hardware limits, ownership reads and the port
grouping. -/
namespace Sys2Proof.Machine

/-- GET_STATUS (R100). -/
def cmdGetStatus (_q : QId) (e : QEntry) (s : State) : Res :=
  checked e (· == 4) (rsvHigh (e.w 0) 2) fun _ =>
    .ok (wordsLe [s.summary, pack [(s.sys.pstate, 2), (0, 6), (s.sys.lastClass, 8)],
        pack [(s.q.q0.length, 8), (s.q.q1.length, 8), (s.q.q2.length, 8), (s.q.q3.length, 8)],
        s.bus.pktDrops, s.bus.rejectDrops, s.bus.eventDrops])
      { s with bus := { s.bus with eventLoss := s.bus.eventLoss && !bit (e.w 0) 0, rejectLoss := s.bus.rejectLoss && !bit (e.w 0) 1 } }

/-- Row GET_STATUS. -/
def execGetStatus (t : Instant) (q : QId) (s : State) : Out := .next (runCmd t q 0x1001 true cmdGetStatus s)

/-- The command-interface island cycle, of 10 ns, in which an instant falls (Table 1.1, R45). -/
def cmdCycle (f : FTime) : Nat := f / nsec 10

/-- A commit has not passed its Tc: Tc lies ahead or in the island cycle of now (R42, R45). -/
def State.beforeTc (s : State) (c : Commit) : Bool := decide (cmdCycle s.fnow ≤ cmdCycle c.tc)

/-- A running command is waiting, in the sense of R83: an APPLY before its commit, or a TUNNEL awaiting its reply. -/
def State.waitingCmd (s : State) (seq : Nat) : Bool :=
  s.commits.any (fun (c : Commit) => decide (c.seq = seq ∧ c.kind = CommitKind.apply) && s.beforeTc c && c.blocks.all fun b => b.done.isNone) ||
    s.rill.waits.any fun w => decide (w.seq = seq ∧ w.assign = none)

/-- One command is discarded: its commit or wait is withdrawn and it replies DISCARDED (R83). -/
def State.discard (s : State) (q : QId) (e : QEntry) : State :=
  let s := { s with commits := s.commits.filter (fun (c : Commit) => decide (¬(c.seq = e.seq ∧ c.kind = CommitKind.apply)))
                    rill := { s.rill with waits := s.rill.waits.filter fun w => decide (w.seq ≠ e.seq) } }
  s.replyTo q e .discarded []

/-- ABORT: the named Q0 commands that R83 can discard reply DISCARDED in order of reception, then ABORT replies with
their count (R83, R101). -/
def cmdAbort (_q : QId) (e : QEntry) (s : State) : Res :=
  checked e (· == 4) (rsv (e.w 0) 1 15) fun _ =>
    let hits := s.q.q0.filter fun x =>
      (bit (e.w 0) 0 || decide (x.cmd.tag = bits (e.w 0) 16 16)) && decide (x.seq ≠ e.seq) &&
        (decide (x.phase = .received) || (decide (x.phase = .running) && s.waitingCmd x.seq))
    .ok (wordsLe [pack [(hits.length, 16)]]) (s.forEach hits fun x s => s.discard .q0 x)

/-- Row ABORT. -/
def execAbort (t : Instant) (q : QId) (s : State) : Out := .next (runCmd t q 0x1002 true cmdAbort s)

/-- ECHO returns its payload (R91). -/
def cmdEcho (_q : QId) (e : QEntry) (s : State) : Res := .ok e.cmd.payload s

/-- Row ECHO. -/
def execEcho (t : Instant) (q : QId) (s : State) : Out := .next (runCmd t q 0x1003 true cmdEcho s)

/-- SET_NOTIFY (R99). -/
def cmdSetNotify (_q : QId) (e : QEntry) (s : State) : Res :=
  checked e (· == 8) (rsvHigh (e.w 0) 14 && rsvHigh (e.w 1) 3) fun _ =>
    .ok [] { s with bus := { s.bus with eventEn := bits (e.w 0) 0 14, intEn := bits (e.w 1) 0 3 } }

/-- Row SET_NOTIFY. -/
def execSetNotify (t : Instant) (q : QId) (s : State) : Out := .next (runCmd t q 0x1004 false cmdSetNotify s)

/-- SESSION_EXPERT opens a session in the queue that carries it: Q0 or Q2; Q3 needs none (R49). -/
def cmdSessionExpert (q : QId) (e : QEntry) (s : State) : Res :=
  checked e (· == 0) true fun _ =>
    .ok [] { s with q := { s.q with expert0 := s.q.expert0 || decide (q = .q0), expert2 := s.q.expert2 || decide (q = .q2) } }

/-- Row SESSION_EXPERT. -/
def execSessionExpert (t : Instant) (q : QId) (s : State) : Out := .next (runCmd t q 0x1020 false cmdSessionExpert s)

/-- SESSION_BASIC closes the queue's session (R49). -/
def cmdSessionBasic (q : QId) (e : QEntry) (s : State) : Res :=
  checked e (· == 0) true fun _ =>
    .ok [] { s with q := { s.q with expert0 := s.q.expert0 && decide (q ≠ .q0), expert2 := s.q.expert2 && decide (q ≠ .q2) } }

/-- Row SESSION_BASIC. -/
def execSessionBasic (t : Instant) (q : QId) (s : State) : Out := .next (runCmd t q 0x1021 false cmdSessionBasic s)

/-! ### Hardware limits (R46, R47, R107) -/

/-- Instances of a limit's scope, none for an unknown ID; the flag says the limit is fixed (Table 2.17). -/
def limitScope : Nat → Option (Nat × Bool)
  | 0x01 => some (24, false) | 0x02 => some (8, false) | 0x03 => some (8, false) | 0x04 => some (8, false)
  | 0x05 => some (1, false) | 0x10 => some (1, true) | 0x11 => some (1, true) | 0x12 => some (1, true)
  | 0x13 => some (1, true)
  | _ => none

/-- The interlock record of its words (Table 2.17). -/
def interlockOf (w1 w2 w3 w4 : Nat) : InterlockLimit :=
  { biasCh := bits w1 0 8, powerCh := bits w1 8 8, enable := bit w1 16, biasLo := bits w2 0 12, biasHi := bits w2 16 12,
    powerLo := bits w3 0 12, powerHi := bits w3 16 12, jetsMask := bits w4 0 24 }

/-- The words of an interlock record. -/
def InterlockLimit.words (i : InterlockLimit) : List Nat :=
  [pack [(i.biasCh, 8), (i.powerCh, 8), (flag i.enable, 1)], pack [(i.biasLo, 12), (0, 4), (i.biasHi, 12)],
   pack [(i.powerLo, 12), (0, 4), (i.powerHi, 12)], i.jetsMask]

/-- Bounds W1 to W4 lie in the settable range of Table 1.5, are consistent, and unused words and bits are 0 (R107). -/
def limitOk (id w1 w2 w3 w4 : Nat) : Bool :=
  match id with
  | 0x01 => decide (bits w1 0 16 ≤ bits w1 16 16 ∧ w2 = 0 ∧ w3 = 0 ∧ w4 = 0)
  | 0x02 => decide (bits w2 0 12 ≤ bits w2 16 12 ∧ bits w3 0 12 ≤ bits w3 16 12 ∧
      ¬(bit w1 16 = true ∧ (bits w1 0 8 = 0xFF ∨ bits w1 8 8 = 0xFF)) ∧ (bits w1 0 8 ≤ 0x3E ∨ bits w1 0 8 = 0xFF) ∧
      (bits w1 8 8 ≤ 0x3E ∨ bits w1 8 8 = 0xFF)) && rsvHigh w1 17 && rsv w2 12 4 && rsvHigh w2 28 &&
      rsv w3 12 4 && rsvHigh w3 28 && rsvHigh w4 24
  | 0x03 => decide (300 ≤ w1 ∧ w1 ≤ 900 ∧ w2 = 0 ∧ w3 = 0 ∧ w4 = 0)
  | 0x04 => decide (w1 ≤ 65536 ∧ w2 = 0 ∧ w3 = 0 ∧ w4 = 0)
  | 0x05 => decide (1 ≤ w1 ∧ w1 ≤ 1000000000 ∧ w2 = 0 ∧ w3 = 0 ∧ w4 = 0)
  | _ => false

/-- One instance of a limit set. -/
def Limits.set (l : Limits) (id i w1 w2 w3 w4 : Nat) : Limits :=
  match id with
  | 0x01 => if h : i < 24 then { l with jetsMin := l.jetsMin.set i (bits w1 0 16), jetsMax := l.jetsMax.set i (bits w1 16 16) } else l
  | 0x02 => if h : i < 8 then { l with interlock := l.interlock.set i (interlockOf w1 w2 w3 w4) } else l
  | 0x03 => if h : i < 8 then { l with txSwing := l.txSwing.set i w1 } else l
  | 0x04 => if h : i < 8 then { l with pwmMax := l.pwmMax.set i w1 } else l
  | 0x05 => { l with maxStep := w1 }
  | _ => l

/-- Bounds W1 to W4 of one instance of a limit, the fixed ones included (Table 2.17). -/
def Limits.words (l : Limits) (id i : Nat) : List Nat :=
  match id with
  | 0x01 => if h : i < 24 then [pack [(l.jetsMin[i], 16), (l.jetsMax[i], 16)], 0, 0, 0] else [0, 0, 0, 0]
  | 0x02 => if h : i < 8 then l.interlock[i].words else [0, 0, 0, 0]
  | 0x03 => if h : i < 8 then [l.txSwing[i], 0, 0, 0] else [0, 0, 0, 0]
  | 0x04 => if h : i < 8 then [l.pwmMax[i], 0, 0, 0] else [0, 0, 0, 0]
  | 0x05 => [l.maxStep, 0, 0, 0]
  | 0x10 => [1250, 0, 0, 0]
  | 0x11 => [1, 0, 0, 0]
  | 0x12 => [256000000, 64000000, 0, 0]
  | 0x13 => [25000000, 0, 0, 0]
  | _ => [0, 0, 0, 0]

/-- The reply of LIMIT_SET and LIMIT_READ (R107). -/
def limitReply (l : Limits) (id scope i : Nat) (fixed : Bool) : List Byte :=
  wordsLe (pack [(id, 8), (scope, 8), (flag l.locked, 1), (flag fixed, 1)] :: l.words id i)

/-- LIMIT_SET (R47, R107). -/
def cmdLimitSet (_q : QId) (e : QEntry) (s : State) : Res :=
  let id := bits (e.w 0) 0 8
  let scope := bits (e.w 0) 8 8
  match limitScope id with
  | none => if e.len = 20 then .fail .badParam [] else .fail .badLength []
  | some (n, fixed) =>
    checked e (· == 20)
      (!fixed && (decide (scope < n) || decide (scope = 0xFF)) && rsvHigh (e.w 0) 16 && limitOk id (e.w 1) (e.w 2) (e.w 3) (e.w 4))
      fun _ =>
        if s.limits.locked then .fail .precondition []
        else
          let is := if scope = 0xFF then List.range n else [scope]
          let l := is.foldl (fun l i => l.set id i (e.w 1) (e.w 2) (e.w 3) (e.w 4)) s.limits
          .ok (limitReply l id scope (is.headD 0) false) { s with limits := l }

/-- Row LIMIT_SET. -/
def execLimitSet (t : Instant) (q : QId) (s : State) : Out := .next (runCmd t q 0x1030 false cmdLimitSet s)

/-- The limits lock, with the LIMITS_LOCKED event (R47, R96); once locked they stay so. -/
def State.lockLimits (s : State) (cause : Nat) (q : QId) (tag : Nat) : State :=
  if s.limits.locked then s
  else { s with limits := { s.limits with locked := true, lockCause := cause } }.event 0xE050 0
    (wordsLe [pack [(cause, 8), (q.num, 4), (0, 4), (tag, 16)]] ++ s.stampMgmt.bytes)

/-- LIMIT_LOCK (R47, R107). -/
def cmdLimitLock (q : QId) (e : QEntry) (s : State) : Res :=
  checked e (· == 0) true fun _ => .ok [] (s.lockLimits 0x01 q e.cmd.tag)

/-- Row LIMIT_LOCK. -/
def execLimitLock (t : Instant) (q : QId) (s : State) : Out := .next (runCmd t q 0x1031 false cmdLimitLock s)

/-- LIMIT_READ (R107). -/
def cmdLimitRead (_q : QId) (e : QEntry) (s : State) : Res :=
  let id := bits (e.w 0) 0 8
  let scope := bits (e.w 0) 8 8
  match limitScope id with
  | none => if e.len = 4 then .fail .badParam [] else .fail .badLength []
  | some (n, fixed) => checked e (· == 4) (decide (scope < n) && rsvHigh (e.w 0) 16) fun _ => .ok (limitReply s.limits id scope scope fixed) s

/-- Row LIMIT_READ. -/
def execLimitRead (t : Instant) (q : QId) (s : State) : Out := .next (runCmd t q 0x1032 true cmdLimitRead s)

/-- OWNER_READ (R108). -/
def cmdOwnerRead (_q : QId) (e : QEntry) (s : State) : Res :=
  let c := bits (e.w 0) 0 8
  match resourceIndex c with
  | none => if e.len = 4 then .fail .badParam [] else .fail .badLength []
  | some r => checked e (· == 4) (rsvHigh (e.w 0) 8) fun _ =>
      .ok (wordsLe [pack [(c, 8), (s.owners[r].fn.code, 8), (s.owners[r].detail, 16)]] ++ s.owners[r].claim.bytes) s

/-- Row OWNER_READ. -/
def execOwnerRead (t : Instant) (q : QId) (s : State) : Out := .next (runCmd t q 0x1040 true cmdOwnerRead s)

/-- SET_GROUPING writes the grouping into the shadow sets of PI0 to PI7 (R106). -/
def cmdSetGrouping (_q : QId) (e : QEntry) (s : State) : Res :=
  checked e (· == 4) (rsvHigh (e.w 0) 2) fun _ =>
    .ok [] (s.modShadow fun k => { k with port := updAll k.port (List.finRange 8) fun _ p => { p with grouping := bits (e.w 0) 0 2 } })

/-- Row SET_GROUPING. -/
def execSetGrouping (t : Instant) (q : QId) (s : State) : Out := .next (runCmd t q 0x1050 false cmdSetGrouping s)

end Sys2Proof.Machine
end

