-- ==== Sys2Proof/Machine/AcqConfig.lean ====
section
/-! DEFINITION. Acquisition settings: capture channels, decimators, filters, the reducer, trigger units and their
combination, and the rates and slots that follow from them. -/
namespace Sys2Proof.Machine

/-! ### Sources and rates (R355, R358, R375) -/

/-- A code of Table 10.1. -/
def sourceOk (c : Nat) : Bool :=
  decide (c = 0 ∨ (0x10 ≤ c ∧ c < 0x18) ∨ (0x20 ≤ c ∧ c < 0x28) ∨ (0x30 ≤ c ∧ c < 0x38) ∨ c = 0x40 ∨ c = 0x41 ∨ (0x50 ≤ c ∧ c < 0x54))

/-- A source that may be decimated (R359). -/
def decimable (c : Nat) : Bool := decide (0x10 ≤ c ∧ c < 0x38) && sourceOk c

/-- A source that may be reduced (R366). -/
def reducible (c : Nat) : Bool := decimable c

/-- The reserved sample rate of a source, in samples per second (Table 10.1). -/
def State.sourceRate (s : State) (c : Nat) : Rat :=
  let raw : Rat := match idx? 8 (c % 16) with
    | some n => if s.active.lineRx[n].s200 then (Config.s200SymbolRate : Rat) else 450439453125 / 2
    | none => 0
  match c / 16 with
  | 1 | 2 => raw
  | 3 => raw / 256
  | 4 => 10000000000
  | 5 => 1063830
  | _ => 0

/-- Bytes of a stored sample of a source (Table 10.1). -/
def sourceBytes (c : Nat) : Rat :=
  match c / 16 with
  | 1 => 1
  | 2 | 3 => 2
  | 4 => 1 / 8
  | 5 => 8
  | _ => 0

/-- The sample rate of a channel after its decimator and before its reducer (R358). -/
def State.decimRate (s : State) (k : Bank) (c : Fin 8) : Rat :=
  let p := k.channel[c]
  match idx? 4 p.decim with
  | some d => s.sourceRate p.source / ((2 ^ k.decim[d].stages : Nat) : Rat) * 2147483648 / (k.decim[d].step : Rat)
  | none => s.sourceRate p.source

/-- The output sample rate f_c of a channel (R358). -/
def State.chanRate (s : State) (k : Bank) (c : Fin 8) : Rat :=
  let p := k.channel[c]
  if p.minmax then s.decimRate k c / (p.interval : Rat) else s.decimRate k c

/-- Bytes b_c of a channel's output sample (R358). -/
def chanBytes (k : Bank) (c : Fin 8) : Rat :=
  let p := k.channel[c]
  let b : Rat := if p.decim = 0xF then sourceBytes p.source else 2
  if p.minmax then 2 * b else b

/-- ⌈x⌉ of a nonnegative rational. -/
def ceilQ (x : Rat) : Nat := ceilDiv x.num.toNat x.den

/-- r_c in bytes per second, rounded up (R358). -/
def State.chanLoad (s : State) (k : Bank) (c : Fin 8) : Nat := ceilQ (s.chanRate k c * chanBytes k c)

/-- The decision delay D in ns (R372). -/
def WeirP.delay (p : WeirP) : Nat := if p.and' then 256 + p.window else 256

/-- The slot size of a record channel (R375). -/
def State.slotBytes (s : State) (k : Bank) (c : Fin 8) : Nat :=
  let p := k.channel[c]
  let g := ceilQ (s.chanRate k c * (k.weir.delay : Rat) / 1000000000)
  64 * ceilQ (((p.pre + p.post + g : Nat) : Rat) * chanBytes k c / 64)

/-- The record channels of a bank: those with a source and DEST RECORD. -/
def recordChans (k : Bank) : List (Fin 8) := (List.finRange 8).filter fun c => decide (k.channel[c].source ≠ 0) && !k.channel[c].stream

/-- The STREAM channels of a bank. -/
def streamChans (k : Bank) : List (Fin 8) := (List.finRange 8).filter fun c => decide (k.channel[c].source ≠ 0) && k.channel[c].stream

/-- NSLOTS (R375). -/
def State.slotCount (s : State) (k : Bank) : Nat :=
  let region := fun (burst : Bool) (size : Nat) =>
    let cs := (recordChans k).filter fun c => k.channel[c].burst == burst
    if cs = [] then 256 else size / (cs.map (s.slotBytes k)).sum
  min 256 (min (region true 4194304) (region false 29360128))

/-- Sums of r_c: burst region, bulk region, STREAM channels (R381). -/
def State.loads (s : State) (k : Bank) : Nat × Nat × Nat :=
  let sum := fun (cs : List (Fin 8)) => (cs.map (s.chanLoad k)).sum
  (sum ((recordChans k).filter fun c => k.channel[c].burst), sum ((recordChans k).filter fun c => !k.channel[c].burst), sum (streamChans k))

/-! ### Decimation (R359 to R362) -/

/-- A tap of a half-band stage, in 2⁻³²: 23 symmetric taps whose sum is 1 (R360).  Those on one side of the centre are not listed, and are
constants of the implementation. -/
def halfBandTap (t : Nat) : Int :=
  if t = 11 then 2 ^ 32 - 2 * ((List.range 11).map Config.halfBandTap).sum
  else if t < 23 then Config.halfBandTap (min t (22 - t))
  else 0

/-- An output sample of a half-band stage, in 2⁻³² of the input's unit: every second input sample gives one, about the input 11 samples before
(R359, R360). -/
def halfBand (x : Nat → Int) (k : Nat) : Int :=
  ((List.range 23).map fun t => if t ≤ 2 * k then halfBandTap t * x (2 * k - t) else 0).sum

/-- The cascade of `n` half-band stages, in 2⁻³²ⁿ of the input's unit (R359). -/
def cascade : Nat → (Nat → Int) → Nat → Int
  | 0, x => x
  | n + 1, x => cascade n (halfBand x)

/-- The resampler's accumulator after an output sample (R361). -/
def nextPhase (a step : Nat) : Nat := a + step

/-- One output of the resampler: coefficients and inputs in 2⁻¹⁷ and scale units, rounded; inputs before the first count 0 (R361). -/
def resample (coef : Nat → Int) (x : Nat → Int) (a : Nat) : Int :=
  let i := a / 2 ^ 31
  let p := bits a 24 7
  roundDiv (((List.range 24).map fun t => if t ≤ i then coef (24 * p + t) * x (i - t) else 0).sum) 131072

/-- What a decimator of `n` half-band stages computes for an output sample (R359).  DESIGN CHOICE (log 140): the cascade is exact, and
its samples are rounded to scale values at the resampler. -/
def decimateSum (coef : Nat → Int) (n : Nat) (x : Nat → Int) (a : Nat) : Int :=
  resample coef (fun i => roundDiv (cascade n x i) (2 ^ (32 * n))) a

/-- One output sample of a decimator: it saturates (R359). -/
def decimate (coef : Nat → Int) (n : Nat) (x : Nat → Int) (a : Nat) : Int := clampInt (-32768) 32767 (decimateSum coef n x a)

/-- The instant an output sample represents, on the resampler's input, in 1/256 input samples (R362). -/
def outputInstant (a : Nat) : Int := 256 * ((a / 2 ^ 31 : Nat) : Int) - 2944 + 2 * (bits a 24 7 : Nat)

/-- The same instant on the source, in 1/256 source samples: the delay of 11 input samples of every half-band stage is removed (R360,
R362). -/
def sourceInstant (n a : Nat) : Int := 2 ^ n * outputInstant a - 2816 * (2 ^ n - 1)

/-- The 24 coefficients of phase `p` are as the manual wants a preset's: 18-bit numbers that sum to 1.0 and delay a slow signal by exactly
11.5 − p/128 samples, their first moment (R362, R364, R365). -/
def phaseOk (p : Nat) (cs : List Int) : Bool :=
  decide (cs.length = 24) && cs.all (fun c => decide (-131072 ≤ c ∧ c ≤ 131071)) && decide (cs.sum = 131072) &&
    decide ((cs.zipIdx.map fun x => (x.2 : Int) * x.1).sum = 1507328 - 1024 * (p : Int))

/-- A phase that interpolates between the two samples about its instant, 18-bit numbers throughout. -/
def linearPhase (p : Nat) : List Int :=
  let mid : List Int := if p < 64 then [0, 65536 + 1024 * p, 65536 - 1024 * p] else if p = 64 then [1, 131070, 1] else [1024 * p - 65536, 196608 - 1024 * p, 0]
  List.replicate 10 0 ++ mid ++ List.replicate 11 0

/-- The coefficients of one phase of a preset, which the manual does not list: those of the implementation, which meet `phaseOk`.  The
linear phase stands in the model for values that do not (log 140). -/
def presetPhase (preset p : Nat) : List Int :=
  let cs := (List.range 24).map fun t => toSigned 18 (Config.reading (0x6012 + preset) (24 * p + t))
  if phaseOk p cs then cs else linearPhase p

/-- A coefficient of a preset (R364, R365). -/
def presetCoef (preset k : Nat) : Int := (presetPhase preset (k / 24)).getD (k % 24) 0

/-- A coefficient of a bank: as written, or the preset's. -/
def FilterBank.coef (b : FilterBank) (k : Nat) : Int :=
  match b.written.find? fun x => decide (x.1 = k) with
  | some x => x.2
  | none => presetCoef b.preset k

/-! ### Commands -/

/-- A channel's parameters changed in a bank. -/
def Bank.chan (c : Fin 8) (f : ChannelP → ChannelP) (k : Bank) : Bank := { k with channel := upd k.channel c f }

/-- A decimator's parameters changed in a bank. -/
def Bank.dec (d : Fin 4) (f : DecimP → DecimP) (k : Bank) : Bank := { k with decim := upd k.decim d f }

/-- The channel a command names in W0 [2:0]. -/
def QEntry.chan (e : QEntry) : Fin 8 := ⟨bits (e.w 0) 0 3, by simp only [bits]; omega⟩

/-- The decimator or trigger unit a command names in W0 [1:0]. -/
def QEntry.four (e : QEntry) : Fin 4 := ⟨bits (e.w 0) 0 2, by simp only [bits]; omega⟩

/-- A GAUGE_CH: a channel of Table 11.1, or 0xFF for all (R357, R367, R397). -/
def gaugeSelOk (c : Nat) : Bool := decide (c < 0x3F ∨ c = 0xFF)

/-- CHANNEL_SOURCE (R357). -/
def cmdChannelSource (_q : QId) (e : QEntry) (s : State) : Res :=
  let src := bits (e.w 0) 8 8
  let d := bits (e.w 0) 16 4
  checked e (· == 4) (rsv (e.w 0) 3 5 && rsv (e.w 0) 21 3 && sourceOk src && decide (d < 4 ∨ d = 0xF) &&
      !(bit (e.w 0) 20 && s.sys.optionW) && gaugeSelOk (bits (e.w 0) 24 8)) fun _ =>
    .ok [] (s.modShadow (Bank.chan e.chan fun p => { p with source := src, decim := d, stream := bit (e.w 0) 20, gaugeCh := bits (e.w 0) 24 8 }))

/-- Row CHANNEL_SOURCE. -/
def execChannelSource (t : Instant) (q : QId) (s : State) : Out := .next (runCmd t q 0x6010 false cmdChannelSource s)

/-- The stages and step word for a source rate and an output rate in kS/s: the largest N up to 12 for which the source
rate / 2^N is at least the output rate (R363). -/
def chooseStages (rate : Rat) (out : Nat) : Nat × Nat :=
  let o : Rat := (out : Rat) * 1000
  let n := ((List.range 13).filter fun n => decide (o ≤ rate / ((2 ^ n : Nat) : Rat))).getLastD 0
  let q := 2147483648 * rate / (((2 ^ n : Nat) : Rat) * o)
  (n, min (roundDivN q.num.toNat q.den) 0xFFFFFFFF)

/-- An output rate lies between half the source rate / 4,096 and the source rate (R363). -/
def outRateOk (rate : Rat) (out : Nat) : Bool :=
  let o : Rat := (out : Rat) * 1000
  decide (0 < out) && decide (o ≤ rate) && decide (rate / 8192 ≤ o)

/-- DECIMATOR_CONFIG, basic (R363). -/
def cmdDecimatorConfig (_q : QId) (e : QEntry) (s : State) : Res :=
  let d := e.four
  let src := bits (e.w 0) 8 8
  let rate := s.sourceRate src
  checked e (· == 12) (rsv (e.w 0) 2 6 && rsvHigh (e.w 0) 16 && decide (e.w 2 = 0) && decimable src && outRateOk rate (e.w 1)) fun _ =>
    let c := chooseStages rate (e.w 1)
    let s1 := s.modShadow (Bank.dec d fun p => { p with source := src, outRate := e.w 1 })
    let s2 := s1.writeBasic (.decim d) 0x6811 128 (Bank.dec d fun p => { p with stages := c.1 })
    let s3 := s2.writeBasic (.decim d) 0x6811 129 (Bank.dec d fun p => { p with step := c.2 })
    let p := s3.shadow.decim[d]
    let r := rate / ((2 ^ p.stages : Nat) : Rat) * 2147483648 / (p.step : Rat)
    .ok (wordsLe [p.stages, p.step] ++ leBytes 8 (r.num.toNat / r.den)) s3

/-- Row DECIMATOR_CONFIG. -/
def execDecimatorConfig (t : Instant) (q : QId) (s : State) : Out := .next (runCmd t q 0x6011 false cmdDecimatorConfig s)

/-- DECIMATOR_CONFIG, expert (R363). -/
def cmdDecimatorConfigExpert (_q : QId) (e : QEntry) (s : State) : Res :=
  let d := e.four
  let n := bits (e.w 0) 16 4
  checked e (· == 12) (rsv (e.w 0) 2 14 && rsvHigh (e.w 0) 20 && decide (n ≤ 12 ∧ e.w 1 = 0 ∧ 0x80000000 ≤ e.w 2)) fun _ =>
    let s1 := s.writeExpert (.decim d) 0x6811 128 (Bank.dec d fun p => { p with stages := n })
    let s2 := s1.writeExpert (.decim d) 0x6811 129 (Bank.dec d fun p => { p with step := e.w 2 })
    .ok (wordsLe [n, e.w 2] ++ leBytes 8 0) s2

/-- Row DECIMATOR_CONFIG, expert. -/
def execDecimatorConfigExpert (t : Instant) (q : QId) (s : State) : Out := .next (runCmd t q 0x6811 false cmdDecimatorConfigExpert s)

/-- Acquisition is armed: from ARM until DISARMED is reached. -/
def State.isArmed (s : State) : Bool := decide (s.acq.state ≠ .disarmed)

/-- A decimator runs: from the ARM that claims it until DISARMED (R364, R381). -/
def State.decimRunning (s : State) (d : Fin 4) : Bool :=
  s.isArmed && (List.finRange 8).any fun c => decide (s.active.channel[c].decim = d.val)

/-- A coefficient bank replaced. -/
def State.modBank (s : State) (d : Fin 4) (f : FilterBank → FilterBank) : State := { s with acq := { s.acq with banks := upd s.acq.banks d f } }

/-- FILTER_LOAD, basic; a pinned bank is left unchanged (R364, R365). -/
def cmdFilterLoad (_q : QId) (e : QEntry) (s : State) : Res :=
  let d := e.four
  let preset := bits (e.w 0) 24 3
  checked e (· == 4) (rsv (e.w 0) 2 22 && rsvHigh (e.w 0) 27 && decide (preset ≤ 2)) fun _ =>
    if s.decimRunning d then .fail .filterRunning []
    else if s.acq.banks[d].pinned then .ok [] (s.modMeta (.decim d) fun m => { m with pinnedSkips := satAdd 16 m.pinnedSkips 1 })
    else .ok [] (s.modBank d fun _ => { preset })

/-- Row FILTER_LOAD. -/
def execFilterLoad (t : Instant) (q : QId) (s : State) : Out := .next (runCmd t q 0x6012 false cmdFilterLoad s)

/-- FILTER_LOAD, expert (R365). -/
def cmdFilterLoadExpert (_q : QId) (e : QEntry) (s : State) : Res :=
  let d := e.four
  let first := bits (e.w 0) 4 12
  let n := bits (e.w 0) 16 8
  checked e (fun l => decide (l = 4 + 4 * n))
    (rsv (e.w 0) 2 2 && rsvHigh (e.w 0) 24 && decide (first < 3072 ∧ 1 ≤ n ∧ first + n ≤ 3072) && (List.range n).all fun i => rsvHigh (e.w (1 + i)) 18) fun _ =>
      if s.decimRunning d then .fail .filterRunning []
      else .ok [] (s.modBank d fun b => { b with
        written := b.written.filter (fun x => decide (x.1 < first ∨ first + n ≤ x.1)) ++ (List.range n).map fun i => (first + i, toSigned 18 (e.w (1 + i)))
        pinned := true })

/-- Row FILTER_LOAD, expert. -/
def execFilterLoadExpert (t : Instant) (q : QId) (s : State) : Out := .next (runCmd t q 0x6812 false cmdFilterLoadExpert s)

/-- MINMAX_CONFIG (R366). -/
def cmdMinmaxConfig (_q : QId) (e : QEntry) (s : State) : Res :=
  let i := bits (e.w 1) 0 25
  checked e (· == 8) (rsv (e.w 0) 3 5 && rsvHigh (e.w 0) 9 && rsvHigh (e.w 1) 25 && decide (2 ≤ i ∧ i ≤ 16777216)) fun _ =>
    .ok [] (s.modShadow (Bank.chan e.chan fun p => { p with minmax := bit (e.w 0) 8, interval := i }))

/-- Row MINMAX_CONFIG. -/
def execMinmaxConfig (t : Instant) (q : QId) (s : State) : Out := .next (runCmd t q 0x6013 false cmdMinmaxConfig s)

/-- RECORD_CONFIG (R374). -/
def cmdRecordConfig (_q : QId) (e : QEntry) (s : State) : Res :=
  checked e (· == 12) (rsv (e.w 0) 3 5 && rsvHigh (e.w 0) 9 && rsvHigh (e.w 1) 28 && rsvHigh (e.w 2) 28 && decide (1 ≤ e.w 2)) fun _ =>
    .ok [] (s.modShadow (Bank.chan e.chan fun p => { p with burst := bit (e.w 0) 8, pre := bits (e.w 1) 0 28, post := bits (e.w 2) 0 28 }))

/-- Row RECORD_CONFIG. -/
def execRecordConfig (t : Instant) (q : QId) (s : State) : Out := .next (runCmd t q 0x6022 false cmdRecordConfig s)

/-- A trigger source: a code of Table 10.1, or a channel's output (R367). -/
def trigSourceOk (c : Nat) : Bool := sourceOk c || decide (0x80 ≤ c ∧ c < 0x88)

/-- The source whose samples a trigger source carries, and whether they are decimated, in a bank. -/
def underlying (k : Bank) (src : Nat) : Nat × Bool :=
  match idx? 8 (src - 0x80) with
  | some c => if 0x80 ≤ src then (k.channel[c].source, decide (k.channel[c].decim ≠ 0xF)) else (src, false)
  | none => (src, false)

/-- Twice the scale value of one source LSB (R367). -/
def basicHyst (k : Bank) (src : Nat) : Nat :=
  let u := underlying k src
  if u.2 then 2
  else match u.1 / 16 with
    | 1 => 512
    | 2 => 128
    | 3 => 2
    | 5 => 16
    | _ => 0

/-- The fields of TRIGGER_CONFIG (Table 10.6), HYST and INTERP apart. -/
def trigOf (e : QEntry) (p : TrigP) : TrigP :=
  { p with
    src := bits (e.w 0) 8 8, cond := bits (e.w 0) 16 3, neg := bit (e.w 0) 19, mode := bits (e.w 0) 20 2
    tl := toSigned 16 (bits (e.w 1) 0 16), th := toSigned 16 (bits (e.w 1) 16 16), gaugeCh := bits (e.w 2) 16 8
    t1 := fieldAt e.cmd.payload 12 8, t2 := fieldAt e.cmd.payload 20 8 }

/-- The conditions on a unit's thresholds and times (R367). -/
def trigOk (p : TrigP) : Bool :=
  !(decide (p.cond = 3 ∨ p.cond = 5) && decide (p.th - p.tl ≤ (p.hyst : Int))) &&
    !(decide (p.cond = 2 ∨ p.cond = 5) && decide (2 ≤ p.mode) && decide (p.t2 < p.t1))

/-- The check shared by both forms of TRIGGER_CONFIG. -/
def trigWordsOk (s : State) (e : QEntry) : Bool :=
  rsv (e.w 0) 2 6 && rsvHigh (e.w 0) 23 && rsvHigh (e.w 2) 24 && decide (bits (e.w 0) 16 3 ≤ 5) && trigSourceOk (bits (e.w 0) 8 8) &&
    gaugeSelOk (bits (e.w 2) 16 8) &&
    !(s.sys.optionW && decide (2 ≤ e.four.val))

/-- A trigger unit's parameters changed in a bank. -/
def Bank.trig (n : Fin 4) (f : TrigP → TrigP) (k : Bank) : Bank := { k with weir := { k.weir with units := upd k.weir.units n f } }

/-- TRIGGER_CONFIG, basic: INTERP 1 and HYST by the rule of R367, unless pinned. -/
def cmdTriggerConfig (_q : QId) (e : QEntry) (s : State) : Res :=
  let n := e.four
  let old := s.shadow.weir.units[n]
  let hyst := if s.shadow.pinned .weir 0x6820 (128 + 2 * n.val) then old.hyst else basicHyst s.shadow (bits (e.w 0) 8 8)
  checked e (· == 28) (trigWordsOk s e && trigOk (trigOf e { old with hyst })) fun _ =>
    let s1 := s.modShadow (Bank.trig n (trigOf e))
    let s2 := s1.writeBasic .weir 0x6820 (128 + 2 * n.val) (Bank.trig n fun p => { p with hyst })
    .ok [] (s2.writeBasic .weir 0x6820 (129 + 2 * n.val) (Bank.trig n fun p => { p with interp := true }))

/-- Row TRIGGER_CONFIG. -/
def execTriggerConfig (t : Instant) (q : QId) (s : State) : Out := .next (runCmd t q 0x6020 false cmdTriggerConfig s)

/-- TRIGGER_CONFIG, expert (R367). -/
def cmdTriggerConfigExpert (_q : QId) (e : QEntry) (s : State) : Res :=
  let n := e.four
  let hyst := bits (e.w 2) 0 16
  checked e (· == 28) (trigWordsOk s e && trigOk (trigOf e { s.shadow.weir.units[n] with hyst })) fun _ =>
    let s1 := s.modShadow (Bank.trig n (trigOf e))
    let s2 := s1.writeExpert .weir 0x6820 (128 + 2 * n.val) (Bank.trig n fun p => { p with hyst })
    .ok [] (s2.writeExpert .weir 0x6820 (129 + 2 * n.val) (Bank.trig n fun p => { p with interp := bit (e.w 0) 22 }))

/-- Row TRIGGER_CONFIG, expert. -/
def execTriggerConfigExpert (t : Instant) (q : QId) (s : State) : Out := .next (runCmd t q 0x6820 false cmdTriggerConfigExpert s)

/-- TRIGGER_COMBINE (R371). -/
def cmdTriggerCombine (_q : QId) (e : QEntry) (s : State) : Res :=
  let w := bits (e.w 1) 0 20
  checked e (· == 12)
    (rsv (e.w 0) 1 3 && rsvHigh (e.w 0) 17 && rsvHigh (e.w 1) 20 && rsvHigh (e.w 2) 16 && decide (1 ≤ w ∧ w ≤ 1000000) &&
      !(s.sys.optionW && decide (bits (e.w 0) 6 2 ≠ 0))) fun _ =>
      .ok [] (s.modShadow fun k => { k with weir := { k.weir with
        and' := bit (e.w 0) 0, unitMask := bits (e.w 0) 4 4, evtMask := bits (e.w 0) 8 8, overwrite := bit (e.w 0) 16, window := w
        recordLimit := bits (e.w 2) 0 16 } })

/-- Row TRIGGER_COMBINE. -/
def execTriggerCombine (t : Instant) (q : QId) (s : State) : Out := .next (runCmd t q 0x6021 false cmdTriggerCombine s)

end Sys2Proof.Machine
end

