-- ==== Sys2Proof/Machine/Ports.lean ====
section
/-! DEFINITION. Ports: the groupings, the causes that fault a direction, and the fault state they drive. -/
namespace Sys2Proof.Machine

/-- The grouping in force (R29, R106). -/
def State.grouping (s : State) : Nat := s.active.port[(0 : Fin 8)].grouping

/-- Slices per port of a grouping (Table 1.3). -/
def slicesPer : Nat → Nat
  | 0 => 1 | 1 => 2 | 2 => 4 | _ => 8

/-- The lead slice of the port that holds a slice (R29). -/
def leadOf (g : Nat) (n : Fin 8) : Fin 8 := ⟨n.val - n.val % slicesPer g, by omega⟩

/-- The lead slices of a grouping, ascending. -/
def leads (g : Nat) : List (Fin 8) := (List.finRange 8).filter fun n => decide (leadOf g n = n)

/-- The slices of the port a lead slice leads (Table 1.3). -/
def slicesOf (g : Nat) (lead : Fin 8) : List (Fin 8) := (List.finRange 8).filter fun n => decide (leadOf g n = lead)

/-- The host lanes that carry a slice: both in N425, the even one in S200 (R240). -/
def State.hostLanesOf (s : State) (n : Fin 8) : List (Fin 16) :=
  if s.active.lineRx[n].s200 then [hostLow n] else [hostLow n, hostHigh n]

/-- When superframe 0 of a line lane arrived, or would have, in 1/100 units of elapsed time, modulo the 8,000 superframes of stage C: where
its last marker stands (R179, R239). -/
def State.frameOrigin (s : State) (n : Fin 8) : Option Int :=
  (s.lanes[n].rx.markAt).map fun t => ((100 * t : Nat) - (2147483648 * (s.lanes[n].rx.count + 1) : Nat) : Int) % 17179869184000

/-- Two forwarding lanes of a port arrive more than 2,000 ns apart (R29, R239). -/
def State.skewed (s : State) (lead : Fin 8) : Bool :=
  let os := ((slicesOf s.grouping lead).filter fun n => s.lanes[n].rx.forwarding && decide (s.lanes[n].acq.stage = .c)).filterMap s.frameOrigin
  os.any fun x => os.any fun y => decide (13107200000 < (x - y) % 17179869184000 ∧ 13107200000 < (y - x) % 17179869184000)

/-- DESKEW of every port judged now: it stands in the slice that leads (R239, R241). -/
def State.deskewPorts (s : State) : State :=
  s.forEach (List.finRange 8) fun n s =>
    let d := decide (leadOf s.grouping n = n) && s.skewed n
    if s.ports[n].deskew = d then s else s.modPort n fun p => { p with deskew := d }

/-- A loop is in force on a line lane, a loop measurement included (R246, R252, R306). -/
def State.lineLooped (s : State) (n : Fin 8) : Bool :=
  (decide (s.active.lineRx[n].loop ≠ 0) && !s.lanes[n].acq.loopSuspended) || s.lanes[n].time.xfer.isSome

/-- A loop is in force on a host lane (R246, R252). -/
def State.hostLooped (s : State) (n : Fin 16) : Bool :=
  decide (s.active.host[n].loop ≠ 0) && !s.hosts[n].loopSuspended

/-- A host transmitter is squelched by QUIET, STILL or disable, a relay lane's by its own squelch sources (R171, R232, R242). -/
def State.hostTxOff (s : State) (n : Fin 16) : Bool :=
  if s.active.host[n].relay then
    let l := s.relays[n]
    decide (l.acq.state = .still ∨ l.acq.state = .disabled) || l.tx.squelch.power || l.tx.squelch.notEnabled || s.hosts[n].shed
  else decide (s.hosts[n].state = .quiet ∨ s.hosts[n].state = .still ∨ s.hosts[n].state = .disabled) || s.hosts[n].shed

/-- Causes of Table 6.12 that one slice holds toward the host. -/
def State.causesHost (s : State) (n : Fin 8) : Nat :=
  pack [(flag (decide (s.lanes[n].acq.state ≠ .locked) || s.lineLooped n), 1), (flag (s.lanes[n].rx.laneOrder && decide (1 < slicesPer s.grouping)), 1),
    (flag (!s.lanes[n].rx.forwarding), 1), (flag s.ports[n].deskew, 1), (flag (s.lineLooped n), 1), (0, 3),
    (flag s.ports[n].overHost, 1), (flag ((s.hostLanesOf n).any s.hostLooped), 1), (flag s.ports[n].regHost, 1),
    (flag ((s.hostLanesOf n).any s.hostTxOff), 1)]

/-- Causes of Table 6.12 that one slice holds toward the line. -/
def State.causesLine (s : State) (n : Fin 8) : Nat :=
  pack [(0, 4), (flag (s.lineLooped n), 1),
    (flag ((s.hostLanesOf n).any fun h => decide (s.hosts[h].state ≠ .active) || s.hostLooped h), 1),
    (flag s.ports[n].laneMap, 1), (flag s.ports[n].hostDeskew, 1), (flag s.ports[n].overLine, 1),
    (flag ((s.hostLanesOf n).any s.hostLooped), 1), (flag s.ports[n].regLine, 1), (0, 1)]

/-- The causes of a whole port in one direction: those of its slices together (R254). -/
def State.portCauses (s : State) (lead : Fin 8) (toLine : Bool) : Nat :=
  (slicesOf s.grouping lead).foldl (fun m n => m ||| (if toLine then s.causesLine n else s.causesHost n)) 0

/-- The PORT_FAULT event (R258). -/
def State.portEvent (s : State) (lead : Fin 8) (toLine entered : Bool) (causes : Nat) : State :=
  let action := if entered = false then 0 else if toLine = false ∧ s.active.port[lead].squelchMode then 2 else 1
  s.event 0xE012 0 (wordsLe [pack [(lead.val, 3), (flag toLine, 1), (flag entered, 1), (0, 3), (action, 8)], causes] ++ s.stampMgmt.bytes)

/-- One direction of a port with its causes judged now (R254, R256): a new fault is entered, counted and reported; a
faulted direction with no cause starts its hold, and a cause restarts it. -/
def State.judgeDir (s : State) (lead : Fin 8) (toLine : Bool) : State :=
  let m := s.portCauses lead toLine
  let d := if toLine then s.ports[lead].toLine else s.ports[lead].toHost
  let put := fun (s : State) (d : FaultDir) => s.modPort lead fun p => if toLine then { p with toLine := d } else { p with toHost := d }
  if m ≠ 0 then
    if d.faulted then put s { d with causes := m, clearSince := none }
    else
      ((put s { faulted := true, causes := m, clearSince := none }).modPort lead
        fun p => { p with portFaults := satAdd 32 p.portFaults 1 }).portEvent lead toLine true m
  else if d.faulted ∧ d.clearSince = none then put s { d with clearSince := some s.now }
  else s

/-- Every port of the grouping judged in both directions, with its lanes' skew as it stands (R239, R254). -/
def State.judgePorts (s : State) : State :=
  s.deskewPorts.forEach (leads s.grouping) fun l s => (s.judgeDir l false).judgeDir l true

/-- A faulted direction may clear: no cause holds and none has held for CLEAR_HOLD (R256). -/
def State.mayClear (s : State) (lead : Fin 8) (toLine : Bool) : Bool :=
  let d := if toLine then s.ports[lead].toLine else s.ports[lead].toHost
  d.faulted && decide (s.portCauses lead toLine = 0) &&
    match d.clearSince with
    | some c => decide (c + usec s.active.port[lead].clearHold ≤ s.now)
    | none => false

/-- PORT_FAULT_CLEAR: the direction clears, its flow resumes, and the clearing is reported (R256, R258). -/
def execPortFaultClear (t : Instant) (port : Fin 8) (toLine : Bool) (s : State) : Out :=
  let s := s.advanceTo t
  if decide (leadOf s.grouping port = port) && s.mayClear port toLine then
    let d := if toLine then s.ports[port].toLine else s.ports[port].toHost
    let d' : FaultDir := { faulted := false, causes := 0, clearSince := none }
    .next ((s.modPort port fun p => if toLine then { p with toLine := d' } else { p with toHost := d' }).portEvent port toLine false d.causes)
  else .next s

/-- A host output is squelched by the port-fault mode (R232, R255). -/
def State.faultSquelch (s : State) (n : Fin 8) : Bool :=
  let l := leadOf s.grouping n
  s.active.port[l].squelchMode && s.ports[l].toHost.faulted

end Sys2Proof.Machine
end

