-- ==== Sys2Proof/Machine/Groups.lean ====
section
/-! DEFINITION. Link groups of lanes and the lane of each group that carries Rill. -/
namespace Sys2Proof.Machine

/-- The host port whose relay lane a host lane is. -/
def relayPort (n : Fin 16) : Fin 8 := ⟨n.val / 2, by omega⟩

/-- The lanes of the link a canonical port ID names, lowest-numbered first (R326). -/
def State.groupLanes (s : State) (p : Fin 16) : List LaneRef :=
  if h : p.val < 8 then
    match s.lanes[p.val].rx.peer with
    | none => []
    | some x => ((List.finRange 8).filter fun n : Fin 8 => decide (s.lanes[n].rx.peer = some x)).map .line
  else [.relay (hostLow ⟨p.val - 8, by omega⟩), .relay (hostHigh ⟨p.val - 8, by omega⟩)]

/-- The canonical port of a lane. -/
def State.portOf (s : State) : LaneRef → Option (Fin 16)
  | .line n => s.canonical ⟨n.val, by omega⟩
  | .relay n => s.canonical ⟨8 + n.val / 2, by omega⟩

/-- The number of a lane within its link: 0 to 7, or 0 and 1 of a relay port (Table 9.11). -/
def LaneRef.within : LaneRef → Nat
  | .line n => n.val
  | .relay n => n.val % 2

/-- The lane is a line lane. -/
def LaneRef.isLine : LaneRef → Bool
  | .line _ => true
  | .relay _ => false

/-- A lane qualifies for Rill (R327). -/
def State.qualifies (s : State) (r : LaneRef) : Bool :=
  decide ((s.lane r).acq.state = .locked ∧ (s.lane r).rx.farState = 6)

/-- The lane Rill should take on a link: the lowest-numbered qualifying one, preferred lanes first (R327). -/
def State.bestLane (s : State) (p : Fin 16) : Option Nat :=
  let q := (s.groupLanes p).filter s.qualifies
  let pref := q.filter fun r => r.isLine && bit s.active.rill.prefLanes r.within
  (pref ++ q).head?.map LaneRef.within

/-- The lane a link uses still qualifies. -/
def State.stillCarries (s : State) (p : Fin 16) (l : Nat) : Bool :=
  ((s.groupLanes p).filter s.qualifies).any fun r => decide (r.within = l)

/-- The lane that brings the frame being received still qualifies; where it has stopped, that frame is broken (R195, R327). -/
def State.stillBrings (s : State) (p : Fin 16) : Bool :=
  match s.rill.links[p].rxLane with
  | some l => s.stillCarries p l
  | none => true

/-- The port ID to which a line group has moved when its lowest-numbered lane has left it (R326). -/
def State.successor (s : State) (p : Fin 16) : Option (Fin 16) :=
  match s.rill.links[p].peer with
  | none => none
  | some x => ((List.finRange 8).find? fun n : Fin 8 => decide (s.lanes[n].rx.peer = some x)).map fun n => ⟨n.val, by omega⟩

/-- The frame being sent is broken: it is sent again, an ACK that no later one has followed as well (R327, R333). -/
def Link.breakTx (l : Link) : Link :=
  { l with txBytes := [], txAck := false, ack := if l.txAck && decide (l.txBytes ≠ []) then l.ack.or l.lastAck else l.ack }

/-- Rill's lane on one port ID judged now (R327): it changes between frames, or at once, breaking the frame, when its
lane stops qualifying; a link whose canonical ID has moved goes with it, and one that was down with no lane sends what it kept on the lane
of the new ID (R335). -/
def State.judgeLink (s : State) (p : Fin 16) : State :=
  match s.canonical p with
  | none =>
    match s.successor p with
    | some c => { s with rill := { s.rill with links := (s.rill.links.set c s.rill.links[p]).set p {} } }
    | none =>
      match s.rill.links[p].lane with
      | none => s
      | some _ => s.modLink p fun l => { l.breakTx with lane := none, downSince := s.now, rxBytes := none }
  | some c =>
    if c = p then
      let best := s.bestLane p
      let s := s.modLink p fun l => { l with
        peer := if h : p.val < 8 then s.lanes[p.val].rx.peer else none
        rxBytes := if s.stillBrings p then l.rxBytes else none }
      match s.rill.links[p].lane with
      | none => if best = none then s else s.modLink p fun l => { l.breakTx with lane := best, sendIdx := 0 }
      | some l =>
        if s.stillCarries p l then
          if s.rill.links[p].txBytes = [] then s.modLink p fun k => { k with lane := best } else s
        else s.modLink p fun k =>
          { k.breakTx with lane := best, downSince := if best = none then s.now else k.downSince }
    else
      match s.rill.links[p].lane, s.rill.links[p].peer with
      | none, none => s
      | none, some _ =>
        let moved : Link := { s.rill.links[p].breakTx with lane := s.rill.links[c].lane, sendIdx := 0 }
        { s with rill := { s.rill with links := (s.rill.links.set c moved).set p {} } }
      | some _, _ => { s with rill := { s.rill with links := (s.rill.links.set c s.rill.links[p]).set p {} } }

/-- The lanes of the upstream group, or 256 plus the relay port (R329). -/
def State.upstreamGroup (s : State) : Nat :=
  match s.rill.upPort.bind fun p => (idx? 16 p).bind s.canonical with
  | none => 0
  | some c => if c.val < 8 then idxMask ((s.groupLanes c).filterMap fun r => match r with | .line n => some n | .relay _ => none) else 256 + (c.val - 8)

/-- With TIME_FOLLOW 1 an assigned worker's firmware sets the servo source to a changed upstream group, its parameters
unless they are pinned, and commits the servo through Q3 (R342). -/
def State.follow (s : State) : State :=
  let g := s.upstreamGroup
  if s.active.rill.role = .worker ∧ s.active.rill.timeFollow = true ∧ g ≠ 0 ∧ s.rill.followed ≠ some (s.rill.upPort.getD 0, g) then
    let cmd := fun (op w : Nat) (s : State) => s.toQ3 { op, expert := false, barrier := false, noReply := false, tag := 0, payload := leBytes 4 w } false
    let s1 := cmd 0x4010 (if g < 256 then pack [(1, 8), (g, 8)] else pack [(1, 16), (g - 256, 3), (1, 1)]) s
    let pinned := [128, 129, 130].any fun el => s.shadow.pinned .servo 0x4811 el
    let s2 := if pinned then s1 else cmd 0x4011 (if g < 256 then 0 else 1) s1
    ({ s2 with rill := { s2.rill with followed := some (s.rill.upPort.getD 0, g) } }).q3Apply [.servo]
  else s

/-- Rill's lane on every port ID judged now, and the time base's following of the upstream group. -/
def State.judgeRill (s : State) : State := (s.forEach (List.finRange 16) fun p s => s.judgeLink p).follow

/-- A missing or corrupt Rill data marker, or a lane that stops, breaks the frame being received on the lane that
carries Rill (R195). -/
def State.breakFrame (s : State) (r : LaneRef) : State :=
  match s.portOf r with
  | none => s
  | some p => s.modLink p fun l => if l.rxLane = some r.within then { l with rxBytes := none, rxLane := none } else l

end Sys2Proof.Machine
end

