-- ==== Sys2Proof/Machine/Framing.lean ====
section
/-! DEFINITION. The bits of the line: the marker block and its payload layouts, CRC-16, the PAM4 mapping, and the inner
code with its hard and soft decoders. -/
namespace Sys2Proof.Machine

/-- The number of one bits among the `n` low bits of a word. -/
def popcount : Nat → Nat → Nat
  | 0, _ => 0
  | n + 1, w => w % 2 + popcount n (w / 2)

/-- One bit into the CRC-16 register, polynomial 0x1021, most significant bit first (R185). -/
def crc16Step (r : Nat) (b : Bool) : Nat :=
  let x := if Nat.testBit r 15 != b then 0x1021 else 0
  (2 * r % 65536) ^^^ x

/-- CRC-16 of the `n` low bits of a word, the highest one first, from a register (R185). -/
def crc16From : Nat → Nat → Nat → Nat
  | 0, _, r => r
  | n + 1, w, r => crc16From n w (crc16Step r (Nat.testBit w n))

/-- CRC-16 of an `n`-bit value in transmission order, the register starting all ones (R185). -/
def crc16 (n w : Nat) : Nat := crc16From n w 0xFFFF

/-- The sync pattern of a marker (Table 5.4). -/
def syncWord : Nat := 0x6F1A

/-- The marker block of a count, a lane and a payload (Table 5.4, R184). -/
def markerBlock (count laneId payload : Nat) : Nat :=
  let top := pack [(payload, 96), (laneId, 3), (count, 13), (syncWord, 16)]
  top * 65536 + crc16 128 top

/-- COUNT of a marker block. -/
def markerCount (b : Nat) : Nat := bits b 115 13
/-- LANE_ID of a marker block. -/
def markerLane (b : Nat) : Nat := bits b 112 3
/-- PAYLOAD of a marker block. -/
def markerPayload (b : Nat) : Nat := bits b 16 96

/-- What a count makes of the marker that closes its superframe (Table 5.1). -/
inductive MarkerType where
  | time | control | data
  deriving DecidableEq, Repr

/-- The type of the marker closing superframe `n` (R180). -/
def markerType (n : Nat) : MarkerType := if n % 16 = 0 then .time else if n % 16 = 8 then .control else .data

/-- The sync field of a received block differs from the pattern in more than 3 bits (R135). -/
def markerMissing (b : Nat) : Bool := decide (3 < popcount 16 (bits b 128 16 ^^^ syncWord))

/-- A block that is present fails its CRC, carries a count that is never sent, or is a Rill data marker with more than
11 bytes (R186, R195). -/
def markerCorrupt (b : Nat) : Bool :=
  decide (crc16 128 (b / 65536 % 2 ^ 128) ≠ b % 65536 ∨ 7999 < markerCount b ∨
    (markerType (markerCount b) = .data ∧ 11 < bits (markerPayload b) 92 4))

/-- How a received marker is judged (R186). -/
inductive Judgement where
  | missing | corrupt | good
  deriving DecidableEq, Repr

/-- The judgement of a received block; a mark by residue or SECDED makes it corrupt (R186, R212). -/
def judgeMarker (b : Nat) (marked : Bool) : Judgement :=
  if markerMissing b then .missing else if marked || markerCorrupt b then .corrupt else .good

/-- The count after `n` (R179). -/
def nextCount (n : Nat) : Nat := (n + 1) % 8000

/-- How far a count lies ahead of another, modulo 8,000. -/
def countAhead (target now : Nat) : Nat := (target + 8000 - now % 8000) % 8000

/-! ### Symbols (R182, R183) -/

/-- The level index of a pair of bits at stages B and C (Table 5.3). -/
def pam4 (first second : Bool) : Nat :=
  match first, second with
  | false, false => 0 | false, true => 1 | true, true => 2 | true, false => 3

/-- The `n` symbols of the `2n` low bits of a block at stages B and C, the first bit of a pair the higher one (R183). -/
def pamSymbols : Nat → Nat → List Nat
  | 0, _ => []
  | n + 1, w => pam4 (Nat.testBit w (2 * n + 1)) (Nat.testBit w (2 * n)) :: pamSymbols n w

/-- The `n` symbols of the `n` low bits of a block at stage A (R183). -/
def nrzSymbols : Nat → Nat → List Nat
  | 0, _ => []
  | n + 1, w => (if Nat.testBit w n then 3 else 0) :: nrzSymbols n w

/-! ### The inner code (R198 to R201) -/

/-- The columns of the data bits, by data index (R198). -/
def dataColumns : List Nat :=
  (List.range 256).filter (fun x => popcount 8 x == 2) ++ (List.range 256).filter (fun x => popcount 8 x == 3) ++
    ((List.range 256).filter fun x => popcount 8 x == 4).take 52

/-- The column h(j) of every codeword bit: parity bits, then data bits (R198). -/
def columns : List Nat := (List.range 8).map (2 ^ ·) ++ dataColumns

/-- The XOR of the columns of the bits of a word that are 1, from bit `j` up. -/
def syndromeFrom : List Nat → Nat → Nat → Nat
  | [], _, _ => 0
  | h :: hs, j, w => (if Nat.testBit w j then h else 0) ^^^ syndromeFrom hs (j + 1) w

/-- The syndrome of a 144-bit word (R199). -/
def syndrome (w : Nat) : Nat := syndromeFrom columns 0 w

/-- The codeword of 136 payload bits (R198, R199): data bits above, parity in bits 7 to 0. -/
def innerEncode (payload : Nat) : Nat :=
  let d := payload % 2 ^ 136
  d * 256 + syndromeFrom dataColumns 0 d

/-- The hard-decision decoder: the word delivered, or none for an inner failure (R200). -/
def hardDecode (w : Nat) : Option Nat :=
  let s := syndrome w
  if s = 0 then some w
  else (columns.findIdx? (· == s)).map fun j => w ^^^ 2 ^ j

/-- A bit position put in order of increasing reliability, ties to the lower position (R201). -/
def insertRel (p : Nat × Nat) : List (Nat × Nat) → List (Nat × Nat)
  | [] => [p]
  | q :: qs => if p.2 < q.2 ∨ (p.2 = q.2 ∧ p.1 < q.1) then p :: q :: qs else q :: insertRel p qs

/-- The `d` bits of lowest reliability, in order (R201, step 1). -/
def weakest (rel : List Nat) (d : Nat) : List Nat :=
  (((rel.zipIdx.map fun p => (p.2, p.1)).foldr insertRel []).take d).map Prod.fst

/-- The word with the bits of a test pattern inverted (R201, step 2). -/
def flipBits (w t : Nat) : List Nat → Nat → Nat
  | [], _ => w
  | j :: js, b => flipBits (if Nat.testBit t b then w ^^^ 2 ^ j else w) t js (b + 1)

/-- The metric of a candidate: the sum of 2r + 1 over the bits in which it differs (R201, step 3). -/
def metricFrom : List Nat → Nat → Nat → Nat
  | [], _, _ => 0
  | r :: rs, j, diff => (if Nat.testBit diff j then 2 * r + 1 else 0) + metricFrom rs (j + 1) diff

/-- The Chase decoder over a hard-decision decoder, to a depth: the word delivered, or none for an inner failure (R201, R213).  `rel`
gives the reliability of the bits from bit 0 on. -/
def chaseWith (hard : Nat → Option Nat) (depth w : Nat) (rel : List Nat) : Option Nat :=
  let weak := weakest rel depth
  let cands := (List.range (2 ^ depth)).filterMap fun t => hard (flipBits w t weak 0)
  (cands.foldl (fun best c =>
    let m := metricFrom rel 0 (c ^^^ w)
    match best with
    | none => some (m, c)
    | some (m', c') => if m < m' then some (m, c) else some (m', c')) (none : Option (Nat × Nat))).map Prod.snd

/-- The Chase decoder of the inner code of N425, to a depth (R201). -/
def chaseDecode (depth w : Nat) (rel : List Nat) : Option Nat := chaseWith hardDecode depth w rel

/-- An inner code: the bits of a codeword and of its payload, the encoder, the hard-decision decoder, and the payload of a codeword. -/
structure InnerCode where
  length : Nat
  payloadLength : Nat
  encode : Nat → Nat
  hard : Nat → Option Nat
  payload : Nat → Nat

/-- The inner code of N425 (R198 to R200). -/
def codeN425 : InnerCode :=
  { length := 144, payloadLength := 136, encode := innerEncode, hard := hardDecode, payload := fun w => w / 256 % 2 ^ 136 }

/-- The inner code of S200, which IEEE 802.3dj defines and the manual does not quote (R213; log 136). -/
def codeS200 : InnerCode :=
  { length := max 1 Config.s200InnerLength, payloadLength := max 1 Config.s200PayloadLength
    encode := Config.s200Encode, hard := Config.s200Hard, payload := Config.s200Payload }

/-- The reliability of a bit from the detector's metric difference (R203). -/
def reliability (lambda llrScale : Nat) : Nat := min 7 (lambda * llrScale / 4096)

end Sys2Proof.Machine
end

