-- ==== Sys2Proof/Machine/RxPath.lean ====
section
/-! DEFINITION. The receive path of a lane: converter slots, timing recovery, sequence detector, and what the inner decoder delivers. -/
namespace Sys2Proof.Machine

/-! ### The interleaved converter (R113, R114) -/

/-- The sub-converter that serves a slot: those other than the parked one in ascending order (R113). -/
def slotConverter (parked slot : Nat) : Nat := if slot < parked then slot else slot + 1

/-- The sub-converter that samples symbol `i` of the stream, which falls in slot i mod 128 (R113). -/
def symbolConverter (parked i : Nat) : Nat := slotConverter parked (i % 128)

/-- The sub-converters that sample symbol `i`: that of its slot and, for the whole superframe before the parked index moves to `next`, the
one that then serves the slot as well; the two differ in one slot (R114). -/
def symbolConverters (parked : Nat) (next : Option Nat) (i : Nat) : List Nat :=
  let then' := symbolConverter (next.getD parked) i
  if then' = symbolConverter parked i then [then'] else [symbolConverter parked i, then']

/-! ### Timing recovery (R19, R118, R119; log 125) -/

/-- The NCO phase in 1/64 UI (R118). -/
def LaneEq.ncoPhase (q : LaneEq) : Nat := q.ncoAcc / 67108864

/-- The sampling phase: the NCO phase with the expert phase offset added after the loop (R119). -/
def LaneEq.samplePhase (q : LaneEq) (offset : Int) : Int := q.ncoPhase + offset

/-- The phase that stamp interpolation reads: the sampling phase less the offset, so that an offset moves no stamp (R119). -/
def LaneEq.stampPhase (q : LaneEq) (offset : Int) : Int := q.samplePhase offset - offset

/-- One island cycle of the loop: the proportional-integral filter on the phase detector's mean output drives the NCO, and the receive
word has 255 or 257 symbols instead of 256 where the phase wraps through a whole UI (R19, R118). -/
def LaneEq.cycle (kp ki : Nat) (q : LaneEq) (e : Int) : LaneEq × Nat :=
  let i := q.nco + roundDiv e (2 ^ ki)
  let a := (q.ncoAcc : Int) + i + roundDiv e (2 ^ kp)
  ({ q with nco := i, ncoAcc := (a % 4294967296).toNat }, if a < 0 then 257 else if 4294967296 ≤ a then 255 else 256)

/-- The loop after a run of island cycles. -/
def LaneEq.track (kp ki : Nat) (q : LaneEq) (ws : List (Int × Nat)) : LaneEq := ws.foldl (fun q w => (q.cycle kp ki w.1).1) q

/-- The symbol counts of the receive words of a run of island cycles, each travelling with its word (R19). -/
def LaneEq.wordCounts (kp ki : Nat) : LaneEq → List (Int × Nat) → List Nat
  | _, [] => []
  | q, w :: ws => (q.cycle kp ki w.1).2 :: LaneEq.wordCounts kp ki (q.cycle kp ki w.1).1 ws

/-- The integrator in each cycle of a run. -/
def LaneEq.integrators (kp ki : Nat) : LaneEq → List (Int × Nat) → List Int
  | _, [] => []
  | q, w :: ws => (q.cycle kp ki w.1).1.nco :: LaneEq.integrators kp ki (q.cycle kp ki w.1).1 ws

/-- CDR lock: for 4,096 cycles the integrator has changed by less than 0.5 ppm, 128·10⁻⁶ UI in a cycle of 256 symbols, and the mean
square has stayed below 1/256 UI² (R118). -/
def LaneEq.locks (kp ki : Nat) (q : LaneEq) (ws : List (Int × Nat)) : Bool :=
  decide (ws.length = 4096) && ws.all (fun w => decide (w.2 < 16777216)) &&
    (q.integrators kp ki ws).all fun i => decide (-549755 ≤ i - q.nco ∧ i - q.nco ≤ 549755)

/-- Loss of CDR lock: for 4,096 cycles the mean square has exceeded 1/16 UI² (R118). -/
def cdrLost (ws : List (Int × Nat)) : Bool := decide (ws.length = 4096) && ws.all fun w => decide (268435456 < w.2)

/-! ### The sequence detector (R123, R203) -/

/-- A level in 1/256 of the nominal level spacing. -/
def levelOf (l : Nat) : Int := 256 * (l : Int) - 384

/-- The squared error of an FFE output against the target response 1 + H1·D + H2·D² for a level and the two before it. -/
def branchMetric (h1 h2 y : Int) (x p1 p2 : Nat) : Nat :=
  let e := y - levelOf x - roundDiv (h1 * levelOf p1 + h2 * levelOf p2) 256
  (e * e).toNat

/-- The least of some metrics; a path that no level allows has a metric beyond every other. -/
def leastOf (ms : List Nat) : Nat := ms.foldl min (2 ^ 62)

/-- The level indices that the stage sends: 0 and 3 at stage A, and all four with PAM4 (R183). -/
def alphabet (nrz : Bool) : List Nat := if nrz then [0, 3] else [0, 1, 2, 3]

/-- The metrics of the 16 states, each a level and the one before it, after one more FFE output. -/
def forwardStep (nrz : Bool) (h1 h2 : Int) (path : List Nat) (y : Int) : List Nat :=
  let m := (List.range 16).map fun st =>
    let x := st / 4
    let p1 := st % 4
    if (alphabet nrz).contains x && (alphabet nrz).contains p1 then
      leastOf ((alphabet nrz).map fun p2 => path.getD (4 * p1 + p2) 0 + branchMetric h1 h2 y x p1 p2)
    else 2 ^ 62
  m.map (· - leastOf m)

/-- The least metric that the outputs to come can add, from each of the 16 states. -/
def backwardMetrics (nrz : Bool) (h1 h2 : Int) : List Int → List Nat
  | [] => List.replicate 16 0
  | y :: ys =>
    let next := backwardMetrics nrz h1 h2 ys
    (List.range 16).map fun st =>
      leastOf ((alphabet nrz).map fun n => next.getD (4 * n + st / 4) 0 + branchMetric h1 h2 y n (st / 4) (st % 4))

/-- The best path metric for each level of one symbol, the outputs of the rest of its traceback given (R123). -/
def symbolMetrics (nrz : Bool) (h1 h2 : Int) (path : List Nat) (y : Int) (ys : List Int) : List Nat :=
  let rest := backwardMetrics nrz h1 h2 ys
  (List.range 4).map fun x =>
    if (alphabet nrz).contains x then
      leastOf ((alphabet nrz).flatMap fun p1 => (alphabet nrz).map fun p2 =>
        path.getD (4 * p1 + p2) 0 + branchMetric h1 h2 y x p1 p2 + rest.getD (4 * x + p1) 0)
    else 2 ^ 62

/-- A decided bit and its reliability, from the best path metrics with the bit at 0 and at 1: their difference is counted in 1/256 of
the squared level spacing (R203).  DESIGN CHOICE (log 143): the difference is cut to whole units before LLR_SCALE multiplies it, and
equal metrics decide 0. -/
def decideBit (llrScale at0 at1 : Nat) : Bool × Nat :=
  (decide (at1 < at0), reliability ((if at1 < at0 then at0 - at1 else at1 - at0) / 256) llrScale)

/-- The 4-bit log-likelihood ratio of a bit: the hard decision above its reliability (R123). -/
def llrCode (b : Bool × Nat) : Nat := 8 * flag b.1 + b.2

/-- The bits of one symbol: one at stage A, and two with PAM4 by the mapping of Table 5.3. -/
def symbolBits (nrz : Bool) (llrScale : Nat) (m : List Nat) : List (Bool × Nat) :=
  let c := fun x => m.getD x 0
  if nrz then [decideBit llrScale (c 0) (c 3)]
  else [decideBit llrScale (min (c 0) (c 1)) (min (c 2) (c 3)), decideBit llrScale (min (c 0) (c 3)) (min (c 1) (c 2))]

/-- The detector over a run of FFE outputs: each symbol is decided with the 63 that follow it, a traceback of 64 (R123). -/
def detectBits (nrz : Bool) (h1 h2 : Int) (llrScale : Nat) : List Nat → List Int → List (Bool × Nat)
  | _, [] => []
  | path, y :: ys =>
    symbolBits nrz llrScale (symbolMetrics nrz h1 h2 path y (ys.take 63)) ++
      detectBits nrz h1 h2 llrScale (forwardStep nrz h1 h2 path y) ys

/-- The path metrics after a run of FFE outputs. -/
def detectPath (nrz : Bool) (h1 h2 : Int) (path : List Nat) (ys : List Int) : List Nat := ys.foldl (forwardStep nrz h1 h2) path

/-- The number that bits spell, the first one highest. -/
def ofBitsHigh (bs : List Bool) : Nat := bs.foldl (fun n b => 2 * n + flag b) 0

/-- Decided bits cut into blocks of `len`, the highest bit first: the hard decisions of each, and the reliabilities of its bits from bit 0
on (R182). -/
def cutBlocks (len : Nat) : Nat → List (Bool × Nat) → List (Nat × List Nat)
  | 0, _ => []
  | n + 1, bs =>
    if bs.length < len then []
    else (ofBitsHigh ((bs.take len).map Prod.fst), ((bs.take len).map Prod.snd).reverse) :: cutBlocks len n (bs.drop len)

/-! ### The inner decoder (R200 to R202, R213) -/

/-- The inner code of a stage (R198, R213). -/
def Stage.inner : Stage → InnerCode
  | .s200 => codeS200
  | .a | .b | .c => codeN425

/-- Inner codewords between two markers at a stage (R178, R213). -/
def Stage.words : Stage → Nat
  | .s200 => max 1 Config.s200Words
  | .a | .b | .c => 1024

/-- What the decoder of an inner code delivers of a word: a codeword, or on a failure the hard decisions unchanged; whether it failed; and
in how many bits what it delivers differs from the hard decisions, none for a failure (R200 to R202, R213). -/
def InnerCode.deliver (k : InnerCode) (depth w : Nat) (rel : List Nat) : Nat × Bool × Nat :=
  match chaseWith k.hard depth w rel with
  | some c => (c, false, popcount k.length (c ^^^ w))
  | none => (w, true, 0)

/-- The blocks that a run of `n` bits from bit `i` after a marker lies in, of which a stage has so many of so many bits: the one after
the last is the marker block, and the next the first after it (R210, R212). -/
def Stage.blocksTouched (st : Stage) (i n : Nat) : List Nat :=
  (List.range (st.words + 6)).filter fun k => decide (i / st.inner.length ≤ k ∧ k ≤ (i + n - 1) / st.inner.length)

end Sys2Proof.Machine
end

