-- ==== Sys2Proof/Machine/SelfTest.lean ====
section
/-! DEFINITION. Self-tests: their slices, their records, and how a test ends. -/
namespace Sys2Proof.Machine

/-- The system record of the device, changed. -/
def State.modSys (s : State) (f : Sys → Sys) : State := { s with sys := f s.sys }

/-- The self-test controller, changed. -/
def State.modBist (s : State) (f : Bist → Bist) : State := s.modSys fun y => { y with bist := f y.bist }

/-- The integrity record, changed. -/
def State.modInteg (s : State) (f : Integrity → Integrity) : State := s.modSys fun y => { y with integ := f y.integ }

/-- Power and Sluice, changed. -/
def State.modPow (s : State) (f : Power → Power) : State := s.modSys fun y => { y with pow := f y.pow }

/-- The management processor's own state, changed. -/
def State.modFw (s : State) (f : Firmware → Firmware) : State := s.modSys fun y => { y with fw := f y.fw }

/-- The engine that a TEST_ID names (Table 12.5). -/
def testEngine (id : Nat) : Option (Fin 9) := if 0x10 ≤ id then idx? 9 (id - 0x10) else none

/-- The converter that a TEST_ID names. -/
def testGauge (id : Nat) : Option (Fin 4) := if 0x40 ≤ id then idx? 4 (id - 0x40) else none

/-- A TEST_ID of Table 12.5. -/
def testOk (id : Nat) : Bool := (testEngine id).isSome || (testGauge id).isSome || decide (id = 0x30 ∨ id = 0x31)

/-- Slices of a test (Table 12.5): the Cistern slices follow from its test times. -/
def testSlices (id : Nat) : Nat :=
  if (testEngine id).isSome then 1500 else if id = 0x30 then 41 else if id = 0x31 then 1147 else 512

/-- Microseconds of a slice (Table 12.5). -/
def sliceMicros (id : Nat) : Nat := if (testEngine id).isSome then 40 else if (testGauge id).isSome then 2 else 4

/-- Coverage after `n` slices, 0.01 %, primary and secondary (Table 12.5, R450): an engine's logic slices come first. -/
def coverage (id n : Nat) : Nat × Nat :=
  if (testEngine id).isSome then (roundDivN (9720 * min n 1480) 1480, roundDivN (8800 * min n 1480) 1480)
  else
    let c := roundDivN (10000 * n) (testSlices id)
    (c, if (testGauge id).isSome then c else 0)

/-- The test of an ID in progress. -/
def State.testRun (s : State) (id : Nat) : Option TestRun := s.sys.bist.runs.find? fun r => decide (r.id = id)

/-- A test in progress changed. -/
def State.modRun (s : State) (id : Nat) (f : TestRun → TestRun) : State :=
  s.modBist fun b => { b with runs := b.runs.map fun r => if r.id = id then f r else r }

/-- The record of a test that ends now with an abort cause (Table 12.6). -/
def State.testRecord (s : State) (r : TestRun) (cause : Nat) : TestRecord :=
  let c := coverage r.id r.slices
  { pass := r.fail.isNone, complete := decide (r.slices = testSlices r.id), periodic := r.periodic, cause
    covPrimary := c.1, covSecondary := c.2, duration := r.slices * sliceMicros r.id, elapsed := s.microsSince r.start
    firstFail := r.fail.getD 0xFFFFFFFF, stamp := r.stamp }

/-- The bytes of a record (Table 12.6). -/
def TestRecord.bytes (r : TestRecord) (id : Nat) : List Byte :=
  wordsLe [pack [(id, 8), (flag r.pass, 1), (flag r.complete, 1), (flag r.periodic, 1), (0, 5), (r.cause, 4)],
    pack [(r.covPrimary, 16), (r.covSecondary, 16)], r.duration, r.elapsed, r.firstFail] ++ r.stamp.bytes

/-- What an engine's test leaves (R454): a failed engine that serves no lane is retired for good, one that passes loses SUSPECT, and with
the spare retired there is no healthy spare.  DESIGN CHOICE (log 139): one bound to a lane out of service stays with its lane. -/
def State.judgeEngine (s : State) (r : TestRun) : State :=
  match testEngine r.id with
  | none => s
  | some e =>
    if r.fail.isSome then
      if (List.finRange 8).any fun n => decide (s.lanes[n].eq.engine = e.val) then s
      else s.modBist fun b => { b with retired := b.retired.set e true, spare := if b.spare = some e then none else b.spare }
    else if r.slices = testSlices r.id then
      let s1 := s.modBist fun b => { b with suspect := b.suspect.set e false }
      match r.verdict with
      | none => s1
      | some n =>
        match idx? 9 s1.lanes[n].eq.engine with
        | some e' => s1.modBist fun b => { b with suspect := b.suspect.set e' true, due := b.due ++ [n] }
        | none => s1
    else s

/-- A test ends: its record is kept, BIST_DONE is produced for an on-demand run and for a periodic one that fails, and the
commands that wait reply with the record (R450, R451, R454). -/
def State.endTest (s : State) (id cause : Nat) : State :=
  match s.testRun id with
  | none => s
  | some r =>
    let rec' := s.testRecord r cause
    let s1 := s.modBist fun b => { b with
      runs := b.runs.filter (fun x => decide (x.id ≠ id)), records := b.records.filter (fun x => decide (x.1 ≠ id)) ++ [(id, rec')] }
    let s2 := if r.fail.isSome then s1.logEntry 0x0601 0 2 0xFFFF [id, rec'.firstFail] else s1
    let s3 := s2.judgeEngine r
    let s4 := match r.cmd with
      | some (seq, tag) => (s3.event 0xE060 tag (rec'.bytes id)).complete seq .ok (rec'.bytes id)
      | none => if r.fail.isSome then s3.event 0xE060 0 (rec'.bytes id) else s3
    s4.forEach r.aborts fun a s => s.complete a .ok (rec'.bytes id)

/-- A test starts, its first slice now. -/
def State.startTest (s : State) (id : Nat) (cmd : Option (Nat × Nat)) (periodic : Bool) (verdict : Option (Fin 8)) : State :=
  s.modBist fun b => { b with runs := b.runs ++ [{ id, cmd, periodic, start := s.now, stamp := s.stampMgmt, verdict }] }

/-- Every test in progress that a service request, a pause or a power state ends now. -/
def State.endTests (s : State) (ids : List Nat) (cause : Nat) : State := s.forEach ids fun i s => s.endTest i cause

/-! ### Takeovers (R142, R436, R452 to R455) -/

/-- A test that runs on an engine gives way to a takeover that needs the engine (R455). -/
def State.freeSpare (s : State) (e : Fin 9) : State := s.endTest (0x10 + e.val) 2

/-- The next priority takeover starts, unless another one, or the out-of-turn one of a BIST_RUN, is in progress; a lane that
is not LOCKED is passed over, and with no healthy spare none starts (R436, R454). -/
def State.serveDue (s : State) : State :=
  match s.sys.bist.due, s.sys.bist.spare with
  | [], _ => s
  | _ :: _, none => s.modBist fun b => { b with due := [] }
  | n :: rest, some e =>
    let free : Bool := match s.sys.bist.takeover with
      | none => true
      | some k => decide (k.kind = .periodic)
    if s.lanes[n].acq.state ≠ .locked then s.modBist fun b => { b with due := rest }
    else if free then
      (s.freeSpare e).modBist fun b => { b with due := b.due.filter fun x => decide (x ≠ n), takeover := if b.spare.isSome then some { lane := n, kind := .priority, start := s.now } else none }
    else s

/-- A lane that leaves LOCKED ends a takeover of it, and a BIST_RUN that waits for it replies PRECONDITION (R142, R453). -/
def State.dropTakeover (s : State) (n : Fin 8) : State :=
  match s.sys.bist.takeover with
  | none => s
  | some k =>
    if k.lane = n then
      let s1 := s.modBist fun b => { b with takeover := none }
      match k.kind with
      | .onDemand seq _ => s1.complete seq .precondition []
      | _ => s1
    else s

/-- Periodic self-test and rotation run: enabled, shedding below stage 3, and the device in RUN (R451, R455, R464). -/
def State.testing (s : State) : Bool := s.sys.bist.enable && decide (s.sys.shedStage < 3 ∧ s.sys.pstate = 0) && s.sys.booted

end Sys2Proof.Machine
end

