-- ==== Sys2Proof/Machine/Outer.lean ====
section
/-! DEFINITION. The outer code and the flow of a slice: RS(544,514), codeword pairs and their places in the superframes, marking, the
PCS lanes and the rate matcher.  IEEE 802.3 is named and not quoted by the manual: its field, its generator, its 257-bit blocks and the
order of its PCS lanes are PRESUMED (log 126). -/
namespace Sys2Proof.Machine

/-! ### The field of 1,024 elements (R206; log 126) -/

/-- A symbol times α: the primitive polynomial is x¹⁰ + x³ + 1. -/
def gfTimesAlpha (a : Nat) : Nat := if a < 512 then 2 * a else (2 * a) ^^^ 0x409

/-- The product of two symbols, from the `n` low bits of the second. -/
def gfMulFrom : Nat → Nat → Nat → Nat
  | 0, _, _ => 0
  | n + 1, a, b => (if b % 2 = 1 then a else 0) ^^^ gfMulFrom n (gfTimesAlpha a) (b / 2)

/-- The product of two symbols. -/
def gfMul (a b : Nat) : Nat := gfMulFrom 10 a b

/-- A power of a symbol. -/
def gfPow (a : Nat) : Nat → Nat
  | 0 => 1
  | n + 1 => gfMul a (gfPow a n)

/-- The inverse of a symbol: its 1,022nd power, by squaring. -/
def gfInv (a : Nat) : Nat :=
  (List.range 8).foldl (fun r _ => gfMul (gfMul r r) a) a |> fun x => gfMul x x

/-- A polynomial at a point, its coefficients from the highest down. -/
def gfEval (p : List Nat) (x : Nat) : Nat := p.foldl (fun r c => gfMul r x ^^^ c) 0

/-- The sum of two polynomials with their lowest coefficients first. -/
def gfAdd : List Nat → List Nat → List Nat
  | [], q => q
  | p, [] => p
  | a :: p, b :: q => (a ^^^ b) :: gfAdd p q

/-! ### RS(544,514) (R206, R208; log 126) -/

/-- The powers α⁰ to α²⁹, the roots of the generator. -/
def rsRoots : List Nat := (List.range 30).map (gfPow 2)

/-- The generator but for its leading 1, from x²⁹ down. -/
def rsGenerator : List Nat :=
  (rsRoots.foldl (fun g r => gfAdd (0 :: g) (g.map (gfMul r))) [1]).reverse.drop 1

/-- One message symbol through the encoder's register, its highest coefficient first. -/
def rsStep (reg : List Nat) (m : Nat) : List Nat :=
  let f := m ^^^ reg.headD 0
  List.zipWith (fun a g => a ^^^ gfMul f g) (reg.drop 1 ++ [0]) rsGenerator

/-- The 30 parity symbols of 514 message symbols. -/
def rsParity (msg : List Nat) : List Nat := msg.foldl rsStep (List.replicate 30 0)

/-- The codeword of 514 message symbols. -/
def rsEncode (msg : List Nat) : List Nat := msg ++ rsParity msg

/-- The 30 syndromes of a received word of 544 symbols. -/
def rsSyndromes (w : List Nat) : List Nat := rsRoots.map (gfEval w)

/-- The state of the search for the error locator: the locator, the last one it replaced, its length, the gap and the discrepancy. -/
structure Locator where
  cur : List Nat := [1]
  prev : List Nat := [1]
  len : Nat := 0
  gap : Nat := 1
  disc : Nat := 1

/-- One syndrome of the search. -/
def Locator.step (syn : List Nat) (l : Locator) (k : Nat) : Locator :=
  let d := (List.range (l.len + 1)).foldl (fun a i => a ^^^ gfMul (l.cur.getD i 0) (if i ≤ k then syn.getD (k - i) 0 else 0)) 0
  if d = 0 then { l with gap := l.gap + 1 }
  else
    let corr := List.replicate l.gap 0 ++ l.prev.map (gfMul (gfMul d (gfInv l.disc)))
    let next := gfAdd l.cur corr
    if 2 * l.len ≤ k then { cur := next, prev := l.cur, len := k + 1 - l.len, gap := 1, disc := d }
    else { l with cur := next, gap := l.gap + 1 }

/-- The error locator of a list of syndromes, its lowest coefficient first. -/
def rsLocator (syn : List Nat) : Locator := (List.range 30).foldl (Locator.step syn) {}

/-- The error value at a position: the evaluator over the derivative of the locator, at the inverse of the position's power of α. -/
def rsValue (syn loc : List Nat) (p : Nat) : Nat :=
  let x := gfPow 2 p
  let xi := gfInv x
  let omega := (List.range 30).map fun k => (List.range (k + 1)).foldl (fun a i => a ^^^ gfMul (loc.getD i 0) (syn.getD (k - i) 0)) 0
  let deriv := (loc.zipIdx.filter fun c => c.2 % 2 == 1).map fun c => gfMul c.1 (gfPow xi (c.2 - 1))
  gfMul (gfMul x (gfEval omega.reverse xi)) (gfInv (deriv.foldl (· ^^^ ·) 0))

/-- The decoder: the codeword within 15 symbols of a received word and in how many symbols they differ, or none for a decoder failure
(R208). -/
def rsDecode (w : List Nat) : Option (List Nat × Nat) :=
  let syn := rsSyndromes w
  if syn.all (· == 0) then some (w, 0)
  else
    let l := rsLocator syn
    let at' := (List.range 544).filter fun p => gfEval l.cur.reverse (gfInv (gfPow 2 p)) == 0
    if 15 < l.len ∨ at'.length ≠ l.len then none
    else
      let c := w.zipIdx.map fun s => if at'.contains (543 - s.2) then s.1 ^^^ rsValue syn l.cur (543 - s.2) else s.1
      if (rsSyndromes c).all (· == 0) then some (c, l.len) else none

/-! ### Codeword pairs (R206, R207) -/

/-- The symbols of a pair, in order: bit `k` of the number is the `k`-th bit sent. -/
def pairSymbols (p : Nat) : List Nat := (List.range 1088).map fun j => bits p (10 * j) 10

/-- Codeword A (`odd` false) or B of a pair: the two are interleaved symbol by symbol (R206). -/
def pairWord (odd : Bool) (p : Nat) : List Nat := (List.range 544).map fun j => bits p (10 * (2 * j + flag odd)) 10

/-- The pair of two codewords. -/
def pairOf (a b : List Nat) : Nat := pack ((List.zip a b).flatMap fun x => [(x.1, 10), (x.2, 10)])

/-- The `n` low bits of a number in the opposite order. -/
def mirror : Nat → Nat → Nat
  | 0, _ => 0
  | n + 1, w => w % 2 * 2 ^ n + mirror n (w / 2)

/-- The 80 inner payloads of a pair: the first payload bit of a codeword in stream order is its data bit 135 (R198, R207). -/
def pairPayloads (p : Nat) : List Nat := (List.range 80).map fun i => mirror 136 (bits p (136 * i) 136)

/-- The pair that 80 inner payloads carry (R207). -/
def payloadsPair (ps : List Nat) : Nat := pack (ps.map fun x => (mirror 136 x, 136))

/-- Inner codewords of the superframes since the last one whose count is divisible by 5, before superframe `n`: where in its pair the
first payload of superframe `n` falls (R180, R207). -/
def pairPlace (n : Nat) : Nat := n % 5 * 1024 % 80

/-! ### Marking (R209 to R211) -/

/-- The 257-bit block with every synchronization header invalid: its first bit is 0 and the four that name the headers are 1 (R209;
log 126). -/
def markBlock (b : Nat) : Nat := b / 32 * 32 + 0x1E

/-- A pair with the parity of its message, the 1,028 symbols it begins with: what a pair whose message has changed becomes (R206,
Table 5.10). -/
def reencode (msg : Nat) : Nat := pairOf (rsEncode ((pairWord false msg).take 514)) (rsEncode ((pairWord true msg).take 514))

/-- The pair of 40 257-bit blocks. -/
def pairOfBlocks (bs : List Nat) : Nat := reencode (pack (bs.map fun b => (b, 257)))

/-- The 40 257-bit blocks of a pair. -/
def pairBlocks (p : Nat) : List Nat := (List.range 40).map fun i => bits p (257 * i) 257

/-- A pair marked: every 66-bit block in its 40 257-bit blocks has the header 0b11, and the parity of both codewords is new (R209). -/
def markPair (p : Nat) : Nat := pairOfBlocks ((pairBlocks p).map markBlock)

/-- What the monitor finds of one pair: how many symbols each codeword has in error, 16 for a decoder failure; the bits corrected; the
pair as corrected; and the pair forwarded (Table 5.10). -/
structure PairResult where
  bins : List Nat
  postErrors : Nat
  marked : Bool
  fixed : Nat
  forward : Nat
  deriving DecidableEq, Repr

/-- The pair that the rate matcher takes the blocks of: marked, or with the decoders' corrections. -/
def PairResult.carried (r : PairResult) : Nat := if r.marked then r.forward else r.fixed

/-- The bits in which two words of symbols differ. -/
def symbolDiff (a b : List Nat) : Nat := (List.zipWith (fun x y => popcount 10 (x ^^^ y)) a b).sum

/-- The monitor: both codewords of a pair are decoded, and the pair goes on unchanged unless it is marked (`mark`) or a decoder fails
(R208, R209, Table 5.10). -/
def monitorPair (mark : Bool) (p : Nat) : PairResult :=
  let a := pairWord false p
  let b := pairWord true p
  let da := rsDecode a
  let db := rsDecode b
  let bin := fun d : Option (List Nat × Nat) => (d.map Prod.snd).getD 16
  let post := fun (w : List Nat) (d : Option (List Nat × Nat)) => (d.map fun c => symbolDiff w c.1).getD 0
  let bad := mark || da.isNone || db.isNone
  { bins := [bin da, bin db], postErrors := post a da + post b db, marked := bad
    fixed := pairOf ((da.map Prod.fst).getD a) ((db.map Prod.fst).getD b), forward := if bad then markPair p else p }

/-- Inner payloads, each with its mark, gathered into pairs: a pair is marked when any inner codeword that touches it is (R207, R210).
What is left over begins the next pair. -/
def gatherPairs : Nat → List (Nat × Bool) → List (Nat × Bool) × List (Nat × Bool)
  | 0, ps => ([], ps)
  | n + 1, ps =>
    if ps.length < 80 then ([], ps)
    else
      let head := ps.take 80
      let rest := gatherPairs n (ps.drop 80)
      ((payloadsPair (head.map Prod.fst), head.any Prod.snd) :: rest.1, rest.2)

/-- The bins of Table 5.12 that a list of results fills: how many codewords were decoded with 0 to 15 symbol errors, and failures. -/
def pairBins (rs : List PairResult) : List Nat :=
  let all := rs.flatMap PairResult.bins
  (List.range 17).map fun k => all.countP (· == k)

/-! ### PCS lanes (R236, R237; log 126) -/

/-- The symbols of a pair that go on one of the 16 PCS lanes of a flow: in rotation, in ascending lane number. -/
def pcsLane (p : Nat) (lane : Nat) : List Nat := (List.range 68).map fun k => bits p (10 * (16 * k + lane)) 10

/-- The host lane on which a PCS lane of slice `n` goes out: the lower half on HL(2n), the upper half on HL(2n+1) (R237). -/
def pcsHost (n : Fin 8) (lane : Nat) : Fin 16 := if lane < 8 then ⟨2 * n.val, by omega⟩ else ⟨2 * n.val + 1, by omega⟩

/-- What a slice sends on one of its host lanes for one pair: its PCS lanes in ascending number (R237). -/
def hostLaneSymbols (n : Fin 8) (p : Nat) (h : Fin 16) : List (List Nat) :=
  ((List.range 16).filter fun l => decide (pcsHost n l = h)).map (pcsLane p)

/-- PCS lanes multiplexed onto one host lane: a symbol of each in turn (R237; log 126). -/
def auiMux (lanes : List (List Nat)) : List Nat := (List.range 68).flatMap fun k => lanes.map fun l => l.getD k 0

/-- The symbols of a pair that one of the `k` lanes of an S200 port carries, the port's host lanes and line lanes alike (R240; log 126). -/
def sharedSymbols (k lane p : Nat) : List Nat := (List.range (1088 / k)).map fun j => bits p (10 * (k * j + lane)) 10

/-- The pair whose symbols the lanes of an S200 port carry. -/
def sharedPair (lanes : List (List Nat)) : Nat :=
  pack ((List.range (1088 / max 1 lanes.length)).flatMap fun j => lanes.map fun l => (l.getD j 0, 10))

/-- The bits of some symbols in the order in which they are sent. -/
def symbolStream (xs : List Nat) : List Nat := xs.flatMap fun x => (List.range 10).map fun b => x / 2 ^ b % 2

/-- The symbols that bits spell in the order in which they are sent. -/
def streamSymbols : Nat → List Nat → List Nat
  | 0, _ => []
  | n + 1, bs => pack ((bs.take 10).map fun b => (b, 1)) :: streamSymbols n (bs.drop 10)

/-! ### The rate matcher (R238) -/

/-- A 66-bit block as the rate matcher sees it: an idle control block, a block of a frame, an ordered set, or one whose header is
invalid. -/
inductive Block66 where
  | idle | frame (bits : Nat) | ordered (bits : Nat) | invalid (bits : Nat)
  deriving DecidableEq, Repr

/-- The second four bits of a block type field of IEEE 802.3, by its first four, which tell the types apart. -/
def typeHigh (n : Nat) : Nat :=
  [0x0, 0xE, 0xD, 0x3, 0xB, 0x5, 0x6, 0x8, 0x7, 0x9, 0xA, 0x4, 0xC, 0x2, 0x1, 0xF].getD n 0

/-- The four 66-bit blocks of a 257-bit block, each its two header bits below its 64 bits: 2 for data, 1 for control, and 3 where the
block is marked (R209). -/
def blocks66 (b : Nat) : List Nat :=
  if b % 2 = 1 then (List.range 4).map fun j => 2 + 4 * bits b (1 + 64 * j) 64
  else
    let data := fun j => bit b (1 + j)
    let c := ((List.range 4).find? fun j => !data j).getD 0
    let x := b / 32
    let all := x % 2 ^ (64 * c + 4) + typeHigh (bits x (64 * c) 4) * 2 ^ (64 * c + 4) + x / 2 ^ (64 * c + 4) * 2 ^ (64 * c + 8)
    (List.range 4).map fun j => (if (List.range 4).all data then 3 else if data j then 2 else 1) + 4 * bits all (64 * j) 64

/-- The 257-bit block of four 66-bit blocks; one with an invalid header makes all four invalid. -/
def block257 (bs : List Nat) : Nat :=
  let hdr := bs.map (· % 4)
  let all := pack (bs.map fun b => (b / 4, 64))
  if hdr.all (· == 2) then 1 + 2 * all
  else
    let invalid := hdr.any fun h => h != 1 && h != 2
    let c := if invalid then 0 else (hdr.findIdx? (· == 1)).getD 0
    let body := all % 2 ^ (64 * c + 4) + all / 2 ^ (64 * c + 8) * 2 ^ (64 * c + 4)
    pack ((0, 1) :: hdr.map fun h => (flag (invalid || h == 2), 1)) + 32 * body

/-- What a 66-bit block is: idle where it is a control block of eight idle characters, and an ordered set by its block type. -/
def Block66.ofBits (b : Nat) : Block66 :=
  if b % 4 = 2 then .frame b
  else if b % 4 ≠ 1 then .invalid b
  else if b / 4 = 0x1E then .idle
  else if [0x4B, 0x2D, 0x66, 0x55].contains (b / 4 % 256) then .ordered b
  else .frame b

/-- The bits of a 66-bit block. -/
def Block66.toBits : Block66 → Nat
  | .idle => 1 + 4 * 0x1E
  | .frame b | .ordered b | .invalid b => b

/-- An idle block inserted between the first two idle blocks that stand side by side; none where there are none (R238). -/
def matchInsert : List Block66 → Option (List Block66)
  | .idle :: .idle :: bs => some (.idle :: .idle :: .idle :: bs)
  | b :: bs => (matchInsert bs).map (b :: ·)
  | [] => none

/-- The first idle block that lies between two idle blocks deleted; none where there is none (R238). -/
def matchDelete : List Block66 → Option (List Block66)
  | .idle :: .idle :: .idle :: bs => some (.idle :: .idle :: bs)
  | b :: bs => (matchDelete bs).map (b :: ·)
  | [] => none

/-- Idle blocks inserted until there are `need` blocks, `fuel` of them at most: the blocks, and how many were inserted. -/
def matchFill : Nat → Nat → List Block66 → List Block66 × Nat
  | 0, _, bs => (bs, 0)
  | fuel + 1, need, bs =>
    if bs.length < need then
      match matchInsert bs with
      | some x => let r := matchFill fuel need x; (r.1, r.2 + 1)
      | none => (bs, 0)
    else (bs, 0)

/-- Idle blocks deleted until there are at most `most` blocks, `fuel` of them at most: the blocks, and how many were deleted. -/
def matchDrain : Nat → Nat → List Block66 → List Block66 × Nat
  | 0, _, bs => (bs, 0)
  | fuel + 1, most, bs =>
    if most < bs.length then
      match matchDelete bs with
      | some x => let r := matchDrain fuel most x; (r.1, r.2 + 1)
      | none => (bs, 0)
    else (bs, 0)

/-- The alignment markers that a pair of a port of `g` slices begins with: where `left` pairs are still to come before the one that
carries them. -/
def markersDue (g left : Nat) : List Nat := if left = 0 then (Config.pcsMarkers g).take 40 else []

/-- The pairs still to come before the next alignment markers, after one more. -/
def markersLeft (g left : Nat) : Nat := if left = 0 then Config.pcsMarkerPairs g - 1 else left - 1

/-- The 66-bit blocks that `k` pairs hold beside their alignment markers. -/
def matchNeed (g : Nat) : Nat → Nat → Nat
  | 0, _ => 0
  | k + 1, left => 160 - 4 * (markersDue g left).length + matchNeed g k (markersLeft g left)

/-- A pair of alignment markers and 66-bit blocks. -/
def pairOfFlow (am bs : List Nat) : Nat := pairOfBlocks (am ++ (List.range (40 - am.length)).map fun i => block257 ((bs.drop (4 * i)).take 4))

/-- `k` pairs made of 66-bit blocks, or as many as there are blocks for, with their alignment markers and new parity; the pairs still to
come before the next markers; and the blocks left over (R238). -/
def matchPairs (g : Nat) : Nat → Nat → List Nat → List Nat × Nat × List Nat
  | 0, left, bs => ([], left, bs)
  | k + 1, left, bs =>
    let am := markersDue g left
    let n := 160 - 4 * am.length
    if bs.length < n then ([], left, bs)
    else
      let r := matchPairs g k (markersLeft g left) (bs.drop n)
      (pairOfFlow am (bs.take n) :: r.1, r.2)

/-- The alignment markers that a pair begins with. -/
def pairHead (g p : Nat) : List Nat := if (Config.pcsMarkers g).isPrefixOf (pairBlocks p) then Config.pcsMarkers g else []

/-- The 66-bit blocks of a pair beside its alignment markers. -/
def flowBlocks (g p : Nat) : List Nat := ((pairBlocks p).drop (pairHead g p).length).flatMap blocks66

/-- The pairs still to come before the next alignment markers, after a pair that passed. -/
def markersPast (g left p : Nat) : Nat := if pairHead g p = [] then left - 1 else Config.pcsMarkerPairs g - 1

/-- The local-fault ordered set of IEEE 802.3 as a 66-bit block: block type 0x4B, ordered set 0, and 0x000001 (R255; log 126). -/
def localFaultBlock : Nat := 1 + 4 * 0x0100004B

/-- `k` pairs of a local-fault flow, with alignment markers and parity, and the pairs still to come before the next markers (R255). -/
def faultPairs (g k left : Nat) : List Nat × Nat :=
  let r := matchPairs g k left (List.replicate (160 * k) localFaultBlock)
  (r.1, r.2.1)

/-- What a rate matcher makes of a run of pairs: the pairs that leave, the idle blocks inserted and deleted, the blocks kept, and the
pairs still to come before the next alignment markers. -/
structure MatchRun where
  out : List Nat
  inserted : Nat
  deleted : Nat
  blocks : List Nat
  left : Nat

/-- The rate matcher of a flow of `g` slices that gives `k` pairs while the pairs of `rs` come in.  One that holds nothing and gives as many
as come passes them unchanged (R208); otherwise it inserts idle blocks where it holds too few, deletes them above its depth, and makes
the pairs anew (R238; log 142). -/
def matchRun (g k : Nat) (held : List Nat) (left : Nat) (rs : List PairResult) : MatchRun :=
  if held = [] ∧ rs.length = k then
    { out := rs.map PairResult.forward, inserted := 0, deleted := 0, blocks := []
      left := rs.foldl (fun l r => markersPast g l r.forward) left }
  else
    let bs := (held ++ rs.flatMap fun r => flowBlocks g r.carried).map Block66.ofBits
    let need := matchNeed g k left
    let a := matchFill 4096 need bs
    let b := matchDrain 4096 (need + Config.matchDepth) a.1
    let x := matchPairs g k left (b.1.map Block66.toBits)
    { out := x.1, inserted := a.2, deleted := b.2, blocks := x.2.2, left := x.2.1 }

/-! ### Frames changed in their pairs (R208, R317, R319) -/

/-- A run of blocks replaced by as many others where a stream first holds it.  A run that the end of the stream cuts off is replaced as far
as the stream goes, and the rest of it belongs to the stream that follows. -/
def patchRun (old new : List Nat) : List Nat → List Nat × List (List Nat × List Nat)
  | [] => ([], [])
  | b :: bs =>
    if old.isPrefixOf (b :: bs) then (new ++ (b :: bs).drop old.length, [])
    else if (b :: bs).isPrefixOf old then (new.take (bs.length + 1), [(old.drop (bs.length + 1), new.drop (bs.length + 1))])
    else let r := patchRun old new bs; (b :: r.1, r.2)

/-- Several runs replaced in one stream. -/
def patchRuns (xs : List (List Nat × List Nat)) (bs : List Nat) : List Nat × List (List Nat × List Nat) :=
  xs.foldl (fun r x => let y := patchRun x.1 x.2 r.1; (y.1, r.2 ++ y.2)) (bs, [])

/-- The block streams of the slices of a port as one, a block of each in turn, with the slice of each (R317; log 126). -/
def weave (xs : List (List Nat)) : List (Nat × Nat) :=
  (List.range (xs.foldl (fun m x => max m x.length) 0)).flatMap fun i => xs.zipIdx.filterMap fun x => x.1[i]?.map fun b => (x.2, b)

/-- Pairs whose blocks have changed: a pair with a changed block is made anew from the decoders' corrections, with new parity, and every
other goes on as it is; and the blocks that no pair holds (Table 5.10). -/
def patchPairs (g : Nat) : List Nat → List Nat → List Nat × List Nat
  | [], bs => ([], bs)
  | p :: ps, bs =>
    let fixed := (monitorPair false p).fixed
    let old := flowBlocks g fixed
    let new := bs.take old.length
    let r := patchPairs g ps (bs.drop old.length)
    ((if new = old then p else pairOfFlow (pairHead g fixed) new) :: r.1, r.2)

end Sys2Proof.Machine
end

