-- ==== Sys2Proof/Machine/TxPath.lean ====
section
/-! DEFINITION. The transmit path of a lane before its FFE: PRBS31, the payload of a superframe, error injection, the superframe itself and
its symbols. -/
namespace Sys2Proof.Machine

/-! ### PRBS31 (R196, R231, R242; log 127) -/

/-- One bit of PRBS31, x³¹ + x²⁸ + 1, and the register after it. -/
def prbsStep (r : Nat) : Bool × Nat :=
  let b := Nat.testBit r 30 != Nat.testBit r 27
  (b, (2 * r + flag b) % 2 ^ 31)

/-- `n` bits of PRBS31 as a number, the first one highest, and the register after them. -/
def prbsBits : Nat → Nat → Nat × Nat
  | 0, r => (0, r)
  | n + 1, r =>
    let x := prbsStep r
    let y := prbsBits n x.2
    (flag x.1 * 2 ^ n + y.1, y.2)

/-- `k` words of `n` bits of PRBS31, and the register after them. -/
def prbsWords (n : Nat) : Nat → Nat → List Nat × Nat
  | 0, r => ([], r)
  | k + 1, r =>
    let x := prbsBits n r
    let y := prbsWords n k x.2
    (x.1 :: y.1, y.2)

/-- The register at the first bit of a superframe: all ones where its count is 0 (R196, R242). -/
def prbsAt (count r : Nat) : Nat := if count = 0 then 0x7FFFFFFF else r

/-- The bits of a checked sequence that differ from PRBS31, word by word (R231, R242). -/
def prbsErrors (n : Nat) : Nat → List Nat → Nat
  | _, [] => 0
  | r, w :: ws => popcount n ((prbsBits n r).1 ^^^ w) + prbsErrors n (prbsBits n r).2 ws

/-! ### Error injection (R217, R218) -/

/-- The bits that kind 1 inverts among `n`, from the place `base` on: each by a draw of the lane's 32-bit generator against RATE. -/
def randomMask (rate c base : Nat) : Nat → Nat
  | 0 => 0
  | n + 1 => (if Config.reading (0x52180000 + base + n) c % 4294967296 < rate then 2 ^ n else 0) + randomMask rate c base n

/-- The bit pair of a level index (Table 5.3). -/
def levelPair : Nat → Nat
  | 0 => 0 | 1 => 1 | 2 => 3 | _ => 2

/-- The adjacent level to which kind 2 moves a symbol: up from 0, down from 3, else up or down by a draw (R218). -/
def movedLevel (level draw : Nat) : Nat :=
  if level = 0 then 1 else if 3 ≤ level then 2 else if draw % 2 = 0 then level + 1 else level - 1

/-- The bits that kind 2 changes among the `n` symbols of a block: a symbol is moved by a draw against RATE, and each move is one bit. -/
def symbolMask (rate c base w : Nat) : Nat → Nat
  | 0 => 0
  | n + 1 =>
    let level := pam4 (Nat.testBit w (2 * n + 1)) (Nat.testBit w (2 * n))
    let d := Config.reading (0x52180000 + base + n) c
    (if d % 4294967296 < rate then (levelPair level ^^^ levelPair (movedLevel level (d / 4294967296))) * 4 ^ n else 0) +
      symbolMask rate c base w n

/-- `k` bits of ones, the first of them `from'` bits after the first bit of an `n`-bit word. -/
def runMask (n from' k : Nat) : Nat := (2 ^ (n - from') - 1) / 2 ^ (n - from' - k) * 2 ^ (n - from' - k)

/-- The burst generator between codewords: codewords until the next burst, and bits still to invert of the bursts in progress. -/
structure Bursts where
  wait : Nat
  runs : List Nat
  deriving DecidableEq, Repr

/-- Kind 3 on one codeword of `n` injectable bits: the bits to invert, whether a burst begins here, and what goes on into the next
codeword (R218).  The bit at which a burst begins is a draw.  DESIGN CHOICE (log 144): a bit that two bursts cover is inverted twice. -/
def Bursts.word (b : Bursts) (len interval n draw : Nat) : Nat × Bool × Bursts :=
  let old := b.runs.foldl (fun m k => m ^^^ runMask n 0 (min k n)) 0
  let rest := (b.runs.map (· - n)).filter (0 < ·)
  if b.wait = 0 then
    let from' := draw % n
    let here := min len (n - from')
    (old ^^^ runMask n from' here, true, { wait := interval - 1, runs := if here < len then rest ++ [len - here] else rest })
  else (old, false, { wait := b.wait - 1, runs := rest })

/-- What injection does to one inner codeword after a marker: the word sent, the events counted and the burst generator after it.  Kinds 1
and 3 act on payload bits at POINT 1 and on line bits at POINT 0; kind 2 at stage A or at POINT 1 acts as kind 1 (R213, R217, R218). -/
def injectWord (p : LineTxP) (stage : Stage) (c i payload : Nat) (b : Bursts) : Nat × Nat × Bursts :=
  let k := stage.inner
  let n := if p.injPoint then k.payloadLength else k.length
  let put := fun m => if p.injPoint then k.encode (payload ^^^ m) else k.encode payload ^^^ m
  if p.injKind = 1 ∨ (p.injKind = 2 ∧ (stage = .a ∨ p.injPoint = true)) then
    let m := randomMask p.injRate c (k.length * i) n
    (put m, popcount n m, b)
  else if p.injKind = 2 then
    let m := symbolMask p.injRate c (k.length * i) (k.encode payload) (k.length / 2)
    (put m, popcount k.length m, b)
  else if p.injKind = 3 then
    let x := b.word p.injBurst p.injInterval n (Config.reading (0x52180000 + k.length * i) c)
    (put x.1, flag x.2.1, x.2.2)
  else (k.encode payload, 0, b)

/-- The inner codewords between two markers with what injection does to them, from codeword `i` on (R178, R213, R217). -/
def sendWords (p : LineTxP) (stage : Stage) (c : Nat) : Nat → List Nat → Bursts → List Nat × Nat × Bursts
  | _, [], b => ([], 0, b)
  | i, x :: xs, b =>
    let w := injectWord p stage c i x b
    let rest := sendWords p stage c (i + 1) xs w.2.2
    (w.1 :: rest.1, w.2.1 + rest.2.1, rest.2.2)

/-! ### Symbols (R153, R154, R183) -/

/-- The level indices of a block of `n` bits at a stage: NRZ at stage A, and PAM4 at stages B and C and in S200 (R183, R213; log 128). -/
def blockSymbols (stage : Stage) (n w : Nat) : List Nat :=
  match stage with
  | .a => nrzSymbols n w
  | .b | .c | .s200 => pamSymbols (n / 2) w

/-- The DAC code of a level index in a transmit cycle that bypasses its FFE (R435). -/
def bypassCode (nrz : Bool) (level : Nat) : Int :=
  match nrz, level with
  | _, 0 => -127
  | true, _ => 127
  | false, 1 => -42
  | false, 2 => 42
  | false, _ => 127

/-- The windows of seven symbols in a run, i−4 to i+2 for each symbol i that has both its neighbours. -/
def windows : List Nat → List (Vector Nat 7)
  | a :: b :: c :: d :: e :: f :: g :: rest => #v[g, f, e, d, c, b, a] :: windows (b :: c :: d :: e :: f :: g :: rest)
  | _ => []

end Sys2Proof.Machine
end

