-- ==== Sys2Proof/Machine/Lanes.lean ====
section
/-! DEFINITION. The moves of a lane that runs the superframe: state changes with their entry effects and events, squelch
sources, and what a squelched or disabled transmitter does to the lane's own receive half. -/
namespace Sys2Proof.Machine

/-- State codes (Table 3.6). -/
def LaneState.code : LaneState → Nat
  | .dark => 0x0 | .signal => 0x1 | .cdrLock => 0x2 | .frameLock => 0x3 | .negotiate => 0x4 | .step => 0x5
  | .locked => 0x6 | .retrain => 0x7 | .calibrating => 0xC | .still => 0xD | .disabled => 0xF

/-- Stage codes (R133). -/
def Stage.code : Stage → Nat
  | .a => 0 | .b => 1 | .c => 2 | .s200 => 3

/-- The stage after a step up (R130). -/
def Stage.up : Stage → Stage
  | .a => .b | .b => .c | .c => .c | .s200 => .s200

/-- The lane has frame lock (R126). -/
def Lane.frameLocked (l : Lane) : Bool := decide (l.acq.state = .negotiate ∨ l.acq.state = .locked)

/-- The lane is a lane of S200 mode: never for a relay lane (R144, R213). -/
def State.isS200 (s : State) : LaneRef → Bool
  | .line n => s.active.lineRx[n].s200
  | .relay _ => false

/-- The first receive stage of a bring-up: A, or the S200 rate (R144). -/
def State.firstStage (s : State) (r : LaneRef) : Stage := if s.isS200 r then .s200 else .a

/-- The superframe period at a stage, in 2⁻¹⁶ ns (Tables 5.2 and 6.8). -/
def framePeriod : LaneRef → Stage → Nat
  | .line _, .a => 171798692 | .line _, .b => 42949673 | .line _, .c => 21474836 | .line _, .s200 => 21474836
  | .relay _, .a => 364164517 | .relay _, .b => 91041129 | .relay _, .c => 45520565 | .relay _, .s200 => 45520565

/-- 1/64 UI of a lane's stage as `num / den` units of 2⁻¹⁶ ns (Tables 5.2 and 6.8, R162); the S200 rate is open. -/
def uiStep : LaneRef → Stage → Nat × Nat
  | .line _, .a => (8589934592, 472320000) | .line _, .b => (4294967296, 472320000) | .line _, .c => (2147483648, 472320000)
  | .relay _, .a => (26214400, 680000) | .relay _, .b => (13107200, 680000) | .relay _, .c => (6553600, 680000)
  | _, .s200 => (65536000000000, 64 * max 1 Config.s200SymbolRate)

/-- A stamp with a position within the island cycle added, in steps of `num / den` units of 2⁻¹⁶ ns (R24, R25). -/
def Stamp.plus (st : Stamp) (steps : Int) (step : Nat × Nat) : Stamp :=
  ⟨((st.time : Int) + roundDiv (steps * step.1) step.2).toNat, st.valid⟩

/-- The stamp of a symbol at a lane's place of Table 1.2: the replica at the island clock edge, now, and the symbol's
position in the word of that cycle in 1/64 UI of the stage (R24, R25). -/
def State.stampPos (s : State) (r : LaneRef) (stage : Stage) (steps : Int) : Stamp := (s.stampOn r.island).plus steps (uiStep r stage)

/-- The skew in force at a stage, in 1/64 UI of that stage: at stages A and B the same time, rounded (R162). -/
def skewSteps (stage : Stage) (skew : Int) : Int :=
  match stage with
  | .a => roundDiv skew 4 | .b => roundDiv skew 2 | .c | .s200 => skew

/-- The position of a transmitted symbol at the DAC output, in 1/64 UI: its index in the word and the skew in force, which
delays the output (R162, R163). -/
def Lane.txPos (l : Lane) (index : Nat) : Int := 64 * index + skewSteps l.tx.stage l.tx.skewApplied

/-- PHASE_OFFSET in force (R119); a relay lane has none. -/
def State.phaseOffset (s : State) : LaneRef → Int
  | .line n => s.active.lineRx[n].phase
  | .relay _ => 0

/-- The position of a received symbol at the ADC input, in 1/64 UI: its index in the receive word, and the NCO phase less the phase
offset (R25, R119). -/
def State.rxPos (s : State) (r : LaneRef) (index : Nat) : Int := 64 * index + (s.lane r).eq.stampPhase (s.phaseOffset r)

/-- The loop gains, KP_SHIFT and KI_SHIFT, that firmware derives from a bandwidth class and a stage.  DEDUCED (log 125): those of the
reset class at stage A are the reset values of Table 3.4; the manual lists no others. -/
def loopGains (cls : Nat) (stage : Stage) : Nat × Nat :=
  if cls = 1 ∧ stage = .a then (8, 16)
  else (2 + Config.policy 0x5120 (4 * cls + stage.code) % 14, 6 + Config.policy 0x15120 (4 * cls + stage.code) % 19)

/-- The loop gains in force on a lane: pinned ones, else those of its class and its present stage (R120).  A relay lane has no class, and
its gains are its receiver's own. -/
def State.gainsInForce (s : State) : LaneRef → Nat × Nat
  | .line n =>
    let p := s.active.lineRx[n]
    let d := loopGains p.bwClass s.lanes[n].acq.stage
    (if s.active.pinned (.lineRx n) 0x2812 128 then p.kpShift else d.1, if s.active.pinned (.lineRx n) 0x2812 129 then p.kiShift else d.2)
  | .relay n => (2 + Config.policy 0x6219 s.relays[n].acq.stage.code % 14, 6 + Config.policy 0x16219 s.relays[n].acq.stage.code % 19)

/-- The counters of a lane count now (R216, R259). -/
def State.counting (s : State) (r : LaneRef) : Bool :=
  let a := (s.lane r).acq
  decide (a.stage = .c ∨ a.stage = .s200) && decide (a.state = .negotiate ∨ a.state = .locked ∨ a.state = .retrain)

/-- The depth of the inner decoder in force: 0 where shedding stage 5 forces it, and otherwise that of the active set (R204, R205). -/
def State.depthInForce (s : State) (n : Fin 8) : Nat := if s.lanes[n].eq.depthForced then 0 else s.active.lineRx[n].depth

/-- A marker boundary of a lane falls now: a received marker while it has frame lock, and a transmitted one of the same lane otherwise
(R126). -/
def State.atMarker (s : State) (r : LaneRef) : Bool :=
  let l := s.lane r
  if l.frameLocked then decide (l.rx.markAt = some s.now) else decide (l.tx.markAt = some s.now)

/-- A deadline kept by a lane island, whose cycle is 256 symbols, is past (Table 1.1, R45). -/
def State.pastLane (s : State) (r : LaneRef) (stage : Stage) (d : Instant) : Bool :=
  s.past (16384 * (uiStep r stage).1) (uiStep r stage).2 d

/-- Loop-timed transmitters that follow a receive lane enter or leave holdover with its CDR lock; entry is logged
(R167). -/
def State.holdover (s : State) (n : Fin 8) (lost : Bool) : State :=
  s.forEach (List.finRange 8) fun m s =>
    let p := s.active.lineTx[m]
    if p.clkLoop = true ∧ p.clkLane = n ∧ s.lanes[m].tx.clkHoldover ≠ lost then
      let s1 := s.modLane (.line m) fun l => { l with tx := { l.tx with clkHoldover := lost } }
      if lost then s1.logEntry 0x0304 0 1 (Block.lineTx m).id [m.val] else s1
    else s

/-- The holdover of the transmitters that follow a lane, by the lane's own CDR lock (R167). -/
def State.followClock (s : State) : LaneRef → State
  | .line n => s.holdover n (!s.lanes[n].acq.cdrLock)
  | .relay _ => s

/-- The lane's transmitter is in a far-end loop, in which no departure stamp is taken (Table 6.9). -/
def State.farLoop (s : State) : LaneRef → Bool
  | .line n => decide (s.active.lineTx[n].loop = 3) && !s.lanes[n].acq.loopSuspended
  | .relay n => decide (s.active.host[n].loop = 3) && !s.hosts[n].loopSuspended

/-- The transmit clock source of a line lane: its own PLL, or the receive lane whose recovered clock it takes (R165), which in a far-end
loop is its own (Table 6.9). -/
def State.clockSource (s : State) (n : Fin 8) : Option (Fin 8) :=
  if s.farLoop (.line n) then some n else if s.active.lineTx[n].clkLoop then some s.active.lineTx[n].clkLane else none

/-- Line lanes whose framers run on one transmit clock source at one stage: their markers are aligned (R34). -/
def State.clockMates (s : State) (n : Fin 8) : List (Fin 8) :=
  (List.finRange 8).filter fun m => s.lanes[m].tx.clocked && decide (s.clockSource m = s.clockSource n ∧ s.lanes[m].tx.stage = s.lanes[n].tx.stage)

/-- A host lane is a relay lane (Table 6.3). -/
def State.isRelay (s : State) (n : Fin 16) : Bool := s.active.host[n].relay

/-! ### The 4,096-cycle boundary (R34, R35, R219, Table 1.4) -/

/-- 4,096 island cycles of 256 bits at a host rate, as `num / den` units of 2⁻¹⁶ ns: 4.9345 µs, 9.8690 µs and 39.476 µs (Table 1.4). -/
def hostPeriod (rate : Nat) : Nat × Nat :=
  match rate with
  | 0 => (1099511627776, 425) | 1 => (274877906944, 425) | _ => (137438953472, 425)

/-- The rate of a host lane's island clock, which is its transmit clock: of its stage in relay mode (R219, R243). -/
def State.hostTxRate (s : State) (n : Fin 16) : Nat :=
  if s.isRelay n then (match s.relays[n].tx.stage with | .a => 0 | .b => 1 | _ => 2) else s.hosts[n].txRate

/-- The island clock follows the lane's recovered clock: in the host far-end loop, its one exception to REFCLK (R219). -/
def State.hostFollows (s : State) (n : Fin 16) : Bool := decide (s.active.host[n].loop = 3) && !s.hosts[n].loopSuspended

/-- The data path of a host lane runs: it is neither DISABLED nor in STILL, squelched or not (Table 1.4, R232). -/
def State.hostRuns (s : State) (n : Fin 16) : Bool :=
  if s.isRelay n then decide (s.relays[n].acq.state ≠ .disabled ∧ s.relays[n].acq.state ≠ .still)
  else decide (s.hosts[n].state ≠ .disabled ∧ s.hosts[n].state ≠ .still)

/-- A boundary that is a whole number of periods after `a` falls at `now`: the first unit of elapsed time at or after it. -/
def onGrid (a now : Instant) (period : Nat × Nat) : Bool := decide (a ≤ now ∧ (now - a) * period.2 % period.1 < period.2)

/-- A boundary of a clock that may run from 0.52 % below to 0.02 % above its rate can fall at `now`: some whole number of its periods
after `a` (R221). -/
def nearGrid (a now : Instant) (period : Nat × Nat) : Bool :=
  let d := (now - a) * period.2
  decide (a ≤ now ∧ ceilDiv (9948 * d) (10000 * period.1) * (10000 * period.1) ≤ 10002 * d)

/-- A 4,096-cycle boundary of a host lane falls now, at the rate at which it runs; one whose data path is not running commits at any
time (R35, Table 1.4).  In a far-end loop the clock is the recovered one, whose frequency the host sets: whoever sends the row says
where its boundary falls, within the range of R221 (log 123). -/
def State.hostBoundary (s : State) (n : Fin 16) : Bool :=
  let p := hostPeriod (s.hostTxRate n)
  !s.hostRuns n || (if s.hostFollows n then nearGrid s.hosts[n].boundAt s.now p else onGrid s.hosts[n].boundAt s.now p)

/-- A host lane begins to run at a rate: it takes the boundaries of the lanes that run at that rate from REFCLK, or has its own from
now (R34). -/
def State.alignHost (s : State) (n : Fin 16) : State :=
  let mate := (List.finRange 16).find? fun m =>
    decide (m ≠ n) && s.hostRuns m && !s.hostFollows m && decide (s.hostTxRate m = s.hostTxRate n)
  s.modHost n fun h => { h with boundAt := match mate with | some m => s.hosts[m].boundAt | none => s.now }

/-- The framer of a lane takes the markers and the superframe count of the lanes that share its transmit clock source: when its island
starts, and when its stage or its clock source changes (R34; log 133); a relay lane's island takes the boundaries of its rate. -/
def State.alignTx (s : State) : LaneRef → State
  | .line n =>
    match (s.clockMates n).find? fun m => decide (m ≠ n) with
    | some m => s.modLane (.line n) fun l => { l with tx := { l.tx with count := s.lanes[m].tx.count, markAt := s.lanes[m].tx.markAt } }
    | none => s
  | .relay n => s.alignHost n

/-- A host receiver passes through DARK: with HOSTREF present (`hostref`) it returns to HOSTREF, and HOSTREF_LOST clears with the last
lane that was away; while HOSTREF is lost it acquires by REFCLK (R223). -/
def State.hostrefBack (s : State) (n : Fin 16) (hostref : Bool) : State :=
  let s1 := s.modHost n fun h => { h with onRefclk := !hostref && (h.onRefclk || (s.tb.hostrefLost && s.active.host[n].hostref)) }
  { s1 with tb := { s1.tb with hostrefLost := s1.tb.hostrefLost && (!hostref || s1.hosts.toList.any HostLane.onRefclk) } }

/-- Any squelch source is active (R171). -/
def Squelch.any (q : Squelch) : Bool :=
  q.notEnabled || q.txDisable || q.interlock || q.power || q.shed || q.thermal || q.calibration

/-- The lane's own transmitter is enabled and unsquelched; the squelch of a loop measurement lies behind the loop tap and
does not count (R131, R172). -/
def Lane.txActive (l : Lane) : Bool :=
  !({ l.tx.squelch with calibration := l.tx.squelch.calibration && l.time.xfer.isNone }).any

/-- The event of a state change: LANE_STATE, or HOST_LANE_STATE for a relay lane, whose OLD is the state that the lane left in its other
mode where that has just changed (R94, R134, R234). -/
def State.laneEvent (s : State) (r : LaneRef) (old : LaneState) : State :=
  let l := s.lane r
  let st := (s.stampOn r.island).bytes
  match r with
  | .line n => s.event 0xE010 0 (wordsLe [pack [(n.val, 3), (0, 5), (old.code, 4), (l.acq.state.code, 4), (l.acq.stage.code, 2), (0, 6), (l.acq.lastExit, 8)]] ++ st)
  | .relay n =>
    let was := (s.hosts[n].left).getD old.code
    (s.modHost n fun h => { h with left := none }).event 0xE011 0
      (wordsLe [pack [(n.val, 4), (1, 1), (0, 3), (was, 4), (l.acq.state.code, 4), (l.acq.stage.code, 2), (0, 6), (l.acq.lastExit, 8)]] ++ st)

/-- A message joins the lane's outgoing messages; tap and step messages go ahead of reports (R191, R194). -/
def LaneTx.send (tx : LaneTx) (ty body : Nat) : LaneTx :=
  match tx.msgs with
  | [] => { tx with msgs := [(ty, body)], msgSeq := (tx.msgSeq + 1) % 64 }
  | m :: ms =>
    if ty = 6 ∨ ty = 7 ∨ ty = 8 then { tx with msgs := m :: (ms ++ [(ty, body)]) }
    else { tx with msgs := m :: (ms.filter (fun x => decide (x.1 ≠ 6 ∧ x.1 ≠ 7 ∧ x.1 ≠ 8)) ++ [(ty, body)] ++
      ms.filter fun x => decide (x.1 = 6 ∨ x.1 = 7 ∨ x.1 = 8)) }

/-- A superframe `st` of the far end's count has begun as superframe `cur` begins: it lies no more than half the counts back (R197). -/
def begunBy (st cur : Nat) : Bool := decide (countAhead cur st < 4000)

/-- S_T: the first count that is a multiple of 5 and at least 64 superframes ahead, modulo 8,000 (R196). -/
def trafficStart (count : Nat) : Nat := (ceilDiv (count + 64) 5 * 5) % 8000

/-- A TAP_REQUEST body: which tap, which way and how far is the receiver's policy, which the manual does not give
(Table 5.7, R159). -/
def tapRequest (id c : Nat) : Nat :=
  pack [(0, 48), (1 + Config.policy 0x5904 c % 7, 3), (1 + Config.policy 0x5905 c % 2, 2), (Config.policy 0x5906 c % 7, 3), (id, 8)]

/-- What a lane's transmitter takes up on entering NEGOTIATE: HELLO at stages A and B; at stage C a line lane asks for
taps and a relay lane reports tuning complete at once (R159, R192, R243). -/
def State.helloFor (s : State) (r : LaneRef) (stage : Stage) (tx : LaneTx) : LaneTx :=
  match r, stage with
  | _, .a | _, .b => tx.send 1 s.sys.serial
  | .line _, .c => tx.send 4 (tapRequest 0 s.free)
  | .relay _, .c => { tx with tuneDone := true }
  | _, .s200 => tx

/-- What entering a state makes of a lane (R127, R128, R130, R138, R146, R148, R159, R192, R196, R302).  Leaving LOCKED saves the
coefficients; RETRAIN starts from the saved ones, and timing recovery, which stops in a calibration, has to lock again in it. -/
def State.entering (s : State) (r : LaneRef) (st : LaneState) (stage : Stage) (exit : Nat) : Lane :=
  let l := s.lane r
  let old := l.acq.state
  let down := (st = .dark ∨ st = .signal)
  let leavesC := (l.acq.stage = .c ∧ stage ≠ .c) ∨ down ∨ st = .still ∨ st = .disabled
  let leaves := decide (old = .locked ∧ st ≠ .locked)
  let saved := if leavesC then none else if leaves then some s.now else l.acq.saved
  let acq : LaneAcq := { l.acq with
    state := st, stage, lastExit := exit, since := s.now, timer := s.now, holding := false, found := 0, gainQuiet := 0, winFails := 0
    winFrames := 0, relocked := false, winOk := if st = .negotiate ∨ st = .locked then l.acq.winOk else false
    retries := if st = .locked then 0 else l.acq.retries
    cdrLock := l.acq.cdrLock && !(decide down || decide (st = .still ∨ st = .disabled ∨ st = .calibrating ∨ st = .retrain ∨ stage ≠ l.acq.stage))
    converged := false, saved
    savedTaps := if leaves then l.eq.taps else l.acq.savedTaps
    savedH1 := if leaves then l.eq.h1 else l.acq.savedH1
    savedH2 := if leaves then l.eq.h2 else l.acq.savedH2
    savedGain := if leaves then l.eq.gain else l.acq.savedGain
    savedNco := if leaves then l.eq.nco else l.acq.savedNco }
  let eq : LaneEq := if st = .retrain ∧ saved.isSome then
      { l.eq with taps := acq.savedTaps, h1 := acq.savedH1, h2 := acq.savedH2, gain := acq.savedGain, nco := acq.savedNco }
    else l.eq
  let rx : LaneRxMarker := { l.rx with
    missing := 0, seen := l.rx.seen && !down
    peer := if st = .dark ∨ st = .still ∨ st = .disabled then none else l.rx.peer
    forwarding := l.rx.forwarding && decide (st = .locked)
    begun := l.rx.begun && !leavesC
    marks := [], buf := if st = .locked then l.rx.buf else []
    prbs := if down ∨ st = .step ∨ st = .cdrLock ∨ st = .frameLock then none else l.rx.prbs
    farSt := if down then none else l.rx.farSt, stReached := l.rx.stReached && !decide down }
  let tx0 : LaneTx := { l.tx with
    fallback := l.tx.fallback || (decide down && decide (l.tx.stage = .b ∨ l.tx.stage = .c) && decide (l.tx.restart = 0))
    step := if st = .negotiate ∨ st = .step then l.tx.step else none
    tuneSince := if st = .negotiate ∧ stage = .c then some s.now else l.tx.tuneSince
    tuned := l.tx.tuned && !(decide down || decide (st = .negotiate ∧ stage = .c))
    tuneDone := if down then false else l.tx.tuneDone }
  let tx1 : LaneTx := if st = .negotiate then s.helloFor r stage tx0 else tx0
  let startTraffic := decide (st = .locked ∧ tx1.traffic = false ∧ tx1.st = none ∧ stage = .c) && r.isLine
  let tx2 : LaneTx := if startTraffic then { tx1.send 9 (trafficStart tx1.count * 2 ^ 48) with st := some (trafficStart tx1.count) } else tx1
  let cnt : LaneCnt := if st = .locked ∧ old ≠ .locked then { l.cnt with bits := 0, preErrors := 0, postErrors := 0 } else l.cnt
  let cnt := if st = .retrain then { cnt with recovers := satAdd 16 cnt.recovers 1 } else cnt
  { l with acq, rx, eq, tx := tx2, cnt, time :=
    if st = LaneState.locked ∧ l.time.xfer = none then { l.time with xferSettling := false } else l.time }

/-- An eye scan is running on a line lane (R150). -/
def State.scanning (s : State) (n : Fin 8) : Bool := s.scans.any fun x => decide (x.lane = n) && x.stopAt.isNone

/-- A line lane leaves LOCKED: its eye scan stops and a takeover of its engine is dropped (R142, R150). -/
def State.leaveLocked (s : State) : LaneRef → State
  | .line n =>
    { s with scans := s.scans.map fun (x : EyeScan) => if x.lane = n then { x with stopAt := x.stopAt.or (some s.now) } else x }.dropTakeover n
  | .relay _ => s

/-- A lane changes state, with the effects of leaving and entering, and its ports and clock followers are judged (R127, R134, R167). -/
def State.toState (s : State) (r : LaneRef) (st : LaneState) (stage : Stage) (exit : Nat) : State :=
  let old := (s.lane r).acq.state
  let s1 := { s with free := s.free + 1 }.modLane r fun _ => s.entering r st stage exit
  let s2 := (((s1.laneEvent r old).judgePorts).judgeRill).followClock r
  if old = .locked ∧ st ≠ .locked then s2.leaveLocked r else s2

/-- A squelch source of a lane changes.  A transmitter that becomes squelched stops driving, and its own receive half
acts by R131 (R171, R175); from FRAME_LOCK it resumes at the next marker once the transmitter is active again.  DESIGN CHOICE (log 129):
LAST_EXIT is 0x01 where R131 sends the receive half to SIGNAL, and the timeout of FRAME_LOCK starts afresh as the hold ends. -/
def State.setSquelch (s : State) (r : LaneRef) (f : Squelch → Squelch) : State :=
  let was := (s.lane r).txActive
  let s1 := s.modLane r fun l => { l with tx := { l.tx with squelch := f l.tx.squelch, driving := l.tx.driving && !(f l.tx.squelch).any } }
  let l := s1.lane r
  if was && !l.txActive then
    if l.acq.stage = .s200 then s1
    else if l.acq.state = .negotiate ∧ l.acq.stage = .a then
      let s2 := s1.toState r .frameLock .a 0x09
      s2.modLane r fun l => { l with acq := { l.acq with holding := true, found := 4 }, tx := { l.tx with step := none } }
    else if l.acq.state = .step ∨
        ((l.acq.state = .cdrLock ∨ l.acq.state = .frameLock ∨ l.acq.state = .negotiate) ∧ (l.acq.stage = .b ∨ l.acq.stage = .c)) then
      s1.toState r .signal .a 0x01
    else s1
  else if l.txActive && l.acq.holding then s1.modLane r fun l => { l with acq := { l.acq with holding := false, timer := s.now } }
  else s1

/-- Every line lane. -/
def lineRefs : List LaneRef := (List.finRange 8).map LaneRef.line

/-- A lane leaves for SIGNAL at stage A with RESTART sent for 64 superframes (R139). -/
def State.restartLane (s : State) (r : LaneRef) (exit : Nat) : State :=
  (s.modLane r fun l => { l with tx := { l.tx with restart := 65 } }).toState r .signal (s.firstStage r) exit

/-- Coefficients are valid for a RETRAIN entered now (R138). -/
def State.coeffsValid (s : State) (r : LaneRef) : Bool :=
  match (s.lane r).acq.saved with
  | some t => !s.pastLane r (s.lane r).acq.stage (t + secs 1)
  | none => false

/-- A lane enters RETRAIN, and goes on at once to SIGNAL where its coefficients are not valid (R127, R138): by a lock loss, or from a
calibration. -/
def State.lockLoss (s : State) (r : LaneRef) (exit : Nat) : State :=
  let s1 := s.toState r .retrain (s.lane r).acq.stage exit
  if s1.coeffsValid r then s1 else s1.restartLane r 0x0A

end Sys2Proof.Machine
end

