-- ==== Sys2Proof/Machine/LineRx.lean ====
section
/-! DEFINITION. The receive commands of the line lanes: mode, enables, equaliser, gain, timing, decoding, lock loss,
foreground calibration, monitors, eye scan and counters. -/
namespace Sys2Proof.Machine

/-- A change of one lane's receive parameters in a bank. -/
def Bank.rx (n : Fin 8) (f : LineRxP → LineRxP) (k : Bank) : Bank := { k with lineRx := upd k.lineRx n f }
/-- A change of one lane's transmit parameters in a bank. -/
def Bank.tx (n : Fin 8) (f : LineTxP → LineTxP) (k : Bank) : Bank := { k with lineTx := upd k.lineTx n f }

/-- A basic write of a receive parameter that an expert command may have pinned. -/
def State.rxBasic (s : State) (n : Fin 8) (op el : Nat) (f : LineRxP → LineRxP) : State := s.writeBasic (.lineRx n) op el (Bank.rx n f)
/-- An expert write of a receive parameter. -/
def State.rxExpert (s : State) (n : Fin 8) (op el : Nat) (f : LineRxP → LineRxP) : State := s.writeExpert (.lineRx n) op el (Bank.rx n f)
/-- A basic write of a transmit parameter that an expert command may have pinned. -/
def State.txBasic (s : State) (n : Fin 8) (op el : Nat) (f : LineTxP → LineTxP) : State := s.writeBasic (.lineTx n) op el (Bank.tx n f)
/-- An expert write of a transmit parameter. -/
def State.txExpert (s : State) (n : Fin 8) (op el : Nat) (f : LineTxP → LineTxP) : State := s.writeExpert (.lineTx n) op el (Bank.tx n f)

/-- LANE_MASK in W0 [7:0]: the selected line lanes, ascending. -/
def QEntry.lanes (e : QEntry) : List (Fin 8) := maskIdx 8 (bits (e.w 0) 0 8)

/-- LINE_MODE writes the mode into both shadow sets of the selected lanes (R214). -/
def cmdLineMode (_q : QId) (e : QEntry) (s : State) : Res :=
  checked e (· == 4) (rsv (e.w 0) 9 3 && rsvHigh (e.w 0) 12) fun _ =>
    .ok [] (s.forEach e.lanes fun n s => s.modShadow fun k =>
      (k.rx n fun p => { p with s200 := bit (e.w 0) 8 }).tx n fun p => { p with s200 := bit (e.w 0) 8 })

/-- Row LINE_MODE. -/
def execLineMode (t : Instant) (q : QId) (s : State) : Out := .next (runCmd t q 0x2000 false cmdLineMode s)

/-- LINE_ENABLE writes the enables of the selected lanes (R132). -/
def cmdLineEnable (_q : QId) (e : QEntry) (s : State) : Res :=
  checked e (· == 4) (rsvHigh (e.w 0) 24) fun _ =>
    .ok [] (s.forEach e.lanes fun n s => s.modShadow fun k =>
      (k.rx n fun p => { p with rxEn := bit (e.w 0) (8 + n.val) }).tx n fun p => { p with txEn := bit (e.w 0) (16 + n.val) })

/-- Row LINE_ENABLE. -/
def execLineEnable (t : Instant) (q : QId) (s : State) : Out := .next (runCmd t q 0x2001 false cmdLineEnable s)

/-- The two LINE_STATE words of a lane (R133). -/
def State.lineStateWords (s : State) (n : Fin 8) : List Nat :=
  let a := s.lanes[n].acq
  [pack [(a.state.code, 4), (a.stage.code, 2), (0, 2), (a.retries, 8), (a.lastExit, 8), (n.val, 3)], s.microsSince a.since]

/-- LINE_STATE (R133). -/
def cmdLineState (_q : QId) (e : QEntry) (s : State) : Res :=
  checked e (· == 4) (rsvHigh (e.w 0) 8) fun _ => .ok (wordsLe (e.lanes.flatMap s.lineStateWords)) s

/-- Row LINE_STATE. -/
def execLineState (t : Instant) (q : QId) (s : State) : Out := .next (runCmd t q 0x2002 true cmdLineState s)

/-! ### Equaliser, gain, timing, decoding -/

/-- RX_EQ in the expert layout, with every parameter selected (Table 3.5). -/
def LineRxP.eqWords (p : LineRxP) (mask : Nat) : List Byte :=
  wordsLe [pack [(mask, 8), (0, 8), (p.cursor, 6)],
    pack [(p.mu, 5), (0, 3), (p.leak, 5), (0, 3), (ofSigned 10 p.h1, 10)],
    pack [(ofSigned 10 p.h2, 10), (0, 6), (flag p.targetAdapt, 1)], 0xFFFFFFFF, 0xFFFFFFFF, 0xFFFFFFFF] ++
  p.taps.toList.flatMap fun w => leBytes 2 (ofSigned 12 w)

/-- The target response of a TARGET code, in 2⁻⁸ (Table 3.5); AUTO is firmware's choice. -/
def targetResponse (target c : Nat) : Int × Int :=
  match target with
  | 1 => (0, 0) | 2 => (64, 0) | 3 => (128, 0) | 4 => (256, 0) | 5 => (128, 32)
  | _ => (toSigned 10 (Config.policy 0x2010 c), toSigned 10 (Config.policy 0x12010 c))

/-- RX_EQ: the targets, from which firmware chooses target response and rates (R122, R124). -/
def cmdRxEq (_q : QId) (e : QEntry) (s : State) : Res :=
  let tg := bits (e.w 0) 8 3
  let cu := bits (e.w 0) 16 6
  let ad := bits (e.w 0) 24 2
  checked e (· == 4)
    (decide (tg ≤ 5 ∧ (cu = 0 ∨ (4 ≤ cu ∧ cu ≤ 47)) ∧ ad ≤ 2) && rsv (e.w 0) 11 5 && rsv (e.w 0) 22 2 && rsvHigh (e.w 0) 26 && !e.lanes.isEmpty)
    fun _ =>
      let (c, s0) := s.draw
      let h := targetResponse tg c
      let s1 := s0.forEach e.lanes fun n s =>
        let s := s.modShadow (Bank.rx n fun p => { p with target := tg, adapt := ad })
        let s := s.rxBasic n 0x2810 128 fun p => { p with cursor := cu }
        let s := s.rxBasic n 0x2810 129 fun p => { p with mu := if ad = 1 then 16 else 10 }
        let s := s.rxBasic n 0x2810 131 fun p => { p with h1 := h.1 }
        s.rxBasic n 0x2810 132 fun p => { p with h2 := h.2 }
      .ok (s1.shadow.lineRx[e.lanes.headD 0].eqWords (idxMask [e.lanes.headD 0])) s1

/-- Row RX_EQ. -/
def execRxEq (t : Instant) (q : QId) (s : State) : Out := .next (runCmd t q 0x2010 false cmdRxEq s)

/-- RX_EQ expert writes and pins its parameters; a tap only where TAP_WRITE selects it (R124). -/
def cmdRxEqExpert (_q : QId) (e : QEntry) (s : State) : Res :=
  let cu := bits (e.w 0) 16 6
  let mu := bits (e.w 1) 0 5
  let lk := bits (e.w 1) 8 5
  let tap := fun j => fieldAt e.cmd.payload (24 + 2 * j) 2
  checked e (· == 216)
    (decide (4 ≤ cu ∧ cu ≤ 47 ∧ 6 ≤ mu ∧ mu ≤ 24 ∧ (lk = 0 ∨ (12 ≤ lk ∧ lk ≤ 30))) && rsv (e.w 0) 8 8 && rsv (e.w 0) 22 10 &&
      rsv (e.w 1) 5 3 && rsv (e.w 1) 13 3 && rsvHigh (e.w 1) 26 && rsv (e.w 2) 10 6 && rsvHigh (e.w 2) 17 &&
      ((List.range 96).all fun j => rsv (tap j) 12 4) && !e.lanes.isEmpty)
    fun _ =>
      let s1 := s.forEach e.lanes fun n s =>
        let s := s.rxExpert n 0x2810 128 fun p => { p with cursor := cu }
        let s := s.rxExpert n 0x2810 129 fun p => { p with mu := mu }
        let s := s.rxExpert n 0x2810 130 fun p => { p with leak := lk }
        let s := s.rxExpert n 0x2810 131 fun p => { p with h1 := toSigned 10 (bits (e.w 1) 16 10) }
        let s := s.rxExpert n 0x2810 132 fun p => { p with h2 := toSigned 10 (bits (e.w 2) 0 10) }
        let s := s.rxExpert n 0x2810 133 fun p => { p with targetAdapt := bit (e.w 2) 16 }
        s.forEach (maskIdx 96 (fieldAt e.cmd.payload 12 12)) fun j s =>
          s.rxExpert n 0x2810 j.val fun p => { p with taps := p.taps.set j (toSigned 12 (tap j.val)) }
      .ok (s1.shadow.lineRx[e.lanes.headD 0].eqWords (idxMask [e.lanes.headD 0])) s1

/-- Row RX_EQ_EXPERT. -/
def execRxEqExpert (t : Instant) (q : QId) (s : State) : Out := .next (runCmd t q 0x2810 false cmdRxEqExpert s)

/-- APPLIED_GAIN: the gain codes in force, 0xFF for lanes not selected (Table 3.2). -/
def State.gainReply (s : State) (sel : List (Fin 8)) : List Byte :=
  (List.finRange 8).map fun n => BitVec.ofNat 8 (if n ∈ sel then s.lanes[n].eq.gain else 0xFF)

/-- RX_GAIN sets the RMS target (R112). -/
def cmdRxGain (_q : QId) (e : QEntry) (s : State) : Res :=
  let tg := bits (e.w 0) 8 8
  checked e (· == 4) (decide (16 ≤ tg ∧ tg ≤ 80) && rsvHigh (e.w 0) 16) fun _ =>
    .ok (s.gainReply e.lanes) (s.forEach e.lanes fun n s => s.modShadow (Bank.rx n fun p => { p with targetRms := tg }))

/-- Row RX_GAIN. -/
def execRxGain (t : Instant) (q : QId) (s : State) : Out := .next (runCmd t q 0x2011 false cmdRxGain s)

/-- RX_GAIN expert writes and pins a gain code (R112). -/
def cmdRxGainExpert (_q : QId) (e : QEntry) (s : State) : Res :=
  let g := bits (e.w 0) 16 7
  checked e (· == 4) (decide (g ≤ 72) && rsv (e.w 0) 8 8 && rsvHigh (e.w 0) 23) fun _ =>
    .ok (s.gainReply e.lanes) (s.forEach e.lanes fun n s => s.rxExpert n 0x2811 128 fun p => { p with gainCode := g })

/-- Row RX_GAIN_EXPERT. -/
def execRxGainExpert (t : Instant) (q : QId) (s : State) : Out := .next (runCmd t q 0x2811 false cmdRxGainExpert s)

/-- The RX_TIMING reply for the lowest selected lane (Table 3.4). -/
def LineRxP.timingReply (p : LineRxP) : List Byte :=
  wordsLe [pack [(p.kpShift, 5), (0, 3), (p.kiShift, 5), (0, 3), (ofSigned 7 p.phase, 7)]]

/-- RX_TIMING selects a bandwidth class; firmware derives each lane's gains from it and the lane's stage, and again as the stage changes
(R120, State.gainsInForce). -/
def cmdRxTiming (_q : QId) (e : QEntry) (s : State) : Res :=
  let bw := bits (e.w 0) 8 2
  checked e (· == 4) (decide (bw ≤ 2) && rsv (e.w 0) 10 6 && rsv (e.w 0) 20 1 && rsvHigh (e.w 0) 26 && !e.lanes.isEmpty) fun _ =>
    let s1 := s.forEach e.lanes fun n s =>
      let g := loopGains bw s.lanes[n].acq.stage
      let s := s.modShadow (Bank.rx n fun p => { p with bwClass := bw })
      let s := s.rxBasic n 0x2812 128 fun p => { p with kpShift := g.1 }
      s.rxBasic n 0x2812 129 fun p => { p with kiShift := g.2 }
    .ok s1.shadow.lineRx[e.lanes.headD 0].timingReply s1

/-- Row RX_TIMING. -/
def execRxTiming (t : Instant) (q : QId) (s : State) : Out := .next (runCmd t q 0x2012 false cmdRxTiming s)

/-- RX_TIMING expert writes and pins gains and phase offset (R120). -/
def cmdRxTimingExpert (_q : QId) (e : QEntry) (s : State) : Res :=
  let kp := bits (e.w 0) 16 4
  let ki := bits (e.w 0) 21 5
  let ph := toSigned 7 (bits (e.w 1) 0 7)
  checked e (· == 8)
    (decide (2 ≤ kp ∧ 6 ≤ ki ∧ ki ≤ 24 ∧ -32 ≤ ph ∧ ph ≤ 31) && rsv (e.w 0) 8 8 && rsv (e.w 0) 20 1 && rsvHigh (e.w 0) 26 &&
      rsvHigh (e.w 1) 7 && !e.lanes.isEmpty) fun _ =>
    let s1 := s.forEach e.lanes fun n s =>
      let s := s.rxExpert n 0x2812 128 fun p => { p with kpShift := kp }
      let s := s.rxExpert n 0x2812 129 fun p => { p with kiShift := ki }
      s.rxExpert n 0x2812 130 fun p => { p with phase := ph }
    .ok s1.shadow.lineRx[e.lanes.headD 0].timingReply s1

/-- Row RX_TIMING_EXPERT. -/
def execRxTimingExpert (t : Instant) (q : QId) (s : State) : Out := .next (runCmd t q 0x2812 false cmdRxTimingExpert s)

/-- RX_DECODE selects soft (depth 6) or hard (depth 0) decoding (R204). -/
def cmdRxDecode (_q : QId) (e : QEntry) (s : State) : Res :=
  let hard := bit (e.w 0) 8
  checked e (· == 4) (rsv (e.w 0) 9 7 && rsv (e.w 0) 19 5) fun _ =>
    .ok [] (s.forEach e.lanes fun n s =>
      (s.modShadow (Bank.rx n fun p => { p with hard })).rxBasic n 0x2813 128 fun p => { p with depth := if hard then 0 else 6 })

/-- Row RX_DECODE. -/
def execRxDecode (t : Instant) (q : QId) (s : State) : Out := .next (runCmd t q 0x2013 false cmdRxDecode s)

/-- RX_DECODE expert writes and pins CHASE_DEPTH and LLR_SCALE (R204). -/
def cmdRxDecodeExpert (_q : QId) (e : QEntry) (s : State) : Res :=
  let d := bits (e.w 0) 16 3
  let sc := bits (e.w 0) 24 8
  checked e (· == 4) (decide (d ≤ 6 ∧ 1 ≤ sc) && rsv (e.w 0) 8 8 && rsv (e.w 0) 19 5) fun _ =>
    .ok [] (s.forEach e.lanes fun n s =>
      (s.rxExpert n 0x2813 128 fun p => { p with depth := d }).rxExpert n 0x2813 129 fun p => { p with llrScale := sc })

/-- Row RX_DECODE_EXPERT. -/
def execRxDecodeExpert (t : Instant) (q : QId) (s : State) : Out := .next (runCmd t q 0x2813 false cmdRxDecodeExpert s)

/-- A Gauge channel exists (Table 11.1), or 0xFF for none. -/
def channelOk (c : Nat) : Bool := decide (c < 63 ∨ c = 0xFF)

/-- LOCK_LOSS_CONFIG (R140). -/
def cmdLockLossConfig (_q : QId) (e : QEntry) (s : State) : Res :=
  let ch := bits (e.w 1) 0 8
  let sc := bits (e.w 1) 16 16
  checked e (· == 16)
    (rsv (e.w 0) 8 8 && rsv (e.w 1) 8 8 && rsvHigh (e.w 3) 16 && channelOk ch && !(decide (ch ≠ 0xFF) && decide (sc = 0)) &&
      decide (bits (e.w 2) 0 16 < bits (e.w 2) 16 16)) fun _ =>
    .ok [] (s.forEach e.lanes fun n s => s.modShadow (Bank.rx n fun p =>
      { p with failThreshold := bits (e.w 0) 16 16, optChannel := ch, optScale := sc, losAssert := bits (e.w 2) 0 16,
               losDeassert := bits (e.w 2) 16 16, darkLevel := bits (e.w 3) 0 16 }))

/-- Row LOCK_LOSS_CONFIG. -/
def execLockLossConfig (t : Instant) (q : QId) (s : State) : Out := .next (runCmd t q 0x2014 false cmdLockLossConfig s)

/-! ### The optical monitor (R137) -/

/-- The results of a lane's optical monitor, latest first, when one is assigned and its latest result is within 10 ms. -/
def State.monitor (s : State) (n : Fin 8) : List GaugeLast :=
  let p := s.active.lineRx[n]
  match idx? 64 p.optChannel with
  | some c => match s.hk.last[c] with
    | g :: gs => if s.now ≤ g.at' + msec 10 ∧ p.optChannel < 63 then g :: gs else []
    | [] => []
  | none => []

/-- A monitor result as optical power in 0.01 µW (Table 3.10). -/
def optPower (p : LineRxP) (g : GaugeLast) : Nat := g.code * p.optScale

/-! ### Foreground calibration (R145, R176) -/

/-- The kinds of Tables 3.11 and 4.9. -/
def calKinds : List Nat := [1, 2, 3, 0x10, 0x11, 0x12]

/-- The precondition of a calibration kind on a lane (R145, R176, R307). -/
def State.calReady (s : State) (n : Fin 8) (kind : Nat) : Bool :=
  let l := s.lanes[n]
  let st := l.acq.state
  let free := l.time.xfer.isNone
  match kind with
  | 1 => decide (st ≠ .disabled ∧ st ≠ .still ∧ st ≠ .calibrating) && free &&
      ((s.monitor n).take 3).all fun g => decide (optPower s.active.lineRx[n] g < 10 * s.active.lineRx[n].darkLevel)
  | 2 | 3 => decide (st ≠ .disabled ∧ st ≠ .still ∧ st ≠ .calibrating) && free && s.active.lineRx[n].rxEn &&
      !s.scanning n && decide (s.owners[lineLoopRes n].fn = .none)
  | 0x10 | 0x11 => decide (st ≠ .still ∧ st ≠ .calibrating) && free && !s.active.lineTx[n].txEn
  | 0x12 => decide (st ≠ .still ∧ st ≠ .calibrating) && free && !s.active.lineTx[n].txEn &&
      !s.shadow.pinned (.lineTx n) 0x2822 0 && !s.active.pinned (.lineTx n) 0x2822 0
  | _ => false

/-- LANE_CALIBRATE: after its precondition the lane is CALIBRATING for 1.8 ms; the reply comes at the end (R145 to R147,
R176). -/
def cmdLaneCalibrate (_q : QId) (e : QEntry) (s : State) : Res :=
  let kind := bits (e.w 0) 8 8
  match idx? 8 (bits (e.w 0) 0 3) with
  | none => .fail .badParam []
  | some n => checked e (· == 4) (rsv (e.w 0) 3 5 && rsvHigh (e.w 0) 16 && calKinds.contains kind) fun _ =>
      if s.calReady n kind = false then .fail .precondition []
      else
        let old := s.lanes[n].acq.state
        let s1 := s.modLane (.line n) fun l => { l with acq := { l.acq with calFrom := old, calKind := kind } }
        let s2 := s1.toState (.line n) .calibrating s.lanes[n].acq.stage 0x07
        .wait (if kind ≥ 0x10 then s2.setSquelch (.line n) fun q => { q with calibration := true } else s2)

/-- Row LANE_CALIBRATE. -/
def execLaneCalibrate (t : Instant) (q : QId) (s : State) : Out := .next (runCmd t q 0x2030 false cmdLaneCalibrate s)

/-- The first index at which a list of measurements breaks a bound. -/
def firstBad (xs : List Int) (good : Nat → Int → Bool) : Option Nat := (xs.zipIdx.find? fun p => !good p.2 p.1).map Prod.snd

/-- Mean of a list of integers, rounded. -/
def meanInt (xs : List Int) : Int := if xs = [] then 0 else roundDiv xs.sum xs.length

/-- The first entry, counted over a result's sub-converters, of two lists of measurements that breaks its bound. -/
def firstBad2 (xs ys : List Int) (good : Int → Int → Bool) : Option Nat := ((List.zip xs ys).zipIdx.find? fun p => !good p.1.1 p.1.2).map Prod.snd

/-- A sub-DAC gain lies within 3 % of the mean of all of them; a correction g of 2⁻¹³ stands for the gain 2¹³ + g (R176). -/
def dacGainOk (gs : List Int) (g : Int) : Bool :=
  let sum := (gs.map (8192 + ·)).sum
  decide ((gs.length * (8192 + g) - sum) * 100 ≤ 3 * sum ∧ (sum - gs.length * (8192 + g)) * 100 ≤ 3 * sum)

/-- First entry out of bounds of a calibration result, none when all are inside, and 0xFF where a bound on the whole is broken and no
one entry is (Tables 3.11, 3.12 and 4.9).  ADC offsets are in 1/16 LSB, gains in 2⁻¹³, skews in 2⁻¹³ UI; gain steps in 1/256 dB. -/
def calBad (kind : Nat) (m : CalMeasure) : Option Nat :=
  match kind with
  | 1 =>
    match firstBad m.1 fun _ x => decide (-128 ≤ x ∧ x ≤ 128) with
    | some i => some i
    | none => if m.1.all fun x => m.1.all fun y => decide (x - y < 96) then none else some 0xFF
  | 2 => firstBad2 m.2.1 m.2.2 fun g k => decide (-327 ≤ g ∧ g ≤ 327 ∧ -409 ≤ k ∧ k ≤ 409)
  | 3 => firstBad m.1 fun i x => decide (-25 ≤ x - (-1536 + 64 * (i : Int)) ∧ x - (-1536 + 64 * (i : Int)) ≤ 25 ∧
      (i = 0 ∨ (m.1.getD (i - 1) (-32768)) < x))
  | 0x10 =>
    match firstBad2 m.1 m.2.1 fun o g => decide (-64 ≤ o ∧ o ≤ 64) && dacGainOk m.2.1 g with
    | some i => some i
    | none => if m.2.2.all fun x => decide (-24 ≤ x ∧ x ≤ 24) then none else some 0xFF
  | 0x11 => firstBad m.2.2 fun _ x => decide (-163 ≤ x ∧ x ≤ 163)
  | 0x12 =>
    match firstBad m.1 fun _ x => decide (-64 ≤ x ∧ x ≤ 63) with
    | some i => some i
    | none => if (m.1.map Int.natAbs).sum ≤ 16 * 64 then none else some 0xFF
  | _ => none

/-- A vector overwritten by the entries of a list. -/
def setFrom {n : Nat} (v : Vector Int n) (xs : List Int) : Vector Int n := vmap v fun i x => xs.getD i.val x

/-- A calibration result inside its bounds is applied (Tables 3.11 and 4.9).  DESIGN CHOICE (log 137): CAL_TEMP and CAL_STAMP are those of
the last calibration whose result was applied. -/
def State.applyCal (s : State) (n : Fin 8) (kind : Nat) (m : CalMeasure) : State :=
  let rx := fun (f : LaneCal → LaneCal) => s.modLane (.line n) fun l => { l with cal := { f l.cal with rxTemp := (s.laneTemp (.line n)), rxStamp := s.fnow } }
  let tx := fun (f : LaneCal → LaneCal) => s.modLane (.line n) fun l => { l with cal := { f l.cal with txTemp := (s.laneTemp (.line n)), txStamp := s.fnow } }
  match kind with
  | 1 => rx fun c => { c with adcOffset := setFrom c.adcOffset m.1, frontOffset := m.2.1.headD c.frontOffset }
  | 2 => rx fun c => { c with adcGain := setFrom c.adcGain m.2.1, adcSkew := setFrom c.adcSkew m.2.2, retired := false, rejections := 0 }
  | 3 => rx fun c => { c with gainTable := setFrom c.gainTable m.1 }
  | 0x10 => tx fun c => { c with dacOffset := setFrom c.dacOffset m.1, dacGain := setFrom c.dacGain m.2.1 }
  | 0x11 => tx fun c => { c with dacSkew := setFrom c.dacSkew m.2.2 }
  | 0x12 => (tx id).modShadow (Bank.tx n fun p => { p with pd := setFrom p.pd m.1 })
  | _ => s

/-- The LANE_CALIBRATE entry that waits for a lane. -/
def State.calEntry (s : State) (n : Fin 8) : Option (QId × QEntry) :=
  [QId.q0, .q1, .q2, .q3].findSome? fun q =>
    ((s.q.get q).find? fun e => decide (e.phase = .running ∧ e.cmd.op = 0x2030 ∧ bits (e.w 0) 0 3 = n.val)).map fun e => (q, e)

/-- Its LANE_CALIBRATE, if it still waits, replies. -/
def State.completeCal (s : State) (n : Fin 8) (st : Status) (payload : List Byte) : State :=
  match s.calEntry n with
  | some (_, e) => s.complete e.seq st payload
  | none => s

/-- A lane leaves CALIBRATING: for RETRAIN where it was locked, and on to SIGNAL where the calibration spoils the
coefficients; for DISABLED where it was disabled; else for DARK (R138, R146, R176). -/
def State.leaveCalibrating (s : State) (n : Fin 8) : State :=
  let r := LaneRef.line n
  let a := s.lanes[n].acq
  let s1 := if a.calKind ≥ 0x10 then s.setSquelch r fun q => { q with calibration := false } else s
  let s2 :=
    if a.calFrom = .disabled then s1.toState r .disabled a.stage 0x07
    else if a.calFrom = .locked ∨ a.calFrom = .retrain then
      (if a.calKind = 2 ∨ a.calKind = 3 then s1.modLane r fun l => { l with acq := { l.acq with saved := none } } else s1).lockLoss r 0x07
    else s1.toState r .dark (s.firstStage r) 0x07
  s2.modLane r fun l => { l with acq := { l.acq with calKind := 0 } }

/-- LANE_CALIBRATION_END: after 1.8 ms the result is bounds-checked and applied or rejected, the lane moves on and the
command replies (R115, R145, R146, R176).  The completion keeps the order of the queues: where a later queue has taken part in this cycle, it
comes in the next (R76). -/
def execLaneCalibrationEnd (t : Instant) (n : Fin 8) (m : CalMeasure) (s : State) : Out :=
  let s := s.advanceTo t
  let a := s.lanes[n].acq
  if a.state = .calibrating ∧ a.since + usec 1800 ≤ s.now ∧ (s.calEntry n).all (fun x => s.inOrder x.1) then
    let bad := calBad a.calKind m
    let s1 := match bad with
      | none => s.applyCal n a.calKind m
      | some _ => s.logEntry 0x0302 0 1 (Block.lineRx n).id [pack [(0x2030, 16), (a.calKind, 8), (n.val, 8)]]
    .next ((s1.leaveCalibrating n).completeCal n .ok (wordsLe [pack [(flag bad.isSome, 8), (min (bad.getD 0xFF) 0xFF, 8), ((s.now - a.since) / usec 1, 16)],
      pack [(ofSigned 16 (s.laneTemp (.line n)), 16)]]))
  else .next s

/-! ### Monitors and eye scan (R148 to R151) -/

/-- The square of a number. -/
def square (x : Int) : Nat := x.natAbs * x.natAbs

/-- The slicer error of an FFE output: its distance to the nearest nominal level, in 1/256 of the level spacing (Table 3.13). -/
def slicerError (y : Int) : Nat := leastOf ((List.range 4).map fun l => (y - levelOf l).natAbs)

/-- 1000·log₁₀ of a ratio rounded to the nearest integer, in 16 bits signed: how many of the halves below lie at or under it (R530). -/
def centiBel (num den : Nat) : Int :=
  let atLeast := fun (m : Int) => -- 10^(m / 2000) ≤ num / den
    if 0 ≤ m then decide (10 ^ m.toNat * den ^ 2000 ≤ num ^ 2000) else decide (den ^ 2000 ≤ num ^ 2000 * 10 ^ (-m).toNat)
  ((List.range 65535).countP fun i => atLeast (2 * ((i : Int) - 32767) - 1) : Nat) - 32768

/-- SNR of the last FFE outputs, in 0.01 dB: nominal level power over the mean squared slicer error; 0 with no output yet.  DESIGN CHOICE
(log 138): with no error at all, whose logarithm is open, it is a free value. -/
def LaneEq.snr (q : LaneEq) (nrz : Bool) (c : Nat) : Nat :=
  let e := (q.outputs.map fun y => slicerError y * slicerError y).sum
  if q.outputs = [] then 0
  else if e = 0 then Config.reading 1 c % 65536
  else ofSigned 16 (centiBel ((if nrz then square 384 else (square 384 + square 128) / 2) * q.outputs.length) e)

/-- FREQ_OFFSET in 0.01 ppm: the integrator moves the sampling phase by `nco`·2⁻³² UI in a cycle of 256 symbols, later where the far end is
slow (R118, Table 3.13). -/
def LaneEq.freqOffset (q : LaneEq) : Nat := ofSigned 16 (clampInt (-32768) 32767 (roundDiv (-(q.nco * 100000000)) 1099511627776))

/-- A bin of LEVEL_HIST: FFE outputs from −4.0 + bin/8 of the level spacing up (Table 3.13).  DESIGN CHOICE (log 138): a count saturates, and
an output outside ±4.0 is in no bin. -/
def LaneEq.levelBin (q : LaneEq) (i : Nat) : Nat :=
  min 0xFFFF (q.outputs.countP fun y => decide (32 * (i : Int) - 1024 ≤ y ∧ y < 32 * (i : Int) - 992))

/-- RX_MONITOR: SNR and histogram are those of the last 2²⁰ FFE outputs, and the frequency offset that of the loop; the clip count, which no
row carries, is a free value once the lane has run, and 0 before its first state change since reset; reading restarts the BER counts (R148,
R149).  DESIGN CHOICE (log 138): an optical power above 0xFFFE reads 0xFFFE. -/
def cmdRxMonitor (_q : QId) (e : QEntry) (s : State) : Res :=
  match idx? 8 (bits (e.w 0) 0 3) with
  | none => .fail .badParam []
  | some n => checked e (· == 4) (rsvHigh (e.w 0) 3) fun _ =>
      let l := s.lanes[n]
      let (c, s1) := s.draw
      let read := fun k => if l.acq.lastExit = 0 then 0 else Config.reading k c
      let opt := match s.monitor n with | g :: _ => min (optPower s.active.lineRx[n] g / 10) 0xFFFE | [] => 0xFFFF
      .ok (wordsLe [pack [(opt, 16), (l.eq.snr (decide (l.acq.stage = .a)) c, 16)],
          pack [(l.eq.freqOffset, 16), (l.eq.gain, 7), (flag (l.eq.gainAtLimit && !s.active.pinned (.lineRx n) 0x2811 128), 1), (l.eq.engine, 4), (l.acq.state.code, 4)],
          pack [(l.cal.parked, 8), (flag l.cal.retired, 1), (0, 7), (read 3, 16)]] ++
        leBytes 6 l.cnt.bits ++ leBytes 6 l.cnt.preErrors ++ leBytes 6 l.cnt.postErrors ++ leBytes 2 0 ++
        (List.range 64).flatMap (fun i => leBytes 2 (l.eq.levelBin i)))
        (s1.modLane (.line n) fun l => { l with cnt := { l.cnt with bits := 0, preErrors := 0, postErrors := 0 } })

/-- Row RX_MONITOR. -/
def execRxMonitor (t : Instant) (q : QId) (s : State) : Out := .next (runCmd t q 0x2040 true cmdRxMonitor s)

/-- Duration of a scan, in 2⁻¹⁶ ns: PHASES × 42 × 2^DEPTH samples at the symbol rate of the lane's stage over 128 (R151). -/
def scanTime (stage : Stage) (phases depth : Nat) : Nat :=
  phases * 42 * 2 ^ depth * 128 * (64 * (uiStep (.line 0) stage).1) / (uiStep (.line 0) stage).2

/-- A scan stays within the limit of 60 s at the rate of LOCKED: of stage C, or of S200 (R151). -/
def scanFits (s200 : Bool) (phases depth : Nat) : Bool := decide (scanTime (if s200 then .s200 else .c) phases depth ≤ secs 60)

/-- An eye scan starts on a lane in LOCKED with no sub-converter retired (R150).  DESIGN CHOICE (log 130): while a scan runs on the same
lane, whose one parked sub-converter it uses, another is refused with PRECONDITION. -/
def startScan (e : QEntry) (n : Fin 8) (phases step depth limit : Nat) (s : State) : Res :=
  if s.lanes[n].acq.state = .locked ∧ s.lanes[n].cal.retired = false ∧ s.scanning n = false then
    .wait { s with scans := s.scans ++ [{ seq := e.seq, lane := n, phases, step, depth, limit, startAt := s.now }] }
  else .fail .precondition []

/-- EYE_SCAN: the standard contour (R151). -/
def cmdEyeScan (_q : QId) (e : QEntry) (s : State) : Res :=
  match idx? 8 (bits (e.w 0) 0 3) with
  | none => .fail .badParam []
  | some n => checked e (· == 8) (rsv (e.w 0) 3 5 && rsv (e.w 0) 15 1 && rsv (e.w 0) 20 4 && rsvHigh (e.w 0) 29 && rsvHigh (e.w 1) 16) fun _ =>
      startScan e n 32 2 20 10 s

/-- Row EYE_SCAN. -/
def execEyeScan (t : Instant) (q : QId) (s : State) : Out := .next (runCmd t q 0x2041 false cmdEyeScan s)

/-- EYE_SCAN expert: grid, depth and error limit (R151). -/
def cmdEyeScanExpert (_q : QId) (e : QEntry) (s : State) : Res :=
  let ph := bits (e.w 0) 8 7
  let sp := bits (e.w 0) 16 4
  let dp := bits (e.w 0) 24 5
  let li := bits (e.w 1) 0 16
  match idx? 8 (bits (e.w 0) 0 3) with
  | none => .fail .badParam []
  | some n => checked e (· == 8)
      (rsv (e.w 0) 3 5 && rsv (e.w 0) 15 1 && rsv (e.w 0) 20 4 && rsvHigh (e.w 0) 29 && rsvHigh (e.w 1) 16 &&
        decide (1 ≤ ph ∧ ph ≤ 64 ∧ 1 ≤ sp ∧ sp ≤ 8 ∧ ph * sp ≤ 64 ∧ 16 ≤ dp ∧ dp ≤ 28 ∧ 1 ≤ li) &&
        scanFits s.active.lineRx[n].s200 ph dp) fun _ =>
      startScan e n ph sp dp li s

/-- Row EYE_SCAN_EXPERT. -/
def execEyeScanExpert (t : Instant) (q : QId) (s : State) : Out := .next (runCmd t q 0x2841 false cmdEyeScanExpert s)

/-- The binary search for one boundary of an eye: seven steps fix the seven high bits of the ADC code, from the highest, by the errors that
each step counted in 2^DEPTH samples (R150).  The top is the highest code at which the comparison stays below ERR_LIMIT, and the bottom the
highest at which it does not.  DESIGN CHOICE (log 131): the search begins on the whole range of codes, and the lowest bit is 0. -/
def scanSearch (limit : Nat) (top : Bool) (errors : List Nat) : Int :=
  (((List.range 7).map fun k => if decide (errors.getD k 0 < limit) == top then 2 ^ (7 - k) else 0).sum : Nat) - 128

/-- The EYE_SCAN reply: phases done, the first phase's offset with the grid centred on the sampling phase, and six
signed ADC codes per phase, each found by its search, top and bottom in turn (Table 3.14).  DESIGN CHOICE (log 131): the first phase lies
(PHASES − 1) × PHASE_STEP / 2 before the sampling phase, a half rounded toward it, so that one phase is the sampling phase itself. -/
def scanReply (x : EyeScan) (done : Nat) (errors : List Nat) : List Byte :=
  wordsLe [pack [(done, 8), (ofSigned 8 (-(((x.phases - 1) * x.step / 2 : Nat) : Int)), 8)]] ++
    ((List.range (6 * done)).map fun i => BitVec.ofNat 8 (ofSigned 8 (scanSearch x.limit (decide (i % 2 = 0)) ((errors.drop (7 * i)).take 7))))

/-- Phases that a scan has completed after a span of time, of which each takes the same (R150, R151). -/
def EyeScan.phasesIn (x : EyeScan) (stage : Stage) (d : Nat) : Nat := min x.phases (d / max 1 (scanTime stage 1 x.depth))

/-- EYE_SCAN_END: the scan of a lane finishes with every phase done, its time gone, or has stopped with PRECONDITION because its lane left
LOCKED, after the phases completed by then (R150, R151); `errors` holds the errors that each step of each search counted. -/
def execEyeScanEnd (t : Instant) (n : Fin 8) (errors : List Nat) (s : State) : Out :=
  let s := s.advanceTo t
  let stage : Stage := if s.isS200 (.line n) then .s200 else .c
  match s.scans.find? fun x => decide (x.lane = n) with
  | none => .next s
  | some x =>
    let s1 := { s with scans := s.scans.filter fun y => decide (y.seq ≠ x.seq) }
    match x.stopAt with
    | some c => .next (s1.complete x.seq .precondition (scanReply x (x.phasesIn stage (c - x.startAt)) errors))
    | none =>
      if x.startAt + scanTime stage x.phases x.depth ≤ s.now then .next (s1.complete x.seq .ok (scanReply x x.phases errors))
      else .next s

/-! ### Counters (R215, R216) -/

/-- A 48-bit counter in two words. -/
def cnt48 (v : Nat) : List Byte := leBytes 8 (min v (2 ^ 48 - 1))

/-- The 48-byte record of a lane (Table 5.12). -/
def State.laneRecord (s : State) (n : Fin 8) : List Byte :=
  let c := s.lanes[n].cnt
  wordsLe [pack [(n.val, 3), (flag (s.counting (.line n)), 1), (flag s.lanes[n].rx.laneOrder, 1)]] ++ cnt48 c.innerCodewords ++
    cnt48 c.innerCorrected ++ cnt48 c.innerFailures ++ wordsLe [c.markersMissing, c.markerCrc, c.countJumps, c.markedBlocks, c.injected]

/-- The 96-byte part of a slice record (Table 5.12). -/
def SliceCnt.part (c : SliceCnt) : List Byte :=
  cnt48 c.codewords ++ cnt48 c.corrected ++ cnt48 c.uncorrectable ++ wordsLe (c.marked :: c.hist.toList)

/-- The counters that LINE_COUNTERS returns, at 0; those of RX_MONITOR stay (R216). -/
def LaneCnt.cleared (c : LaneCnt) : LaneCnt :=
  { bits := c.bits, preErrors := c.preErrors, postErrors := c.postErrors, prbsBits := c.prbsBits, prbsErrors := c.prbsErrors, recovers := c.recovers }

/-- LINE_COUNTERS latches and returns the counters, clearing them when asked (R215, R216). -/
def cmdLineCounters (_q : QId) (e : QEntry) (s : State) : Res :=
  let lm := e.lanes
  let sm := maskIdx 8 (bits (e.w 0) 8 8)
  let dir := bits (e.w 0) 16 2
  let clear := bit (e.w 0) 18
  let parts := if dir = 3 then 2 else 1
  checked e (· == 4) (rsvHigh (e.w 0) 19 && !(decide (dir = 0) && !sm.isEmpty) &&
      decide (16 + 48 * lm.length + sm.length * (4 + 96 * parts) ≤ 1024)) fun _ =>
    let slice := fun n : Fin 8 => wordsLe [n.val] ++ (if bit dir 0 then s.ports[n].rxCnt.part else []) ++ (if bit dir 1 then s.ports[n].txCnt.part else [])
    let s1 := if clear then (s.forEach lm fun n s => s.modLane (.line n) fun l => { l with cnt := l.cnt.cleared }).forEach sm fun n s =>
        s.modPort n fun p => { p with rxCnt := if bit dir 0 then {} else p.rxCnt, txCnt := if bit dir 1 then {} else p.txCnt }
      else s
    .ok (s.stampMgmt.bytes ++ lm.flatMap s.laneRecord ++ sm.flatMap slice) s1

/-- Row LINE_COUNTERS. -/
def execLineCounters (t : Instant) (q : QId) (s : State) : Out := .next (runCmd t q 0x2050 true cmdLineCounters s)

/-- LINE_LOOP writes the loop kind into both shadow sets of the lane (R247). -/
def cmdLineLoop (_q : QId) (e : QEntry) (s : State) : Res :=
  match idx? 8 (bits (e.w 0) 0 3) with
  | none => .fail .badParam []
  | some n => checked e (· == 4) (rsv (e.w 0) 3 5 && rsvHigh (e.w 0) 10) fun _ =>
      let k := bits (e.w 0) 8 2
      .ok [] (((s.modShadow (Bank.rx n fun p => { p with loop := k })).modShadow (Bank.tx n fun p => { p with loop := k })).mark (.lineRx n) 0x2060
        |>.mark (.lineTx n) 0x2060)

/-- Row LINE_LOOP. -/
def execLineLoop (t : Instant) (q : QId) (s : State) : Out := .next (runCmd t q 0x2060 false cmdLineLoop s)

end Sys2Proof.Machine
end

