-- ==== Sys2Proof/Machine/LineTx.lean ====
section
/-! DEFINITION. The transmit commands of the line lanes, the level computation of the DAC, and TX_DISABLE. -/
namespace Sys2Proof.Machine

/-! ### Level computation (R153, R154) -/

/-- The sum of taps times 3·L over the seven symbols from i+2 down to i−4: 768 times y(i) (R153). -/
def ffeSum (taps : Vector Int 7) (levels : Vector Nat 7) : Int :=
  ((List.finRange 7).map fun (j : Fin 7) => taps[j] * (2 * (levels[j] : Int) - 3)).sum

/-- The index of the predistortion table: 16·s(i−1) + 4·s(i) + s(i+1) (R160). -/
def pdIndex (prev cur next : Nat) : Fin 64 := ⟨(16 * (prev % 4) + 4 * (cur % 4) + next % 4), by omega⟩

/-- The DAC code before saturation (R154).  Levels are those of symbols i+2, i+1, i, i−1, …, i−4. -/
def dacRaw (taps : Vector Int 7) (pd : Vector Int 64) (levels : Vector Nat 7) : Int :=
  roundDiv (127 * ffeSum taps levels) 768 + pd[pdIndex levels[3] levels[2] levels[1]]

/-- The DAC code (R154). -/
def dacCode (taps : Vector Int 7) (pd : Vector Int 64) (levels : Vector Nat 7) : Int := clampInt (-127) 127 (dacRaw taps pd levels)

/-- A transmit tap set is valid (R157). -/
def tapsValid (t : Vector Int 7) : Bool := decide (0 < t[2] ∧ (t.toList.map Int.natAbs).sum ≤ 256)

/-- The taps of a preset, C₋₂ to C₄ (Table 4.3); AUTO starts from preset 4. -/
def presetTaps : Nat → Vector Int 7
  | 1 => #v[0, 0, 256, 0, 0, 0, 0]
  | 2 => #v[0, -16, 240, 0, 0, 0, 0]
  | 3 => #v[0, -32, 224, 0, 0, 0, 0]
  | 5 => #v[8, -32, 200, -16, 0, 0, 0]
  | 6 => #v[0, -24, 208, -24, 0, 0, 0]
  | 7 => #v[8, -40, 184, -24, 0, 0, 0]
  | _ => #v[0, -16, 224, -16, 0, 0, 0]

/-- The predistortion table in force: the entries while pinned or ADAPTIVE, zeros for OFF (R161). -/
def pdInForce (k : Bank) (n : Fin 8) : Vector Int 64 :=
  if k.pinned (.lineTx n) 0x2822 0 ∨ k.lineTx[n].pdAdaptive then k.lineTx[n].pd else Vector.replicate 64 0

/-- The taps in force at the output: preset 1 below stage C (R159). -/
def State.tapsInForce (s : State) (n : Fin 8) : Vector Int 7 :=
  if s.lanes[n].tx.stage = .a ∨ s.lanes[n].tx.stage = .b then presetTaps 1 else s.active.lineTx[n].taps

/-! ### Swing (R155, R156) -/

/-- The largest FS_CODE whose swing does not exceed a ceiling in mVppd (R156). -/
def maxFs (ceil : Nat) : Nat := ceil * 16 / 15

/-- FS_CODE in force: the active value, clamped to the ceiling (R107, R156). -/
def State.fsInForce (s : State) (n : Fin 8) : Nat := min s.active.lineTx[n].fsCode (maxFs s.limits.txSwing[n])

/-- The TX_SWING reply (Table 4.2). -/
def swingReply (fs : Nat) : List Byte := wordsLe [pack [(fs, 10), (0, 6), (fs * 75 / 8, 16)]]

/-- TX_SWING takes a swing in mVppd: the nearest code, no higher than the ceiling (R156). -/
def cmdTxSwing (_q : QId) (e : QEntry) (s : State) : Res :=
  let mv := bits (e.w 0) 8 10
  let code := roundDivN (mv * 16) 15
  checked e (· == 4) (decide (300 ≤ mv ∧ mv ≤ 900) && rsvHigh (e.w 0) 18 && !e.lanes.isEmpty) fun _ =>
    let s1 := s.forEach e.lanes fun n s => s.txBasic n 0x2820 128 fun p => { p with fsCode := min code (maxFs s.limits.txSwing[n]) }
    let rep := swingReply s1.shadow.lineTx[e.lanes.headD 0].fsCode
    if e.lanes.any fun n => decide (maxFs s.limits.txSwing[n] < code) && !s.shadow.pinned (.lineTx n) 0x2820 128 then .clamped rep s1
    else .ok rep s1

/-- Row TX_SWING. -/
def execTxSwing (t : Instant) (q : QId) (s : State) : Out := .next (runCmd t q 0x2020 false cmdTxSwing s)

/-- TX_SWING expert writes FS_CODE and pins it (R156). -/
def cmdTxSwingExpert (_q : QId) (e : QEntry) (s : State) : Res :=
  let code := bits (e.w 0) 18 10
  checked e (· == 4) (decide (320 ≤ code ∧ code ≤ 960) && rsv (e.w 0) 8 10 && rsvHigh (e.w 0) 28 && !e.lanes.isEmpty) fun _ =>
    let s1 := s.forEach e.lanes fun n s => s.txExpert n 0x2820 128 fun p => { p with fsCode := min code (maxFs s.limits.txSwing[n]) }
    let rep := swingReply s1.shadow.lineTx[e.lanes.headD 0].fsCode
    if e.lanes.any fun n => decide (maxFs s.limits.txSwing[n] < code) then .clamped rep s1 else .ok rep s1

/-- Row TX_SWING_EXPERT. -/
def execTxSwingExpert (t : Instant) (q : QId) (s : State) : Out := .next (runCmd t q 0x2820 false cmdTxSwingExpert s)

/-! ### TX FFE (R157, R158) -/

/-- The TAPS reply: taps in the layout of W1 to W4 (Table 4.4). -/
def tapsReply (t : Vector Int 7) : List Byte :=
  t.toList.flatMap (fun c => leBytes 2 (ofSigned 10 c)) ++ leBytes 2 0

/-- TX_FFE selects a preset; a set left invalid by pinned taps is refused (R157, R158).  AUTO gives the lane preset 4 here, and only here:
DESIGN CHOICE (log 132). -/
def cmdTxFfe (_q : QId) (e : QEntry) (s : State) : Res :=
  let p := bits (e.w 0) 8 3
  let s1 := s.forEach e.lanes fun n s =>
    let s := s.modShadow (Bank.tx n fun x => { x with preset := p })
    s.forEach (List.finRange 7) fun j s => s.txBasic n 0x2821 j.val fun x => { x with taps := x.taps.set j (presetTaps p)[j] }
  checked e (· == 4) (rsvHigh (e.w 0) 11 && !e.lanes.isEmpty && e.lanes.all fun n => tapsValid s1.shadow.lineTx[n].taps) fun _ =>
    .ok (tapsReply s1.shadow.lineTx[e.lanes.headD 0].taps) s1

/-- Row TX_FFE. -/
def execTxFfe (t : Instant) (q : QId) (s : State) : Out := .next (runCmd t q 0x2021 false cmdTxFfe s)

/-- The seven taps of an expert TX_FFE payload (Table 4.4). -/
def ffeTapsOf (p : List Byte) : Vector Int 7 := Vector.ofFn fun j => toSigned 10 (fieldAt p (4 + 2 * j.val) 2 % 1024)

/-- TX_FFE expert writes all seven taps and pins each (R158). -/
def cmdTxFfeExpert (_q : QId) (e : QEntry) (s : State) : Res :=
  let taps := ffeTapsOf e.cmd.payload
  checked e (· == 20)
    (rsv (e.w 0) 8 24 && ((List.range 8).all fun j => rsv (fieldAt e.cmd.payload (4 + 2 * j) 2) 10 6) && rsvHigh (e.w 4) 16 &&
      tapsValid taps && !e.lanes.isEmpty) fun _ =>
    let s1 := s.forEach e.lanes fun n s =>
      s.forEach (List.finRange 7) fun j s => s.txExpert n 0x2821 j.val fun x => { x with taps := x.taps.set j taps[j] }
    .ok (tapsReply s1.shadow.lineTx[e.lanes.headD 0].taps) s1

/-- Row TX_FFE_EXPERT. -/
def execTxFfeExpert (t : Instant) (q : QId) (s : State) : Out := .next (runCmd t q 0x2821 false cmdTxFfeExpert s)

/-! ### Predistortion, skew, clock source (R160 to R166) -/

/-- TX_PREDIST selects OFF or ADAPTIVE (R161). -/
def cmdTxPredist (_q : QId) (e : QEntry) (s : State) : Res :=
  checked e (· == 4) (rsvHigh (e.w 0) 9) fun _ =>
    .ok [] (s.forEach e.lanes fun n s => s.modShadow (Bank.tx n fun p => { p with pdAdaptive := bit (e.w 0) 8 }))

/-- Row TX_PREDIST. -/
def execTxPredist (t : Instant) (q : QId) (s : State) : Out := .next (runCmd t q 0x2022 false cmdTxPredist s)

/-- TX_PREDIST expert writes all 64 entries and pins the table (R161). -/
def cmdTxPredistExpert (_q : QId) (e : QEntry) (s : State) : Res :=
  let pd : Vector Int 64 := Vector.ofFn fun j => toSigned 8 (fieldAt e.cmd.payload (4 + j.val) 1)
  checked e (· == 68) (rsvHigh (e.w 0) 8 && pd.toList.all fun x => decide (-64 ≤ x ∧ x ≤ 63)) fun _ =>
    .ok [] (s.forEach e.lanes fun n s => s.txExpert n 0x2822 0 fun p => { p with pd })

/-- Row TX_PREDIST_EXPERT. -/
def execTxPredistExpert (t : Instant) (q : QId) (s : State) : Out := .next (runCmd t q 0x2822 false cmdTxPredistExpert s)

/-- The TX_SKEW reply (Table 4.6). -/
def skewReply (target applied : Int) : List Byte := wordsLe [pack [(ofSigned 14 target, 14), (0, 2), (ofSigned 14 applied, 14)]]

/-- TX_SKEW: NONE sets the skew to 0; with ALIGN the firmware sets it from the far end's reports (R164). -/
def cmdTxSkew (_q : QId) (e : QEntry) (s : State) : Res :=
  let align := bit (e.w 0) 8
  checked e (· == 4) (rsv (e.w 0) 9 7 && rsvHigh (e.w 0) 16 && !e.lanes.isEmpty) fun _ =>
    let s1 := s.forEach e.lanes fun n s =>
      let s := s.modShadow (Bank.tx n fun p => { p with skewAlign := align })
      if align then s else s.txBasic n 0x2823 128 fun p => { p with skew := 0 }
    .ok (skewReply s1.shadow.lineTx[e.lanes.headD 0].skew s.lanes[e.lanes.headD 0].tx.skewApplied) s1

/-- Row TX_SKEW. -/
def execTxSkew (t : Instant) (q : QId) (s : State) : Out := .next (runCmd t q 0x2023 false cmdTxSkew s)

/-- TX_SKEW expert writes the skew and pins it (R164). -/
def cmdTxSkewExpert (_q : QId) (e : QEntry) (s : State) : Res :=
  let k := toSigned 14 (bits (e.w 0) 16 14)
  checked e (· == 4) (decide (-4096 ≤ k ∧ k ≤ 4096) && rsv (e.w 0) 8 8 && rsvHigh (e.w 0) 30 && !e.lanes.isEmpty) fun _ =>
    let s1 := s.forEach e.lanes fun n s => s.txExpert n 0x2823 128 fun p => { p with skew := k }
    .ok (skewReply s1.shadow.lineTx[e.lanes.headD 0].skew s.lanes[e.lanes.headD 0].tx.skewApplied) s1

/-- Row TX_SKEW_EXPERT. -/
def execTxSkewExpert (t : Instant) (q : QId) (s : State) : Out := .next (runCmd t q 0x2823 false cmdTxSkewExpert s)

/-- TX_CLOCK_SOURCE (R165). -/
def cmdTxClockSource (_q : QId) (e : QEntry) (s : State) : Res :=
  checked e (· == 4) (rsvHigh (e.w 0) 12) fun _ =>
    .ok [] (s.forEach e.lanes fun n s => s.modShadow (Bank.tx n fun p =>
      { p with clkLoop := bit (e.w 0) 8, clkLane := ⟨bits (e.w 0) 9 3, by simp only [bits]; omega⟩ }))

/-- Row TX_CLOCK_SOURCE. -/
def execTxClockSource (t : Instant) (q : QId) (s : State) : Out := .next (runCmd t q 0x2024 false cmdTxClockSource s)

/-! ### Error injection (R217) -/

/-- RATE of a preset (Table 5.13). -/
def injectRate : Nat → Nat
  | 1 => 4295 | 2 => 42950 | 3 => 429497 | 4 => 4294967 | 5 => 19327353 | _ => 0

/-- ERROR_INJECT: random bit errors at POINT 0 at a preset rate (R217). -/
def cmdErrorInject (_q : QId) (e : QEntry) (s : State) : Res :=
  let p := bits (e.w 0) 8 3
  checked e (· == 16) (decide (p ≤ 5) && rsvHigh (e.w 0) 15 && rsv (e.w 2) 11 5 && rsvHigh (e.w 3) 5) fun _ =>
    .ok [] (s.forEach e.lanes fun n s =>
      let s := s.txBasic n 0x2851 128 fun x => { x with injKind := if p = 0 then 0 else 1 }
      let s := s.txBasic n 0x2851 129 fun x => { x with injPoint := false }
      s.txBasic n 0x2851 130 fun x => { x with injRate := injectRate p })

/-- Row ERROR_INJECT. -/
def execErrorInject (t : Instant) (q : QId) (s : State) : Out := .next (runCmd t q 0x2051 false cmdErrorInject s)

/-- ERROR_INJECT expert writes and pins kind, point and the figures of the kind (R217). -/
def cmdErrorInjectExpert (_q : QId) (e : QEntry) (s : State) : Res :=
  let k := bits (e.w 0) 11 3
  let bl := bits (e.w 2) 0 11
  let iv := bits (e.w 2) 16 16
  let mc := bits (e.w 3) 0 5
  checked e (· == 16)
    (decide (k ≤ 4) && rsv (e.w 0) 8 3 && rsvHigh (e.w 0) 15 && rsv (e.w 2) 11 5 && rsvHigh (e.w 3) 5 &&
      (decide (k ≠ 3) || decide (1 ≤ bl ∧ bl ≤ 1024 ∧ 1 ≤ iv)) && (decide (k ≠ 4) || decide (1 ≤ mc ∧ mc ≤ 16))) fun _ =>
    .ok [] (s.forEach e.lanes fun n s =>
      let s := s.txExpert n 0x2851 128 fun x => { x with injKind := k }
      let s := s.txExpert n 0x2851 129 fun x => { x with injPoint := bit (e.w 0) 14 }
      let s := s.txExpert n 0x2851 130 fun x => { x with injRate := e.w 1 }
      let s := s.txExpert n 0x2851 131 fun x => { x with injBurst := bl }
      let s := s.txExpert n 0x2851 132 fun x => { x with injInterval := iv }
      (s.txExpert n 0x2851 133 fun x => { x with injMarkers := mc }).mark (.lineTx n) 0x2051)

/-- Row ERROR_INJECT_EXPERT. -/
def execErrorInjectExpert (t : Instant) (q : QId) (s : State) : Out := .next (runCmd t q 0x2851 false cmdErrorInjectExpert s)

/-! ### TX_DISABLE (R173) -/

/-- TX_DISABLE high squelches every line transmitter (R131, R171, R173). -/
def execTxDisableAssert (t : Instant) (s : State) : Out :=
  let s := s.advanceTo t
  .next ({ s with sys := { s.sys with txDisable := true } }.forEach lineRefs
    fun r s => s.setSquelch r fun q => { q with txDisable := true })

/-- TX_DISABLE low: the row falls when it has been low for 1 µs, and its squelch releases (R171). -/
def execTxDisableRelease (t : Instant) (s : State) : Out :=
  let s := s.advanceTo t
  .next ({ s with sys := { s.sys with txDisable := false } }.forEach lineRefs
    fun r s => s.setSquelch r fun q => { q with txDisable := false })

end Sys2Proof.Machine
end

