-- ==== Sys2Proof/Machine/Acquire.lean ====
section
/-! DEFINITION. Line lane acquisition: the events that the front end, the converter, timing recovery and the equaliser
raise, the timeouts of the receive states, and the changes of stage. -/
namespace Sys2Proof.Machine

/-- The measured RMS lies more than 0.5 dB above a target: 20·log10(rms / target) > 0.5, so rms⁴⁰ > 10·target⁴⁰.  The
RMS is in 1/256 LSB (R111). -/
def rmsHigh (target rms : Nat) : Bool := decide (10 * (256 * target) ^ 40 < rms ^ 40)

/-- The measured RMS lies more than 0.5 dB below a target (R111). -/
def rmsLow (target rms : Nat) : Bool := decide (10 * rms ^ 40 < (256 * target) ^ 40)

/-- GAIN_LOOP_STEP: at a marker boundary the gain loop, unless pinned, steps by one toward the target and stops at the
ends, once per boundary; the superframes inside the dead band are counted for SIGNAL (R111, R126, R127). -/
def execGainLoopStep (t : Instant) (n : Fin 8) (rms : Nat) (s : State) : Out :=
  let s := s.advanceTo t
  let l := s.lanes[n]
  if l.receiving && s.atMarker (.line n) && decide (l.acq.gainAt ≠ some s.now) then
    let p := s.active.lineRx[n]
    let up := rmsLow p.targetRms rms
    let down := rmsHigh p.targetRms rms
    let quiet := if up || down then 0 else l.acq.gainQuiet + 1
    let eq : LaneEq :=
      if s.active.pinned (.lineRx n) 0x2811 128 then { l.eq with gainAtLimit := false }
      else if up then
        if l.eq.gain < 72 then { l.eq with gain := l.eq.gain + 1, gainAtLimit := false } else { l.eq with gainAtLimit := true }
      else if down then
        if 0 < l.eq.gain then { l.eq with gain := l.eq.gain - 1, gainAtLimit := false } else { l.eq with gainAtLimit := true }
      else { l.eq with gainAtLimit := false }
    .next (s.modLane (.line n) fun l => { l with acq := { l.acq with gainQuiet := quiet, gainAt := some s.now }, eq })
  else .next s

/-- The background result of a parked sub-converter, offset in 1/16 LSB, gain in 2⁻¹³ and skew in 2⁻¹³ UI, lies inside
its bounds (R115). -/
def parkedOk (r : Int × Int × Int) : Bool :=
  decide (-128 ≤ r.1 ∧ r.1 ≤ 128 ∧ -327 ≤ r.2.1 ∧ r.2.1 ≤ 327 ∧ -409 ≤ r.2.2 ∧ r.2.2 ≤ 409)

/-- The parked index and direction after a move (R114). -/
def nextParked (parked : Nat) (ascending : Bool) : Nat × Bool :=
  let up := if parked = 0 then true else if 128 ≤ parked then false else ascending
  (if up then parked + 1 else parked - 1, up)

/-- A calibration result enters the table of its sub-converter (R115). -/
def LaneCal.take (c : LaneCal) (r : Int × Int × Int) : LaneCal :=
  if h : c.parked < 129 then
    { c with adcOffset := c.adcOffset.set c.parked r.1, adcGain := c.adcGain.set c.parked r.2.1,
             adcSkew := c.adcSkew.set c.parked r.2.2, adcRejected := c.adcRejected.set c.parked false }
  else c

/-- A calibration result of the parked sub-converter is rejected (R115). -/
def LaneCal.reject (c : LaneCal) : LaneCal :=
  if h : c.parked < 129 then
    { c with adcRejected := c.adcRejected.set c.parked true, rejections := c.rejections + 1, retired := decide (3 ≤ c.rejections + 1) }
  else c

/-- ADC_ROTATION_MOVE: at the first marker boundary 8 ms after the last one the parked sub-converter's result is judged; inside the
bounds the parked index moves, outside it stays, and the third rejection in a row retires it (R114 to R116, R126, R146, R150); what
samples in the superframe before is `symbolConverters`.  DESIGN CHOICE (log 134): the report of a retired sub-converter to periodic self-test has no effect there, for none is given. -/
def execAdcRotationMove (t : Instant) (n : Fin 8) (result : Int × Int × Int) (s : State) : Out :=
  let s := s.advanceTo t
  let l := s.lanes[n]
  let scanning := s.scanning n
  if l.receiving && !l.cal.retired && !scanning && decide (l.cal.movedAt + msec 8 ≤ s.now) && s.atMarker (.line n) then
    if parkedOk result then
      let m := nextParked l.cal.parked l.cal.ascending
      .next (s.modLane (.line n) fun l =>
        { l with cal := { l.cal.take result with parked := m.1, ascending := m.2, rejections := 0, movedAt := s.now } })
    else
      let c := l.cal.reject
      let s1 := s.modLane (.line n) fun l => { l with cal := { c with movedAt := s.now } }
      .next (s1.logEntry 0x0301 0 (flag c.retired) (Block.lineRx n).id [pack [(n.val, 8), (l.cal.parked, 8), (flag c.retired, 1)]])
  else .next s

/-- MU_SHIFT in force (R122).  DESIGN CHOICE (log 135): a lane in RETRAIN, of which the rule does not speak, uses 10. -/
def State.muInForce (s : State) (n : Fin 8) : Nat :=
  if s.active.pinned (.lineRx n) 0x2810 129 then s.active.lineRx[n].mu
  else if s.active.lineRx[n].adapt = 1 ∨ s.lanes[n].acq.state = .locked then 16 else 10

/-- One block LMS update of a value: leakage, step, and the range of its field (R122). -/
def lmsStep (mu leak lo hi : Nat) (w sum : Int) : Int :=
  let leaked := if leak = 0 then 0 else roundDiv w (2 ^ leak)
  clampInt (-(lo : Int)) hi (w - leaked + roundDiv sum (2 ^ mu))

/-- A value that keeps its sign: the cursor tap never changes it (R122). -/
def keepSign (old new : Int) : Int := if 0 < old then max 1 new else if old < 0 then min (-1) new else new

/-- LMS_UPDATE: every unpinned tap moves by its correlation sum, in units of its own LSB, and with TARGET_ADAPT so do H1
and H2; a frozen or resting receiver moves nothing (R50, R122, R123). -/
def execLmsUpdate (t : Instant) (n : Fin 8) (sums : List Int) (h1Sum h2Sum : Int) (s : State) : Out :=
  let s := s.advanceTo t
  let l := s.lanes[n]
  let p := s.active.lineRx[n]
  if (l.acq.state = .cdrLock ∨ l.acq.state = .frameLock ∨ l.acq.state = .negotiate ∨ l.acq.state = .step ∨ l.acq.state = .locked ∨
      l.acq.state = .retrain) ∧ p.adapt ≠ 2 then
    let mu := s.muInForce n
    let pin := s.active.pinned (.lineRx n) 0x2810
    let tap := fun (j : Fin 96) (w : Int) =>
      if pin j.val then w
      else
        let w' := lmsStep mu p.leak 2048 2047 w (sums.getD j.val 0)
        if j.val = l.eq.cursor then keepSign w w' else w'
    let h := fun (el : Nat) (w sum : Int) => if p.targetAdapt && !pin el then lmsStep mu p.leak 512 511 w sum else w
    .next (s.modLane (.line n) fun l => { l with eq := { l.eq with
      taps := vmap l.eq.taps tap, h1 := h 131 l.eq.h1 h1Sum, h2 := h 132 l.eq.h2 h2Sum } })
  else .next s

/-- RETRAIN is over: timing recovery has locked, the markers are found and the last window was below the threshold
(R138). -/
def State.tryRestored (s : State) (r : LaneRef) : State :=
  let a := (s.lane r).acq
  if a.state = .retrain ∧ a.cdrLock = true ∧ a.relocked = true ∧ a.winOk = true then s.toState r .locked a.stage 0x01 else s

/-- The timing-recovery loop of a lane runs over the island cycles given (R118). -/
def State.trackClock (s : State) (r : LaneRef) (cycles : List (Int × Nat)) : State :=
  let g := s.gainsInForce r
  s.modLane r fun l => { l with eq := l.eq.track g.1 g.2 cycles }

/-- With CDR lock and the equaliser converged, CDR_LOCK moves to FRAME_LOCK at the same stage (R125, R127). -/
def State.tryFrameLock (s : State) (r : LaneRef) : State :=
  let a := (s.lane r).acq
  if a.state = .cdrLock ∧ a.cdrLock = true ∧ a.converged = true then s.toState r .frameLock a.stage 0x01 else s

/-- CDR_LOCK_DECLARE: the loop has run over the 4,096 cycles given, and the two conditions have held in all of them (R118, R127, R138,
R167). -/
def execCdrLockDeclare (t : Instant) (of : LaneRef × List (Int × Nat)) (s : State) : Out :=
  let r := of.1
  let cycles := of.2
  let s := s.advanceTo t
  let g := s.gainsInForce r
  if (s.lane r).receiving ∧ (s.lane r).acq.state ≠ .dark then
    let s1 := s.trackClock r cycles
    if (s.lane r).eq.locks g.1 g.2 cycles then
      .next ((((s1.modLane r fun l => { l with acq := { l.acq with cdrLock := true } }).followClock r).tryRestored r).tryFrameLock r)
    else .next s1
  else .next s

/-- CDR_LOCK_LOSS: the mean square has been above its bound in the 4,096 cycles given; a lane in CDR_LOCK goes back to SIGNAL at stage A; which LAST_EXIT that carries is not stated, and is
a free value (R118, R127, R133, R167). -/
def execCdrLockLoss (t : Instant) (of : LaneRef × List (Int × Nat)) (s : State) : Out :=
  let r := of.1
  let cycles := of.2
  let s := s.advanceTo t
  let l := s.lane r
  if l.receiving ∧ l.acq.cdrLock ∧ cdrLost cycles then
    let (c, s0) := (s.trackClock r cycles).draw
    let s1 := s0.modLane r fun l => { l with acq := { l.acq with cdrLock := false, relocked := false } }
    let s2 := if l.acq.state = .cdrLock then s1.toState r .signal (s.firstStage r) (Config.policy 0x5118 c % 256) else s1
    .next (s2.followClock r)
  else .next s

/-- Which LOS or qualification rule of the optical monitor a line lane's latest reading meets: none without a reading
(R137). -/
def State.opticalBelow (s : State) (n : Fin 8) (level : Nat) : Bool :=
  match s.monitor n with
  | g :: _ => decide (optPower s.active.lineRx[n] g < 10 * level)
  | [] => false

/-- The islands that a lane receives with run on their clocks: its own, and a line lane's engine (R21, R30). -/
def State.laneRuns (s : State) (r : LaneRef) : Bool :=
  s.onIslandClock r.island && match r with | .line n => s.engineRuns s.lanes[n].eq.engine | .relay _ => true

/-- SIGNAL_QUALIFIED: signal detect has held for 100 µs and the monitor, when assigned, reads at or above LOS_DEASSERT
(R127, R137).  `of` is the lane and whether HOSTREF is present: a relay lane returns to it here (R223).  A lane whose island or engine
still runs on FIRC carries nothing (R21). -/
def execSignalQualified (t : Instant) (of : LaneRef × Bool) (s : State) : Out :=
  let r := of.1
  let hostref := of.2
  let s := s.advanceTo t
  let low := match r with | .line n => s.opticalBelow n s.active.lineRx[n].losDeassert | .relay _ => false
  if (s.lane r).acq.state = .dark ∧ low = false ∧ s.laneRuns r then
    let s1 := s.modLane r fun l => { l with acq := { l.acq with sigDetect := true } }
    .next ((match r with | .line _ => s1 | .relay n => s1.hostrefBack n hostref).toState r .signal (s.firstStage r) 0x01)
  else .next s

/-- A lane loses its signal: it enters DARK (R127, R137). -/
def State.loseSignal (s : State) (r : LaneRef) : State :=
  let st := (s.lane r).acq.state
  let s1 := s.modLane r fun l => { l with acq := { l.acq with sigDetect := false } }
  if st = .dark ∨ st = .disabled ∨ st = .still ∨ st = .calibrating then s1
  else (s1.toState r .dark (s.firstStage r) 0x03).followClock r

/-- LOSS_OF_SIGNAL: signal detect has been low for 1 µs, or (`optical`) the monitor reads below LOS_ASSERT (R137). -/
def execLossOfSignal (t : Instant) (r : LaneRef) (optical : Bool) (s : State) : Out :=
  let s := s.advanceTo t
  let holds := match r with | .line n => !optical || s.opticalBelow n s.active.lineRx[n].losAssert | .relay _ => !optical
  if holds then .next (s.loseSignal r) else .next s

/-- CURSOR in force: the active value, and the reset position for AUTO (R121, R124). -/
def State.cursorInForce (s : State) (n : Fin 8) : Nat := if s.active.lineRx[n].cursor = 0 then 12 else s.active.lineRx[n].cursor

/-- The equaliser as a bring-up at stage A starts it: reset taps about the cursor, pinned values as written (R121,
R125). -/
def State.startEq (s : State) (n : Fin 8) (e : LaneEq) : LaneEq :=
  let p := s.active.lineRx[n]
  let c := s.cursorInForce n
  { e with cursor := c, h1 := p.h1, h2 := p.h2
           taps := vmap p.taps fun j w => if s.active.pinned (.lineRx n) 0x2810 j.val then w else if j.val = c then 0x400 else 0 }

/-- GAIN_SETTLED: 16 consecutive superframes within the dead band (R127).  A relay lane's own gain settling is the
receiver's. -/
def execGainSettled (t : Instant) (r : LaneRef) (s : State) : Out :=
  let s := s.advanceTo t
  let a := (s.lane r).acq
  match r with
  | .line n =>
    if a.state = .signal ∧ 16 ≤ a.gainQuiet then
      .next ((s.modLane r fun l => { l with eq := s.startEq n l.eq }).toState r .cdrLock a.stage 0x01)
    else .next s
  | .relay _ => if a.state = .signal then .next (s.toState r .cdrLock a.stage 0x01) else .next s

/-- EQUALISER_CONVERGED: in CDR_LOCK the equaliser has converged at the stage; with CDR lock, there or later, the lane moves to
FRAME_LOCK (R125, R127). -/
def execEqualiserConverged (t : Instant) (r : LaneRef) (s : State) : Out :=
  let s := s.advanceTo t
  if (s.lane r).acq.state = .cdrLock then
    .next ((s.modLane r fun l => { l with acq := { l.acq with converged := true } }).tryFrameLock r)
  else .next s

/-- MISSING_MARKER_LOCK_LOSS: eight consecutive missing markers, or the loss rule of IEEE 802.3dj in S200 (R127, R135,
R144). -/
def execMissingMarkerLockLoss (t : Instant) (r : LaneRef) (s : State) : Out :=
  let s := s.advanceTo t
  let l := s.lane r
  let limit := if s.isS200 r then max 1 Config.s200LossMarkers else 8
  if limit ≤ l.rx.missing then
    if l.acq.state = .locked then .next (s.lockLoss r 0x04)
    else if l.acq.state = .negotiate ∨ l.acq.state = .step then .next (s.toState r .cdrLock l.acq.stage 0x04)
    else .next s
  else .next s

/-- Both ends report a good window and tuning complete: NEGOTIATE at stage C is over (R127, R159). -/
def State.tryLocked (s : State) (r : LaneRef) : State :=
  let l := s.lane r
  if l.acq.state = .negotiate ∧ l.acq.stage = .c ∧ l.acq.winOk = true ∧ l.rx.farInnerOk = true ∧ l.tx.tuneDone = true ∧
      l.rx.farTuneDone = true then s.toState r .locked .c 0x01
  else s

/-- A 48-bit counter that saturates. -/
def add48 (a b : Nat) : Nat := satAdd 48 a b

/-- Slice counters with codewords counted by their number of symbol errors, bin 16 the decoder failures (Table 5.12). -/
def SliceCnt.add (c : SliceCnt) (bins : List Nat) : SliceCnt :=
  { c with
    codewords := add48 c.codewords bins.sum
    corrected := add48 c.corrected (((bins.take 16).zipIdx.map fun p => p.1 * p.2).sum)
    uncorrectable := add48 c.uncorrectable (bins.getD 16 0)
    hist := vmap c.hist fun i x => satAdd 32 x (bins.getD i.val 0) }

/-- The host supplies the flow of a slice: its host lanes are ACTIVE (R216, R231). -/
def State.hostSupplies (s : State) (n : Fin 8) : Bool := (s.hostLanesOf n).all fun h => decide (s.hosts[h].state = .active)

/-- The threshold of a window: FAIL_THRESHOLD of a line lane, 64 of a relay lane (R136, R244). -/
def State.failLimit (s : State) : LaneRef → Nat
  | .line n => s.active.lineRx[n].failThreshold
  | .relay _ => 64

/-- The failures of the window that ends now, none while its 65,536 inner codewords, 64 superframes of N425, have not all been received
(R136, R144, R213, R244). -/
def State.windowFails (s : State) (r : LaneRef) : Option Nat :=
  let a := (s.lane r).acq
  if 65536 ≤ a.winFrames * a.stage.words then some a.winFails else none

/-- INNER_FAIL_WINDOW_END: at stage C, or in S200, a window of 64 superframes ends; its failures are judged, and the
lane loses lock, completes NEGOTIATE or is restored (R127, R136, R138, R144, R244). -/
def execInnerFailWindowEnd (t : Instant) (r : LaneRef) (s : State) : Out :=
  let s := s.advanceTo t
  let a := (s.lane r).acq
  if s.counting r then
    match s.windowFails r with
    | none => .next s
    | some fails =>
    let bad := decide (s.failLimit r ≠ 0 ∧ s.failLimit r ≤ fails)
    let s1 := s.modLane r fun l => { l with acq := { l.acq with innerOk := !bad, winOk := !bad, winFails := 0, winFrames := 0 } }
    if a.state = .locked then .next (if bad then s1.lockLoss r 0x05 else s1)
    else if a.state = .negotiate then .next (s1.tryLocked r)
    else .next (s1.tryRestored r)
  else .next s

/-! ### Timeouts (R128, R244) -/

/-- The timeout of a receive state and the state it leads to (Table 3.8, R144, R244). -/
def stateTimeout (r : LaneRef) (st : LaneState) (stage : Stage) : Option (Nat × LaneState) :=
  match st with
  | .signal => some (msec 10, .dark)
  | .cdrLock => some (match r, stage with
      | .line _, .a => msec 40 | .line _, .b => msec 100 | .line _, _ => msec 400
      | .relay _, .a => msec 20 | .relay _, .b => msec 40 | .relay _, _ => msec 100, .signal)
  | .frameLock => some (msec 2, .cdrLock)
  | .negotiate => some (match r, stage with
      | _, .a => msec 250 | _, .b => msec 50 | .line _, _ => msec 800 | .relay _, _ => msec 50, .signal)
  | .step => some (msec 5, .signal)
  | .retrain => some (msec 2, .signal)
  | _ => none

/-- LANE_STATE_TIMEOUT: RETRIES is incremented and the lane moves as the table gives; a lane holding for its own
transmitter has its timeout stopped (R128, R131, R139). -/
def execLaneStateTimeout (t : Instant) (r : LaneRef) (s : State) : Out :=
  let s := s.advanceTo t
  let a := (s.lane r).acq
  match stateTimeout r a.state a.stage with
  | none => .next s
  | some (d, st) =>
    if s.pastLane r a.stage (a.timer + d) ∧ a.holding = false then
      let s1 := s.modLane r fun l => { l with acq := { l.acq with retries := min (l.acq.retries + 1) 255 } }
      if a.state = .retrain then .next (s1.restartLane r 0x02)
      else .next (s1.toState r st (if st = .cdrLock then a.stage else s.firstStage r) 0x02)
    else .next s

/-! ### Changes of stage (R130, R139, R168, R192) -/

/-- STAGE_SWITCH: at the marker closing superframe S − 1 the transmitter (`tx`) or the receiver changes stage (R34, R130, R168,
R192). -/
def execStageSwitch (t : Instant) (r : LaneRef) (tx : Bool) (s : State) : Out :=
  let s := s.advanceTo t
  let l := s.lane r
  match l.tx.step with
  | some g =>
    if l.acq.state = .step ∧ g.agreed = true then
      if tx then
        if g.txDone = false ∧ l.tx.count = g.txAt ∧ l.tx.markAt = some s.now then
          .next ((s.modLane r fun l => { l with tx := { l.tx with stage := g.target, step := some { g with txDone := true } } }).alignTx r)
        else .next s
      else if g.rxDone = false ∧ g.rxAt = some (nextCount l.rx.count) ∧ l.rx.markAt = some s.now then
        .next (s.modLane r fun l => { l with tx := { l.tx with step := some { g with rxDone := true } } })
      else .next s
    else .next s
  | none => .next s

/-- The taps carried to a new stage: firmware resamples them in a way the manual does not give, so every unpinned tap
takes a free value (R125). -/
def State.carryTaps (s : State) (n : Fin 8) : State :=
  { s with free := s.free + 1 }.modLane (.line n) fun l => { l with eq := { l.eq with
    taps := vmap l.eq.taps fun j w =>
      if s.active.pinned (.lineRx n) 0x2810 j.val then w else toSigned 12 (Config.policy (0x512500 + j.val) s.free) } }

/-- STAGE_CLOCK_READY: the clock of the new stage is ready and STEP moves to CDR_LOCK at that stage (R125, R127). -/
def execStageClockReady (t : Instant) (r : LaneRef) (s : State) : Out :=
  let s := s.advanceTo t
  let l := s.lane r
  match l.tx.step with
  | some g =>
    if l.acq.state = .step ∧ g.txDone = true ∧ g.rxDone = true then
      let s1 := match r with | .line n => s.carryTaps n | .relay _ => s
      .next ((s1.modLane r fun l => { l with acq := { l.acq with cdrLock := false } }).toState r .cdrLock g.target 0x01)
    else .next s
  | none => .next s

/-- A transmitter moves to stage A: it returns to training, and an S_T announced and not reached is no longer due (R130, R196). -/
def State.txToFirst (s : State) (r : LaneRef) : State :=
  (s.modLane r fun l => { l with tx := { l.tx with restart := 0, stage := s.firstStage r, fallback := false, traffic := false, st := none } }).alignTx r

/-- RESTART_END: RESTART has been sent for 64 superframes, and at the marker that closes the last of them the transmitter moves to
stage A (R139). -/
def execRestartEnd (t : Instant) (r : LaneRef) (s : State) : Out :=
  let s := s.advanceTo t
  if (s.lane r).tx.restart = 1 ∧ (s.lane r).tx.markAt = some s.now then .next (s.txToFirst r) else .next s

/-- TX_STAGE_FALLBACK: the transmitter moves to stage A at a superframe boundary and so returns to training (R130,
R196). -/
def execTxStageFallback (t : Instant) (r : LaneRef) (s : State) : Out :=
  let s := s.advanceTo t
  if (s.lane r).tx.fallback = true ∧ (s.lane r).tx.restart = 0 ∧ (s.lane r).tx.markAt = some s.now then .next (s.txToFirst r) else .next s

/-- TX_TUNING_TIMEOUT: 400 ms into NEGOTIATE at stage C tuning ends with the taps then in force, and this end's receiver records far-end
tuning as complete (R159). -/
def execTxTuningTimeout (t : Instant) (n : Fin 8) (s : State) : Out :=
  let s := s.advanceTo t
  let l := s.lanes[n]
  match l.tx.tuneSince with
  | some c =>
    if l.acq.state = .negotiate ∧ l.acq.stage = .c ∧ s.pastLane (.line n) .c (c + msec 400) then
      .next ((s.modLane (.line n) fun l => { l with tx := { l.tx with tuneSince := none, tuneDone := true, tuned := true } }).tryLocked (.line n))
    else .next s
  | none => .next s

/-! ### Traffic (R196, R197, R239) -/

/-- TRAFFIC_BEGIN: from superframe S_T the transmitter's payload carries the slice's flow (R196). -/
def execTrafficBegin (t : Instant) (n : Fin 8) (s : State) : Out :=
  let s := s.advanceTo t
  let tx := s.lanes[n].tx
  if tx.st = some tx.count ∧ tx.stage = .c then
    .next (s.modLane (.line n) fun l => { l with tx := { l.tx with traffic := true, st := none } })
  else .next s

/-- REGROUP ends toward the host where the lanes of the port are locked, aligned and deskewed in the new composition
(R241). -/
def State.regroupClear (s : State) (lead : Fin 8) : State :=
  if s.ports[lead].hostAligned ∧ s.skewed lead = false ∧ (slicesOf s.grouping lead).all (fun n => s.lanes[n].rx.forwarding) then
    s.forEach (slicesOf s.grouping lead) fun n s => s.modPort n fun p => { p with regHost := false }
  else s

/-- RECEIVER_FORWARD_START: at S_T, or at a later multiple of 5, a LOCKED receiver starts to forward, and after a RETRAIN at stage C it
resumes at any multiple of 5; the port is deskewed with the skew then found (R197, R239). -/
def execReceiverForwardStart (t : Instant) (n : Fin 8) (s : State) : Out :=
  let s := s.advanceTo t
  let l := s.lanes[n]
  let cur := nextCount l.rx.count
  let due : Bool := match l.rx.farSt with
    | some st => decide (cur % 5 = 0) && (l.rx.begun || l.rx.stReached || begunBy st cur)
    | none => false
  if l.acq.state = .locked ∧ l.rx.forwarding = false ∧ (due = true ∨ l.acq.stage = .s200) then
    let lead := leadOf s.grouping n
    let s1 := (s.modLane (.line n) fun l => { l with rx := { l.rx with forwarding := true, begun := true, buf := [] } }).forEach [lead, n] fun m s =>
      s.modPort m fun p => { p with overHost := false, sentAt := s.now, heldHost := [] }
    .next ((s1.regroupClear lead).judgePorts)
  else .next s

/-! ### Reports (R194) -/

/-- The lane of a port on which its skew reports leave: the lowest-numbered LOCKED one, or the lead's with none LOCKED (R194). -/
def State.reporter (s : State) (n : Fin 8) : Fin 8 :=
  let lead := leadOf s.grouping n
  ((slicesOf s.grouping lead).find? fun m => decide (s.lanes[m].acq.state = .locked)).getD lead

/-- The body of the PD_REPORT that carries the mean slicer errors of the patterns from 7·i on (Table 5.7). -/
def pdBody (errors : List Int) (i : Nat) : Nat :=
  let err := fun k : Nat => ofSigned 8 (if k < 64 then errors.getD k 0 else 0)
  pack [(err (7 * i + 6), 8), (err (7 * i + 5), 8), (err (7 * i + 4), 8), (err (7 * i + 3), 8), (err (7 * i + 2), 8),
    (err (7 * i + 1), 8), (err (7 * i), 8), (0, 2), (7 * i, 6)]

/-- The body of a skew report for four lanes from `base` on: 0x8000 for a lane outside the port or not LOCKED (Table 5.7). -/
def State.skewBody (s : State) (n : Fin 8) (skews : List Int) (base : Nat) : Nat :=
  let diff := fun m : Nat =>
    match idx? 8 m with
    | some k => if (slicesOf s.grouping (leadOf s.grouping n)).contains k ∧ s.lanes[k].acq.state = .locked then ofSigned 16 (skews.getD m 0) else 0x8000
    | none => 0x8000
  pack [(diff (base + 3), 16), (diff (base + 2), 16), (diff (base + 1), 16), (diff base, 16)]

/-- A lane that sends PD_REPORT: LOCKED at stage C (R161, R194). -/
def State.pdReports (s : State) (n : Fin 8) : Bool := decide (s.lanes[n].acq.state = .locked ∧ s.lanes[n].acq.stage = .c)

/-- A lane that sends the skew reports of its port, which has more than one slice (R194). -/
def State.skewReports (s : State) (n : Fin 8) : Bool :=
  decide (1 < (slicesOf s.grouping (leadOf s.grouping n)).length ∧ s.reporter n = n)

/-- LANE_REPORT_TIMER: once per second a LOCKED lane queues the PD_REPORT series, when the far end adapts, and one lane of each port of
more than one slice the port's skew reports (R161, R194).  `errors` are the mean slicer errors of the 64 patterns in 1/256
of the level spacing, `skews` the arrival differences of the eight lanes in 1/64 UI. -/
def execLaneReportTimer (t : Instant) (n : Fin 8) (farAdaptive : Bool) (errors skews : List Int) (s : State) : Out :=
  let s := s.advanceTo t
  let l := s.lanes[n]
  if (s.pdReports n = true ∨ s.skewReports n = true) ∧ l.tx.reportAt + secs 1 ≤ s.now then
    let tx1 := if farAdaptive ∧ s.pdReports n then (List.range 10).foldl (fun tx i => LaneTx.send tx 6 (pdBody errors i)) l.tx else l.tx
    let tx2 := if s.skewReports n then (tx1.send 7 (s.skewBody n skews 0)).send 8 (s.skewBody n skews 4) else tx1
    .next (s.modLane (.line n) fun l => { l with tx := { tx2 with reportAt := s.now } })
  else .next s

end Sys2Proof.Machine
end

