-- ==== Sys2Proof/Machine/RillFrame.lean ====
section
/-! DEFINITION. Rill frames as bytes, and the sending side of a link. -/
namespace Sys2Proof.Machine

/-- The three header words of a frame (Table 9.3). -/
def Frame.header (f : Frame) : List Nat :=
  [pack [(f.ftype, 8), (f.lseq, 8), (f.hops, 3), (0, 1), (f.hopPtr, 3), (flag f.up, 1), (flag f.bcast, 1), (flag f.resync, 1)],
   f.route % 2 ^ 24, pack [(f.wid, 12), (flag f.idValid, 1), (0, 3), (f.xtag, 16)]]

/-- A frame as bytes: header, body and CRC-32C (R330). -/
def Frame.bytes (f : Frame) : List Byte :=
  let b := wordsLe f.header ++ f.body
  b ++ leBytes 4 (crc32c b)

/-- An ACK frame as bytes (R333). -/
def ackBytes (seq : Nat) (busy : Bool) : List Byte :=
  let b := wordsLe [pack [(0, 8), (seq, 8), (flag busy, 1)]]
  b ++ leBytes 4 (crc32c b)

/-- The frame that bytes spell, its CRC and length judged elsewhere (Table 9.3). -/
def Frame.ofBytes (bs : List Byte) : Frame :=
  let w0 := wordAt bs 0
  let w1 := wordAt bs 1
  let w2 := wordAt bs 2
  { ftype := bits w0 0 8, lseq := bits w0 8 8, hops := bits w0 16 3, hopPtr := bits w0 20 3, up := bit w0 23
    bcast := bit w0 24, resync := bit w0 25, route := bits w1 0 24, wid := bits w2 0 12, idValid := bit w2 12
    xtag := bits w2 16 16, body := (bs.take (bs.length - 4)).drop 12 }

/-- The CRC-32C at the end of a frame matches (R69, R330). -/
def crcGood (bs : List Byte) : Bool :=
  decide (ofLe (bs.drop (bs.length - 4)) = crc32c (bs.take (bs.length - 4)))

/-- The link's next frame begins to leave: a waiting ACK first, then frames of the window to be sent again, then the
queue while the window has room (R333 to R336). -/
def Link.startFrame (l : Link) (now : Instant) : Link :=
  match l.ack with
  | some (seq, busy) => { l with ack := none, txBytes := ackBytes seq busy, txSof := true, txAck := true }
  | none =>
    match l.window[l.sendIdx]? with
    | some (f, _) => if l.busyAt.isSome then l else { l with txBytes := f.bytes, txSof := true, txAck := false }
    | none =>
      match l.queue with
      | f :: fs =>
        if l.window.length < 4 then
          let f := { f with lseq := l.txSeq, resync := l.resync }
          { l with queue := fs, window := l.window ++ [(f, now)], sendIdx := l.window.length, txSeq := (l.txSeq + 1) % 256
                   resync := false, txBytes := f.bytes, txSof := true, txAck := false }
        else l
      | [] => l

/-- The last byte of the frame being sent has left: its timer starts (R334). -/
def Link.frameLeft (l : Link) (now : Instant) : Link :=
  if l.txAck then { l with txAck := false }
  else { l with
    window := l.window.zipIdx.map fun p => if p.2 = l.sendIdx then (p.1.1, now) else p.1
    sendIdx := if l.resend then 0 else min (l.sendIdx + 1) l.window.length
    resend := false }

/-- The payload of a Rill data marker and the link after it (Table 5.8): up to 11 bytes of one frame. -/
def Link.dataPayload (l : Link) (now : Instant) : Nat × Link :=
  let l := if l.txBytes = [] then l.startFrame now else l
  let out := l.txBytes.take 11
  let rest := l.txBytes.drop 11
  let n := out.length
  let bytes := (out.map BitVec.toNat).foldl (fun v b => v * 256 + b) 0 * 256 ^ (11 - n)
  let payload := pack [(bytes, 88), (0, 2), (flag (decide (n ≠ 0 ∧ rest = [])), 1), (flag (l.txSof && decide (n ≠ 0)), 1), (n, 4)]
  let l := { l with txBytes := rest, txSof := false }
  (payload, if n ≠ 0 ∧ rest = [] then l.frameLeft now else l)

/-- The valid bytes of a received Rill data payload. -/
def dataBytes (p : Nat) : List Byte :=
  (List.range (bits p 92 4)).map fun i => BitVec.ofNat 8 (bits p (80 - 8 * i) 8)

/-- The bytes of a received Rill data marker enter the frame being received on a lane: SOF starts a frame, EOF ends it
(R195, R327). -/
def Link.takeData (l : Link) (lane p : Nat) : Link :=
  let bs := dataBytes p
  if bs = [] then l
  else
    let cur := if bit p 91 then some bs else if l.rxLane = some lane then l.rxBytes.map (· ++ bs) else none
    match cur with
    | none => l
    | some c => if bit p 90 then { l with rxBytes := none, rxLane := none, rxFrame := some c } else { l with rxBytes := some c, rxLane := some lane }

end Sys2Proof.Machine
end

