-- ==== Sys2Proof/Machine/TimeLane.lean ====
section
/-! DEFINITION. The time-transfer side of one lane: fixed delays, the exchange of departure and arrival stamps, offset
samples, and what a servo interval's end makes of them. -/
namespace Sys2Proof.Machine

/-- The tables that hold a lane's fixed delays are pinned by the expert XFER_CAL (Table 8.6). -/
def State.intPinned (s : State) (n : Fin 8) : Bool := s.active.pinned (.lineRx n) 0x4831 128

/-- TX_INT in force, 2⁻¹⁶ ns (R305, R308). -/
def State.txInt (s : State) (n : Fin 8) : Int := if s.intPinned n then s.active.lineRx[n].txInt else s.lanes[n].time.txInt

/-- RX_INT in force (R305, R308). -/
def State.rxInt (s : State) (n : Fin 8) : Int := if s.intPinned n then s.active.lineRx[n].rxInt else s.lanes[n].time.rxInt

/-- TX_FIBRE in force (R290, R292). -/
def State.txFibre (s : State) : LaneRef → Int
  | .line n => s.txInt n + s.active.lineRx[n].txMod
  | .relay _ => 0

/-- RX_FIBRE in force (R290, R292). -/
def State.rxFibre (s : State) : LaneRef → Int
  | .line n => s.active.lineRx[n].rxMod + s.rxInt n
  | .relay _ => 0

/-- ASYM in force (R292, R310). -/
def State.asymOf (s : State) : LaneRef → Int
  | .line n => if s.active.pinned (.lineRx n) 0x4832 128 then s.active.lineRx[n].asym else s.lanes[n].time.asym
  | .relay n => s.active.host[n].asym

/-- A relay or line lane is in the loop of a committed change (R246). -/
def State.looped (s : State) : LaneRef → Bool
  | .line n => s.lineLooped n
  | .relay n => s.hostLooped n

/-- A lane belongs to the servo's group (Table 7.6). -/
def State.inGroup (s : State) : LaneRef → Bool
  | .line n => decide (s.active.servo.source = .line) && !s.active.servo.relay && bit s.active.servo.laneMask n.val
  | .relay n => decide (s.active.servo.source = .line) && s.active.servo.relay && decide (relayPort n = s.active.servo.relayPort)

/-- The lanes of the servo's group, lowest-numbered first. -/
def State.servoLanes (s : State) : List LaneRef :=
  (lineRefs ++ (List.finRange 16).map LaneRef.relay).filter s.inGroup

/-- The group's peer: the serial number held by the most lanes, ties going to the lowest-numbered lane (R302). -/
def State.groupPeer (s : State) : Option Nat :=
  let held := s.servoLanes.filterMap fun r => (s.lane r).rx.peer
  (held.foldl (fun best x =>
    let c := held.count x
    match best with
    | none => some (c, x)
    | some (c', x') => if c' < c then some (c, x) else some (c', x')) (none : Option (Nat × Nat))).map Prod.snd

/-- None of the conditions 0x02 to 0x04 of Table 8.2 holds: samples are taken (R299). -/
def State.eligible (s : State) (r : LaneRef) : Bool :=
  let l := s.lane r
  !s.isS200 r && decide (l.acq.state = .locked) && !l.rx.laneOrder && !s.looped r && l.time.xfer.isNone && !l.time.xferSettling

/-- A lane's L_SUM lies within the last 1 ms (R299, R300). -/
def State.roundTrip (s : State) (r : LaneRef) : Option Int :=
  match (s.lane r).time.lSum with
  | some (x, _) => if s.now ≤ (s.lane r).time.lSumAt + msec 1 then some x else none
  | none => none

/-- The status of a lane for the combination, OUTLIER apart (Table 8.2). -/
def State.laneStatus (s : State) (r : LaneRef) : Nat :=
  let l := s.lane r
  if !s.inGroup r then 0x01
  else if s.isS200 r then 0x02
  else if l.time.xfer.isSome || l.time.xferSettling then 0x04
  else if l.acq.state ≠ .locked ∨ l.rx.laneOrder = true then 0x03
  else if s.looped r then 0x04
  else if (s.roundTrip r).isNone then 0x05
  else if l.time.samples = [] then 0x06
  else if l.rx.peer = none ∨ l.rx.peer ≠ s.groupPeer then 0x07
  else 0x00

/-- The exact mean of an interval's doubled samples, in 2⁻¹⁶ ns (R301). -/
def samplesMean (xs : List Int) : Option Rat := if xs = [] then none else some ((xs.sum : Rat) / ((2 * xs.length : Nat) : Rat))

/-- The RMS of an interval's samples about their mean, in 10 fs, saturating at 16 bits (Table 8.3).  DESIGN CHOICE (log 70): the root is
cut to whole units. -/
def samplesRms (xs : List Int) : Nat :=
  let n := xs.length
  if n = 0 then 0
  else
    let v := (xs.map fun x => ((n * x - xs.sum).natAbs) ^ 2).sum
    min (Nat.sqrt (v * 100000 ^ 2 / (n ^ 3 * 131072 ^ 2))) 0xFFFF

/-- TX_INT and RX_INT from the loop measurement and the die temperature, in 2⁻¹⁶ ns; K is in 10 fs, TEMPCO in fs/°C and
temperatures in 0.1 °C (R305). -/
def intDelays (x : LaneTime) (temp : Int) : Int × Int :=
  let sum := roundDiv ((x.loopDelay : Int) * 10000000 - x.loopK * 10 * 65536 * 10 + x.tempco * (temp - x.calTemp) * 65536) 10000000
  let tx := roundDiv (sum * x.txShare) 65536
  (tx, sum - tx)

/-- A servo interval begins on a lane: TX_INT and RX_INT are recomputed, and the delays and ASYM of the interval are latched (R299, R305). -/
def State.latchDelays (s : State) (r : LaneRef) : State :=
  let d := intDelays (s.lane r).time (s.laneTemp r)
  let s1 := s.modLane r fun l => { l with time := { l.time with txInt := if r.isLine then d.1 else 0, rxInt := if r.isLine then d.2 else 0 } }
  s1.modLane r fun l => { l with time := { l.time with txFibre := s1.txFibre r, rxFibre := s1.rxFibre r, asymLatched := s1.asymOf r } }

/-- An interval of a lane ends, its mean being taken, and the next begins (R299, R301, R305). -/
def State.closeInterval (s : State) (r : LaneRef) (status : Nat) : State :=
  (s.modLane r fun l => { l with time := { l.time with
    status, count := min l.time.samples.length 65535, mean := (samplesMean l.time.samples).map roundRat, rms := samplesRms l.time.samples
    samples := [], ownMarkers := 0 } }).latchDelays r

/-- A time with its seconds modulo 65,536 is completed to lie within 32,768 s of another (R298). -/
def completeTime (secLo ns frac : Nat) (near : FTime) : Int :=
  let d := ((secLo * 65536000000000 + ns * 65536 + frac : Nat) - (near : Int)) % 4294967296000000000
  near + if d < 2147483648000000000 then d else d - 4294967296000000000

/-- One offset sample, doubled: 2θ = 2·((t2 − RX_FIBRE) − (t1 + TX_FIBRE_far)) − L_SUM − ASYM (R297). -/
def sampleOf (t2 t1 rxFibre txFar lSum asym : Int) : Int := 2 * ((t2 - rxFibre) - (t1 + txFar)) - lSum - asym

/-- L_SUM = (t2 − RX_FIBRE) − (t3 + TX_FIBRE) − TURN_C (R297). -/
def lSumOf (t2 t3 rxFibre txFibre turn : Int) : Int := (t2 - rxFibre) - (t3 + txFibre) - turn

/-- TURN_C = (t_dep + TX_FIBRE) − (t_arr − RX_FIBRE) (R293). -/
def turnOf (dep arr txFibre rxFibre : Int) : Int := (dep + txFibre) - (arr - rxFibre)

end Sys2Proof.Machine
end

