-- ==== Sys2Proof/Machine/Messages.lean ====
section
/-! DEFINITION. Lane-control messages: what each does when it is received. -/
namespace Sys2Proof.Machine

/-- BODY of a lane-control payload (Table 5.6). -/
def ctlBody (p : Nat) : Nat := bits p 0 64
/-- LC_TYPE of a lane-control payload. -/
def ctlType (p : Nat) : Nat := bits p 88 8

/-- The message of a type that has been delivered on a lane and waits for its row. -/
def State.message (s : State) (r : LaneRef) (ty : Nat) : Option Inbox :=
  match (s.lane r).rx.inbox with
  | some i => if markerType i.count = .control ∧ ctlType i.payload = ty then some i else none
  | none => none

/-- The delivered message is taken. -/
def State.taken (s : State) (r : LaneRef) : State := s.modLane r fun l => { l with rx := { l.rx with inbox := none } }

/-- How far ahead a proposal lies: at least 64 superframes; how much more is firmware's choice (R130, R192). -/
def proposeAhead (c : Nat) : Nat := 64 + Config.policy 0x5130 c % 1024

/-- The proposer sends STEP_PROPOSE for the stage above (R192). -/
def State.propose (s : State) (r : LaneRef) : State :=
  let l := s.lane r
  let sp := (l.tx.count + proposeAhead s.free) % 8000
  let target := l.acq.stage.up
  let tx := l.tx.send 2 (pack [(0, 48), (sp, 13), (0, 1), (target.code, 2)])
  { s with free := s.free + 1 }.modLane r fun l => { l with tx := { tx with
    step := some { proposer := true, target, txAt := sp, rxAt := none, agreed := false, txDone := false, rxDone := false, msgSeq := tx.msgSeq } } }

/-- The lane may negotiate a step: NEGOTIATE at A or B with its own transmitter active (R127, R131). -/
def State.mayStep (s : State) (r : LaneRef) : Bool :=
  let l := s.lane r
  decide (l.acq.state = .negotiate ∧ (l.acq.stage = .a ∨ l.acq.stage = .b)) && l.txActive

/-- HELLO: the far end's serial number is held, and the end with the lower one proposes, a lane looped to itself too
(R192, R193, R302, R326). -/
def execHello (t : Instant) (r : LaneRef) (s : State) : Out :=
  let s := s.advanceTo t
  match s.message r 1 with
  | none => .next s
  | some i =>
    let peer := ctlBody i.payload
    let s1 := ((s.taken r).modLane r fun l => { l with rx := { l.rx with peer := some peer } }).judgeRill
    if s1.mayStep r && (s1.lane r).tx.step.isNone && decide (s.sys.serial ≤ peer) then .next (s1.propose r) else .next s1

/-- Both ends agree on a step: STEP (R127). -/
def State.agree (s : State) (r : LaneRef) (g : StepNeg) : State :=
  (s.modLane r fun l => { l with tx := { l.tx with step := some { g with agreed := true } } }).toState r .step (s.lane r).acq.stage 0x01

/-- STEP_PROPOSE: the confirmer answers with its own S_C; a lane looped to itself takes its own proposal as the
confirmation (R192, R193). -/
def execStepPropose (t : Instant) (r : LaneRef) (s : State) : Out :=
  let s := s.advanceTo t
  match s.message r 2 with
  | none => .next s
  | some i =>
    let s1 := s.taken r
    let l := s1.lane r
    let sp := bits (ctlBody i.payload) 48 13
    let target := l.acq.stage.up
    if s1.mayStep r && decide (bits (ctlBody i.payload) 62 2 = target.code) then
      if l.rx.peer = some s.sys.serial then
        match l.tx.step with
        | some g => if g.proposer = true ∧ g.txAt = sp then .next (s1.agree r { g with rxAt := some sp }) else .next s1
        | none => .next s1
      else
        let sc := (l.tx.count + countAhead sp i.count) % 8000
        let tx := l.tx.send 3 (pack [(0, 32), (sc, 13), (0, 3), (sp, 13), (0, 1), (target.code, 2)])
        .next (s1.modLane r fun l => { l with tx := { tx with
          step := some { proposer := false, target, txAt := sc, rxAt := some sp, agreed := false, txDone := false, rxDone := false, msgSeq := tx.msgSeq } } })
    else .next s1

/-- STEP_CONFIRM: in time, before the marker closing S_P − 16, the step is agreed; otherwise it is withdrawn and proposed
again (R192). -/
def execStepConfirm (t : Instant) (r : LaneRef) (s : State) : Out :=
  let s := s.advanceTo t
  match s.message r 3 with
  | none => .next s
  | some i =>
    let s1 := s.taken r
    let l := s1.lane r
    let b := ctlBody i.payload
    match l.tx.step with
    | some g =>
      if s1.mayStep r && g.proposer && decide (g.agreed = false ∧ bits b 62 2 = g.target.code ∧ bits b 48 13 = g.txAt) then
        let ahead := countAhead g.txAt l.tx.count
        if 16 ≤ ahead ∧ ahead < 4000 then .next (s1.agree r { g with rxAt := some (bits b 32 13) })
        else .next (s1.propose r)
      else .next s1
    | none => .next s1

/-- A tap request's new tap set (Table 5.7): tap, action and step. -/
def requestedTaps (taps : Vector Int 7) (b : Nat) : Vector Int 7 :=
  let d : Int := bits b 48 3
  match idx? 7 (bits b 53 3) with
  | none => taps
  | some j => match bits b 51 2 with
    | 1 => taps.set j (taps[j] + d)
    | 2 => taps.set j (taps[j] - d)
    | _ => taps

/-- A lane declines every tap request: a preset is selected, a tap is pinned, or the lane is a relay lane (R159, R243). -/
def State.declinesTaps (s : State) : LaneRef → Bool
  | .relay _ => true
  | .line n => decide (s.active.lineTx[n].preset ≠ 0) || (List.range 7).any fun j => s.active.pinned (.lineTx n) 0x2821 j || s.shadow.pinned (.lineTx n) 0x2821 j

/-- TAP_REQUEST: at NEGOTIATE at stage C it is written to the shadow set and applied through Q3, or declined, and
answered (R157, R159).  DESIGN CHOICE (log 132): a request that comes once tuning has ended is declined with outcome 2, and every tuning goes on from the taps of
the shadow set, as the last one left them. -/
def execTapRequest (t : Instant) (r : LaneRef) (s : State) : Out :=
  let s := s.advanceTo t
  match s.message r 4 with
  | none => .next s
  | some i =>
    let s1 := s.taken r
    let b := ctlBody i.payload
    let answer := fun (s : State) (o : Nat) => s.modLane r fun l => { l with tx := l.tx.send 5 (pack [(0, 54), (o, 2), (bits b 56 8, 8)]) }
    if (s1.lane r).acq.state = .negotiate ∧ (s1.lane r).acq.stage = .c then
      if s1.declinesTaps r || (s1.lane r).tx.tuned then .next (answer s1 2)
      else match r with
        | .line n =>
          let taps := requestedTaps s1.shadow.lineTx[n].taps b
          if 7 ≤ bits b 53 3 ∨ tapsValid taps = false then .next (answer s1 1)
          else .next (answer ((s1.modShadow (Bank.tx n fun p => { p with taps })).q3Apply [.lineTx n]) 0)
        | .relay _ => .next (answer s1 2)
    else .next s1

/-- TAP_REPLY: an end that declines as preset or pinned has no tuning to do; otherwise the receiver goes on or reports
tuning complete as its policy decides; the 400 ms of this end's own taps run on (R159, R191). -/
def execTapReply (t : Instant) (r : LaneRef) (s : State) : Out :=
  let s := s.advanceTo t
  match s.message r 5 with
  | none => .next s
  | some i =>
    let s1 := s.taken r
    let b := ctlBody i.payload
    if (s1.lane r).acq.state = .negotiate ∧ (s1.lane r).acq.stage = .c ∧ (s1.lane r).tx.tuneDone = false then
      let (c, s2) := s1.draw
      if bits b 54 2 = 2 ∨ Config.policy 0x5907 c % 2 = 0 then
        .next ((s2.modLane r fun l => { l with tx := { l.tx with tuneDone := true } }).tryLocked r)
      else .next (s2.modLane r fun l => { l with tx := l.tx.send 4 (tapRequest ((bits b 56 8 + 1) % 256) c) })
    else .next s1

/-- A predistortion entry after one update: it changes by at most one code; which way is firmware's (R161). -/
def pdUpdate (k c : Nat) (x : Int) : Int := clampInt (-64) 63 (x + ((Config.policy (0x516100 + k) c % 3 : Nat) : Int) - 1)

/-- PD_REPORT: in LOCKED, with ADAPTIVE in force, unpinned and in N425, the seven entries reported are updated in the
shadow set and applied through Q3 (R161). -/
def execPdReport (t : Instant) (n : Fin 8) (s : State) : Out :=
  let s := s.advanceTo t
  match s.message (.line n) 6 with
  | none => .next s
  | some i =>
    let s1 := s.taken (.line n)
    let p0 := bits (ctlBody i.payload) 58 6
    let a := s1.active.lineTx[n]
    if s1.lanes[n].acq.state = .locked ∧ a.pdAdaptive = true ∧ a.s200 = false ∧ s1.active.pinned (.lineTx n) 0x2822 0 = false ∧
        s1.shadow.pinned (.lineTx n) 0x2822 0 = false then
      let (c, s2) := s1.draw
      .next ((s2.modShadow (Bank.tx n fun p => { p with
        pd := vmap p.pd fun j x => if p0 ≤ j.val ∧ j.val < p0 + 7 then pdUpdate j.val c x else x })).q3Apply [.lineTx n])
    else .next s1

/-- A reported difference, none for a lane outside the port or not LOCKED (Table 5.7). -/
def reportedDiff (b i : Nat) : Option Int :=
  let v := bits b (48 - 16 * i) 16
  if v = 0x8000 then none else some (toSigned 16 v)

/-- The two largest arrival differences of some lanes lie more than `limit` apart. -/
def spreadOver (limit : Int) (ds : List (Fin 8 × Int)) : Bool := ds.any fun x => ds.any fun y => decide (limit < x.2 - y.2)

/-- A skew report for four lanes from `base` is held in the lead port island.  Once the reports have given all the port's lanes, a spread
of more than 4/64 UI, or of more than 1/64 UI where a lane in ALIGN has not been aligned since it was selected, re-aligns every lane in
ALIGN by its difference, through Q3 (R164; log 133). -/
def State.skewReport (s : State) (n : Fin 8) (base b : Nat) : State :=
  let lead := leadOf s.grouping n
  let diffs := vmap s.ports[lead].diffs fun i d => if base ≤ i.val ∧ i.val < base + 4 then reportedDiff b (i.val - base) else d
  let s1 := s.modPort lead fun p => { p with diffs }
  let port := (slicesOf s.grouping lead).filterMap fun m => (diffs[m]).map fun d => (m, d)
  let lanes := port.filter fun x => s.active.lineTx[x.1].skewAlign && !s.shadow.pinned (.lineTx x.1) 0x2823 128
  let fresh := lanes.any fun x => !s.lanes[x.1].tx.aligned
  if decide (base = 4) || (slicesOf s.grouping lead).all fun m => decide (m.val < 4) then
    let s2 := (s1.modPort lead fun p => { p with diffs := Vector.replicate 8 none }).forEach lanes fun x s =>
      s.modLane (.line x.1) fun l => { l with tx := { l.tx with aligned := true } }
    if !lanes.isEmpty && (spreadOver 4 port || (fresh && spreadOver 1 port)) then
      (s2.forEach lanes fun x s => s.modShadow (Bank.tx x.1 fun p => { p with skew := clampInt (-4096) 4096 (p.skew - x.2) })).q3Apply
        (lanes.map fun x => .lineTx x.1)
    else s2
  else s1

/-- SKEW_REPORT_LO, for LN0 to LN3 (R164). -/
def execSkewReportLo (t : Instant) (n : Fin 8) (s : State) : Out :=
  let s := s.advanceTo t
  match s.message (.line n) 7 with
  | none => .next s
  | some i => .next ((s.taken (.line n)).skewReport n 0 (ctlBody i.payload))

/-- SKEW_REPORT_HI, for LN4 to LN7 (R164). -/
def execSkewReportHi (t : Instant) (n : Fin 8) (s : State) : Out :=
  let s := s.advanceTo t
  match s.message (.line n) 8 with
  | none => .next s
  | some i => .next ((s.taken (.line n)).skewReport n 4 (ctlBody i.payload))

/-- TRAFFIC_START: S_T at which the far end's traffic starts (R196, R197). -/
def execTrafficStart (t : Instant) (n : Fin 8) (s : State) : Out :=
  let s := s.advanceTo t
  match s.message (.line n) 9 with
  | none => .next s
  | some i =>
    let st := bits (ctlBody i.payload) 48 13
    .next ((s.taken (.line n)).modLane (.line n) fun l => { l with rx := { l.rx with
      farSt := some st, stReached := begunBy st (nextCount l.rx.count) } })

end Sys2Proof.Machine
end

