-- ==== Sys2Proof/Machine/Superframe.lean ====
section
/-! DEFINITION. Superframes as a lane sends and receives them: the payload and its error injection, the symbols at the DAC, the inner
codewords of a received superframe, and the codeword pairs of the slice in both directions. -/
namespace Sys2Proof.Machine

/-! ### The flows of a slice (R206, R208, R211, R231, R237 to R240, R255) -/

/-- Payload bits that no host supplies: free values (log 126). -/
def freeBits (c k : Nat) : List Nat := (List.range k).map fun i => Config.reading (0x52060000 + i) c % 2

/-- Inner payloads for which a flow has no codeword pairs: free values (log 126). -/
def freePayloads (c k : Nat) : List Nat := (List.range k).map fun i => Config.reading (0x52060000 + i) c % 2 ^ 136

/-- A run of bits cut into `k` payloads of `n` bits, the first bit of each its highest. -/
def cutPayloads (n : Nat) : Nat → List Nat → List Nat
  | 0, _ => []
  | k + 1, bs => (bs.take n).foldl (fun x b => 2 * x + b) 0 :: cutPayloads n k (bs.drop n)

/-- Slice counters with the pairs that the monitor decoded, and those that arrived marked by R210 or R211 (R212, R216, Table 5.12). -/
def SliceCnt.addPairs (c : SliceCnt) (rs : List PairResult) (marked : Nat) : SliceCnt :=
  { c.add (pairBins rs) with marked := satAdd 32 c.marked marked }

/-- The monitor over the codeword pairs that come in one direction, the first `marks` of them marked beside those that carry a mark of
their own (R208, R210, R211). -/
def monitorPairs (marks : Nat) (ps : List (Nat × Bool)) : List PairResult :=
  ps.zipIdx.map fun x => monitorPair (x.1.2 || decide (x.2 < marks)) x.1.1

/-- How many of some pairs are marked by R210 or R211. -/
def markedPairs (marks : Nat) (ps : List (Nat × Bool)) : Nat := ps.zipIdx.countP fun x => x.1.2 || decide (x.2 < marks)

/-- The lanes that share the flow of a slice: those of its port in S200, where the lead slice holds the flow, and otherwise the slice's
own (R207, R240). -/
def State.flowSlices (s : State) (n : Fin 8) : List (Fin 8) :=
  if s.active.lineTx[n].s200 then (if leadOf s.grouping n = n then slicesOf s.grouping n else []) else [n]

/-- The rate matcher of a slice gives `k` pairs toward the line, or a local-fault flow where that direction is faulted (R238, R255). -/
def State.matchLine (s : State) (n : Fin 8) (k : Nat) (rs : List PairResult) : State :=
  let g := slicesPer s.grouping
  let p := s.ports[n]
  if s.ports[leadOf s.grouping n].toLine.faulted then
    let x := faultPairs g k p.leftLine
    s.modPort n fun p => { p with pairLine := x.1, leftLine := x.2, heldLine := [] }
  else
    let x := matchRun g k p.heldLine p.leftLine rs
    s.modPort n fun p => { p with
      pairLine := x.out, leftLine := x.left, heldLine := x.blocks, insLine := satAdd 48 p.insLine x.inserted, delLine := satAdd 48 p.delLine x.deleted }

/-- The rate matcher of a slice gives `k` pairs toward the host, or a local-fault flow where that direction is faulted (R238, R255). -/
def State.matchHost (s : State) (n : Fin 8) (k : Nat) (rs : List PairResult) : State :=
  let g := slicesPer s.grouping
  let p := s.ports[n]
  if s.ports[leadOf s.grouping n].toHost.faulted then
    let x := faultPairs g k p.leftHost
    s.modPort n fun p => { p with pairHost := x.1, leftHost := x.2, heldHost := [] }
  else
    let x := matchRun g k p.heldHost p.leftHost rs
    s.modPort n fun p => { p with
      pairHost := x.out, leftHost := x.left, heldHost := x.blocks, insHost := satAdd 48 p.insHost x.inserted, delHost := satAdd 48 p.delHost x.deleted }

/-- The pairs of a slice's flow that its lanes still lack for the superframe they close: of 80 payloads each, or in S200 of a share of
10,880 bits (R196, R207, R240). -/
def State.pairsLacking (s : State) (n : Fin 8) : Nat :=
  let l := s.lanes[n]
  if s.active.lineTx[n].s200 then
    ceilDiv (l.tx.stage.words * l.tx.stage.inner.payloadLength - l.tx.flow.length) (10880 / (slicesOf s.grouping n).length)
  else ceilDiv (1024 - l.tx.flow.length) 80

/-- What pairs of a slice's flow put on the `j`-th of its lanes: their payloads, or in S200 the bits of the lane's share (R207, R240). -/
def State.laneFlow (s : State) (n : Fin 8) (ps : List Nat) (j : Nat) : List Nat :=
  ps.flatMap fun p => if s.active.lineTx[n].s200 then symbolStream (sharedSymbols (s.flowSlices n).length j p) else pairPayloads p

/-- The pairs that leave a slice's rate matcher join the flows of its lanes (R206, R207, R240). -/
def State.joinFlows (s : State) (n : Fin 8) : State :=
  s.forEach (s.flowSlices n).zipIdx fun x s => s.modLane (.line x.1) fun l => { l with tx := { l.tx with
    flow := l.tx.flow ++ s.laneFlow n s.ports[n].pairLine x.2 } }

/-- The pairs that last left a slice's rate matcher toward the line are replaced by as many others in what its lanes have still to send
(R209, R319). -/
def State.replaceLine (s : State) (n : Fin 8) (ps : List Nat) : State :=
  (s.forEach (s.flowSlices n).zipIdx fun x s => s.modLane (.line x.1) fun l => { l with tx := { l.tx with
    flow := let xs := s.laneFlow n ps x.2; lastOf l.tx.flow.length (l.tx.flow.take (l.tx.flow.length - xs.length) ++ xs) } }).modPort n
    fun p => { p with pairLine := ps }

/-- The symbols of a pair on the host lanes of a slice, or in S200 of its port: the lane, and what it sends (R237, R240). -/
def State.hostShares (s : State) (n : Fin 8) (p : Nat) : List (Fin 16 × List Nat) :=
  if s.active.lineRx[n].s200 then (s.flowSlices n).zipIdx.map fun x => (hostLow x.1, sharedSymbols (s.flowSlices n).length x.2 p)
  else [hostLow n, hostHigh n].map fun h => (h, auiMux (hostLaneSymbols n p h))

/-- A host lane sends the flow of its port: it is ACTIVE with its output on, and in no far-end loop, which sends what is received
(R231, R232, R246, R255). -/
def State.hostSends (s : State) (h : Fin 16) : Bool :=
  decide (s.hosts[h].state = .active) && !s.hosts[h].shed && !s.faultSquelch (relayPort h) && !s.hostFollows h

/-- The pairs that have gone toward the host go out on the host lanes of the slice (R237, R240, R255). -/
def State.sendHost (s : State) (n : Fin 8) : State :=
  let out := s.ports[n].pairHost.map (s.hostShares n)
  let hs := (s.hostShares n 0).map Prod.fst
  s.forEach hs fun h s => if s.hostFollows h then s else s.modHost h fun x => { x with
    sent := if s.hostSends h then out.flatMap fun ys => (ys.filter fun y => decide (y.1 = h)).flatMap Prod.snd else [] }

/-- A host lane in a far-end loop sends what it receives: the symbols of the pairs that the host supplied on it (Table 6.9). -/
def State.loopHost (s : State) (n : Fin 8) (pairs : List Nat) : State :=
  s.forEach ((s.hostShares n 0).map Prod.fst) fun h s =>
    if s.hostFollows h then s.modHost h fun x => { x with
      sent := pairs.flatMap fun p => ((s.hostShares n p).filter fun y => decide (y.1 = h)).flatMap Prod.snd }
    else s

/-- The codeword pairs that the host supplied to a slice pass its monitor, and go on to the line through the rate matcher while the lane
carries traffic, a local-fault flow in their place while the direction is faulted; a port island on FIRC carries nothing (R21, R196, R208,
R211, R213, R216, R231, R238, R255). -/
def State.takeHostPairs (s : State) (n : Fin 8) (pairs : List Nat) : State :=
  let s0 := s.loopHost n pairs
  if s0.portRuns n then
    let p := s0.ports[n]
    let ps := if s0.hostSupplies n then pairs.map fun x => (x, false) else []
    let rs := monitorPairs p.markLine ps
    let s1 := s0.modPort n fun p => { p with
      txCnt := p.txCnt.addPairs rs (markedPairs p.markLine ps), markLine := p.markLine - ps.length }
    if s0.lanes[n].tx.traffic || s0.active.lineTx[n].s200 then (s1.matchLine n (s1.pairsLacking n) rs).joinFlows n
    else (s1.modPort n fun p => { p with pairLine := [], heldLine := [] }).modLane (.line n) fun l => { l with tx := { l.tx with flow := [] } }
  else s0.modPort n fun p => { p with markLine := 0, pairLine := [], heldLine := [] }

/-- The slices whose rate matchers hold the flow of a port: in S200 the lead slice's alone (R207, R240). -/
def State.flowPorts (s : State) (lead : Fin 8) : List (Fin 8) := if s.active.lineRx[lead].s200 then [lead] else slicesOf s.grouping lead

/-- The frames that the PTP correction unit changes are changed in the pairs that have just passed toward the line, and in the blocks the
rate matchers hold: the affected pairs are corrected, changed and re-encoded (R208, R317, R319). -/
def State.patchLine (s : State) (lead : Fin 8) : State :=
  let xs := s.ports[lead].patchLine
  if xs = [] then s
  else
    let g := slicesPer s.grouping
    let ms := s.flowPorts lead
    let w := weave (ms.map fun m => (s.ports[m].pairLine.flatMap fun p => flowBlocks g (monitorPair false p).fixed) ++ s.ports[m].heldLine)
    let r := patchRuns xs (w.map Prod.snd)
    let s1 := s.forEach ms.zipIdx fun m s =>
      let y := patchPairs g s.ports[m.1].pairLine ((List.zip w r.1).filterMap fun z => if z.1.1 = m.2 then some z.2 else none)
      (s.replaceLine m.1 y.1).modPort m.1 fun p => { p with heldLine := y.2 }
    s1.modPort lead fun p => { p with patchLine := r.2 }

/-- The same toward the host, where the host lanes send what results (R208, R317, R319). -/
def State.patchHost (s : State) (lead : Fin 8) : State :=
  let xs := s.ports[lead].patchHost
  if xs = [] then s
  else
    let g := slicesPer s.grouping
    let ms := s.flowPorts lead
    let w := weave (ms.map fun m => (s.ports[m].pairHost.flatMap fun p => flowBlocks g (monitorPair false p).fixed) ++ s.ports[m].heldHost)
    let r := patchRuns xs (w.map Prod.snd)
    let s1 := s.forEach ms.zipIdx fun m s =>
      let y := patchPairs g s.ports[m.1].pairHost ((List.zip w r.1).filterMap fun z => if z.1.1 = m.2 then some z.2 else none)
      (s.modPort m.1 fun p => { p with pairHost := y.1, heldHost := y.2 }).sendHost m.1
    s1.modPort lead fun p => { p with patchHost := r.2 }

/-! ### A transmitted superframe (R178, R196, R217, R218, R242) -/

/-- The payloads between two markers of a line lane, and its transmitter after them: its flow in S200 and in traffic, and PRBS31 before
(R196, R213). -/
def LaneTx.payloads (tx : LaneTx) (c : Nat) : List Nat × LaneTx :=
  let n := tx.stage.words * tx.stage.inner.payloadLength
  if tx.stage = .s200 then
    (cutPayloads tx.stage.inner.payloadLength tx.stage.words (tx.flow ++ freeBits c (n - tx.flow.length)), { tx with flow := tx.flow.drop n })
  else if tx.traffic then
    ((tx.flow ++ freePayloads c (1024 - tx.flow.length)).take 1024, { tx with flow := tx.flow.drop 1024 })
  else
    let x := prbsWords 136 1024 (prbsAt tx.count tx.prbs)
    (x.1, { tx with prbs := x.2 })

/-- The blocks before the marker that a lane sends, the injection events among them, and its transmitter after them (R178, R213, R217,
R242). -/
def State.sendBlocks (s : State) (r : LaneRef) (tx : LaneTx) : List Nat × Nat × LaneTx :=
  match r with
  | .line n =>
    let x := tx.payloads s.free
    let w := sendWords s.active.lineTx[n] tx.stage s.free 0 x.1 ⟨tx.injWait, tx.injRuns⟩
    (w.1, w.2.1, { x.2 with injWait := w.2.2.wait, injRuns := w.2.2.runs })
  | .relay _ =>
    let x := prbsWords 144 1024 (prbsAt tx.count tx.prbs)
    (x.1, 0, { tx with prbs := x.2 })

/-- The DAC codes of those symbols of a run on a line lane that have their four predecessors and two successors, each with whether it
saturates.  `first` is the place of the first of them in the superframe; one in a cycle of 256 symbols that bypasses the FFE goes out at its
bypass level (R153, R154, R435). -/
def State.dacCodes (s : State) (n : Fin 8) (first : Int) (syms : List Nat) : List (Int × Bool) :=
  let tx := s.lanes[n].tx
  (windows syms).zipIdx.map fun v =>
    let i := first + v.2
    if tx.bypass.any fun b => decide (b ≤ i ∧ i < b + 256) then (bypassCode (decide (tx.stage = .a)) v.1[2], false)
    else
      let x := dacRaw (s.tapsInForce n) (pdInForce s.active n) v.1
      (clampInt (-127) 127 x, decide (x < -127 ∨ 127 < x))

/-- The bits of the marker block at a stage (R184, R213). -/
def Stage.markerBits : Stage → Nat
  | .s200 => Config.s200MarkerLength
  | .a | .b | .c => 144

/-- Blocks and the marker block after them leave the framer: they are kept as sent, with the DAC codes of a line lane; saturated symbols
enter TX_CLIP, and injection events INJECTED (R154, R178, R182, R217, R435). -/
def State.putFrame (s : State) (r : LaneRef) (tx : LaneTx) (blocks : List Nat) (marker events : Nat) : State :=
  let l := s.lane r
  let st := l.tx.stage
  let syms := l.tx.tail ++ blocks.flatMap (blockSymbols st st.inner.length) ++ blockSymbols st st.markerBits marker
  let out := match r with | .line n => s.dacCodes n (4 - (l.tx.tail.length : Int)) syms | .relay _ => []
  let sent := (syms.length : Int) - l.tx.tail.length
  s.modLane r fun l => { l with
    tx := { tx with
      marker, frame := blocks ++ [marker], tail := syms.drop (syms.length - 6), txClip := satAdd 32 l.tx.txClip (out.countP Prod.snd)
      injLeft := l.tx.injLeft - 1, codes := out.map Prod.fst, bypass := (l.tx.bypass.map (· - sent)).filter (-258 < ·) }
    cnt := { l.cnt with injected := satAdd 32 l.cnt.injected events } }

/-- A superframe leaves the framer with its marker block (R178, R213, R217). -/
def State.sendFrame (s : State) (r : LaneRef) (marker : Nat) : State :=
  let l := s.lane r
  let x := s.sendBlocks r l.tx
  { s with free := s.free + 1 }.putFrame r x.2.2 x.1 marker (x.2.1 + flag (decide (0 < l.tx.injLeft)))

/-- In a far-end loop the hard decisions of the last superframe received leave, its marker block among them (Table 6.9). -/
def State.sendLooped (s : State) (r : LaneRef) : State :=
  let x := (s.lane r).rx.looped
  s.putFrame r (s.lane r).tx (x.take (x.length - 1)) (x.getLast?.getD 0) 0

/-! ### A received superframe (R123, R136, R148, R149, R197, R200 to R202, R207 to R212, R242, R244) -/

/-- What the inner decoder of a line lane delivers of a superframe's FFE outputs: each word with whether it failed and how many bits
were corrected (R123, R200 to R202, R204, R205). -/
def State.decodeFrame (s : State) (n : Fin 8) (samples : List Int) : List (Nat × Bool × Nat) :=
  let l := s.lanes[n]
  let st := l.acq.stage
  (cutBlocks st.inner.length st.words (detectBits false l.eq.h1 l.eq.h2 s.active.lineRx[n].llrScale l.eq.path samples)).map fun w =>
    st.inner.deliver (s.depthInForce n) w.1 w.2

/-- The hard decisions of a superframe's FFE outputs, block by block, the marker block last (Table 6.9). -/
def State.hardBlocks (s : State) (n : Fin 8) (samples : List Int) : List Nat :=
  let l := s.lanes[n]
  let st := l.acq.stage
  let bs := detectBits (decide (st = .a)) l.eq.h1 l.eq.h2 s.active.lineRx[n].llrScale l.eq.path samples
  (cutBlocks st.inner.length st.words bs).map Prod.fst ++ [ofBitsHigh ((bs.drop (st.inner.length * st.words)).map Prod.fst)]

/-- The delivered words of a superframe enter the counters of the lane: those marked, decoded, corrected and failed, and the window in
progress (R136, R148, R149, R202, R216). -/
def State.countFrame (s : State) (n : Fin 8) (ws : List (Nat × Bool × Nat)) : State :=
  let fails := ws.countP fun w => w.2.1
  let corrected := (ws.map fun w => w.2.2).sum
  s.modLane (.line n) fun l => { l with
    cnt := { l.cnt with
      innerCodewords := add48 l.cnt.innerCodewords ws.length, innerFailures := add48 l.cnt.innerFailures fails
      innerCorrected := add48 l.cnt.innerCorrected corrected
      markedBlocks := satAdd 32 l.cnt.markedBlocks (l.rx.marks.eraseDups.countP (· < l.acq.stage.words))
      bits := add48 l.cnt.bits (l.acq.stage.inner.length * ws.length), preErrors := add48 l.cnt.preErrors corrected }
    acq := { l.acq with winFails := l.acq.winFails + fails, winFrames := l.acq.winFrames + 1 } }

/-- Codeword pairs that a flow of `k` lanes of half a pair each sends toward the host up to an elapsed time, by REFCLK: one in 25.6 ns for
a slice of N425 (R206, R219, R255). -/
def hostPairsBy (halves : Nat) (t : Instant) : Nat := t * 5 * halves / 16777216

/-- Codeword pairs of a slice, or in S200 of a port, that came from the line pass its monitor and go on toward the host through the rate
matcher, as many as have fallen due there; POST_ERRORS and PRE_ERRORS of each lane count the bits that the outer code corrects on it (R148,
R149, R208 to R210, R212, R216, R237, R238, R240, R255). -/
def State.deliverPairs (s : State) (n : Fin 8) (ps : List (Nat × Bool)) : State :=
  let p := s.ports[n]
  let ms := s.flowSlices n
  let rs := monitorPairs p.markHost ps
  let s1 := s.forEach ms.zipIdx fun x s =>
    let post := if s.active.lineRx[n].s200 then
        ((List.zip ps rs).map fun y => symbolDiff (sharedSymbols ms.length x.2 y.1.1) (sharedSymbols ms.length x.2 y.2.fixed)).sum
      else (rs.map PairResult.postErrors).sum
    s.modLane (.line x.1) fun l => { l with cnt := { l.cnt with preErrors := add48 l.cnt.preErrors post, postErrors := add48 l.cnt.postErrors post } }
  let halves := if s.active.lineRx[n].s200 then ms.length else 2
  let s2 := s1.modPort n fun p => { p with
    rxCnt := p.rxCnt.addPairs rs (markedPairs p.markHost ps), markHost := p.markHost - ps.length, sentAt := s.now }
  (s2.matchHost n (hostPairsBy halves s.now - hostPairsBy halves p.sentAt) rs).sendHost n

/-- The payloads of the words of superframe `count` join the slice's flow, and whole codeword pairs go on.  The pairs lie where the count
says: what is held of a pair that the count does not continue is dropped, with the rest of it (R180, R207). -/
def State.forwardFrame (s : State) (n : Fin 8) (count : Nat) (ws : List (Nat × Bool × Nat)) : State :=
  let l := s.lanes[n]
  let xs := ws.zipIdx.map fun w => (codeN425.payload w.1.1, l.rx.marks.contains w.2)
  let place := pairPlace count
  let g := gatherPairs 13 (if l.rx.buf.length = place then l.rx.buf ++ xs else xs.drop ((80 - place) % 80))
  (s.modLane (.line n) fun l => { l with rx := { l.rx with buf := g.2 } }).deliverPairs n g.1

/-- Whole codeword pairs that the lanes of an S200 port hold between them, at most `k` of them, each with whether a bit of it is marked, and
what is left on each lane (R208, R210, R240). -/
def gatherShares : Nat → List (List (Nat × Bool)) → List (Nat × Bool) × List (List (Nat × Bool))
  | 0, bufs => ([], bufs)
  | k + 1, bufs =>
    let n := 10880 / max 1 bufs.length
    if bufs = [] ∨ bufs.any fun b => decide (b.length < n) then ([], bufs)
    else
      let rest := gatherShares k (bufs.map (·.drop n))
      let heads := bufs.map (·.take n)
      ((sharedPair (heads.map fun b => streamSymbols (n / 10) (b.map Prod.fst)), heads.any fun b => b.any Prod.snd) :: rest.1, rest.2)

/-- The payload bits of an S200 lane join those of its port, and whole codeword pairs go on from the lead slice (R213, R240). -/
def State.forwardS200 (s : State) (n : Fin 8) (ws : List (Nat × Bool × Nat)) : State :=
  let k := codeS200
  let bits := ws.zipIdx.flatMap fun w => (List.range k.payloadLength).map fun j =>
    (k.payload w.1.1 / 2 ^ (k.payloadLength - 1 - j) % 2, s.lanes[n].rx.marks.contains w.2)
  let s1 := s.modLane (.line n) fun l => { l with rx := { l.rx with buf := l.rx.buf ++ bits } }
  let ms := slicesOf s.grouping (leadOf s.grouping n)
  let g := gatherShares (bits.length + 1) (ms.map fun m => s1.lanes[m].rx.buf)
  (s1.forEach (List.zip ms g.2) fun x s => s.modLane (.line x.1) fun l => { l with rx := { l.rx with buf := x.2 } }).deliverPairs (leadOf s.grouping n) g.1

/-- The frames of a port are changed in the pairs toward the host once every slice of it has passed its pairs of a superframe (R317). -/
def State.patchPassed (s : State) (n : Fin 8) (count : Nat) : State :=
  let lead := leadOf s.grouping n
  if (slicesOf s.grouping lead).all fun m => decide (m = n ∨ s.active.lineRx[n].s200 = true ∨ s.lanes[m].rx.count = count) then s.patchHost lead else s

/-- The register of PRBS31 at the first bit of a relay superframe by its count, the generator being set to all ones where the count is 0
(R242). -/
def relayPrbs (count : Nat) : Nat := (prbsBits (147456 * count) 0x7FFFFFFF).2

/-- The blocks of a relay superframe are checked against PRBS31, which runs on from the superframe before, or where that is not known, or
the count has jumped, from the count (R242, R244, R259). -/
def State.checkRelay (s : State) (r : LaneRef) (count : Nat) (blocks : List Nat) : State :=
  let l := s.lane r
  let from' := if count = nextCount l.rx.count ∧ count ≠ 0 then l.rx.prbs.getD (relayPrbs count) else relayPrbs count
  let errs := prbsErrors 144 from' blocks
  s.modLane r fun l => { l with
    rx := { l.rx with prbs := some (prbsWords 144 blocks.length from').2 }
    cnt := { l.cnt with prbsBits := add48 l.cnt.prbsBits (144 * blocks.length), prbsErrors := add48 l.cnt.prbsErrors errs }
    acq := { l.acq with winFails := l.acq.winFails + errs, winFrames := l.acq.winFrames + 1 } }

/-- A superframe of a count has been received with the lane framed: at stage C or in S200 a line lane decodes, counts and forwards it, and
a relay lane checks it; its marks are done with, and a far-end loop has it to send.  An engine or a port island that runs on FIRC carries
no traffic (R21, R197, R210, R213, R216, R244, R246). -/
def State.receiveFrame (s : State) (r : LaneRef) (count : Nat) (block : Nat) (rx : RxFrame) : State :=
  match r with
  | .line n =>
    let st := s.lanes[n].acq.stage
    let s1 := if s.engineRuns s.lanes[n].eq.engine then
        let ws := s.decodeFrame n rx.samples
        let s1 := if s.counting r then
            let s1 := s.countFrame n ws
            if s.lanes[n].rx.forwarding && s.portRuns n then (if st = .s200 then s1.forwardS200 n ws else s1.forwardFrame n count ws).patchPassed n count else s1
          else s
        s1.modLane r fun l => { l with
          eq := { l.eq with path := detectPath (decide (st = .a)) l.eq.h1 l.eq.h2 l.eq.path rx.samples }
          rx := { l.rx with looped := if s.farLoop r then s.hardBlocks n rx.samples else [] } }
      else s
    s1.modLane r fun l => { l with rx := { l.rx with marks := (l.rx.marks.filter (st.words + 1 ≤ ·)).map (· - (st.words + 1)) } }
  | .relay _ =>
    let s1 := if (s.lane r).acq.state = .negotiate ∨ (s.lane r).acq.state = .locked ∨ (s.lane r).acq.state = .retrain then s.checkRelay r count rx.blocks else s
    s1.modLane r fun l => { l with rx := { l.rx with looped := if s.farLoop r then rx.blocks ++ [block] else [] } }

end Sys2Proof.Machine
end

