-- ==== Sys2Proof/Machine/Markers.lean ====
section
/-! DEFINITION. Markers as they leave and arrive: composition, departure stamps, judgement, delivery, and the time and
Rill data they carry. -/
namespace Sys2Proof.Machine

/-! ### Markers sent (R178 to R195) -/

/-- LANE_ID sent and expected on a lane (Table 5.4, R242). -/
def LaneRef.laneId : LaneRef → Nat
  | .line n => n.val
  | .relay n => n.val % 2

/-- A departing time marker is stamped: it leaves unsquelched, or under no squelch but that of a loop measurement (R172, R189). -/
def State.stampsDeparture (s : State) (r : LaneRef) : Bool :=
  let l := s.lane r
  (l.tx.driving || (l.time.xfer.isSome && l.txActive)) && !s.farLoop r && l.tx.clocked

/-- The pair marker of a round-trip marker departing now: the latest arrival at least 100 ns old and within the last 64
time-marker periods (R293, R295). -/
def State.pairMarker (s : State) (r : LaneRef) : Option MarkerStamp :=
  (s.lane r).time.arrivals.find? fun a =>
    decide (a.at' + nsec 100 ≤ s.now ∧ s.now ≤ a.at' + 64 * (16 * framePeriod r (s.lane r).tx.stage))

/-- ARR_Q and TURN_C of a round-trip marker departing with a stamp; none where PAIR_VALID is 0 (R293, R295). -/
def State.turnFor (s : State) (r : LaneRef) (dep : Stamp) : Option (Nat × Nat) :=
  match s.pairMarker r with
  | none => none
  | some a =>
    let turn := turnOf dep.time a.stamp.time (s.txFibre r) (s.rxFibre r)
    if dep.valid ∧ a.stamp.valid ∧ a.step = s.tb.steps ∧ (s.lane r).tx.stage = .c ∧ 0 ≤ turn ∧ turn ≤ 0xFFFFFFFF then
      some (a.q, turn.toNat)
    else none

/-- TP_DATA of a time marker (Table 8.1). -/
def State.tpData (s : State) (r : LaneRef) (q : Nat) : Nat :=
  let x := (s.lane r).time
  let turn := fun m : Nat => (x.turns.find? fun y => decide (y.1 = m)).bind Prod.snd
  if q % 2 = 1 then
    let p := turn (q - 1)
    pack [((clampInt 0 0xFFFFF (roundDiv (s.txFibre r) 8)).toNat, 20), (flag x.calValid, 1), (flag s.tb.timeValid, 1),
      (flag p.isSome, 1), ((p.map Prod.fst).getD 0, 9)]
  else ((turn ((q + 498) % 500)).map Prod.snd).getD 0

/-- The payload of a time marker (Table 5.5): the departure stamp of the time marker before it, and TP_DATA. -/
def State.timePayload (s : State) (r : LaneRef) (q : Nat) : Nat :=
  let tp := s.tpData r q
  match (s.lane r).time.lastDep with
  | some (q', st) =>
    if q' = (q + 499) % 500 ∧ st.valid = true then
      pack [(tp, 32), (0, 1), (1, 1), (st.time % 65536, 16), (st.time / 65536 % 1000000000, 30), (st.time / 65536000000000, 16)]
    else tp
  | none => tp

/-- The payload of a lane-control marker (Table 5.6). -/
def Lane.ctlPayload (l : Lane) : Nat :=
  let m := l.tx.msgs.headD (0, 0)
  pack [(m.2, 64), (0, 2), (l.rx.rxSeq.getD 0, 6), (l.tx.msgSeq, 6), (0, 1), (flag l.acq.innerOk, 1), (flag l.tx.tuneDone, 1),
    (flag (decide (1 < l.tx.restart)), 1), (l.tx.stage.code, 2), (l.acq.state.code, 4), (m.1, 8)]

/-- The payload of the Rill data marker a lane sends, and the state after it: nothing on a lane that does not carry Rill,
or with Rill out of service (R195, R327, R337). -/
def State.dataPayload (s : State) (r : LaneRef) : Nat × State :=
  match s.portOf r with
  | none => (0, s)
  | some p =>
    if s.rill.links[p].lane = some r.within ∧ s.active.rill.enable = true then
      let x := s.rill.links[p].dataPayload s.now
      (x.1, s.modLink p fun _ => x.2)
    else (0, s)

/-- The departure of a time marker: its stamp at the DAC output, which the skew in force delays (R163, Table 1.2), and for an even Q its pair (R188, R189, R293, R296). -/
def State.departTime (s : State) (r : LaneRef) (q index : Nat) : State :=
  let st : Stamp :=
    let x := s.stampPos r (s.lane r).tx.stage ((s.lane r).txPos index)
    ⟨x.time, x.valid && s.stampsDeparture r⟩
  let turn := s.turnFor r st
  s.modLane r fun l => { l with time := { l.time with
    lastDep := some (q, st), departures := (⟨q, st, s.now, s.tb.steps⟩ :: l.time.departures).take 64
    turns := if q % 2 = 0 then ((q, turn) :: l.time.turns).take 4 else l.time.turns } }

/-- A step not agreed in time is dropped; its proposer proposes again (R192). -/
def State.checkStep (s : State) (r : LaneRef) : State :=
  let tx := (s.lane r).tx
  match tx.step with
  | some g =>
    if g.agreed then s
    else if g.proposer ∧ countAhead g.txAt tx.count ≤ 16 then
      if s.mayStep r then s.propose r else s.modLane r fun l => { l with tx := { l.tx with step := none } }
    else if g.proposer = false ∧ countAhead g.txAt tx.count ≤ 8 then s.modLane r fun l => { l with tx := { l.tx with step := none } }
    else s
  | none => s

/-- The skew moves one step toward its target (R163). -/
def slewStep (applied target : Int) : Int := if applied < target then applied + 1 else if target < applied then applied - 1 else applied

/-- The output of a lane drives from a marker on: no squelch source is active, and a far-end loop has CDR lock (R172, Table 6.9). -/
def State.mayDrive (s : State) (r : LaneRef) : Bool := !(s.lane r).tx.squelch.any && (!s.farLoop r || (s.lane r).acq.cdrLock)

/-- What the end of a transmitted superframe does beside its marker: the count advances, RESTART runs out, the skew
slews, and an output whose last squelch source has gone drives again (R139, R163, R172, R179).  DESIGN CHOICE (log 146): a slew in progress
goes on where the lane has left LOCKED or has stopped driving. -/
def State.endSuperframe (s : State) (r : LaneRef) : State :=
  s.modLane r fun l => { l with tx := { l.tx with
    count := nextCount l.tx.count
    markAt := some s.now
    restart := if 1 < l.tx.restart then l.tx.restart - 1 else l.tx.restart
    skewApplied := slewStep l.tx.skewApplied l.tx.skewTarget
    driving := s.mayDrive r } }

/-- A lane whose superframe ends now: its island runs on its clock, and the end of no other superframe falls in this instant. -/
def State.sendsNow (s : State) (r : LaneRef) : Bool := (s.lane r).tx.clocked && decide ((s.lane r).tx.markAt ≠ some s.now)

/-- The payload of the marker that closes the superframe of a lane, by its count, and the state after it is formed: a time marker is stamped
as it departs (Table 5.1, R180). -/
def State.markerPayloadOut (s : State) (r : LaneRef) (index : Nat) : Nat × State :=
  let n := (s.lane r).tx.count
  match markerType n with
  | .time => (s.timePayload r (n / 16), s.departTime r (n / 16) index)
  | .control => ((s.lane r).ctlPayload, s)
  | .data => s.dataPayload r

/-- The marker block that a lane sends, its SYNC inverted while kind 4 injects (Table 5.4, R218). -/
def LaneTx.markerOut (tx : LaneTx) (laneId payload : Nat) : Nat :=
  let block := markerBlock tx.count laneId payload
  if 0 < tx.injLeft then block ^^^ (0xFFFF * 2 ^ 128) else block

/-- The end of one lane's superframe: in N425 and on a relay lane it goes out with its marker, whose type its count fixes; in S200 with the
alignment marker of IEEE 802.3dj; and in a far-end loop what has been received goes out in its place (R178 to R195, R213, R217, R218, R242,
R246). -/
def State.sendSuperframe (s : State) (r : LaneRef) (index : Nat) : State :=
  if s.sendsNow r = false then s
  else if s.farLoop r then (s.sendLooped r).endSuperframe r
  else if (s.lane r).tx.stage = .s200 then (s.sendFrame r (Config.s200Marker r.within)).endSuperframe r
  else
    let x := s.markerPayloadOut r index
    ((x.2.sendFrame r ((s.lane r).tx.markerOut r.laneId x.1)).checkStep r).endSuperframe r

/-- The lanes whose superframes end with that of a lane: those whose framers share its transmit clock source (R34). -/
def State.senders (s : State) : LaneRef → List LaneRef
  | .line n => if s.lanes[n].tx.stage = .s200 then [.line n] else (s.clockMates n).map LaneRef.line
  | .relay n => [.relay n]

/-- The codeword pairs that the host has supplied to the slice of a line lane during its superframe, or in S200 to the port that its slice
leads, pass their monitor (R208, R240). -/
def State.takePairs (s : State) (r : LaneRef) (host : List (List Nat)) : State :=
  match r with
  | .line n => if s.sendsNow r && !(s.flowSlices n).isEmpty then s.takeHostPairs n (host.getD n.val []) else s
  | .relay _ => s

/-- The lead slices of the ports of some line lanes. -/
def State.leadsOf (s : State) (rs : List LaneRef) : List (Fin 8) :=
  (rs.filterMap fun x => match x with | .line n => some (leadOf s.grouping n) | .relay _ => none).eraseDups

/-- TX_MARKER: a superframe ends with its marker, on a line lane together with those of the lanes that share its transmit clock source
(R34, R178); `of` is the lane and the superframe that it sent. -/
def execTxMarker (t : Instant) (of : LaneRef × TxFrame) (s : State) : Out :=
  let r := of.1
  let tx := of.2
  let s := s.advanceTo t
  if s.sendsNow r then
    let rs := s.senders r
    let s1 := (s.forEach rs fun x s => s.takePairs x tx.host).forEach (s.leadsOf rs) fun n s => s.patchLine n
    .next (s1.forEach rs fun x s => s.sendSuperframe x tx.pos).judgeRill
  else .next s

/-! ### Markers received (R186, R187, R191) -/

/-- The receiver looks for markers. -/
def Lane.seesMarkers (l : Lane) : Bool :=
  decide (l.acq.state = .frameLock ∨ l.acq.state = .negotiate ∨ l.acq.state = .step ∨ l.acq.state = .locked ∨ l.acq.state = .retrain)

/-- LANE_ID of a good marker is judged (R187). -/
def LaneRxMarker.judgeId (x : LaneRxMarker) (right : Bool) : LaneRxMarker :=
  if right then
    let k := x.laneIdGood + 1
    { x with laneIdGood := k, laneOrder := x.laneOrder && decide (k < 16) }
  else { x with laneIdGood := 0, laneOrder := true }

/-- The status fields and acknowledgement of a received lane-control payload; tuning of this end's taps ends where the far end reports it
complete (Table 5.6, R159, R191). -/
def Lane.takeControl (l : Lane) (p : Nat) : Lane :=
  let acked := decide (bits p 66 6 = l.tx.msgSeq) && !l.tx.msgs.isEmpty
  let rest := l.tx.msgs.drop 1
  let step := match l.tx.step with
    | some g => if acked && !g.proposer && decide (g.msgSeq = l.tx.msgSeq ∧ 8 ≤ countAhead g.txAt l.tx.count ∧ countAhead g.txAt l.tx.count < 4000) then some { g with agreed := true } else some g
    | none => none
  { l with
    rx := { l.rx with
      farState := bits p 84 4, farStage := bits p 82 2, farRestart := bit p 81, farTuneDone := bit p 80, farInnerOk := bit p 79
      rxAck := bits p 66 6, rxSeq := if ctlType p = 0 then l.rx.rxSeq else some (bits p 72 6) }
    tx := { l.tx with
      msgs := if acked then rest else l.tx.msgs
      msgSeq := if acked && !rest.isEmpty then (l.tx.msgSeq + 1) % 64 else l.tx.msgSeq, step
      tuned := l.tx.tuned || (bit p 80 && decide (l.acq.state = .negotiate ∧ l.acq.stage = .c)) } }

/-- The arrival stamp of a marker, at the ADC input: none is valid on a host lane in a far-end loop (Table 1.2, R25, R222). -/
def State.arrivalStamp (s : State) (r : LaneRef) (index : Nat) : Stamp :=
  let x := s.stampPos r (s.lane r).acq.stage (s.rxPos r index)
  ⟨x.time, x.valid && (r.isLine || !s.farLoop r)⟩

/-- A time marker of the lane's own stream comes back in the measurement phase: its arrival less its departure joins the mean that LOOP is,
until 65,536 have (R306). -/
def LaneTime.addLoop (x : LaneTime) (a : MarkerStamp) : LaneTime :=
  if x.xfer = some .measure ∧ x.loopCnt < 65536 then
    match x.departures.find? fun d => decide (d.q = a.q) with
    | some d =>
      if a.stamp.valid && d.stamp.valid && decide (d.step = a.step) then
        { x with loopSum := x.loopSum + ((a.stamp.time : Int) - d.stamp.time), loopCnt := x.loopCnt + 1 }
      else x
    | none => x
  else x

/-- The arrival of a time marker is kept, whether or not its payload is good (R135, R186, R295). -/
def State.keepArrival (s : State) (r : LaneRef) (a : MarkerStamp) : State :=
  s.modLane r fun l => { l with time := { l.time.addLoop a with lastArrival := some a, arrivals := (a :: l.time.arrivals).take 64 } }

/-- The marker counters of a lane count now: those of a line lane as its others, and those of a relay lane whenever it looks for markers
(R216, R259). -/
def State.countsMarkers (s : State) (r : LaneRef) : Bool := s.counting r || !r.isLine

/-- A good marker is taken: count, lane identity, status, and its payload for the row of its type; a repeated message and
one of a reserved type are not delivered again (R186, R187, R191). -/
def State.takeGood (s : State) (r : LaneRef) (b index : Nat) : State :=
  let l := s.lane r
  let n := markerCount b
  let p := markerPayload b
  let jump := l.rx.seen && decide (n ≠ nextCount l.rx.count)
  let repeated := decide (ctlType p = 0 ∨ 9 < ctlType p ∨ l.rx.rxSeq = some (bits p 72 6))
  let inbox : Option Inbox := if markerType n = .control ∧ repeated = true then none else some { count := n, payload := p, arrival := s.arrivalStamp r index, at' := s.now, step := s.tb.steps }
  let s1 := s.modLane r fun l => { l with
    rx := { (l.rx.judgeId (decide (markerLane b = r.laneId))) with count := n, seen := true, missing := 0, inbox }
    cnt := { l.cnt with countJumps := satAdd 32 l.cnt.countJumps (flag (jump && s.countsMarkers r)) } }
  if markerType n = .control then s1.modLane r fun l => l.takeControl p else s1

/-- A lane that enters NEGOTIATE with a HELLO of this bring-up already taken proposes a step where its end has the lower serial number
(R192, R193). -/
def State.proposeKnown (s : State) (r : LaneRef) : State :=
  match (s.lane r).rx.peer with
  | some peer => if s.mayStep r && (s.lane r).tx.step.isNone && decide (s.sys.serial ≤ peer) then s.propose r else s
  | none => s

/-- A marker found in FRAME_LOCK or RETRAIN, or a lane held for its own transmitter, may move the lane (R127, R131, R138,
R144). -/
def State.foundMarker (s : State) (r : LaneRef) : State :=
  let l := s.lane r
  let need := if s.isS200 r then max 1 Config.s200LockMarkers else 4
  if l.acq.state = .frameLock then
    if need ≤ l.acq.found then
      if l.acq.stage = .s200 then s.toState r .locked .s200 0x01
      else if l.txActive || l.time.xfer.isSome then (s.toState r .negotiate l.acq.stage 0x01).proposeKnown r
      else s.modLane r fun l => { l with acq := { l.acq with holding := true, lastExit := 0x09 } }
    else s
  else if l.acq.state = .retrain ∧ need ≤ l.acq.found then
    (s.modLane r fun l => { l with acq := { l.acq with relocked := true } }).tryRestored r
  else s

/-- The judgement of a received marker: of the block, or in S200, whose alignment marker carries no payload for the device, by the rules
of the standard (R144, R186, R212, R213). -/
def State.judge (s : State) (r : LaneRef) (block : Nat) (found : Bool) : Judgement :=
  if s.isS200 r then (if found then .corrupt else .missing) else judgeMarker block ((s.lane r).rx.marks.contains 1024)

/-- What a marker's place in the stream brings, whatever the block holds: timing recovery has run up to it, the superframe it closes is
received, its FFE outputs are those that RX_MONITOR judges next, shedding stage 5 takes hold, and a commit boundary falls (Table 1.4, R118, R178, R205). -/
def State.reachMarker (s : State) (r : LaneRef) (count block : Nat) (rx : RxFrame) : State :=
  ((s.trackClock r rx.cycles).receiveFrame r count block rx).modLane r fun l => { l with
    eq := { l.eq with depthForced := decide (5 ≤ s.sys.shedStage), outputs := lastOf 1048576 (l.eq.outputs ++ rx.samples) }
    rx := { l.rx with markAt := some s.now, stReached := l.rx.stReached || l.rx.farSt.any fun st => begunBy st (nextCount count) } }

/-- MARKER_RECEIVE: the block is judged missing, corrupt or good (R186); a missing one is counted and breaks the count of
markers found, a corrupt one keeps lock and its arrival, and a good one's payload is delivered.  RESTART, agreement on a step and the end
of NEGOTIATE follow from a lane-control marker (R127, R135, R139, R187, R191, R195).  DESIGN CHOICE (log 129): a lane held in FRAME_LOCK
for its own transmitter that then loses the markers stays held, its timeout stopped, and counts the markers found afresh. -/
def execMarkerReceive (t : Instant) (r : LaneRef) (block : Nat) (rx : RxFrame) (s : State) : Out :=
  let s := s.advanceTo t
  let l := s.lane r
  if l.seesMarkers = false then .next s
  else
    let expected := nextCount l.rx.count
    let isData := decide (markerType expected = .data)
    let judged := s.judge r block rx.found
    let s0 := s.reachMarker r (if judged = .good then markerCount block else expected) block rx
    match judged with
    | .missing =>
      let s1 := s0.modLane r fun l => { l with
        acq := { l.acq with found := 0 }
        rx := { l.rx with missing := l.rx.missing + 1, count := expected, laneIdGood := 0 }
        cnt := { l.cnt with markersMissing := satAdd 32 l.cnt.markersMissing (flag (s.countsMarkers r)) } }
      .next (if isData then s1.breakFrame r else s1)
    | .corrupt =>
      let s1 := s0.modLane r fun l => { l with
        acq := { l.acq with found := l.acq.found + 1 }
        rx := { l.rx with missing := 0, count := expected, seen := true, laneIdGood := 0 }
        cnt := { l.cnt with markerCrc := satAdd 32 l.cnt.markerCrc (flag (!s.isS200 r && s.countsMarkers r)) } }
      let s2 := if markerType expected = .time ∧ s.isS200 r = false then
          s1.keepArrival r ⟨expected / 16, s0.arrivalStamp r rx.pos, s.now, s.tb.steps⟩
        else s1
      .next ((if isData then s2.breakFrame r else s2).foundMarker r)
    | .good =>
      let s1 := (s0.takeGood r block rx.pos).modLane r fun l => { l with acq := { l.acq with found := l.acq.found + 1 } }
      let l1 := s1.lane r
      if markerType (markerCount block) = .control then
        if l1.rx.farRestart then .next (s1.toState r .signal (s.firstStage r) 0x06)
        else
          let s2 := s1.foundMarker r
          let s3 := match (s2.lane r).tx.step with
            | some g => if g.agreed = true ∧ s2.mayStep r = true then s2.toState r .step (s2.lane r).acq.stage 0x01 else s2
            | none => s2
          .next ((s3.tryLocked r).judgePorts.judgeRill)
      else .next ((s1.foundMarker r).judgePorts)

/-- RILL_DATA_MARKER: the bytes of a delivered Rill data payload enter the link's byte stream (R195, R327). -/
def execRillDataMarker (t : Instant) (r : LaneRef) (s : State) : Out :=
  let s := s.advanceTo t
  match (s.lane r).rx.inbox with
  | none => .next s
  | some i =>
    if markerType i.count = .data then
      let s1 := s.taken r
      match s1.portOf r with
      | some p => .next (s1.modLink p fun l => l.takeData r.within i.payload)
      | none => .next s1
    else .next s

/-! ### Time markers received (R293 to R301, R311) -/

/-- The far end's description in an odd-Q time marker is taken (Table 8.1). -/
def State.takeDescription (s : State) (r : LaneRef) (tp : Nat) (pair : Option (MarkerStamp × Nat)) : State :=
  s.modLane r fun l => { l with time := { l.time with
    farTimeValid := bit tp 21, farCalValid := bit tp 20, farTxFibre := (bits tp 0 20 : Nat) * 8, farPair := pair } }

/-- TURN_C in an even-Q time marker completes a round trip, whose local departure is still held (R296, R297, R299). -/
def State.takeTurn (s : State) (r : LaneRef) (q tp : Nat) : State :=
  let x := (s.lane r).time
  match x.farPair with
  | none => s
  | some (a, arrQ) =>
    let s1 := s.modLane r fun l => { l with time := { l.time with farPair := none } }
    match (x.departures.find? fun d => decide (d.q = arrQ)) with
    | none => s1
    | some d =>
      if a.q = (q + 498) % 500 ∧ d.stamp.valid = true ∧ d.step = a.step ∧ s.eligible r = true then
        let sum := lSumOf a.stamp.time d.stamp.time x.rxFibre x.txFibre tp
        s1.modLane r fun l => { l with time := { l.time with
          lSum := some (sum, a.stamp.time), lSumAt := a.at', delayIn := (roundDiv (sum + x.asymLatched) 2).toNat } }
      else s1

/-- A lane is still in the combination that it was in at the last update (R269, Table 8.2). -/
def State.stillIn (s : State) (r : LaneRef) : Bool :=
  let l := s.lane r
  decide (l.time.status = 0) && s.eligible r && (s.roundTrip r).isSome && l.rx.peer.isSome && decide (l.rx.peer = s.groupPeer)

/-- The servo counts a time marker on the lowest-numbered lane of its group that is in the combination, or, with none,
that is LOCKED (R269); outside LOCK_LINE a lane counts its own (R301). -/
def State.countMarker (s : State) (r : LaneRef) : State :=
  if s.active.servo.source = .line then
    let g := s.servoLanes
    let ins := g.filter s.stillIn
    let locked := g.filter fun x => decide ((s.lane x).acq.state = .locked)
    if (ins ++ locked).head? = some r then { s with tb := { s.tb with markers := s.tb.markers + 1 } } else s
  else
    let s1 := s.modLane r fun l => { l with time := { l.time with ownMarkers := l.time.ownMarkers + 1 } }
    if 2 ^ s.active.servo.k ≤ (s1.lane r).time.ownMarkers then s1.closeInterval r 0x01 else s1

/-- A line lane takes part in the asymmetry run: eligible, enabled for estimation, with a known incoming wavelength
(R311, R313). -/
def State.asymLane (s : State) (n : Fin 8) : Bool :=
  s.eligible (.line n) && s.active.lineRx[n].asymEnable && decide (s.active.lineRx[n].wlIn ≠ 0)

/-- The lanes of the asymmetry run. -/
def State.asymLanes (s : State) : List (Fin 8) := (List.finRange 8).filter s.asymLane

/-- The run counts time markers on the lowest-numbered eligible lane that is enabled for estimation (R311). -/
def State.asymCounted (s : State) (r : LaneRef) : State :=
  let named := (List.finRange 8).filter fun n => s.eligible (.line n) && s.active.lineRx[n].asymEnable
  if named.head?.map LaneRef.line = some r then { s with tb := { s.tb with asymMarkers := s.tb.asymMarkers + 1 } } else s

/-- d_n of a time marker enters the run when every lane of the run holds the one of the same Q (R311, steps 1 and 2). -/
def State.countAsym (s : State) (n : Fin 8) (q : Nat) (d : Int) : State :=
  if s.asymLane n then
    let s2 := s.modLane (.line n) fun l => { l with time := { l.time with asymD := some (q, d) } }
    let used := s2.asymLanes
    let value := fun m : Fin 8 => match s2.lanes[m].time.asymD with | some (q', x) => if q' = q then some x else none | none => none
    match used.head?.bind value with
    | some ref =>
      if used.all fun m => (value m).isSome then
        s2.forEach used fun m s => s.modLane (.line m) fun l => { l with time := { l.time with
          asymSum := l.time.asymSum + ((value m).getD ref - ref), asymCnt := l.time.asymCnt + 1, asymD := none } }
      else s2
    | none => s2
  else s

/-- DEP_STAMP of a delivered time marker: the completed departure of the marker before it, with that marker's arrival; none where it is
not valid or that arrival is not held (R188, R294). -/
def State.departureOf (s : State) (r : LaneRef) (i : Inbox) : Option (Int × MarkerStamp) :=
  let last := (s.lane r).time.lastArrival.filter fun a => decide (a.q = (i.count / 16 + 499) % 500) && a.stamp.valid
  if bit i.payload 33 then
    last.map fun a => (completeTime (bits i.payload 80 16) (bits i.payload 50 30) (bits i.payload 34 16) a.stamp.time, a)
  else none

/-- TP_DATA of a delivered time marker is taken: the far end's description with an odd Q, and the end of a round trip with an even one
(Table 8.1, R295 to R299). -/
def State.takeTp (s : State) (r : LaneRef) (i : Inbox) (dep : Option (Int × MarkerStamp)) : State :=
  let tp := bits i.payload 0 32
  if i.count / 16 % 2 = 1 then
    s.takeDescription r tp (match dep with | some (_, a) => if bit tp 22 then some (a, bits tp 23 9) else none | none => none)
  else s.takeTurn r (i.count / 16) tp

/-- The offset sample of the marker before a delivered time marker: on an eligible lane with a round trip, where no time step has come
since (R300, R301). -/
def State.takeSample (s : State) (r : LaneRef) (dep : Option (Int × MarkerStamp)) : State :=
  match dep, s.roundTrip r with
  | some (d, a), some sum =>
    if s.eligible r = true ∧ a.step = s.tb.steps then
      s.modLane r fun l => { l with time := { l.time with
        samples := sampleOf a.stamp.time d l.time.rxFibre l.time.farTxFibre sum l.time.asymLatched :: l.time.samples } }
    else s
  | _, _ => s

/-- The asymmetry run takes d_n of the marker before a delivered time marker on a line lane (R311). -/
def State.takeAsym (s : State) (r : LaneRef) (prev : Nat) (dep : Option (Int × MarkerStamp)) : State :=
  match r, dep with
  | .line n, some (d, a) => s.countAsym n prev ((a.stamp.time - (s.lane r).time.rxFibre) - (d + (s.lane r).time.farTxFibre))
  | _, _ => s

/-- TIME_MARKER_ARRIVAL: a delivered time marker is stamped at the medium boundary; its DEP_STAMP describes the marker
before it and gives an offset sample, and the two markers that follow a round-trip marker give a round trip (R188, R293
to R301). -/
def execTimeMarkerArrival (t : Instant) (r : LaneRef) (s : State) : Out :=
  let s := s.advanceTo t
  match (s.lane r).rx.inbox with
  | none => .next s
  | some i =>
    if markerType i.count ≠ .time then .next s
    else
      let dep := s.departureOf r i
      let s1 := (((s.taken r).takeTp r i dep).takeSample r dep).takeAsym r ((i.count / 16 + 499) % 500) dep
      .next (((s1.asymCounted r).keepArrival r ⟨i.count / 16, i.arrival, i.at', i.step⟩).countMarker r)

end Sys2Proof.Machine
end

