-- ==== Sys2Proof/Machine/Transfer.lean ====
section
/-! DEFINITION. Time-transfer commands: calibration tables, the loop measurement, fibre asymmetry and the status of the
exchange. -/
namespace Sys2Proof.Machine

/-! ### Tables (R117, R177, R304, R313, R314) -/

/-- The five header words of a calibration table (Table 3.3, R177). -/
def tableHeader (w0 : Nat) (temp : Int) (count : Nat) (stamp : FTime) : List Byte :=
  wordsLe [w0, pack [(ofSigned 16 temp, 16), (count, 16)]] ++ timeWords stamp

/-- Table 0x01, the ADC table. -/
def adcTable (c : LaneCal) : List Byte :=
  tableHeader (pack [(0x01, 8), (c.parked, 8), (flag c.ascending, 1), (flag c.retired, 1)]) c.rxTemp 129 c.rxStamp ++
    wordsLe ((List.finRange 129).map fun (k : Fin 129) =>
      pack [(ofSigned 9 c.adcOffset[k], 9), (ofSigned 11 c.adcGain[k], 11), (ofSigned 11 c.adcSkew[k], 11), (flag c.adcRejected[k], 1)])

/-- Table 0x02, the front-end gain table. -/
def gainTableBytes (c : LaneCal) : List Byte :=
  tableHeader (pack [(0x02, 8), (c.parked, 8), (flag c.ascending, 1), (flag c.retired, 1)]) c.rxTemp 73 c.rxStamp ++
    (c.gainTable.toList.flatMap fun g => leBytes 2 (ofSigned 16 g)) ++ leBytes 2 0

/-- SQUELCH_CAUSE (Table 4.10). -/
def Squelch.cause (q : Squelch) : Nat :=
  pack [(flag q.notEnabled, 1), (flag q.txDisable, 1), (flag q.interlock, 1), (flag q.power, 1), (flag q.shed, 1),
    (flag q.thermal, 1), (flag q.calibration, 1)]

/-- Tables 0x10 to 0x12, the transmit tables (Table 4.10). -/
def State.txTable (s : State) (n : Fin 8) (table : Nat) : List Byte :=
  let l := s.lanes[n]
  let p := s.active.lineTx[n]
  match table with
  | 0x10 => tableHeader table l.cal.txTemp 4 l.cal.txStamp ++ wordsLe ((List.finRange 4).map fun (k : Fin 4) =>
      pack [(ofSigned 10 l.cal.dacOffset[k], 10), (ofSigned 11 l.cal.dacGain[k], 11), (ofSigned 11 l.cal.dacSkew[k], 11)])
  | 0x11 => tableHeader table l.cal.txTemp 64 l.cal.txStamp ++ (pdInForce s.active n).toList.map fun x => BitVec.ofNat 8 (ofSigned 8 x)
  | _ => tableHeader table 0 4 0 ++ wordsLe
      [pack [(l.tx.squelch.cause, 8), (flag p.clkLoop, 1), (p.clkLane.val, 3), (flag l.tx.clkHoldover, 1), (flag (decide (l.tx.skewApplied ≠ l.tx.skewTarget)), 1)],
       pack [(ofSigned 14 l.tx.skewApplied, 14), (0, 2), (ofSigned 14 l.tx.skewTarget, 14)], s.fsInForce n, l.tx.txClip]

/-- The ten entries of table 0x20 (Table 8.4).  ASYM_SOURCE tells an estimate from an entry: estimation is on, or the last estimates were
kept as it stopped (R310, R313). -/
def State.delayEntries (s : State) (n : Fin 8) : List Nat :=
  let x := s.lanes[n].time
  let p := s.active.lineRx[n]
  let pin := fun op el => s.active.pinned (.lineRx n) op el
  [x.loopRef, x.loopDelay, pack [(x.txShare, 16), (ofSigned 16 x.loopK, 16)], ofSigned 16 x.tempco, ofSigned 32 (s.txInt n),
   ofSigned 32 (s.rxInt n), p.txMod, p.rxMod, ofSigned 32 (s.asymOf (.line n)),
   pack [(flag x.calValid, 1), (flag ((p.asymEnable || x.asymEstimated) && !pin 0x4832 128), 1), (flag (pin 0x4831 128), 1), (flag (pin 0x4831 130), 1),
     (flag (pin 0x4832 128), 1), (flag x.lastRejected, 1)]]

/-- The twelve entries of table 0x22 (Table 8.9). -/
def State.asymEntries (s : State) : List Nat :=
  [pack [(s.tb.asymReason, 8), (s.tb.asymUsed, 8)], ofSigned 32 s.tb.asymSlope, ofSigned 32 s.tb.asymCurve, s.tb.asymResidual] ++
    (List.finRange 8).map fun n => ofSigned 32 (s.asymOf (.line n))

/-- The entries of table 0x21 for a relay port (R314). -/
def State.relayEntries (s : State) (p : Fin 8) : List Nat :=
  [hostLow p, hostHigh p].flatMap fun h => [ofSigned 32 s.active.host[h].asym, flag (s.active.pinned (.host h) 0x4832 128)]

/-- A calibration table, none for an unlisted number (R117). -/
def State.calTable (s : State) (n : Fin 8) (table : Nat) : Option (List Byte) :=
  let l := s.lanes[n]
  match table with
  | 0x01 => some (adcTable l.cal)
  | 0x02 => some (gainTableBytes l.cal)
  | 0x10 | 0x11 | 0x12 => some (s.txTable n table)
  | 0x20 => some (tableHeader table l.time.calTemp 10 l.time.calStamp ++ wordsLe (s.delayEntries n))
  | 0x21 => some (tableHeader table 0 4 0 ++ wordsLe (s.relayEntries n))
  | 0x22 => some (tableHeader table 0 12 s.tb.asymStamp ++ wordsLe s.asymEntries)
  | _ => none

/-- CAL_TABLE_READ; reading table 0x12 clears TX_CLIP (R117, R177, R304). -/
def cmdCalTableRead (_q : QId) (e : QEntry) (s : State) : Res :=
  let table := bits (e.w 0) 8 8
  match idx? 8 (bits (e.w 0) 0 3) with
  | none => .fail .badParam []
  | some n => checked e (· == 4) (rsv (e.w 0) 3 5 && rsvHigh (e.w 0) 16 && (s.calTable n table).isSome) fun _ =>
      .ok ((s.calTable n table).getD [])
        (if table = 0x12 then s.modLane (.line n) fun l => { l with tx := { l.tx with txClip := 0 } } else s)

/-- Row CAL_TABLE_READ. -/
def execCalTableRead (t : Instant) (q : QId) (s : State) : Out := .next (runCmd t q 0x2031 true cmdCalTableRead s)

/-! ### Status (R303) -/

/-- A signed 64-bit offset, saturating; the most negative value for none (Table 8.3). -/
def offset64 : Option Int → List Byte
  | none => leBytes 8 (2 ^ 63)
  | some x => leBytes 8 (ofSigned 64 (clampInt (-(2 ^ 63 - 1 : Int)) (2 ^ 63 - 1) x))

/-- The 24-byte record of a lane (Table 8.3). -/
def State.xferRecord (s : State) (r : LaneRef) : List Byte :=
  let x := (s.lane r).time
  wordsLe [pack [(r.num, 4), (flag !r.isLine, 1), (flag x.farTimeValid, 1), (flag x.farCalValid, 1), (0, 1), (x.status, 8), (x.count, 16)]] ++
    offset64 x.mean ++ leBytes 8 (x.delayIn % 2 ^ 48) ++ leBytes 4 x.rms

/-- XFER_STATUS (R303). -/
def cmdXferStatus (_q : QId) (e : QEntry) (s : State) : Res :=
  checked e (· == 4) (rsvHigh (e.w 0) 12) fun _ =>
    let p : Fin 8 := ⟨bits (e.w 0) 9 3, by simp only [bits]; omega⟩
    let lanes : List LaneRef := if bit (e.w 0) 8 then [.relay (hostLow p), .relay (hostHigh p)] else e.lanes.map .line
    .ok (wordsLe [pack [(s.tb.lanesIn, 4), (flag s.tb.combValid, 1), (flag s.tb.upstreamValid, 1)]] ++ offset64 s.tb.combined ++
      s.tb.updateStamp.bytes ++ lanes.flatMap s.xferRecord) s

/-- Row XFER_STATUS. -/
def execXferStatus (t : Instant) (q : QId) (s : State) : Out := .next (runCmd t q 0x4030 true cmdXferStatus s)

/-! ### The loop measurement (R306 to R309) -/

/-- XFER_CAL: after its checks the measurement begins with its claim; the reply comes at the end (R306, R309). -/
def cmdXferCal (_q : QId) (e : QEntry) (s : State) : Res :=
  match idx? 8 (bits (e.w 0) 0 3) with
  | none => .fail .badParam []
  | some n => checked e (· == 4) (rsvHigh (e.w 0) 3) fun _ =>
      let a := s.active
      if s.owners[lineLoopRes n].fn ≠ .none then .fail .resourceBusy []
      else if a.lineTx[n].s200 = true ∨ a.lineRx[n].s200 = true ∨ a.lineTx[n].txEn = false ∨ a.lineRx[n].rxEn = false ∨
          a.lineRx[n].loop ≠ 0 ∨ s.intPinned n = true ∨ s.lanes[n].acq.power ≠ .l0 then .fail .precondition []
      else
        let s1 := (s.claim (lineLoopRes n) .stampCal n.val).modLane (.line n) fun l => { l with
          tx := { l.tx with squelch := { l.tx.squelch with calibration := true }, driving := false }
          time := { l.time with xfer := some .claim, loopMeas := 0, loopSum := 0, loopCnt := 0 } }
        .wait s1.judgePorts

/-- Row XFER_CAL. -/
def execXferCal (t : Instant) (q : QId) (s : State) : Out := .next (runCmd t q 0x4031 false cmdXferCal s)

/-- The XFER_CAL entry that waits for a lane replies. -/
def State.completeXfer (s : State) (n : Fin 8) (st : Status) (payload : List Byte) : State :=
  match (s.q.all.find? fun e => decide (e.phase = .running ∧ e.cmd.op = 0x4031 ∧ bits (e.w 0) 0 3 = n.val)) with
  | some e => s.complete e.seq st payload
  | none => s

/-- The loop of a measurement is removed and its resource released (Table 8.5). -/
def State.releaseXfer (s : State) (n : Fin 8) : State :=
  (s.disown (lineLoopRes n) .stampCal).modLane (.line n) fun l => { l with
    tx := { l.tx with squelch := { l.tx.squelch with calibration := false } }
    time := { l.time with xfer := none, xferSettling := true } }

/-- The release of a measurement: the receive half of a lane that is neither disabled nor powered down brings up with the far end
(Table 8.5). -/
def State.endXfer (s : State) (n : Fin 8) : State :=
  let s1 := s.releaseXfer n
  if s.lanes[n].acq.state = .disabled ∨ s.lanes[n].acq.state = .still then s1 else s1.toState (.line n) .dark .a 0x07

/-- A measurement in progress is abandoned with its old values (R307). -/
def State.abandonXfer (s : State) (n : Fin 8) : State :=
  if s.lanes[n].time.xfer.isSome then (s.endXfer n).completeXfer n .precondition [] else s

/-- A measured loop delay lies within ±25 ps of the factory value at the die temperature (R307). -/
def loopOk (x : LaneTime) (loop : Nat) (temp : Int) : Bool :=
  let d := (loop : Int) * 10000000 - ((x.loopRef : Int) * 10000000 + x.tempco * (temp - 250) * 65536)
  decide (-16384000000 ≤ d ∧ d ≤ 16384000000)

/-- XFER_CAL_PHASE_END: a phase ends and the next begins.  The bring-up ends at stage C in LOCKED, and the measurement with its 65,536th
time marker, whose mean of arrival less departure is LOOP.  The last phase judges it and replies (Table 8.5, R306, R307). -/
def execXferCalPhaseEnd (t : Instant) (n : Fin 8) (s : State) : Out :=
  let s := s.advanceTo t
  let l := s.lanes[n]
  let setPhase := fun (p : XferPhase) (s : State) => s.modLane (.line n) fun l => { l with time := { l.time with xfer := some p } }
  match l.time.xfer with
  | none => .next s
  | some .claim => if l.acq.state = .still then .next s else .next ((setPhase .bringUp s).toState (.line n) .dark .a 0x07)
  | some .bringUp => if l.acq.state = .locked ∧ l.acq.stage = .c then .next (setPhase .measure s) else .next s
  | some .measure =>
    if l.time.loopCnt = 65536 then
      .next ((setPhase .release s).modLane (.line n) fun l => { l with time := { l.time with
        loopMeas := (roundDiv l.time.loopSum 65536).toNat, loopTemp := s.laneTemp (.line n) } })
    else .next s
  | some .release =>
    let m := l.time.loopMeas
    let ok := loopOk l.time m l.time.loopTemp
    let s1 := s.modLane (.line n) fun l => { l with time :=
      if ok then { l.time with loopDelay := m, calTemp := l.time.loopTemp, calStamp := s.fnow, calValid := true, lastRejected := false }
      else { l.time with lastRejected := true } }
    let s2 := if ok then s1 else s1.logEntry 0x0302 0 1 (Block.lineRx n).id [pack [(0x4031, 16), (0, 8), (n.val, 8)]]
    let s3 := s2.endXfer n
    .next (s3.completeXfer n .ok (wordsLe ([flag !ok, m] ++ s3.delayEntries n)))

/-- XFER_CAL expert writes and pins fixed delays; a value outside its range is refused whether or not WRITE_MASK selects it (R308). -/
def cmdXferCalExpert (_q : QId) (e : QEntry) (s : State) : Res :=
  let tx := toSigned 32 (e.w 1)
  let rx := toSigned 32 (e.w 2)
  let wi := bit (e.w 0) 8
  let wm := bit (e.w 0) 9
  match idx? 8 (bits (e.w 0) 0 3) with
  | none => .fail .badParam []
  | some n => checked e (· == 20)
      (rsv (e.w 0) 3 5 && rsvHigh (e.w 0) 10 && decide (-131072 ≤ tx ∧ tx ≤ 131072 ∧ -131072 ≤ rx ∧ rx ≤ 131072) &&
        decide (e.w 3 ≤ 6553600 ∧ e.w 4 ≤ 6553600)) fun _ =>
      let s1 := if wi then (s.rxExpert n 0x4831 128 fun p => { p with txInt := tx }).rxExpert n 0x4831 129 fun p => { p with rxInt := rx } else s
      let s2 := if wm then (s1.rxExpert n 0x4831 130 fun p => { p with txMod := e.w 3 }).rxExpert n 0x4831 131 fun p => { p with rxMod := e.w 4 } else s1
      .ok (wordsLe ([0, 0] ++ s.delayEntries n)) s2

/-- Row XFER_CAL_EXPERT. -/
def execXferCalExpert (t : Instant) (q : QId) (s : State) : Out := .next (runCmd t q 0x4831 false cmdXferCalExpert s)

/-! ### Fibre asymmetry (R310 to R313) -/

/-- ASYMMETRY: enable, order and wavelengths of the lanes named (R313). -/
def cmdAsymmetry (_q : QId) (e : QEntry) (s : State) : Res :=
  checked e (· == 36) (rsvHigh (e.w 0) 10) fun _ =>
    .ok (wordsLe s.asymEntries) (s.forEach e.lanes fun n s => s.modShadow (Bank.rx n fun p => { p with
      asymEnable := bit (e.w 0) 8, asymOrder := bit (e.w 0) 9, wlIn := bits (e.w (1 + n.val)) 0 16, wlOut := bits (e.w (1 + n.val)) 16 16 }))

/-- Row ASYMMETRY. -/
def execAsymmetry (t : Instant) (q : QId) (s : State) : Out := .next (runCmd t q 0x4032 false cmdAsymmetry s)

/-- ASYMMETRY expert writes and pins the ASYM of one lane (R313). -/
def cmdAsymmetryExpert (_q : QId) (e : QEntry) (s : State) : Res :=
  let a := toSigned 32 (e.w 1)
  let k := bits (e.w 0) 0 4
  checked e (· == 8) (rsvHigh (e.w 0) 5 && decide (-65536000 ≤ a ∧ a ≤ 65536000) && (bit (e.w 0) 4 || decide (k < 8))) fun _ =>
    if bit (e.w 0) 4 then
      match idx? 16 k with
      | some h => .ok [] (s.writeExpert (.host h) 0x4832 128 fun b => { b with host := upd b.host h fun p => { p with asym := a } })
      | none => .fail .badParam []
    else
      match idx? 8 k with
      | some n => .ok [] (s.rxExpert n 0x4832 128 fun p => { p with asym := a })
      | none => .fail .badParam []

/-- Row ASYMMETRY_EXPERT. -/
def execAsymmetryExpert (t : Instant) (q : QId) (s : State) : Out := .next (runCmd t q 0x4832 false cmdAsymmetryExpert s)

/-- A point of the fit: incoming wavelength less the mean, in nm, and mean delay difference, in ps. -/
abbrev FitPoint := Rat × Rat

/-- Σ xⁱ·yʲ over the points. -/
def moment (ps : List FitPoint) (i j : Nat) : Rat := (ps.map fun p => p.1 ^ i * p.2 ^ j).sum

/-- The least-squares fit a + b·x + c·x² about x with mean 0; c is 0 for the linear order (R311, step 3). -/
def fit (ps : List FitPoint) (quadratic : Bool) : Rat × Rat × Rat :=
  let n : Rat := ps.length
  let s2 := moment ps 2 0
  let s3 := moment ps 3 0
  let c := if quadratic then
      (moment ps 2 1 - s2 * moment ps 0 1 / n - s3 * moment ps 1 1 / s2) / (moment ps 4 0 - s2 * s2 / n - s3 * s3 / s2)
    else 0
  ((moment ps 0 1 - c * s2) / n, (moment ps 1 1 - c * s3) / s2, c)

/-- The mean square residual of a fit, in ps². -/
def fitResidual (ps : List FitPoint) (f : Rat × Rat × Rat) : Rat :=
  (ps.map fun p => (p.2 - (f.1 + f.2.1 * p.1 + f.2.2 * p.1 ^ 2)) ^ 2).sum / (ps.length : Nat)

/-- The ASYM of wavelengths about the mean, in ps (R311, step 4). -/
def asymFit (f : Rat × Rat × Rat) (xin xout : Rat) : Rat := f.2.1 * (xin - xout) + f.2.2 * (xin ^ 2 - xout ^ 2)

/-- Every two of a list of numbers lie within a bound of each other. -/
def spreadWithin (xs : List Int) (d : Int) : Bool := xs.all fun x => xs.all fun y => decide (x - y ≤ d)

/-- The lanes that the run uses: those of the estimate that took part in its markers (R311). -/
def State.asymUsedLanes (s : State) : List (Fin 8) := s.asymLanes.filter fun n => decide (s.lanes[n].time.asymCnt ≠ 0)

/-- A wavelength about the mean of the run's incoming ones, in nm. -/
def State.asymNm (s : State) (w : Nat) : Rat :=
  let wls := s.asymUsedLanes.map fun n => s.active.lineRx[n].wlIn
  ((w : Rat) - (wls.sum : Rat) / (wls.length : Nat)) / 100

/-- The order of the run is quadratic, as its lowest-numbered lane has it. -/
def State.asymQuadratic (s : State) : Bool := match s.asymUsedLanes with | n :: _ => s.active.lineRx[n].asymOrder | [] => false

/-- The points of the fit: one for each lane of the run (R311, step 2). -/
def State.asymPoints (s : State) : List FitPoint :=
  s.asymUsedLanes.map fun n => (s.asymNm s.active.lineRx[n].wlIn,
    (s.lanes[n].time.asymSum : Rat) / ((max 1 s.lanes[n].time.asymCnt : Nat) : Rat) * 1000 / 65536)

/-- Why the run is invalid, 0 where it is valid, given its fit and residual (R312, Table 8.7). -/
def State.asymJudge (s : State) (f : Rat × Rat × Rat) (res : Rat) : Nat :=
  let p := fun n : Fin 8 => s.active.lineRx[n]
  let x := fun n : Fin 8 => s.lanes[n].time
  let used := s.asymUsedLanes
  let wls := used.map fun n => (p n).wlIn
  let lo := wls.foldl min 65535
  let hi := wls.foldl max 0
  let outs := (((List.finRange 8).filter fun n => (p n).asymEnable).map fun n => (p n).wlOut).filter (· ≠ 0)
  if (List.finRange 8).all fun n => !(p n).asymEnable then 0x01
  else if wls.eraseDups.length < (if s.asymQuadratic then 4 else 3) then 0x02
  else if hi - lo < 800 then 0x03
  else if outs.any fun w => decide (2 * w + (hi - lo) < 2 * lo ∨ 2 * hi + (hi - lo) < 2 * w) then 0x04
  else if used.any fun n => !(x n).calValid || !(x n).farCalValid then 0x05
  else if !spreadWithin (used.filterMap fun n => (x n).lSum.map Prod.fst) 65536 then 0x06
  else if (1 : Rat) / 4 < res then 0x07
  else if f.2.1 < -200 ∨ 200 < f.2.1 then 0x08
  else 0x00

/-- The lanes that a valid run gives an ASYM: those enabled for estimation whose wavelengths are known and whose ASYM is not pinned,
whether or not the run used them (R310, R311, R313). -/
def State.asymGiven (s : State) : List (Fin 8) :=
  (List.finRange 8).filter fun n =>
    let p := s.active.lineRx[n]
    p.asymEnable && decide (p.wlIn ≠ 0 ∧ p.wlOut ≠ 0) && !s.active.pinned (.lineRx n) 0x4832 128

/-- ASYM_ESTIMATE_RUN: after 2¹⁸ time markers the delays are fitted by wavelength; a valid run gives lanes their ASYM, an invalid one leaves
them and reports its reason (R311, R312).  DESIGN CHOICE (log 70): RESIDUAL is the root cut to whole fs. -/
def execAsymEstimateRun (t : Instant) (s : State) : Out :=
  let s := s.advanceTo t
  if s.tb.asymMarkers < 2 ^ 18 then .next s
  else
    let used := s.asymUsedLanes
    let f := fit s.asymPoints s.asymQuadratic
    let res := fitResidual s.asymPoints f
    let reason := s.asymJudge f res
    let s1 := { s with tb := { s.tb with
      asymReason := reason, asymUsed := idxMask used, asymStamp := s.fnow, asymMarkers := 0
      asymSlope := roundRat (f.2.1 * 1000), asymCurve := roundRat (f.2.2 * 1000), asymResidual := Nat.sqrt (res * 1000000).floor.toNat } }
    let s2 := if reason = 0 then
        s1.forEach s.asymGiven fun n s' =>
          s'.modLane (.line n) fun l => { l with time := { l.time with
            asym := roundRat (asymFit f (s.asymNm s.active.lineRx[n].wlIn) (s.asymNm s.active.lineRx[n].wlOut) * 65536 / 1000), asymEstimated := true } }
      else s1
    .next (s2.forEach (List.finRange 8) fun n s => s.modLane (.line n) fun l => { l with time := { l.time with asymSum := 0, asymCnt := 0, asymD := none } })

end Sys2Proof.Machine
end

