-- ==== Sys2Proof/Machine/Host.lean ====
section
/-! DEFINITION. Host lanes: their commands, the bring-up of AUI mode, and the rate matchers. -/
namespace Sys2Proof.Machine

/-- State codes (Table 6.4). -/
def HostState.code : HostState → Nat
  | .dark => 0x0 | .train => 0x1 | .step => 0x2 | .align => 0x3 | .active => 0x4 | .recover => 0x5 | .test => 0x6
  | .quiet => 0xA | .still => 0xD | .disabled => 0xF

/-- A change of a host lane's parameters in a bank. -/
def Bank.hl (n : Fin 16) (f : HostP → HostP) (k : Bank) : Bank := { k with host := upd k.host n f }

/-- LANE_MASK in W0 [15:0]: the selected host lanes, ascending. -/
def QEntry.hosts (e : QEntry) : List (Fin 16) := maskIdx 16 (bits (e.w 0) 0 16)

/-! ### Receive equalisation (R224, R225) -/

/-- The receive equalisation of a lane adapts: it is not frozen, and the lane receives with its equalisation not held (R138, R225,
R228). -/
def State.hostAdapts (s : State) (k : Bank) (n : Fin 16) : Bool :=
  decide (k.host[n].adapt ≠ 2) &&
    (if k.host[n].relay then decide (s.relays[n].acq.state ≠ .dark ∧ s.relays[n].acq.state ≠ .retrain ∧ s.relays[n].acq.state ≠ .still ∧
        s.relays[n].acq.state ≠ .disabled)
     else decide (s.hosts[n].state = .train ∨ s.hosts[n].state = .step ∨ s.hosts[n].state = .align ∨ s.hosts[n].state = .active ∨
        s.hosts[n].state = .test))

/-- A host lane with its receive values in force now: a pinned one as it is written in the active set, and, while adaptation with the
sets `k` runs, any other a free value (R225). -/
def State.hostEqNow (s : State) (k : Bank) (n : Fin 16) (c : Nat) : HostLane :=
  let h := s.hosts[n]
  let p := s.active.host[n]
  let run := s.hostAdapts k n
  let pin := s.active.pinned (.host n) 0x3810
  { h with
    eqPeak := if pin 133 then p.ctlePeak else if run then Config.reading 0x6133 c % 32 else h.eqPeak
    eqDc := if pin 134 then p.ctleDc else if run then Config.reading 0x6134 c % 8 else h.eqDc
    eqDfe := if pin 135 then p.dfe else if run then toSigned 10 (Config.reading 0x6135 c) else h.eqDfe
    eqFfe := vmap h.eqFfe fun j w => if pin j.val then p.rxFfe[j] else if run then toSigned 10 (Config.reading (0x6140 + j.val) c) else w }

/-- The receive values in force are kept as they are now (R225): adaptation with the sets `k` ends, or pins have changed. -/
def State.hostHold (s : State) (k : Bank) (n : Fin 16) : State :=
  { s with free := s.free + 1 }.modHost n fun _ => s.hostEqNow k n s.free

/-! ### TEST (R231) -/

/-- Bits that a host lane carries at a rate in a span of elapsed time. -/
def hostBits (rate d : Nat) : Nat := d * (hostPeriod rate).2 * 1048576 / (hostPeriod rate).1

/-- In TEST a lane sends PRBS31, and every bit received is checked against it and the errors are counted; the bits that the host sends are
free values (R231). -/
def State.hostTested (s : State) (n : Fin 16) : State :=
  let h := s.hosts[n]
  if h.state = .test ∧ s.isRelay n = false then
    let b := hostBits h.rate (s.now - h.testAt)
    let expected := prbsBits b h.testRx
    let errs := popcount b (expected.1 ^^^ Config.reading 0x6231 s.free % 2 ^ b)
    { s with free := s.free + 1 }.modHost n fun h => { h with
      testAt := s.now, bitsChecked := satAdd 48 h.bitsChecked b, prbsErrors := satAdd 48 h.prbsErrors errs
      testRx := expected.2, testTx := (prbsBits b h.testTx).2, sent := (prbsWords 10 (b / 10) h.testTx).1 }
  else s

/-- The request that a lane's receiver sends to the host's transmitter in training: which tap moves, and by how much, is firmware
policy (R225). -/
def hostAsk (c : Nat) : Option (Fin 5 × Int) :=
  some (⟨Config.policy 0x6225 c % 5, Nat.mod_lt _ (by decide)⟩, (Config.policy 0x6226 c % 3 : Int) - 1)

/-- What a host lane does on its way from one state to another before its new state is entered: the checking of TEST is counted, and
values that adapted are held (R225, R231). -/
def State.hostLeave (s : State) (n : Fin 16) : State :=
  let s1 := s.hostTested n
  if s1.hostAdapts s1.active n then s1.hostHold s1.active n else s1

/-- A host lane in AUI mode changes state: counters, event and ports (R34, R228, R229, R234, R254). -/
def State.hostTo (s : State) (n : Fin 16) (st : HostState) (rate exit : Nat) : State :=
  let old := s.hosts[n].state
  let was := (s.hosts[n].left).getD old.code
  let s0 := s.hostLeave n
  let moved := decide (old = .disabled ∨ old = .still ∨ s.hosts[n].txRate ≠ rate)
  let s1 := { s0 with free := s0.free + 1 }.modHost n fun h => { h with
    state := st, rate, txRate := rate, lastExit := exit, since := s.now, stepSince := none, testAt := s.now, left := none
    testTx := Config.reading 0x6232 s0.free % 2 ^ 31, testRx := Config.reading 0x6233 s0.free % 2 ^ 31, sent := []
    ask := if st = HostState.train then hostAsk s0.free else none
    retries := if st = HostState.active ∨ st = HostState.test then 0 else h.retries
    trainings := if st = HostState.train then satAdd 16 h.trainings 1 else h.trainings
    recovers := if st = HostState.recover then satAdd 16 h.recovers 1 else h.recovers
    neverEnabled := h.neverEnabled && decide (st = HostState.disabled ∨ st = HostState.still) }
  let s1 := if moved then s1.alignHost n else s1
  let ev := s1.event 0xE011 0 (wordsLe [pack [(n.val, 4), (0, 1), (0, 3), (was, 4), (st.code, 4), (rate, 2), (0, 6), (exit, 8)]] ++
    (s1.stampOn (LaneRef.relay n).island).bytes)
  ev.judgePorts

/-! ### Commands (R220, R226, R227, R233, R247, R257, R259) -/

/-- HOST_MODE (R227). -/
def cmdHostMode (_q : QId) (e : QEntry) (s : State) : Res :=
  let tg := bits (e.w 0) 16 2
  checked e (· == 4) (decide (tg ≤ 2) && rsvHigh (e.w 0) 20) fun _ =>
    .ok [] (s.forEach e.hosts fun n s => s.modShadow (Bank.hl n fun p => { p with target := tg, relay := bit (e.w 0) 18, enable := bit (e.w 0) 19 }))

/-- Row HOST_MODE. -/
def execHostMode (t : Instant) (q : QId) (s : State) : Out := .next (runCmd t q 0x3000 false cmdHostMode s)

/-- The two HOST_STATE words of a lane (R233). -/
def State.hostStateWords (s : State) (n : Fin 16) : List Nat :=
  let h := s.hosts[n]
  let loop := if h.loopSuspended then 0 else s.active.host[n].loop
  if s.isRelay n then
    let a := s.relays[n].acq
    [pack [(a.state.code, 4), (1, 1), (a.stage.code, 2), (flag s.tb.hostrefLost, 1), (a.retries, 8), (a.lastExit, 8), (n.val, 4), (loop, 2), (flag h.loopSuspended, 1)],
     s.microsSince a.since]
  else
    [pack [(h.state.code, 4), (0, 1), (h.rate, 2), (flag s.tb.hostrefLost, 1), (h.retries, 8), (h.lastExit, 8), (n.val, 4), (loop, 2), (flag h.loopSuspended, 1)],
     s.microsSince h.since]

/-- HOST_STATE (R233). -/
def cmdHostState (_q : QId) (e : QEntry) (s : State) : Res :=
  checked e (· == 4) (rsvHigh (e.w 0) 16) fun _ => .ok (wordsLe (e.hosts.flatMap s.hostStateWords)) s

/-- Row HOST_STATE. -/
def execHostState (t : Instant) (q : QId) (s : State) : Out := .next (runCmd t q 0x3001 true cmdHostState s)

/-- A host transmit set is valid (R224). -/
def hostTapsValid (v : Vector Int 5) : Bool := decide (0 < v[3] ∧ (v.toList.map Int.natAbs).sum ≤ 64)

/-- W1 to W11 of HOST_EQ for a set of values (Table 6.2). -/
def hostEqWords (taps : Vector Int 5) (peak dc : Nat) (dfe : Int) (mask : Nat) (ffe : Vector Int 16) : List Byte :=
  wordsLe [pack [(ofSigned 8 taps[0], 8), (ofSigned 8 taps[1], 8), (ofSigned 8 taps[2], 8), (ofSigned 8 taps[3], 8)],
    pack [(ofSigned 8 taps[4], 8), (0, 8), (peak, 5), (0, 3), (dc, 3)], pack [(ofSigned 10 dfe, 10), (0, 6), (mask, 4)]] ++
    ffe.toList.flatMap fun w => leBytes 2 (ofSigned 10 w)

/-- The values in force of a lane (R225, R226). -/
def State.hostEqInForce (s : State) (n : Fin 16) (c : Nat) : List Byte :=
  let h := s.hostEqNow s.active n c
  hostEqWords h.taps h.eqPeak h.eqDc h.eqDfe 0 h.eqFfe

/-- HOST_EQ: the adaptation mode (R226). -/
def cmdHostEq (_q : QId) (e : QEntry) (s : State) : Res :=
  let ad := bits (e.w 0) 16 2
  checked e (· == 4) (decide (ad ≤ 2) && rsvHigh (e.w 0) 18 && !e.hosts.isEmpty) fun _ =>
    let (c, s1) := s.draw
    .ok (s.hostEqInForce (e.hosts.headD 0) c) (s1.forEach e.hosts fun n s => s.modShadow (Bank.hl n fun p => { p with adapt := ad }))

/-- Row HOST_EQ. -/
def execHostEq (t : Instant) (q : QId) (s : State) : Out := .next (runCmd t q 0x3010 false cmdHostEq s)

/-- HOST_EQ expert writes and pins the groups of WRITE_MASK (R226). -/
def cmdHostEqExpert (_q : QId) (e : QEntry) (s : State) : Res :=
  let p := e.cmd.payload
  let taps : Vector Int 5 := Vector.ofFn fun j => toSigned 8 (fieldAt p (4 + j.val) 1)
  let mask := bits (e.w 3) 16 4
  checked e (· == 48)
    (rsvHigh (e.w 0) 16 && rsv (e.w 2) 8 8 && rsv (e.w 2) 21 3 && rsvHigh (e.w 2) 27 && rsv (e.w 3) 10 6 && rsvHigh (e.w 3) 20 &&
      ((List.range 16).all fun j => rsv (fieldAt p (16 + 2 * j) 2) 10 6) && (!bit mask 0 || hostTapsValid taps) && !e.hosts.isEmpty) fun _ =>
    let (c, s0) := s.draw
    let wr := fun (n : Fin 16) (el : Nat) (f : HostP → HostP) (s : State) => s.writeExpert (.host n) 0x3810 el (Bank.hl n f)
    let s1 := s0.forEach e.hosts fun n s =>
      let s := if bit mask 0 then s.forEach (List.finRange 5) fun j s => wr n (128 + j.val) (fun x => { x with taps := x.taps.set j taps[j] }) s else s
      let s := if bit mask 1 then wr n 134 (fun x => { x with ctleDc := bits (e.w 2) 24 3 }) (wr n 133 (fun x => { x with ctlePeak := bits (e.w 2) 16 5 }) s) else s
      let s := if bit mask 2 then wr n 135 (fun x => { x with dfe := toSigned 10 (bits (e.w 3) 0 10) }) s else s
      if bit mask 3 then
        s.forEach (List.finRange 16) fun j s => wr n j.val (fun x => { x with rxFfe := x.rxFfe.set j (toSigned 10 (fieldAt p (16 + 2 * j.val) 2)) }) s
      else s
    .ok (s.hostEqInForce (e.hosts.headD 0) c) s1

/-- Row HOST_EQ_EXPERT. -/
def execHostEqExpert (t : Instant) (q : QId) (s : State) : Out := .next (runCmd t q 0x3810 false cmdHostEqExpert s)

/-- HOST_LOOP (R247). -/
def cmdHostLoop (_q : QId) (e : QEntry) (s : State) : Res :=
  match idx? 16 (bits (e.w 0) 0 4) with
  | none => .fail .badParam []
  | some n => checked e (· == 4) (rsv (e.w 0) 4 4 && rsvHigh (e.w 0) 10) fun _ =>
      .ok [] ((s.modShadow (Bank.hl n fun p => { p with loop := bits (e.w 0) 8 2 })).mark (.host n) 0x3020)

/-- Row HOST_LOOP. -/
def execHostLoop (t : Instant) (q : QId) (s : State) : Out := .next (runCmd t q 0x3020 false cmdHostLoop s)

/-- HOST_REF: a parameter of every host lane (R220). -/
def cmdHostRef (_q : QId) (e : QEntry) (s : State) : Res :=
  checked e (· == 4) (rsvHigh (e.w 0) 1) fun _ =>
    .ok [] (s.forEach (List.finRange 16) fun n s => s.modShadow (Bank.hl n fun p => { p with hostref := bit (e.w 0) 0 }))

/-- Row HOST_REF. -/
def execHostRef (t : Instant) (q : QId) (s : State) : Out := .next (runCmd t q 0x3030 false cmdHostRef s)

/-- PORT_FAULT_MODE (R257). -/
def cmdPortFaultMode (_q : QId) (e : QEntry) (s : State) : Res :=
  match idx? 8 (bits (e.w 0) 0 3) with
  | none => .fail .badParam []
  | some p => checked e (· == 4) (decide (leadOf s.grouping p = p) && rsv (e.w 0) 3 5 && rsv (e.w 0) 9 7) fun _ =>
      .ok [] (s.modShadow fun k => { k with port := upd k.port p fun x => { x with squelchMode := bit (e.w 0) 8, clearHold := bits (e.w 0) 16 16 } })

/-- Row PORT_FAULT_MODE. -/
def execPortFaultMode (t : Instant) (q : QId) (s : State) : Out := .next (runCmd t q 0x3040 false cmdPortFaultMode s)

/-- The 28-byte record of a host lane (Table 6.14).  DESIGN CHOICE (log 148): the counts of relay mode and of AUI mode are kept apart, and
the record holds those of the lane's mode. -/
def State.hostRecord (s : State) (n : Fin 16) : List Byte :=
  let h := s.hosts[n]
  let c := s.relays[n].cnt
  wordsLe [n.val, pack [(h.trainings, 16), (if s.isRelay n then c.recovers else h.recovers, 16)], if s.isRelay n then c.markersMissing else h.markerLosses] ++
    cnt48 (if s.isRelay n then c.prbsBits else h.bitsChecked) ++ cnt48 (if s.isRelay n then c.prbsErrors else h.prbsErrors)

/-- The 44-byte record of a slice (Table 6.14). -/
def State.matchRecord (s : State) (n : Fin 8) : List Byte :=
  let p := s.ports[n]
  wordsLe [n.val] ++ cnt48 p.insLine ++ cnt48 p.delLine ++ cnt48 p.insHost ++ cnt48 p.delHost ++
    wordsLe [p.matchOverruns, if leadOf s.grouping n = n then p.portFaults else 0]

/-- The counters of a host lane at 0. -/
def HostLane.cleared (h : HostLane) : HostLane := { h with trainings := 0, recovers := 0, markerLosses := 0, bitsChecked := 0, prbsErrors := 0 }

/-- The rate-matcher and fault counters of a port island at 0. -/
def Port.cleared (p : Port) : Port := { p with insLine := 0, delLine := 0, insHost := 0, delHost := 0, matchOverruns := 0, portFaults := 0 }

/-- HOST_COUNTERS latches and returns the counters, clearing them when asked (R259). -/
def cmdHostCounters (_q : QId) (e : QEntry) (s : State) : Res :=
  let sm := maskIdx 8 (bits (e.w 0) 16 8)
  checked e (· == 4) (rsvHigh (e.w 0) 25) fun _ =>
    let s := s.forEach e.hosts fun n s => s.hostTested n
    let s1 := if bit (e.w 0) 24 then
        (s.forEach e.hosts fun n s => { s.modHost n HostLane.cleared with
          relays := upd s.relays n fun l => { l with cnt := { l.cnt with recovers := 0, markersMissing := 0, prbsBits := 0, prbsErrors := 0 } } }).forEach sm
          fun n s => s.modPort n Port.cleared
      else s
    .ok (s.stampMgmt.bytes ++ e.hosts.flatMap s.hostRecord ++ sm.flatMap s.matchRecord) s1

/-- Row HOST_COUNTERS. -/
def execHostCounters (t : Instant) (q : QId) (s : State) : Out := .next (runCmd t q 0x3050 true cmdHostCounters s)

/-! ### Bring-up in AUI mode (R228 to R231) -/

/-- HOST_SIGNAL_DETECT: signal detect has held for 100 µs.  A lane that a loss of HOSTREF moved to REFCLK returns to
HOSTREF here when it is present (R223, R228).  A lane whose island still runs on FIRC carries nothing (R21). -/
def execHostSignalDetect (t : Instant) (n : Fin 16) (hostref : Bool) (s : State) : Out :=
  let s := s.advanceTo t
  if s.hosts[n].state = .dark ∧ s.isRelay n = false ∧ s.onIslandClock (LaneRef.relay n).island then
    .next (((s.modHost n fun h => { h with sigDetect := true }).hostrefBack n hostref).hostTo n .train 0 0x01)
  else .next s

/-- HOST_TRAINING_COMPLETE: training complete both ways (R228). -/
def execHostTrainingComplete (t : Instant) (n : Fin 16) (s : State) : Out :=
  let s := s.advanceTo t
  let h := s.hosts[n]
  let target := s.active.host[n].target
  if h.state = .train ∧ s.isRelay n = false then
    if h.rate < target then .next ((s.hostTo n .step h.rate 0x01).modHost n fun h => { h with stepSince := some s.now })
    else if target = 2 then .next (s.hostTo n .align h.rate 0x01)
    else .next (s.hostTo n .test h.rate 0x01)
  else .next s

/-- HOST_RATE_STEP: the transmitter changes to the next rate at the first 4,096-cycle boundary of the old rate at least 100 µs after
completion, and its boundaries become those of the lanes of that rate (R34, R35, R230). -/
def execHostRateStep (t : Instant) (n : Fin 16) (s : State) : Out :=
  let s := s.advanceTo t
  let h := s.hosts[n]
  match h.stepSince with
  | some c =>
    if h.state = .step ∧ c + usec 100 ≤ s.now ∧ s.hostBoundary n then
      .next ((s.modHost n fun h => { h with txRate := h.rate + 1, stepSince := none }).alignHost n)
    else .next s
  | none => .next s

/-- HOST_RX_LOCKED: the receiver locks at the next rate (R228, R230). -/
def execHostRxLocked (t : Instant) (n : Fin 16) (s : State) : Out :=
  let s := s.advanceTo t
  let h := s.hosts[n]
  if h.state = .step ∧ h.txRate = h.rate + 1 then .next (s.hostTo n .train (h.rate + 1) 0x01) else .next s

/-- A port's lanes from the host are locked and deskewed: REGROUP ends toward the line, and toward the host once the
line side agrees (R241). -/
def State.hostAlign (s : State) (lead : Fin 8) : State :=
  let slices := slicesOf s.grouping lead
  if slices.all fun n => (s.hostLanesOf n).all (fun h => decide (s.hosts[h].state = .active)) && !s.ports[n].laneMap && !s.ports[n].hostDeskew then
    ((s.modPort lead fun p => { p with hostAligned := true }).forEach slices fun n s => s.modPort n fun p => { p with regLine := false }).regroupClear lead
  else s

/-- HOST_ALIGN_COMPLETE: the PCS lanes of a slice are locked; `badMap` says that one lies on another slice's host lane,
`skew` is the largest skew in ns.  Locked and deskewed in their places, they make the lane ACTIVE (R228, R236, R241). -/
def execHostAlignComplete (t : Instant) (n : Fin 16) (badMap : Bool) (skew : Nat) (s : State) : Out :=
  let s := s.advanceTo t
  let slice := relayPort n
  if (s.hosts[n].state = .align ∨ s.hosts[n].state = .active) ∧ s.isRelay n = false then
    let s1 := s.modPort slice fun p => { p with laneMap := badMap, hostDeskew := decide (250 < skew) }
    let s2 := if s.hosts[n].state = .align ∧ badMap = false ∧ skew ≤ 250 then s1.hostTo n .active s.hosts[n].rate 0x01 else s1
    .next ((s2.hostAlign (leadOf s.grouping slice)).judgePorts)
  else .next s

/-- LAST_EXIT of a loss (R233). -/
def HostLoss.exit : HostLoss → Nat
  | .signal => 0x03 | .cdr => 0x04 | .marker => 0x05

/-- HOST_LANE_LOSS: ACTIVE goes to RECOVER for any loss, the training states and TEST to DARK for a loss of signal, and a
QUIET lane's receiver stops being qualified (R228). -/
def execHostLaneLoss (t : Instant) (n : Fin 16) (what : HostLoss) (s : State) : Out :=
  let s := s.advanceTo t
  let h := s.hosts[n]
  let s1 := s.modHost n fun h => { h with
    sigDetect := h.sigDetect && decide (what ≠ .signal), quietQualified := false
    markerLosses := if what = .marker then satAdd 32 h.markerLosses 1 else h.markerLosses }
  if s.isRelay n then .next s
  else if h.state = .active then
    .next ((s1.modPort (leadOf s.grouping (relayPort n)) fun p => { p with hostAligned := false }).hostTo n .recover h.rate what.exit)
  else if (h.state = .train ∨ h.state = .step ∨ h.state = .align ∨ h.state = .test) ∧ what = .signal then .next (s1.hostTo n .dark 0 0x03)
  else if h.state = .quiet then .next s1
  else .next s

/-- HOST_RECOVER_RESTORED: CDR and marker lock are back (R228). -/
def execHostRecoverRestored (t : Instant) (n : Fin 16) (s : State) : Out :=
  let s := s.advanceTo t
  if s.hosts[n].state = .recover then .next ((s.hostTo n .active s.hosts[n].rate 0x01).hostAlign (leadOf s.grouping (relayPort n))).judgePorts else .next s

/-- The timeout of a host lane state (Table 6.6). -/
def hostTimeout (st : HostState) (rate : Nat) : Option Nat :=
  match st with
  | .train => some (if rate = 0 then msec 100 else if rate = 1 then msec 200 else msec 500)
  | .step => some (msec 5) | .align => some (msec 10) | .recover => some (msec 2)
  | _ => none

/-- The island cycle of a host lane, 256 bits, in which a deadline falls is over (R45). -/
def State.pastHost (s : State) (n : Fin 16) (d : Instant) : Bool :=
  s.past ((hostPeriod (s.hostTxRate n)).1) (4096 * (hostPeriod (s.hostTxRate n)).2) d

/-- HOST_LANE_TIMEOUT: the lane restarts from DARK at the lowest rate (R229). -/
def execHostLaneTimeout (t : Instant) (n : Fin 16) (s : State) : Out :=
  let s := s.advanceTo t
  let h := s.hosts[n]
  match hostTimeout h.state h.rate with
  | some d =>
    if s.pastHost n (h.since + d) then
      .next ((s.modHost n fun h => { h with retries := min (h.retries + 1) 255 }).hostTo n .dark 0 0x02)
    else .next s
  | none => .next s

/-- HOST_TRAINING_REQUEST: the host's receiver asks for one transmit tap to move; a request that would leave a valid set,
that names a pinned tap, or that comes outside training is answered as not updated.  The lane's own request to the host moves on with
the exchange (R225).  DESIGN CHOICE (log 147): with ADAPT 1 or 2 every request is answered as not updated. -/
def execHostTrainingRequest (t : Instant) (n : Fin 16) (tap : Fin 5) (delta : Int) (s : State) : Out :=
  let s := s.advanceTo t
  let h := s.hosts[n]
  if h.state = .train then
    let taps := h.taps.set tap (h.taps[tap] + delta)
    let ok := hostTapsValid taps && !s.active.pinned (.host n) 0x3810 (128 + tap.val) && decide (s.active.host[n].adapt = 0)
    .next ({ s with free := s.free + 1 }.modHost n fun h => { h with taps := if ok then taps else h.taps, updated := ok, ask := hostAsk s.free })
  else .next s

/-- HOSTREF_LOST: no HOSTREF edge for 2 µs while it is selected moves every enabled receiver to REFCLK (R223). -/
def execHostrefLost (t : Instant) (s : State) : Out :=
  let s := s.advanceTo t
  if s.active.host[(0 : Fin 16)].hostref then
    let s1 := s.forEach ((List.finRange 16).filter fun n => s.active.host[n].enable) fun n s => s.modHost n fun h => { h with onRefclk := true }
    .next ({ s1 with tb := { s1.tb with hostrefLost := true } }.logEntry 0x0303 0 1 0xFFFF [])
  else .next s

/-- Pairs with the last of them marked (R209). -/
def markLast (ps : List Nat) : List Nat := ps.take (ps.length - 1) ++ (ps.drop (ps.length - 1)).map markPair

/-- The pair in progress of a slice, the last one to have left the rate matcher, is marked in its direction, and the lanes carry it so
(R209, R238). -/
def State.markMatch (s : State) (n : Fin 8) (toLine : Bool) : State :=
  if toLine then
    (s.replaceLine n (markLast s.ports[n].pairLine)).modPort n fun p => { p with txCnt := { p.txCnt with marked := satAdd 32 p.txCnt.marked 1 } }
  else
    (s.modPort n fun p => { p with pairHost := markLast p.pairHost, rxCnt := { p.rxCnt with marked := satAdd 32 p.rxCnt.marked 1 } }).sendHost n

/-- MATCH_OVERRUN: the pair in progress is marked, the event is counted, and the port faults in that direction (R209, R212,
R238, R254). -/
def execMatchOverrun (t : Instant) (n : Fin 8) (toLine : Bool) (s : State) : Out :=
  let s := s.advanceTo t
  let s1 := (s.markMatch n toLine).modPort n fun p => { p with
    matchOverruns := satAdd 32 p.matchOverruns 1, overLine := toLine, overHost := !toLine }
  .next ((s1.judgePorts.modPort n fun p => { p with overLine := false, overHost := false }).judgePorts)

end Sys2Proof.Machine
end

