-- ==== Sys2Proof/Machine/LanePowerStates.lean ====
section
/-! DEFINITION. Lane power states: LANE_POWER, and a lane's entry into and exit from L1 and L2.  In these rows the host
lane HLn is written `.relay n`, in AUI mode and in relay mode alike. -/
namespace Sys2Proof.Machine

/-- The power state of a line lane, or of a host lane, with the state it is on its way to. -/
def State.powerOf (s : State) : LaneRef → LanePower × LanePower × Instant
  | .line n => (s.lanes[n].acq.power, s.lanes[n].acq.powerTarget, s.lanes[n].acq.powerSince)
  | .relay n => (s.hosts[n].power, s.hosts[n].powerTarget, s.hosts[n].powerSince)

/-- A lane's power state set. -/
def State.setPower (s : State) (r : LaneRef) (p tg : LanePower) : State :=
  match r with
  | .line n => { s with lanes := upd s.lanes n fun l => { l with acq := { l.acq with power := p, powerTarget := tg, powerSince := s.now } } }
  | .relay n => s.modHost n fun h => { h with power := p, powerTarget := tg, powerSince := s.now }

/-- The lane is held off by supply-sag shedding (R250, R466). -/
def State.isShed (s : State) : LaneRef → Bool
  | .line n => s.lanes[n].acq.shed
  | .relay n => s.hosts[n].shed

/-- A calibration in progress on a lane entering L2 is abandoned and its command replies PRECONDITION (R251). -/
def State.abandonCal (s : State) (n : Fin 8) : State :=
  if s.lanes[n].acq.state = .calibrating then
    ((s.setSquelch (.line n) fun q => { q with calibration := false }).modLane (.line n) fun l => { l with acq := { l.acq with calKind := 0 } }).completeCal n .precondition []
  else s

/-- Entering L2 suspends a lane's loop and releases its resource (R252). -/
def State.suspendLoop (s : State) : LaneRef → State
  | .line n =>
    if s.active.lineRx[n].loop ≠ 0 then
      (s.disown (lineLoopRes n) .loopTest).modLane (.line n) fun l => { l with acq := { l.acq with loopSuspended := true } }
    else s
  | .relay n =>
    if s.active.host[n].loop ≠ 0 then (s.disown (hostLoopRes n) .loopTest).modHost n fun h => { h with loopSuspended := true } else s

/-- A lane's replica has to align again (R27). -/
def State.unalign (s : State) (n : Fin 64) : State := { s with replicas := upd s.replicas n fun r => { r with aligned := false } }

/-- What a lane does at once on the way into L2: STILL, squelched, its island off, its loop suspended (R127, R228, R249,
R251, R252). -/
def State.toStill (s : State) (r : LaneRef) : State :=
  match r with
  | .line n =>
    let s1 := (s.abandonCal n).suspendLoop r
    let s2 := ((s1.toState r .still (s1.firstStage r) 0x08).abandonXfer n).setSquelch r fun q => { q with power := true }
    (s2.modLane r fun l => { l with tx := { l.tx with clocked := false, bypass := [] } }).unalign r.island
  | .relay n =>
    let s1 := (s.suspendLoop r).unalign r.island
    if s.isRelay n then
      ((s1.toState r .still .a 0x08).setSquelch r fun q => { q with power := true }).modLane r fun l => { l with tx := { l.tx with clocked := false, bypass := [] } }
    else s1.hostTo n .still 0 0x08

/-- What a lane does at once on the way into L1: its transmitter is squelched; a host lane is QUIET (R228, R249). -/
def State.toQuiet (s : State) (r : LaneRef) : State :=
  match r with
  | .line _ => s.setSquelch r fun q => { q with power := true }
  | .relay n =>
    if s.isRelay n then s.setSquelch r fun q => { q with power := true }
    else if s.hosts[n].state = .disabled ∨ s.hosts[n].state = .still then s
    else (s.modHost n fun h => { h with quietFrom := h.state, quietQualified := true }).hostTo n .quiet s.hosts[n].rate 0x08

/-- A lane is sent to a power state; one already there, or already on its way, is left alone.  A lane called back from an entry not
yet complete leaves the state it was entering, and one called back from an exit stays where it is (R249). -/
def State.sendPower (s : State) (tg : LanePower) (r : LaneRef) : State :=
  let (p, t', _) := s.powerOf r
  if t' = tg then s
  else
    let deep := decide (p = .l2 ∨ t' = .l2)
    match tg with
    | .l2 => if p = .l2 then s.setPower r .l2 .l2 else (s.toStill r).setPower r p .l2
    | .l1 => if deep then s.setPower r .l2 .l1 else if p = .l1 then s.setPower r .l1 .l1 else (s.toQuiet r).setPower r p .l1
    | .l0 => s.setPower r (if deep then .l2 else .l1) .l0

/-- The power state commanded by LANE_POWER, kept while a lane is held off or the device is in a lower state (R466,
R472). -/
def State.commandPower (s : State) (r : LaneRef) (p : LanePower) : State :=
  match r with
  | .line n => { s with lanes := upd s.lanes n fun l => { l with acq := { l.acq with powerCmd := p } } }
  | .relay n => s.modHost n fun h => { h with powerCmd := p }

/-- The power state commanded by LANE_POWER. -/
def State.powerCmd (s : State) : LaneRef → LanePower
  | .line n => s.lanes[n].acq.powerCmd
  | .relay n => s.hosts[n].powerCmd

/-- The lanes of a LANE_POWER payload (R250). -/
def powerLanes (w : Nat) : List LaneRef := (maskIdx 8 (bits w 0 8)).map .line ++ (maskIdx 16 (bits w 8 16)).map .relay

/-- Every lane has reached its target. -/
def State.powerDone (s : State) (rs : List LaneRef) : Bool := rs.all fun r => decide ((s.powerOf r).1 = (s.powerOf r).2.1)

/-- LANE_POWER: refused for a lane held off by shedding; the reply waits until every selected lane is there (R250).  While the
device enters or is in STANDBY every lane is held in L2, and the command sets only the state it returns to (R472). -/
def cmdLanePower (_q : QId) (e : QEntry) (s : State) : Res :=
  let st := bits (e.w 0) 24 2
  let rs := powerLanes (e.w 0)
  checked e (· == 4) (decide (st ≤ 2) && rsvHigh (e.w 0) 26) fun _ =>
    if rs.any s.isShed then .fail .precondition []
    else
      let tg := match st with | 0 => LanePower.l0 | 1 => .l1 | _ => .l2
      if s.sys.pstate ≠ 0 ∨ s.sys.pow.entry.isSome then .ok [] (s.forEach rs fun r s => s.commandPower r tg)
      else
        let s1 := s.forEach rs fun r s => (s.commandPower r tg).sendPower tg r
        if s1.powerDone rs then .ok [] s1 else .wait s1

/-- Row LANE_POWER. -/
def execLanePower (t : Instant) (q : QId) (s : State) : Out := .next (runCmd t q 0x9002 true cmdLanePower s)

/-- Every LANE_POWER whose lanes have all arrived replies. -/
def State.powerReplies (s : State) : State :=
  s.forEach (s.q.all.filter fun e => decide (e.phase = .running ∧ e.cmd.op = 0x9002) && s.powerDone (powerLanes (e.w 0)))
    fun e s => s.complete e.seq .ok []

/-- A loop measurement that began while the lane was on its way into L2 is abandoned (R307). -/
def State.leaveXfer (s : State) : LaneRef → State
  | .line n => s.abandonXfer n
  | .relay _ => s

/-- LANE_POWER_ENTRY_COMPLETE: entry into L1 takes 1 µs and into L2 10 µs (R249, R250). -/
def execLanePowerEntryComplete (t : Instant) (r : LaneRef) (s : State) : Out :=
  let s := s.advanceTo t
  let (p, tg, c) := s.powerOf r
  if (tg = .l1 ∧ p = .l0 ∧ c + usec 1 ≤ s.now) ∨ (tg = .l2 ∧ p ≠ .l2 ∧ c + usec 10 ≤ s.now) then .next (((if tg = .l2 then s.leaveXfer r else s).setPower r tg tg).powerReplies) else .next s

/-- What a lane becomes as it leaves L1 or L2: from L1 its output may resume and a host lane returns to where it was; from
L2 it enters DARK, or DISABLED where its active set says so, its transmitter at stage A in training (R27, R34, R143, R196, R228, R249,
R251). -/
def State.leavePower (s : State) (r : LaneRef) : State :=
  let (p, tg, _) := s.powerOf r
  let stay := decide (tg = .l1)
  match r with
  | .line n =>
    let s1 := s.setSquelch r fun q => { q with power := stay }
    if p = .l2 then
      ((s1.modLane r fun l => { l with tx := { l.tx with clocked := s.sys.islands[r.island] } }).txToFirst r).toState r
        (if s.active.lineRx[n].rxEn then .dark else .disabled) (s.firstStage r) 0x08
    else s1
  | .relay n =>
    let en := s.active.host[n].enable
    if s.isRelay n then
      if p = .l2 then
        let s0 := s.modHost n fun h => { h with state := .disabled, left := some HostState.still.code }
        let s1 := (s0.modLane r fun l => { l with
          tx := { l.tx with clocked := en && s.sys.islands[r.island] }, time := { l.time with lastDep := none } }).txToFirst r
        (s1.setSquelch r fun q => { q with power := stay, notEnabled := !en }).toState r (if en then .dark else .disabled) .a 0x08
      else s.setSquelch r fun q => { q with power := stay }
    else if p = .l2 then
      let s0 := (s.modLane r fun l => { l with
        acq := { l.acq with state := .disabled }
        tx := { l.tx with clocked := false, driving := false, squelch := { l.tx.squelch with notEnabled := true } } }).modHost n
        fun h => { h with left := some HostState.still.code }
      let s1 := s0.hostTo n (if en then .dark else .disabled) 0 0x08
      if stay then s1.toQuiet r else s1
    else if s.hosts[n].state = .quiet then
      let h := s.hosts[n]
      if (h.quietFrom = .active ∨ h.quietFrom = .test) ∧ h.quietQualified = true then s.hostTo n h.quietFrom h.rate 0x08 else s.hostTo n .dark 0 0x08
    else s

/-- The engine of a line lane is under test (R453). -/
def State.engineTested (s : State) : LaneRef → Bool
  | .line n => (s.testRun (0x10 + s.lanes[n].eq.engine)).isSome
  | .relay _ => false

/-- LANE_POWER_EXIT_COMPLETE: a lane on its way out of L1 or L2 arrives; one whose engine is under test waits in STILL
(R249, R251, R453). -/
def execLanePowerExitComplete (t : Instant) (r : LaneRef) (s : State) : Out :=
  let s := s.advanceTo t
  let (p, tg, _) := s.powerOf r
  if p = .l2 ∧ s.engineTested r = true then .next s
  else if (tg = .l0 ∧ p ≠ .l0) ∨ (tg = .l1 ∧ p = .l2) then .next (((s.leavePower r).setPower r tg tg).powerReplies) else .next s

end Sys2Proof.Machine
end

