-- ==== Sys2Proof/Machine/Ptp.lean ====
section
/-! DEFINITION. The PTP correction unit: recognition of event messages, residence time, the correction of the frame, and
its commands. -/
namespace Sys2Proof.Machine

/-- An octet of a frame, 0 past its end. -/
def octet (f : List Byte) (i : Nat) : Nat := (f.getD i 0).toNat

/-- A 16-bit field of a frame, most significant octet first. -/
def be16 (f : List Byte) (i : Nat) : Nat := octet f i * 256 + octet f (i + 1)

/-- The offset of the EtherType, after up to two VLAN tags where VLAN is accepted (Table 8.11). -/
def typeOffset (vlan : Bool) (f : List Byte) : Nat :=
  let tag := fun i => vlan && decide (be16 f i = 0x8100 ∨ be16 f i = 0x88A8)
  if tag 12 then if tag 16 then 20 else 16 else 12

/-- The offset of the PTP header, and of the UDP header with whether it is that of IPv4, when the encapsulation is one the
port accepts (Table 8.11). -/
def ptpHeader (c : PtpP) (f : List Byte) : Option (Nat × Option (Nat × Bool)) :=
  let t := typeOffset c.vlan f
  let l3 := t + 2
  if be16 f t = 0x88F7 ∧ c.eth = true then some (l3, none)
  else if be16 f t = 0x0800 ∧ c.udp4 = true then
    let udp := l3 + octet f l3 % 16 * 4
    if octet f (l3 + 9) = 17 ∧ be16 f (l3 + 6) % 0x4000 = 0 ∧ be16 f (udp + 2) = 319 then some (udp + 8, some (udp, true)) else none
  else if be16 f t = 0x86DD ∧ c.udp6 = true then
    let udp := l3 + 40
    if octet f (l3 + 6) = 17 ∧ be16 f (udp + 2) = 319 then some (udp + 8, some (udp, false)) else none
  else none

/-- A frame is a recognised event message (Table 8.11); the last four octets are its FCS. -/
def recognised (c : PtpP) (f : List Byte) : Option (Nat × Option (Nat × Bool)) :=
  match ptpHeader c f with
  | none => none
  | some (h, udp) =>
    if octet f h % 16 ≤ 3 ∧ octet f (h + 1) % 16 = 2 ∧ h + 16 + 4 ≤ f.length then some (h, udp) else none

/-- correctionField, most significant octet first, as a signed number (R319). -/
def correctionField (f : List Byte) (h : Nat) : Int :=
  toSigned 64 ((List.range 8).foldl (fun v i => v * 256 + octet f (h + 8 + i)) 0)

/-- A value as 8 octets, most significant first. -/
def be64 (v : Nat) : List Byte := (leBytes 8 v).reverse

/-- Octets of a frame replaced from an offset. -/
def patch (f : List Byte) (i : Nat) (xs : List Byte) : List Byte := f.take i ++ xs ++ f.drop (i + xs.length)

/-- The frame check sequence of IEEE 802.3 over octets. -/
def crc32 (bs : List Byte) : Nat := crcFold 0xEDB88320 0xFFFFFFFF bs ^^^ 0xFFFFFFFF

/-- Ones'-complement sum of two 16-bit numbers. -/
def onesAdd (a b : Nat) : Nat := let s := a + b; s % 65536 + s / 65536

/-- A UDP checksum after four 16-bit words change: ones'-complement incremental update, 0x0000 sent as 0xFFFF (R319). -/
def udpUpdate (sum : Nat) (old new : List Nat) : Nat :=
  let acc := (old.zip new).foldl (fun a p => onesAdd (onesAdd a (0xFFFF - p.1)) p.2) (0xFFFF - sum)
  let r := 0xFFFF - acc % 65536
  if r = 0 then 0xFFFF else r

/-- The four 16-bit words of correctionField. -/
def fieldWords (f : List Byte) (h : Nat) : List Nat := (List.range 4).map fun i => be16 f (h + 8 + 2 * i)

/-- The corrected value of a field, and whether it saturated (R319). -/
def correct (field residence : Int) : Int × Bool :=
  let top : Int := 2 ^ 63 - 1
  if field = top ∨ top < field + residence then (top, true) else (field + residence, false)

/-- A recognised frame with its correctionField replaced, its UDP checksum updated and its FCS changed by the CRC
difference (R319).  A UDP/IPv4 checksum of 0 stays 0. -/
def rewrite (f : List Byte) (h : Nat) (udp : Option (Nat × Bool)) (v : Int) : List Byte :=
  let f1 := patch f (h + 8) (be64 (ofSigned 64 v))
  let f2 := match udp with
    | none => f1
    | some (u, v4) =>
      let sum := be16 f (u + 6)
      if sum = 0 ∧ v4 = true then f1
      else
        let x := udpUpdate sum (fieldWords f h) (fieldWords f1 h)
        patch f1 (u + 6) [BitVec.ofNat 8 (x / 256), BitVec.ofNat 8 x]
  let n := f.length - 4
  let fcs := ofLe (f.drop n) ^^^ crc32 (f.take n) ^^^ crc32 (f2.take n)
  f2.take n ++ leBytes 4 fcs

/-- Picoseconds in units of 2⁻¹⁶ ns. -/
def psUnits (ps : Int) : Int := roundDiv (ps * 8192) 125

/-- The residence time of a message (R318). -/
def residence (toLine : Bool) (tLine tHost txFibre rxFibre hostToPin pinToHost : Int) : Int :=
  if toLine then (tLine + txFibre) - (tHost - hostToPin) else (tHost + pinToHost) - (tLine - rxFibre)

/-- 1/64 UI of a host lane at its rate, as `num / den` units of 2⁻¹⁶ ns (Tables 1.2 and 6.1). -/
def hostUiStep (rate : Nat) : Nat × Nat :=
  match rate with
  | 0 => (26214400, 680000) | 1 => (13107200, 680000) | _ => (6553600, 680000)

/-- The tag of a line lane for a crossing of its stamp place (R25, R163, R316). -/
def State.lineTag (s : State) (n : Fin 8) (toLine : Bool) (c : Crossing) : Stamp :=
  let l := s.lanes[n]
  let st := s.stampAt ⟨n.val, by omega⟩ 1 1 (min c.edge s.now)
  if toLine then st.plus (l.txPos c.index) (uiStep (.line n) l.tx.stage) else st.plus (s.rxPos (.line n) c.index) (uiStep (.line n) l.acq.stage)

/-- The tag of a host lane for a crossing of its pin: the replica at the island clock edge, the symbol's index times the
nominal UI, and the CDR phase, whatever the reference of the lane; a lane in a far-end loop takes none (R28, R222, R316). -/
def State.hostTag (s : State) (n : Fin 16) (c : Crossing) : Stamp :=
  let st := (s.stampAt ⟨17 + n.val, by omega⟩ 1 1 (min c.edge s.now)).plus (64 * c.index + c.phase) (hostUiStep s.hosts[n].rate)
  ⟨st.time, st.valid && !(decide (s.active.host[n].loop = 3) && !s.hosts[n].loopSuspended)⟩

/-- The 66-bit blocks of IEEE 802.3 that carry a frame: a data block for every eight octets, and the block that ends it with the rest. -/
def frameBlocks (f : List Byte) : List Nat :=
  let n := f.length / 8
  (List.range n).map (fun i => 2 + 4 * ofLe ((f.drop (8 * i)).take 8)) ++
    [1 + 4 * ([0x87, 0x99, 0xAA, 0xB4, 0xCC, 0xD2, 0xE1, 0xFF].getD (f.length % 8) 0 + 256 * ofLe (f.drop (8 * n)))]

/-- A frame is to be changed in the pairs of a port that pass next in a direction (R208, R319). -/
def Port.patch (p : Port) (toLine : Bool) (old new : List Byte) : Port :=
  let x := (frameBlocks old, frameBlocks new)
  if toLine then { p with patchLine := p.patchLine ++ [x] } else { p with patchHost := p.patchHost ++ [x] }

/-- PTP_EVENT_MESSAGE: a frame passes a port in one direction, its timestamp point carried by a line lane and by a host
lane of the port; the islands form the tags of its crossings of their stamp places, and `errored` says that a pair from correctionField on is marked or
failed.  A recognised message is corrected, in the pairs of the superframe that the next TX_MARKER or MARKER_RECEIVE of its lane ends, or
forwarded unchanged and counted (R208, R316 to R320; log 126). -/
def execPtpEventMessage (t : Instant) (lane : Fin 8) (hl : Fin 16) (toLine : Bool) (frame : List Byte) (lineAt hostAt : Crossing) (errored : Bool)
    (s : State) : Out :=
  let s := s.advanceTo t
  let lead := leadOf s.grouping lane
  let line := s.lineTag lane toLine lineAt
  let host := s.hostTag hl hostAt
  let tagsValid := line.valid && host.valid
  let c := s.active.port[lead].ptp
  let faulted := if toLine then s.ports[lead].toLine.faulted else s.ports[lead].toHost.faulted
  if faulted ∨ (if toLine then c.toLine else c.toHost) = false ∨ leadOf s.grouping ⟨hl.val / 2, by omega⟩ ≠ lead then .next s
  else
    match recognised c frame with
    | none => .next s
    | some (h, udp) =>
      let r := residence toLine line.time host.time (s.txFibre (.line lane)) (s.rxFibre (.line lane)) (psUnits c.hostToPin) (psUnits c.pinToHost)
      let cnt := if toLine then s.ports[lead].ptpLine else s.ports[lead].ptpHost
      let badRange := decide (r < 0 ∨ 327680000 < r)
      let put := fun (x : PtpCnt) (out : List Byte) => s.modPort lead fun p =>
        let p := { (if out = frame then p else p.patch toLine frame out) with ptpFrame := out }
        if toLine then { p with ptpLine := x } else { p with ptpHost := x }
      if errored || badRange || !tagsValid then
        .next (put { cnt with skipErrored := satAdd 32 cnt.skipErrored (flag errored), skipRange := satAdd 32 cnt.skipRange (flag badRange),
                              skipTag := satAdd 32 cnt.skipTag (flag !tagsValid) } frame)
      else
        let v := correct (correctionField frame h) r
        .next (put { cnt with
          corrected := satAdd 48 cnt.corrected 1, saturated := satAdd 32 cnt.saturated (flag v.2), resLast := r.toNat
          resMin := min cnt.resMin r.toNat, resMax := max cnt.resMax r.toNat } (rewrite frame h udp v.1))

/-- PTP_CORR_CONFIG (R321). -/
def cmdPtpCorrConfig (_q : QId) (e : QEntry) (s : State) : Res :=
  let a := toSigned 32 (e.w 1)
  let b := toSigned 32 (e.w 2)
  match idx? 8 (bits (e.w 0) 0 3) with
  | none => .fail .badParam []
  | some p => checked e (· == 12)
      (decide (leadOf s.grouping p = p) && rsvHigh (e.w 0) 9 && decide (-1000000 ≤ a ∧ a ≤ 1000000 ∧ -1000000 ≤ b ∧ b ≤ 1000000)) fun _ =>
      .ok [] (s.modShadow fun k => { k with port := upd k.port p fun x => { x with ptp :=
        { toLine := bit (e.w 0) 3, toHost := bit (e.w 0) 4, eth := bit (e.w 0) 5, udp4 := bit (e.w 0) 6, udp6 := bit (e.w 0) 7,
          vlan := bit (e.w 0) 8, hostToPin := a, pinToHost := b } } })

/-- Row PTP_CORR_CONFIG. -/
def execPtpCorrConfig (t : Instant) (q : QId) (s : State) : Out := .next (runCmd t q 0x4040 false cmdPtpCorrConfig s)

/-- The record of one direction (Table 8.13). -/
def PtpCnt.record (c : PtpCnt) : List Byte :=
  leBytes 8 c.corrected ++ wordsLe [c.skipErrored, c.skipRange, c.skipTag, c.saturated, c.resLast, c.resMin, c.resMax]

/-- The counters of one direction cleared; RES_LAST is no count and stays (R322, Table 8.13). -/
def PtpCnt.cleared (c : PtpCnt) : PtpCnt := { resLast := c.resLast }

/-- PTP_CORR_STATUS (R322). -/
def cmdPtpCorrStatus (_q : QId) (e : QEntry) (s : State) : Res :=
  match idx? 8 (bits (e.w 0) 0 3) with
  | none => .fail .badParam []
  | some p => checked e (· == 4) (rsvHigh (e.w 0) 4) fun _ =>
      .ok (wordsLe [p.val] ++ s.ports[p].ptpLine.record ++ s.ports[p].ptpHost.record)
        (if bit (e.w 0) 3 then s.modPort p fun x => { x with ptpLine := x.ptpLine.cleared, ptpHost := x.ptpHost.cleared } else s)

/-- Row PTP_CORR_STATUS. -/
def execPtpCorrStatus (t : Instant) (q : QId) (s : State) : Out := .next (runCmd t q 0x4041 true cmdPtpCorrStatus s)

end Sys2Proof.Machine
end

