-- ==== Sys2Proof/Machine/TimeBase.lean ====
section
/-! DEFINITION. The time base: the servo and its states, steps of the time, references, PPS input and output, and the
time commands. -/
namespace Sys2Proof.Machine

/-- STATE codes (Table 7.4). -/
def ServoState.code : ServoState → Nat
  | .free => 0 | .acquire => 1 | .locked => 2 | .holdover => 3

/-- SOURCE codes (Table 7.6). -/
def ServoSource.code : ServoSource → Nat
  | .free => 0 | .line => 1 | .pps => 2

/-- CLK_IN_USE codes (Table 7.8). -/
def ClkInUse.code : ClkInUse → Nat
  | .refclk => 0 | .timeref => 1 | .dco => 2

/-- The time base, changed. -/
def State.modTb (s : State) (f : TimeBase → TimeBase) : State := { s with tb := f s.tb }

/-- The bound of F, ±200 ppm (R262). -/
def rateBound : Int := 56294995342

/-- F as last requested: in force, or waiting for its epoch tick (R266). -/
def TimeBase.rate (b : TimeBase) : Int := b.pending.rate.getD b.f

/-- A new F, in force from the next epoch tick (R266). -/
def TimeBase.setRate (b : TimeBase) (f : Int) : TimeBase := { b with pending := { b.pending with rate := some f } }

/-- The integrator preloaded from a rate word (R270). -/
def preload (f : Int) : Rat := -(f : Rat) / 2 ^ 48

/-- T_u in units of 2⁻¹⁶ ns (Table 7.3). -/
def tu (p : ServoP) : Rat :=
  if p.source = .pps then 65536000000000
  else (if p.relay then (16 * 73800 * 65536 * 100 : Rat) / 10625 else (8589934592 : Rat) / 25) * ((2 ^ p.k : Nat) : Rat)

/-- One update of the proportional-integral law: the new integrator, F, and whether F was clamped (R262, R270). -/
def slew (p : ServoP) (integ : Rat) (e : Int) : Rat × Int × Bool :=
  let x : Rat := (e : Rat) / tu p
  let i := integ + (p.ki : Rat) / 16777216 * x
  let raw := -roundRat (2 ^ 48 * ((p.kp : Rat) / 16777216 * x + i))
  let f := clampInt (-rateBound) rateBound raw
  (i, f, decide (f ≠ raw))

/-- HOLD_RATE: the exact mean of the rates applied in LOCKED over the last 2^k updates, or F (R273). -/
def TimeBase.hold (b : TimeBase) (k : Nat) : Int :=
  let xs := b.rates.take (2 ^ k)
  if xs = [] then b.rate else roundDiv xs.sum xs.length

/-! ### Events (R277) -/

/-- A step value: a magnitude in the layout of Table 7.1 with W1 [15] as SIGN (R281). -/
def stepWords (x : Int) : List Byte :=
  let m := x.natAbs
  let ns := m / 65536 % 1000000000
  leBytes 2 (m % 65536) ++ leBytes 2 (ns % 65536) ++ leBytes 2 (pack [(ns / 65536, 14), (0, 1), (flag (decide (x < 0)), 1)]) ++
    leBytes 6 (m / 65536000000000)

/-- The SERVO_STATE event (Table 7.9): STAMP is Fountainhead's own time. -/
def State.servoEvent (s : State) (old new : ServoState) (cause : Nat) (step : Int) : State :=
  (s.modTb fun b => { b with lastCause := cause }).event 0xE020 0
    (wordsLe [pack [(old.code, 2), (new.code, 2), (0, 4), (cause, 8)]] ++ stepWords step ++ (Stamp.mk s.fnow s.tb.running).bytes)

/-- A change of the servo state, whose event waits for the epoch tick (R271, R277): ACQUIRE preloads the integrator,
HOLDOVER freezes F at HOLD_RATE, and RATE_LIMITED stays only where that is the F that was clamped (R262, R270, R273). -/
def State.servoTo (s : State) (st : ServoState) (cause : Nat) : State :=
  s.modTb fun b =>
    let b1 := { b with good := 0, bad := 0, empty := 0, updates := 0, state := st
                       pending := { b.pending with events := b.pending.events ++ [(b.state, st, cause)] } }
    let b2 := if b.state = st then b1 else { b1 with since := s.now, stateStamp := s.fnow }
    match st with
    | .acquire => { b2 with integ := preload b.rate }
    | .holdover => let h := b.hold s.active.servo.k; { b2.setRate h with holdRate := h, rateLimited := b.rateLimited && decide (h = b.rate) }
    | _ => b2

/-! ### Updates (R269 to R273) -/

/-- The maximum time step in 2⁻¹⁶ ns (Table 1.5). -/
def State.maxStep (s : State) : Nat := nsec s.limits.maxStep

/-- STEP_THRESHOLD in force in 2⁻¹⁶ ns, within the maximum time step (R48, R107). -/
def State.stepThreshold (s : State) : Nat := nsec (min s.active.servo.stepThreshold s.limits.maxStep)

/-- An offset lies within `m` times LOCK_WINDOW (Table 7.5). -/
def State.within (s : State) (m : Nat) (e : Int) : Bool := decide (e.natAbs * 1000 ≤ m * s.active.servo.lockWindow * 65536)

/-- The step an offset asks for would be blocked (R272). -/
def State.blocks (s : State) (e : Int) : Bool :=
  decide (s.stepThreshold < e.natAbs) && s.tb.timeValid && decide (s.maxStep < e.natAbs)

/-- A new F by R270. -/
def State.slewBy (s : State) (e : Int) : State :=
  let r := slew s.active.servo s.tb.integ e
  s.modTb fun b => { b.setRate r.2.1 with integ := r.1, rateLimited := r.2.2 }

/-- An update in ACQUIRE that is not blocked: a step or a new F, and the count toward LOCKED (R270, R272, Table 7.5). -/
def State.acquireBy (s : State) (e : Int) (upstream : Bool) : State :=
  let s1 :=
    if s.stepThreshold < e.natAbs then
      s.modTb fun b => { b with pending := { b.pending with
        step := some (b.pending.step.getD 0 - e)
        setsValid := b.pending.setsValid || (decide (s.active.servo.source = .line) && !b.timeValid && upstream) } }
    else s.slewBy e
  let s2 := s1.modTb fun b => { b with good := if s.within 1 e then b.good + 1 else 0 }
  if 16 ≤ s2.tb.good then s2.servoTo .locked 0x02 else s2

/-- An update in LOCKED (R270, R272, R273, Table 7.5). -/
def State.lockedBy (s : State) (e : Int) : State :=
  let high := decide (s.stepThreshold < e.natAbs)
  let s1 := if high then s else
    let s' := s.slewBy e
    s'.modTb fun b => { b with rates := (b.rate :: b.rates).take 65536 }
  let s2 := s1.modTb fun b => { b with bad := if high || !s.within 4 e then b.bad + 1 else 0 }
  if 4 ≤ s2.tb.bad then s2.servoTo .acquire 0x03 else s2

/-- A non-empty update with offset e (R270 to R272). -/
def State.servoOffset (s : State) (e : Int) (upstream : Bool) : State :=
  let s1 := s.modTb fun b => { b with offset := some e, updates := satAdd 32 b.updates 1, empty := 0, updateAt := s.now, updated := true }
  match s1.tb.state with
  | .free => s1
  | .acquire =>
    if s1.blocks e then (s1.servoTo .holdover 0x07).modTb fun b => { b with stepBlocked := true }
    else s1.acquireBy e upstream
  | .locked => s1.lockedBy e
  | .holdover =>
    if s1.blocks e then s1
    else
      let s2 := (s1.servoTo .acquire 0x05).modTb fun b => { b with stepBlocked := false, updates := 1 }
      s2.acquireBy e upstream

/-- An empty update: neither F nor the time changes, and two in a row in ACQUIRE or LOCKED lead to HOLDOVER (R269,
Table 7.5). -/
def State.servoEmpty (s : State) : State :=
  let s1 := s.modTb fun b => { b with empty := b.empty + 1, good := 0, bad := 0, updateAt := s.now, updated := true }
  if (s1.tb.state = .acquire ∨ s1.tb.state = .locked) ∧ 2 ≤ s1.tb.empty then s1.servoTo .holdover 0x04 else s1

/-- The median of a list: the middle value, or the mean of the two middle values (R301). -/
def median (xs : List Rat) : Option Rat :=
  let ys := xs.mergeSort (fun a b => decide (a ≤ b))
  let n := ys.length
  if n = 0 then none
  else if n % 2 = 1 then some (ys.getD (n / 2) 0)
  else some ((ys.getD (n / 2 - 1) 0 + ys.getD (n / 2) 0) / 2)

/-- A lane mean lies more than 50 ps from a median, both exact (R301). -/
def outlier (m1 x : Rat) : Bool := decide (16384 / 5 < x - m1 ∨ x - m1 < -16384 / 5)

/-- Statuses of the lanes for one update, OUTLIER judged last (R300, R301). -/
def State.combine (s : State) (rs : List LaneRef) : List (LaneRef × Nat × Rat) :=
  let st := rs.map fun r => (r, s.laneStatus r, (samplesMean (s.lane r).time.samples).getD 0)
  match median ((st.filter fun x => decide (x.2.1 = 0)).map fun x => x.2.2) with
  | none => st
  | some m1 => st.map fun x => if x.2.1 = 0 ∧ outlier m1 x.2.2 then (x.1, 0x08, x.2.2) else x

/-- The lanes that can be sampled: the line lanes and the relay lanes. -/
def timeLanes : List LaneRef := lineRefs ++ (List.finRange 16).map LaneRef.relay

/-- The servo interval ends: lane statuses, the combined offset, and the next interval (R299 to R302). -/
def State.endInterval (s : State) : State × Option Int :=
  let st := s.combine timeLanes
  let ins := st.filter fun x => decide (x.2.1 = 0)
  let e := (median (ins.map fun x => x.2.2)).map roundRat
  let up := match ins.head? with
    | some x => (s.lane x.1).time.farTimeValid
    | none => s.tb.upstreamValid
  let s1 := s.forEach st fun x s => s.closeInterval x.1 x.2.1
  (s1.modTb fun b => { b with lanesIn := ins.length, combValid := e.isSome, upstreamValid := up
                              combined := if e.isSome then e else b.combined, updateStamp := s.stampMgmt, markers := 0 }, e)

/-- One LOCK_LINE update. -/
def State.lineUpdate (s : State) : State :=
  let x := s.endInterval
  match x.2 with
  | some e => x.1.servoOffset e x.1.tb.upstreamValid
  | none => x.1.servoEmpty

/-- 1.25 T_u in elapsed time, up to the next unit (R269, R532). -/
def emptyTime (p : ServoP) : Nat := ((5 : Rat) / 4 * tu p).ceil.toNat

/-- An empty update is due at 1.25 T_u after the last one: the counter cycle in which that falls is over (R45, R269). -/
def State.emptyDue (s : State) : Bool := s.past 262144 5 (s.tb.updateAt + emptyTime s.active.servo)

/-- A Fountainhead time lies in a counter cycle that is over (R45). -/
def State.pastTick (s : State) (f : FTime) : Bool := decide (5 * f / 262144 < 5 * s.fnow / 262144)

/-! ### Steps of the time (R43, R266, R267, R281, R285) -/

/-- The words of a step in the layout of TIME_STEP (R281). -/
def stepDetail (x : Int) : List Nat :=
  let f := x.natAbs
  let sec := f / 65536000000000
  let ns := f / 65536 % 1000000000
  [pack [(f % 65536, 16), (ns % 65536, 16)], pack [(ns / 65536, 14), (0, 1), (flag (decide (x < 0)), 1), (sec, 16)], sec / 65536 % 2 ^ 32]

/-- The counter and F before a change at an instant are kept, for stamps of events before it (R266). -/
def TimeBase.keepPast (b : TimeBase) (now : Instant) : TimeBase := { b with past := ((now, b.counter, b.f) :: b.past).take 4096 }

/-- The period of REFOUT in Fountainhead time, 2⁻¹⁶ ns (R285, Table 7.13). -/
def refPeriod (ref100 : Bool) : Nat := if ref100 then 10 * 65536 else 100 * 65536

/-- The rising and falling edges of a lengthened period of REFOUT that is under way (R285). -/
def State.refLengthened (s : State) : Option (Int × Int) :=
  s.tb.refLong.bind fun p => if p.1 ≤ (s.fnow : Int) ∧ (s.fnow : Int) < p.2.2 then some (p.1, p.2.1) else none

/-- The rising edge of the present period of REFOUT, in Fountainhead time, with the period of a frequency (R285). -/
def State.refRise (s : State) (ref100 : Bool) : Int :=
  match s.refLengthened with
  | some p => p.1
  | none => s.fnow - ((s.fnow : Int) - s.tb.refEdge) % (refPeriod ref100 : Int)

/-- The falling edge of the present period: half a period after it rose (R285). -/
def State.refFall (s : State) : Int :=
  match s.refLengthened with
  | some p => p.2
  | none => s.refRise s.active.pps.ref100 + refPeriod s.active.pps.ref100 / 2

/-- REFOUT is high until the falling edge of its period, while it runs; it is held low while disabled and in SLEEP (R285, R288). -/
def State.refoutHigh (s : State) : Bool :=
  s.tb.refout && s.tb.running && decide (s.sys.pstate ≤ 1) && decide ((s.fnow : Int) < s.refFall)

/-- The steps of an epoch tick, `x` in all, in 2⁻¹⁶ ns, take effect at the counter and every replica.  Below time zero the result is
free. -/
def State.stepTime (s : State) (x : Int) : State :=
  let c : Int := s.tb.counter + x * 2 ^ 48
  let d := s.draw
  let counter := if 0 ≤ c then c.toNat else Config.reading 0x4001 d.1
  let s1 := if 0 ≤ c then s else d.2
  let s2 := s1.modTb fun b => { b.keepPast s.now with
    counter, steps := b.steps + 1, stepAt := some (s.now, x)
    ppsLast := b.ppsLast.map fun f => ((f : Int) + x).toNat
    ppsBase := b.ppsBase.map fun f => ((f : Int) + x).toNat
    refEdge := b.refEdge + x
    refLong := b.refLong.map fun p => (p.1 + x, p.2.1 + x, p.2.2 + x)
    refAligned := b.refAligned && decide (x.natAbs % refPeriod s.active.pps.ref100 = 0) }
  s2.forEach timeLanes fun r s => s.modLane r fun l => { l with time := { l.time with samples := [] } }

/-- The log entry of a step: the step and its origin (R267, Table 14.5). -/
def State.logStep (s : State) (x : Int) (origin : Nat) : State := s.logEntry 0x0201 0 1 0xFFFF (stepDetail x ++ [origin])

/-- The origin of a host step: TIME_STEP or TIME_SET (Table 14.5). -/
def State.stepOrigin (s : State) (seq : Nat) : Nat :=
  match s.queueOf seq with
  | some (_, e) => if e.cmd.op = 0x4801 then 2 else 1
  | none => 1

/-- A host step takes effect: the servo leaves LOCKED for ACQUIRE, STEP_BLOCKED clears, TIME_VALID is set, the step has its event,
and its command replies with it (R267, R277, R281). -/
def State.hostStepped (s : State) (h : Nat × Int × Bool) : State :=
  let old := s.tb.state
  let s1 := s.modTb fun b => { b with stepBlocked := false, timeValid := true }
  let s2 := if old = .locked then s1.servoTo .acquire 0x08 else s1
  let s3 := s2.modTb fun b => { b with pending := { b.pending with events := [] } }
  (s3.servoEvent old s3.tb.state 0x08 h.2.1).complete h.1 (if h.2.2 then .limitClamped else .ok) (stepWords h.2.1)

/-- A change of the servo state came with the servo step that waits: reaching LOCKED, or leaving HOLDOVER.  The step's event
carries both (R277). -/
def ofStep (e : ServoState × ServoState × Nat) : Bool := decide (e.2.2 = 0x02 ∨ e.2.2 = 0x05)

/-- STATE_STAMP is the time of the epoch tick of a change of state (Tables 7.8 and 7.9). -/
def State.stampChange (s : State) (es : List (ServoState × ServoState × Nat)) : State :=
  if es.any fun e => decide (e.1 ≠ e.2.1) then s.modTb fun b => { b with stateStamp := s.fnow } else s

/-- A servo step reports its SERVO_STATE event, with the change of state that came with it, and may set TIME_VALID (R272,
R277). -/
def State.servoStepped (s : State) (p : PendingStep) (x : Int) : State :=
  let old := ((p.events.find? ofStep).map Prod.fst).getD s.tb.state
  (s.modTb fun b => { b with timeValid := b.timeValid || p.setsValid }).servoEvent old s.tb.state 0x06 x

/-- The steps that wait, each with its origin (Table 14.5). -/
def State.waitingSteps (s : State) : List (Int × Nat) :=
  (s.tb.pending.step.toList.map fun x => (x, 0)) ++ s.tb.pending.hosts.map fun h => (h.2.1, s.stepOrigin h.1)

/-- The changes waiting for an epoch tick take effect together: the new F, and the steps, each with its log entry and its event
(R266, R267, R277). -/
def State.applySteps (s : State) : State :=
  let p := s.tb.pending
  let xs := s.waitingSteps
  let s1 := s.modTb fun b => { (if p.rate.isSome then b.keepPast s.now else b) with pending := {}, f := p.rate.getD b.f }
  let s2 := if xs = [] then s1 else s1.stepTime (xs.map Prod.fst).sum
  let s3 := (s2.forEach xs fun x s => s.logStep x.1 x.2).stampChange p.events
  let s4 := s3.forEach (p.events.filter fun e => p.step.isNone || !ofStep e) fun e s => s.servoEvent e.1 e.2.1 e.2.2 0
  let s5 := match p.step with
    | some x => s4.servoStepped p x
    | none => s4
  s5.forEach p.hosts fun h s => s.hostStepped h

/-- TIME_STEP_APPLY: what waits for it takes effect at the tick of an epoch message of the time bus (R266). -/
def execTimeStepApply (t : Instant) (s : State) : Out :=
  let s := s.advanceTo t
  .next (if s.atEpoch then s.applySteps else s)

/-! ### References (R264) -/

/-- A reference is qualified. -/
def TimeBase.clkOk (b : TimeBase) : ClkInUse → Bool
  | .refclk => b.refclkOk | .timeref => b.timerefOk | .dco => false

/-- A reference is lost; the frozen oscillator is none. -/
def TimeBase.clkLost (b : TimeBase) : ClkInUse → Bool
  | .refclk => b.refclkLost | .timeref => b.timerefLost | .dco => true

/-- The PLL's reference after a change of what is qualified, lost or selected: the selected one where it is qualified; else the one
in use until it is lost; then the other where that is qualified; else the frozen oscillator (R264). -/
def TimeBase.clkChoice (b : TimeBase) (selected other : ClkInUse) : ClkInUse :=
  if b.clkOk selected then selected
  else if b.clkLost b.clk = false then b.clk
  else if b.clkOk other then other
  else .dco

/-- The PLL moves where the choice has changed, with an event: reference move, both lost, or the selected one restored. -/
def State.judgeClk (s : State) : State :=
  let c := if s.active.servo.timeref then s.tb.clkChoice .timeref .refclk else s.tb.clkChoice .refclk .timeref
  if c = s.tb.clk then s
  else
    let selected : ClkInUse := if s.active.servo.timeref then .timeref else .refclk
    let cause := if c = .dco then 0x0B else if c = selected then 0x0A else 0x09
    (s.modTb fun b => { b with clk := c }).servoEvent s.tb.state s.tb.state cause 0

/-! ### The PPS input (R279) -/

/-- Edges are stamped and judged: in LOCK_PPS or with PPS_IN enabled, and not in SLEEP or DEEP (R279, R288). -/
def State.ppsJudged (s : State) : Bool :=
  (decide (s.active.servo.source = .pps) || s.active.servo.ppsIn) && decide (s.sys.pstate ≤ 1) && s.tb.running

/-- An edge with a stamp is accepted; one in the counter cycle in which the window ends still is (R45, R279).  DESIGN CHOICE (log 149):
the last accepted edge and its window stand while edges are not judged. -/
def State.ppsAccepts (s : State) (f : FTime) : Bool :=
  match s.tb.ppsLast, s.tb.ppsBase with
  | some _, some b => decide (s.tb.state = .holdover) || decide (b + msec 900 ≤ f ∧ 5 * f / 262144 ≤ 5 * (b + msec 1100) / 262144)
  | _, _ => true

/-- The stamp of a PPS_IN edge that falls now, to 12.5 ps (R279). -/
def State.ppsStamp (s : State) : FTime := s.fAt (s.now * 5 / 4096 * 4096 / 5)

/-- The offset of an accepted edge: stamp less CABLE_DELAY, less the nearest whole second (Table 7.3). -/
def ppsOffset (f : FTime) (cableDelay : Int) : Int :=
  let x := ((f : Int) - psUnits cableDelay) % 65536000000000
  if 2 * x ≤ 65536000000000 then x else x - 65536000000000

/-- A host step joins the changes of the next epoch tick. -/
def TimeBase.hostStep (b : TimeBase) (seq : Nat) (x : Int) (limited : Bool) : TimeBase :=
  { b with pending := { b.pending with hosts := b.pending.hosts ++ [(seq, x, limited)] } }

/-- A TIME_SET step within the maximum time step while TIME_VALID is 1 (R281). -/
def State.limitStep (s : State) (x : Int) : Int × Bool :=
  if s.tb.timeValid ∧ s.maxStep < x.natAbs then (if x < 0 then -(s.maxStep : Int) else s.maxStep, true) else (x, false)

/-- A time in the layout of Table 7.1 with its reserved bits 0, from word `i` of a payload (R260). -/
def QEntry.time (e : QEntry) (i : Nat) : Option FTime :=
  let ns := bits (e.w i) 16 16 + bits (e.w (i + 1)) 0 14 * 65536
  if bits (e.w (i + 1)) 14 2 = 0 ∧ ns ≤ 999999999 then
    some (bits (e.w i) 0 16 + 65536 * (ns + 1000000000 * (bits (e.w (i + 1)) 16 16 + 65536 * e.w (i + 2))))
  else none

/-- The TIME_SET commands that wait for an edge: MODE 1, running, with no step of theirs on the way (R281). -/
def State.edgeWaiters (s : State) : List QEntry :=
  s.q.all.filter fun e => decide (e.phase = .running ∧ e.cmd.op = 0x4001 ∧ bit (e.w 3) 0 = true) &&
    !s.tb.pending.hosts.any fun h => decide (h.1 = e.seq)

/-- Those whose 2 s for an edge have not passed (R281, Table 2.8). -/
def State.edgeTakers (s : State) : List QEntry := s.edgeWaiters.filter fun e => !s.pastCmd (e.acceptedAt + secs 2)

/-! ### PPS_OUT (R282, R283) -/

/-- GATE lets a pulse through (Table 7.12). -/
def gateOpen (gate : Nat) (st : ServoState) : Bool :=
  match gate with
  | 0 => true
  | 1 => decide (st = .locked)
  | _ => decide (st = .locked ∨ st = .holdover)

/-- The latest leading-edge instant: a whole second plus OFFSET (R282). -/
def State.ppsInstant (s : State) (p : PpsP) : Int := s.fnow - ((s.fnow : Int) - p.offset) % 65536000000000

/-- Time stands within the step of 3.125 ps after a whole second plus OFFSET in which the edge is placed (R282). -/
def State.atPpsInstant (s : State) : Bool := decide ((s.fnow : Int) < s.ppsInstant s.active.pps + 205)

/-- The class 0x06 set committed at this very instant: its edge obeyed the old set (R284). -/
def State.ppsJustSet (s : State) : Bool :=
  let a := (s.meta .ppsOut).activeStamp.time
  decide (a ≤ s.fnow ∧ s.fnow < a + 205 ∧ a ≠ 0)

/-- A leading edge is driven now where one is due: unless GATE suppresses it or the previous pulse's trailing edge is not
100 ns past (R282, R283). -/
def State.ppsEdge (s : State) : State :=
  let clear : Bool := match s.tb.ppsTrailAt with | some x => decide (x + nsec 100 ≤ s.now) | none => true
  if s.active.pps.enable ∧ s.tb.running ∧ s.atPpsInstant ∧ gateOpen s.active.pps.gate s.tb.state ∧ s.tb.ppsOut = false ∧ clear then
    s.modTb fun b => { b with
      ppsOut := true, ppsEdgeAt := s.now, ppsWidth := s.active.pps.width * nsec 10, ppsFalling := s.active.pps.falling, ppsMask := s.active.pps.evtMask }
  else s

/-- The level of PPS_OUT: a pulse rises or falls from the inactive level by POLARITY (R282, Table 7.12). -/
def State.ppsLevel (s : State) : Bool := if s.tb.ppsOut then !s.tb.ppsFalling else s.active.pps.falling

/-- The level of the copy on an EVT pin, which rests at the inactive level as well (R282, R284). -/
def State.ppsCopy (s : State) (e : Fin 8) : Bool := if s.tb.ppsOut && bit s.tb.ppsMask e.val then !s.tb.ppsFalling else s.active.pps.falling

/-- PPS_OUT_EDGE: a leading edge (R282). -/
def execPpsOutEdge (t : Instant) (s : State) : Out :=
  let s := s.advanceTo t
  .next (if s.ppsJustSet then s else s.ppsEdge)

/-- PPS_OUT_TRAILING: the trailing edge follows after WIDTH (R282). -/
def execPpsOutTrailing (t : Instant) (s : State) : Out :=
  let s := s.advanceTo t
  .next (if s.tb.ppsOut ∧ s.tb.ppsEdgeAt + s.tb.ppsWidth ≤ s.now then s.modTb fun b => { b with ppsOut := false, ppsTrailAt := some s.now } else s)

/-! ### The time bus (R22, R26, R95) -/

/-- The tick count that a replica expects of the epoch message of the present tick: its own count, gone on (R23, R26). -/
def Replica.expects (r : Replica) (ticks : Nat) : Int := (r.count : Int) + ((ticks : Int) - r.ref)

/-- An epoch message with a tick count matches: a replica that is not yet aligned takes any, and one that mismatched goes on
from the message it last heard as well as from its own count (R26, R27; log 119). -/
def Replica.hears (r : Replica) (ticks tick : Nat) : Bool :=
  !r.aligned || decide ((tick : Int) = r.expects ticks ∨ r.heard = some ((tick : Int) - ticks))

/-- The message now in force at a replica (R22, R24), with the step of its tick where it has one (R266): `edge` is the skew that the
receiver measures (R23). -/
def State.heardBy (s : State) (r : Replica) (tick : Nat) (edge : Int) : Replica :=
  { r with aligned := true, error := false, mismatches := 0, count := tick, ref := s.ticks, heard := none
           msgTime := s.fnow, msgRate := s.tb.f, skew := edge
           msgStep := s.tb.stepAt.bind fun x => if x.1 = s.now then some x.2 else none }

/-- TIME_BUS_EPOCH_MESSAGE: at the tick of an epoch message, each of whose 1,024 ticks apart, Fountainhead sends its tick count,
the time at that tick and the rate to a stamping island (R22); `m` is the tick count as it arrives there, and the skew of its edge
that the receiver measures.  What waits for an epoch tick takes effect before the message goes out (R266).  The replica of an island on its
island clock checks it against its own count (R26). -/
def execTimeBusEpochMessage (t : Instant) (n : Fin 64) (m : Nat × Int) (s : State) : Out :=
  let tick := m.1
  let edge := m.2
  let s := if (s.advanceTo t).atEpoch then (s.advanceTo t).applySteps else s.advanceTo t
  let r := s.replicas[n]
  if s.atEpoch = false ∨ stampingIsland n = false ∨ s.onIslandClock n = false then .next s
  else if r.hears s.ticks tick = true then
    let s1 := { s with replicas := s.replicas.set n (s.heardBy r tick edge) }
    .next (if r.error then
        s1.event 0xE021 0 (wordsLe [pack [(n.val, 8), (0, 8), (r.mismatches, 16)]] ++ (Stamp.mk s.fnow true).bytes)
      else s1)
  else
    let s1 := { s with replicas := s.replicas.set n { r with error := true, mismatches := satAdd 16 r.mismatches 1, heard := some ((tick : Int) - s.ticks) } }
    .next (if r.error then s1 else s1.logEntry 0x0202 0 1 0xFFFF [n.val])

/-! ### Commands -/

/-- TIME_GET: the time of the management processor's replica, to 2 ns (R278). -/
def cmdTimeGet (_q : QId) (e : QEntry) (s : State) : Res :=
  checked e (· == 0) true fun _ =>
    .ok (timeWords s.stampMgmt.time ++ wordsLe [pack [(flag s.tb.timeValid, 1), (s.tb.state.code, 2), (s.active.servo.source.code, 2)]]) s

/-- Row TIME_GET. -/
def execTimeGet (t : Instant) (q : QId) (s : State) : Out := .next (runCmd t q 0x4000 true cmdTimeGet s)

/-- TIME_SET (R281). -/
def cmdTimeSet (_q : QId) (e : QEntry) (s : State) : Res :=
  checked e (· == 16) ((e.time 0).isSome && rsvHigh (e.w 3) 1) fun _ =>
    if bit (e.w 3) 0 then
      if s.active.servo.ppsIn then .wait s else .fail .precondition []
    else
      let x := s.limitStep (((e.time 0).getD 0 : Int) - s.fnow)
      .wait (s.modTb fun b => b.hostStep e.seq x.1 x.2)

/-- Row TIME_SET. -/
def execTimeSet (t : Instant) (q : QId) (s : State) : Out := .next (runCmd t q 0x4001 false cmdTimeSet s)

/-- The signed step of a TIME_STEP payload, none where it is malformed (R260, R281). -/
def QEntry.step (e : QEntry) : Option Int :=
  let ns := bits (e.w 0) 16 16 + bits (e.w 1) 0 14 * 65536
  if bit (e.w 1) 14 = false ∧ ns ≤ 999999999 then
    let m : Int := (bits (e.w 0) 0 16 + 65536 * (ns + 1000000000 * (bits (e.w 1) 16 16 + 65536 * e.w 2)) : Nat)
    some (if bit (e.w 1) 15 then -m else m)
  else none

/-- TIME_STEP (R281). -/
def cmdTimeStep (_q : QId) (e : QEntry) (s : State) : Res :=
  checked e (· == 12) e.step.isSome fun _ => .wait (s.modTb fun b => b.hostStep e.seq (e.step.getD 0) false)

/-- Row TIME_STEP. -/
def execTimeStep (t : Instant) (q : QId) (s : State) : Out := .next (runCmd t q 0x4801 false cmdTimeStep s)

/-- Writes of class 0x05. -/
def Bank.srv (f : ServoP → ServoP) (k : Bank) : Bank := { k with servo := f k.servo }

/-- SERVO_SOURCE; a worker with TIME_FOLLOW 1 takes it from its own firmware only (R274, R342).  The mark tells its commit, which is
one of a source or group even where neither differs (R271). -/
def cmdServoSource (q : QId) (e : QEntry) (s : State) : Res :=
  let mask := bits (e.w 0) 8 8
  let relay := bit (e.w 0) 19
  let src := bits (e.w 0) 0 2
  checked e (· == 4) (rsv (e.w 0) 2 6 && rsvHigh (e.w 0) 20 && decide (src ≠ 3) && (decide (src ≠ 1) || (decide (mask ≠ 0) != relay))) fun _ =>
    if s.active.rill.role = .worker ∧ s.active.rill.timeFollow = true ∧ q ≠ .q3 then .fail .precondition []
    else .ok [] ((s.modShadow (Bank.srv fun p => { p with
      source := if src = 0 then .free else if src = 1 then .line else .pps, laneMask := mask
      relayPort := ⟨bits (e.w 0) 16 3, by simp only [bits]; omega⟩, relay })).mark .servo 0x4010)

/-- Row SERVO_SOURCE. -/
def execServoSource (t : Instant) (q : QId) (s : State) : Out := .next (runCmd t q 0x4010 false cmdServoSource s)

/-- The reply of SERVO_PARAMS (Table 7.7). -/
def servoReply (p : ServoP) : List Byte :=
  wordsLe [pack [(0, 8), (p.k, 5)], p.kp, p.ki, p.stepThreshold, p.lockWindow] ++ leBytes 8 (ofSigned 64 p.rateWord)

/-- The settings firmware chooses for a reference type: k, KP, KI, STEP_THRESHOLD and LOCK_WINDOW, within their ranges
and the maximum time step (R48, R275).  The manual gives no values: they are free. -/
def servoPolicy (ref c maxStep : Nat) : Nat × Nat × Nat × Nat × Nat :=
  let f := fun i => Config.policy (0x401100 + 16 * ref + i) c
  (4 + f 0 % 13, 1 + f 1 % 0xFFFFFF, f 2 % 0x1000000, min (1 + f 3 % 1000000000) maxStep, 1 + f 4 % 1000000)

/-- SERVO_PARAMS, basic (R275). -/
def cmdServoParams (_q : QId) (e : QEntry) (s : State) : Res :=
  let ref := bits (e.w 0) 0 3
  checked e (· == 4) (decide (ref ≤ 3) && rsv (e.w 0) 3 5 && rsv (e.w 0) 13 3 && rsvHigh (e.w 0) 20) fun _ =>
    let d := s.draw
    let v := servoPolicy ref d.1 s.limits.maxStep
    let w := fun (el : Nat) (f : ServoP → ServoP) (s : State) => s.writeBasic .servo 0x4811 el (Bank.srv f)
    let s1 := d.2.modShadow (Bank.srv fun p => { p with refType := ref })
    let s2 := w 128 (fun p => { p with k := v.1 }) s1
    let s3 := w 129 (fun p => { p with kp := v.2.1, ki := v.2.2.1 }) s2
    let s4 := w 130 (fun p => { p with stepThreshold := v.2.2.2.1, lockWindow := v.2.2.2.2 }) s3
    .ok (servoReply s4.shadow.servo) s4

/-- Row SERVO_PARAMS. -/
def execServoParams (t : Instant) (q : QId) (s : State) : Out := .next (runCmd t q 0x4011 false cmdServoParams s)

/-- SERVO_PARAMS, expert: the groups WRITE_MASK selects are written and pinned (R275). -/
def cmdServoParamsExpert (_q : QId) (e : QEntry) (s : State) : Res :=
  let m := bits (e.w 0) 16 4
  let k := bits (e.w 0) 8 5
  let rate := toSigned 64 (fieldAt e.cmd.payload 20 8)
  checked e (· == 28)
    (rsv (e.w 0) 0 8 && rsv (e.w 0) 13 3 && rsvHigh (e.w 0) 20 && rsvHigh (e.w 1) 24 && rsvHigh (e.w 2) 24 &&
      (!bit m 0 || decide (4 ≤ k ∧ k ≤ 16)) && (!bit m 1 || decide (e.w 1 ≠ 0)) &&
      (!bit m 2 || decide (1 ≤ e.w 3 ∧ e.w 3 ≤ 1000000000 ∧ 1 ≤ e.w 4 ∧ e.w 4 ≤ 1000000)) &&
      (!bit m 3 || decide (rate.natAbs ≤ rateBound))) fun _ =>
      let w := fun (sel : Bool) (el : Nat) (f : ServoP → ServoP) (s : State) => if sel then s.writeExpert .servo 0x4811 el (Bank.srv f) else s
      let s1 := w (bit m 0) 128 (fun p => { p with k := k }) s
      let s2 := w (bit m 1) 129 (fun p => { p with kp := e.w 1, ki := e.w 2 }) s1
      let s3 := w (bit m 2) 130 (fun p => { p with stepThreshold := min (e.w 3) s.limits.maxStep, lockWindow := e.w 4 }) s2
      let s4 := w (bit m 3) 131 (fun p => { p with rateWord := rate }) s3
      let s5 := if bit m 3 then s4.mark .servo 0x4811 else s4
      if bit m 2 ∧ s.limits.maxStep < e.w 3 then .clamped (servoReply s5.shadow.servo) s5 else .ok (servoReply s5.shadow.servo) s5

/-- Row SERVO_PARAMS, expert. -/
def execServoParamsExpert (t : Instant) (q : QId) (s : State) : Out := .next (runCmd t q 0x4811 false cmdServoParamsExpert s)

/-- HOLD_RATE as reported: in HOLDOVER the rate held, else the mean so far (R273, Table 7.8). -/
def State.holdRate (s : State) : Int := if s.tb.state = .holdover then s.tb.holdRate else s.tb.hold s.active.servo.k

/-- SERVO_STATUS (R276). -/
def cmdServoStatus (_q : QId) (e : QEntry) (s : State) : Res :=
  checked e (· == 0) true fun _ =>
    let b := s.tb
    .ok (wordsLe [pack [(b.state.code, 2), (s.active.servo.source.code, 2), (b.clk.code, 2), (flag b.timeValid, 1), (flag b.stepBlocked, 1),
          (flag b.rateLimited, 1), (flag b.timerefOk, 1), (flag b.refclkOk, 1), (flag (b.refAligned && s.active.pps.refEnable), 1), (0, 4),
          (b.lastCause, 8), (s.active.servo.k, 5)]] ++ offset64 b.offset ++ leBytes 8 (ofSigned 64 b.f) ++ leBytes 8 (ofSigned 64 s.holdRate) ++
        wordsLe [b.updates, min ((s.now - b.since) / msec 1) 0xFFFFFFFF] ++ timeWords b.stateStamp) s

/-- Row SERVO_STATUS. -/
def execServoStatus (t : Instant) (q : QId) (s : State) : Out := .next (runCmd t q 0x4012 true cmdServoStatus s)

/-- TIMEREF_CONFIG (R265). -/
def cmdTimerefConfig (_q : QId) (e : QEntry) (s : State) : Res :=
  checked e (· == 4) (rsvHigh (e.w 0) 2) fun _ =>
    .ok [] (s.modShadow (Bank.srv fun p => { p with timeref := bit (e.w 0) 0, timeref100 := bit (e.w 0) 1 }))

/-- Row TIMEREF_CONFIG. -/
def execTimerefConfig (t : Instant) (q : QId) (s : State) : Out := .next (runCmd t q 0x4020 false cmdTimerefConfig s)

/-- PPS_IN_CONFIG (R280). -/
def cmdPpsInConfig (_q : QId) (e : QEntry) (s : State) : Res :=
  checked e (· == 8) (rsvHigh (e.w 0) 2) fun _ =>
    .ok [] (s.modShadow (Bank.srv fun p => { p with ppsIn := bit (e.w 0) 0, ppsFalling := bit (e.w 0) 1, cableDelay := toSigned 32 (e.w 1) }))

/-- Row PPS_IN_CONFIG. -/
def execPpsInConfig (t : Instant) (q : QId) (s : State) : Out := .next (runCmd t q 0x4023 false cmdPpsInConfig s)

/-- PPS_OUT_CONFIG (R284). -/
def cmdPpsOutConfig (_q : QId) (e : QEntry) (s : State) : Res :=
  let off := toSigned 64 (fieldAt e.cmd.payload 8 8)
  checked e (· == 16)
    (rsv (e.w 0) 4 4 && rsvHigh (e.w 0) 16 && decide (bits (e.w 0) 2 2 ≠ 3 ∧ 10 ≤ e.w 1 ∧ e.w 1 ≤ 50000000 ∧
      -((msec 500 : Nat) : Int) ≤ off ∧ off < ((msec 500 : Nat) : Int))) fun _ =>
      .ok [] (s.modShadow fun k => { k with pps := { k.pps with
        enable := bit (e.w 0) 0, falling := bit (e.w 0) 1, gate := bits (e.w 0) 2 2, evtMask := bits (e.w 0) 8 8, width := e.w 1, offset := off } })

/-- Row PPS_OUT_CONFIG. -/
def execPpsOutConfig (t : Instant) (q : QId) (s : State) : Out := .next (runCmd t q 0x4021 false cmdPpsOutConfig s)

/-- REFOUT_CONFIG: REALIGN acts at the commit; the reply is REFOUT_ALIGNED at acceptance (R285, R286). -/
def cmdRefoutConfig (_q : QId) (e : QEntry) (s : State) : Res :=
  checked e (· == 4) (rsvHigh (e.w 0) 3) fun _ =>
    let s1 := s.modShadow fun k => { k with pps := { k.pps with refEnable := bit (e.w 0) 0, ref100 := bit (e.w 0) 1 } }
    .ok (wordsLe [flag (s.tb.refAligned && s.active.pps.refEnable)]) (if bit (e.w 0) 2 then s1.mark .ppsOut 0x4022 else s1.unmark .ppsOut 0x4022)

/-- Row REFOUT_CONFIG. -/
def execRefoutConfig (t : Instant) (q : QId) (s : State) : Out := .next (runCmd t q 0x4022 false cmdRefoutConfig s)

/-! ### What a commit does (R270, R271, R275, R284, R285) -/

/-- Two sets name a different source or group (Table 7.5). -/
def groupChanged (old new : ServoP) : Bool :=
  decide (old.source ≠ new.source) ||
    (decide (new.source = .line) && (decide (old.relay ≠ new.relay) || (new.relay && decide (old.relayPort ≠ new.relayPort)) ||
      (!new.relay && decide (old.laneMask ≠ new.laneMask))))

/-- The effect of a commit of class 0x05, whose new set is already active; `source` says that SERVO_SOURCE was written, and
`rateWord` that RATE_WORD was.  Every commit of a source or group clears STEP_BLOCKED and begins HOLD_RATE's mean anew (R271 to R273). -/
def State.servoCommitted (s : State) (old : ServoP) (source rateWord : Bool) : State :=
  let p := s.active.servo
  let s1 :=
    if groupChanged old p then
      (s.modTb fun b => { b with rates := [], updated := false, stepBlocked := false, markers := 0, updateAt := s.now }).servoTo
        (if p.source = .free then .free else .acquire) 0x01
    else if source then s.modTb fun b => { b with rates := [], stepBlocked := false }
    else s
  let s2 :=
    if rateWord then s1.modTb fun b =>
      let b1 := { b.setRate p.rateWord with rateLimited := false }
      match b.state with
      | .free => b1
      | .holdover => { b1 with holdRate := p.rateWord }
      | _ => { b1 with integ := preload p.rateWord }
    else s1
  s2.judgeClk

/-- The period of REFOUT that rises at an instant ends at the first edge of a grid that is no less than a nominal period later: its low
phase is lengthened, and no period is shorter than nominal (R285). -/
def lengthen (rise : Int) (period : Nat) (grid : Int) (next : Nat) : Int × Int × Int :=
  (rise, rise + period / 2, rise + period + (grid - (rise + period)) % (next : Int))

/-- The effect of a commit of class 0x06 on REFOUT: enabling starts it aligned, with an edge at the commit instant; REALIGN restores
alignment by lengthening the low phase of the period under way; disabling holds it low; and a change of FREQ goes on from the phase at that
instant (R285).  `realign` says that REALIGN was committed. -/
def State.ppsCommitted (s : State) (old : PpsP) (realign : Bool) : State :=
  let p := s.active.pps
  let now := refPeriod old.ref100
  let next := refPeriod p.ref100
  let rise := s.refRise old.ref100
  s.modTb fun b =>
    if p.refEnable = false then { b with refout := false, refAligned := false, refLong := none }
    else if old.refEnable = false then
      { b with refout := true, refAligned := true, refEdge := p.offset, refLong := some (lengthen (s.ppsInstant old) next p.offset next) }
    else if realign = true then { b with refAligned := true, refEdge := p.offset, refLong := some (lengthen rise now p.offset next) }
    else if old.ref100 = p.ref100 then b
    else if b.refAligned then { b with refEdge := rise, refLong := none }
    else { b with refEdge := s.fnow - ((s.fnow : Int) - rise) * next / now, refLong := none }

end Sys2Proof.Machine
end

