-- ==== Sys2Proof/Machine/RillRouter.lean ====
section
/-! DEFINITION. The Rill router: how a received frame is judged, routed and forwarded, and the frames a device sends of its
own. -/
namespace Sys2Proof.Machine

/-- The Rill record of the device, changed. -/
def State.modRill (s : State) (f : Rill → Rill) : State := { s with rill := f s.rill }

/-- Hop `i` of a route replaced (R328). -/
def setHop (route i : Nat) (p : Fin 16) : Nat := route - bits route (4 * (i - 1)) 4 * 2 ^ (4 * (i - 1)) + p.val * 2 ^ (4 * (i - 1))

/-- The first `n` hops of a route (R332). -/
def firstHops (route n : Nat) : Nat := route % 2 ^ (4 * n)

/-- UNDELIVERED toward the manager for a unicast down frame, from the device at its hop count (R332, Table 9.4). -/
def State.undeliver (s : State) (f : Frame) (reason : Nat) : State :=
  (s.modRill fun r => { r with undelivered := satAdd 32 r.undelivered 1 }).sendUp f.hopPtr (firstHops f.route f.hopPtr)
    { ftype := 0xC, hops := 0, hopPtr := 0, up := true, route := 0, xtag := f.xtag,
      body := wordsLe [pack [(reason, 8), (f.ftype, 8), (f.hopPtr, 3)]] }

/-- Frame types that go down (Table 9.4). -/
def downTypes : List Nat := [1, 4, 6, 8, 0xA]

/-- Frame types that go up. -/
def upTypes : List Nat := [2, 3, 5, 7, 9, 0xB, 0xC]

/-- Check 3 of R332 fails: a broadcast frame ignores HOPS and ROUTE (R348). -/
def Frame.badFormat (f : Frame) (len : Nat) : Bool :=
  let unicast := !(f.bcast && !f.up)
  decide (len < 16) || !(if f.up then upTypes else downTypes).contains f.ftype ||
    (unicast && decide (f.hops = 0 ∨ 6 < f.hops)) || (unicast && !f.up && decide (f.hops ≤ f.hopPtr))

/-- A frame carries an operation that Tables 9.14 and 9.15 list, or is of a type that has none.  DESIGN CHOICE (log 145): one that does not
is acknowledged and does nothing at its destination. -/
def Frame.listed (f : Frame) : Bool :=
  let op := bits (wordAt f.body 0) 0 8
  if f.ftype = 8 then decide (1 ≤ op ∧ op ≤ 5) else if f.ftype = 0xA then decide (1 ≤ op ∧ op ≤ 4) else true

/-- What Table 9.2 makes of a frame that passed its checks. -/
inductive Taken where
  /-- It waits for the row of its type; a copy will leave on each of these ports. -/
  | keep (f : Frame) (outs : List (Fin 16))
  | undelivered (f : Frame) (reason : Nat)
  /-- Dropped and counted in UP_DROPS. -/
  | drop (f : Frame)
  /-- Discarded silently (R329). -/
  | silent
  deriving DecidableEq, Repr

/-- A down frame comes from the upstream group, or the device is not assigned (R329). -/
def State.fromUpstream (s : State) (p : Fin 16) : Bool :=
  match s.rill.upPort with
  | none => true
  | some u => decide ((idx? 16 u).bind s.canonical = some p)

/-- The child ports that name links (R342, R348). -/
def State.childPorts (s : State) : List (Fin 16) := ((maskIdx 16 s.rill.children).filterMap s.canonical).eraseDups

/-- A frame from a port is judged by role and route (R328, R329, R342, Table 9.2). -/
def State.judgeFrame (s : State) (p : Fin 16) (f : Frame) : Taken :=
  let worker := decide (s.active.rill.role = .worker)
  if f.up then
    let f' := { f with hopPtr := f.hopPtr - 1 }
    match s.active.rill.role with
    | .standalone => .drop f'
    | .manager => .keep f' []
    | .worker =>
      if f'.hopPtr = 0 then .drop f'
      else match s.canonical (hopPort f.route f'.hopPtr) with
        | some c => .keep f' [c]
        | none => .drop f'
  else if f.bcast then
    if worker = false then .drop f
    else if s.fromUpstream p = false then .silent
    else .keep f s.childPorts
  else
    let f' := { f with hopPtr := f.hopPtr + 1, route := setHop f.route (f.hopPtr + 1) p }
    if worker = false then
      if f'.hopPtr = f'.hops ∧ (f.ftype = 4 ∨ f.ftype = 6) then .keep f' [] else .undelivered f' 5
    else if s.fromUpstream p = false then .undelivered f' 6
    else if f'.hopPtr < f'.hops then
      match s.canonical (hopPort f'.route (f'.hopPtr + 1)) with
      | some c => .keep f' [c]
      | none => .undelivered f' 1
    else if f.idValid = true ∧ s.rill.workerId ≠ some f.wid then .undelivered f' 4
    else .keep f' []

/-- An ACK of a link is formed: the last one stands until it has left (R333). -/
def Link.acks (l : Link) (seq : Nat) (busy : Bool) : Link := { l with ack := some (seq, busy), lastAck := some (seq, busy) }

/-- A frame leaves again on a port; one that cannot is reported or dropped (R332). -/
def State.forward (s : State) (f : Frame) (out : Fin 16) : State :=
  match s.queueFrame out f with
  | some s' => s'
  | none => if f.up = false ∧ f.bcast = false then s.undeliver f 1 else s.dropUp f

/-- An OK ASSIGN_ANSWER that arrives with HOP_PTR equal to HOPS marks its port as a child port (R342). -/
def State.markChild (s : State) (p : Fin 16) (f : Frame) : State :=
  if f.ftype = 7 ∧ f.hopPtr = f.hops ∧ bits (wordAt f.body 0) 0 16 = 0 then s.modRill fun r => { r with children := r.children ||| 2 ^ p.val } else s

/-- A frame that passed check 3 is accepted, or answered BUSY where the device has no room for it (R333, R336).  It joins the queue of every
port on which it goes on at once, so that frames leave a port in the order of their acceptance, and one that is for this device, a
broadcast among them, waits for the row of its type (Table 9.2, R348). -/
def State.acceptFrame (s : State) (p : Fin 16) (f : Frame) : State :=
  let next := (f.lseq + 1) % 256
  let ok := s.modLink p fun l => { l.acks next false with rxSeq := next }
  match s.judgeFrame p f with
  | .silent => ok
  | .drop f' => ok.dropUp f'
  | .undelivered f' reason => ok.undeliver f' reason
  | .keep f' outs =>
    let here := outs.isEmpty || (f'.bcast && !f'.up)
    if (here = false ∨ s.rill.links[p].accepted = none) ∧ outs.all fun o => decide (s.rill.links[o].queue.length < 16) then
      let s1 := (ok.markChild p f).forEach outs fun o s => s.forward f' o
      if here && f'.listed then s1.modLink p fun l => { l with accepted := some { f' with slot := none } } else s1
    else s.modLink p fun l => l.acks f.lseq true

/-- RILL_FRAME_RECEIVE: a whole frame on a link is judged (R332, R333, R337).  An ACK frame waits for its own row, and a router that
is disabled, or whose device is in recovery, takes none (R491).  DESIGN CHOICE (log 145): a frame out of sequence before any ACK has been
formed is answered with the LSEQ expected. -/
def execRillFrameReceive (t : Instant) (p : Fin 16) (s : State) : Out :=
  let s := s.advanceTo t
  match s.rill.links[p].rxFrame with
  | none => .next s
  | some bs =>
    let s1 := s.modLink p fun l => { l with rxFrame := none }
    let f := Frame.ofBytes bs
    if s.active.rill.enable = false ∨ s.sys.fw.recovery = true then .next s1
    else if bs.length < 8 ∨ 1040 < bs.length ∨ bs.length % 4 ≠ 0 ∨ crcGood bs = false then
      .next (s1.modRill fun r => { r with crcDrops := satAdd 32 r.crcDrops 1 })
    else if f.ftype = 0 then
      .next (if bs.length = 8 then s1.modLink p fun l => { l with ackIn := some (f.lseq, bit (wordAt bs 0) 16) }
        else s1.modRill fun r => { r with formatDrops := satAdd 32 r.formatDrops 1 })
    else if f.resync = false ∧ f.lseq ≠ s.rill.links[p].rxSeq then
      .next (s1.modLink p fun l => { l with ack := some (l.lastAck.getD (l.rxSeq, false)) })
    else if f.badFormat bs.length then
      .next ((s1.modLink p fun l => { l.acks ((f.lseq + 1) % 256) false with rxSeq := (f.lseq + 1) % 256 }).modRill fun r =>
        { r with formatDrops := satAdd 32 r.formatDrops 1 })
    else .next (s1.acceptFrame p f)

/-- The accepted frame of a port is taken up by its row, which acts on it (Table 9.2, R348). -/
def State.takeFrame (s : State) (p : Fin 16) (mine : Frame → Bool) (act : Frame → State → State) : State :=
  match s.rill.links[p].accepted with
  | none => s
  | some f =>
    if mine f = false then s else act f (s.modLink p fun l => { l with accepted := none })

/-- A frame is of a type. -/
def ofType (n : Nat) (f : Frame) : Bool := decide (f.ftype = n)

/-- A frame is of a type and its body's first byte is an operation. -/
def ofOp (n op : Nat) (f : Frame) : Bool := decide (f.ftype = n ∧ bits (wordAt f.body 0) 0 8 = op)

/-- A frame by the return route of one received here: a down frame's own route, or the upstream route for a broadcast
(R328, R329). -/
def State.answerFrame (s : State) (f : Frame) (ftype : Nat) (body : List Byte) : State :=
  let up := { f with ftype, body, slot := none, bcast := false, resync := false }
  if f.bcast then s.sendUp s.rill.upHops s.rill.upRoute up else s.sendUp f.hops f.route up

/-! ### Frames the manager sends -/

/-- The next XTAG, used. -/
def State.nextXtag (s : State) : Nat × State := (s.rill.xtag, s.modRill fun r => { r with xtag := (r.xtag + 1) % 65536 })

/-- A frame of the manager's own leaves by a port, at once or when its queue has room (R336). -/
def State.enqueueOwn (s : State) (c : Fin 16) (f : Frame) : State :=
  if s.rill.outbox.any fun x => decide (x.1 = c) then s.modRill fun r => { r with outbox := r.outbox ++ [(c, f)] }
  else match s.queueFrame c f with
    | some s' => s'
    | none => s.modRill fun r => { r with outbox := r.outbox ++ [(c, f)] }

/-- A unicast down frame of the manager; none when its first hop names no link (R332). -/
def State.sendDown (s : State) (hops route : Nat) (f : Frame) : Option State :=
  (s.canonical (hopPort route 1)).map fun c => s.enqueueOwn c { f with hops, hopPtr := 0, route, up := false }

/-- A broadcast frame of the manager, on each of its child ports (R348). -/
def State.sendAll (s : State) (f : Frame) : State :=
  s.forEach s.childPorts fun c s => s.enqueueOwn c { f with hops := 1, hopPtr := 0, route := 0, up := false, bcast := true }

/-- The manager's waiting frames move into queues that have room. -/
def State.drainOutbox (s : State) : State :=
  let own := s.rill.outbox
  (s.modRill fun r => { r with outbox := [] }).forEach own fun x s => s.enqueueOwn x.1 x.2

/-! ### Workers: COMMAND and EVENT (R346, R347) -/

/-- A COMMAND frame's packet at its destination: received into Q2, or rejected in a REPLY frame (R346). -/
def takeCommand (f : Frame) (s : State) : State :=
  let op := bits (wordAt f.body 1) 0 16
  let tag := bits (wordAt f.body 1) 16 16
  let refuse := fun st : Status => s.answerFrame f 2
    (Packet.bytes { kind := .rejection, epoch := s.sys.faultEpoch, status := st.code, tag, code := op,
                    queue := bits (wordAt f.body 0) 8 4, payload := [], entry := none, int := false })
  match checkPacket f.body false 0 with
  | .drop => { s with bus := { s.bus with pktDrops := satAdd 32 s.bus.pktDrops 1 } }
  | .reject st => refuse st
  | .good _ c => if 16 ≤ s.q.q2.length then refuse .queueFull else (s.receive .q2 c (f.xtag, f.hops, f.route)).sweep

/-- RILL_COMMAND. -/
def execRillCommand (t : Instant) (p : Fin 16) (s : State) : Out := .next ((s.advanceTo t).takeFrame p (ofType 1) takeCommand)

/-- A REPLY frame at the manager: the TUNNEL whose XTAG it carries replies with the packet; a late one is counted
(R346). -/
def takeReply (f : Frame) (s : State) : State :=
  match s.rill.waits.find? fun w => decide (w.xtag = f.xtag ∧ w.assign = none) with
  | some w => (s.modRill fun r => { r with waits := r.waits.filter fun x => decide (x.seq ≠ w.seq) }).complete w.seq .ok f.body
  | none => s.modRill fun r => { r with lateReplies := satAdd 32 r.lateReplies 1 }

/-- RILL_REPLY. -/
def execRillReply (t : Instant) (p : Fin 16) (s : State) : Out := .next ((s.advanceTo t).takeFrame p (ofType 2) takeReply)

/-- An EVENT frame at the manager: WORKER_EVENT (R347). -/
def takeEvent (f : Frame) (s : State) : State := s.event 0xE071 0 (wordsLe [f.wid] ++ f.body)

/-- RILL_EVENT. -/
def execRillEvent (t : Instant) (p : Fin 16) (s : State) : Out := .next ((s.advanceTo t).takeFrame p (ofType 3) takeEvent)

/-! ### PROBE and ASSIGN at their destination (R339, R342) -/

/-- ROLE codes (Table 9.1). -/
def Role.code : Role → Nat
  | .standalone => 0 | .worker => 1 | .manager => 2

/-- The canonical port IDs of groups with a qualifying lane (Table 9.8). -/
def State.linkPorts (s : State) : List (Fin 16) :=
  (List.finRange 16).filter fun p => decide (s.canonical p = some p) && (s.groupLanes p).any s.qualifies

/-- The far-end serial of a port. -/
def State.peerOf (s : State) (p : Fin 16) : Nat := ((s.groupLanes p).findSome? fun r => (s.lane r).rx.peer).getD 0

/-- The PROBE_ANSWER body (Table 9.8). -/
def State.probeBody (s : State) (arrival : Nat) : List Byte :=
  let links := s.linkPorts
  leBytes 8 s.sys.serial ++ wordsLe [
    pack [(s.active.rill.role.code, 2), (flag s.rill.workerId.isSome, 1), (0, 13), (s.rill.workerId.getD 0, 12)],
    pack [(flag s.sys.optionW, 4), (0, 4), (arrival, 4), (s.rill.upPort.getD 0, 4), (flag s.rill.upPort.isSome, 1)], idxMask links] ++
    ((List.finRange 16).flatMap fun p => leBytes 8 (if links.contains p then s.peerOf p else 0))

/-- PROBE: answered by its destination, whatever its role (R339). -/
def execProbe (t : Instant) (p : Fin 16) (s : State) : Out :=
  .next ((s.advanceTo t).takeFrame p (ofType 4) fun f s => s.answerFrame f 5 (s.probeBody p.val))

/-- ASSIGN at its destination: a worker takes the ID, its upstream port and its upstream route (R329, R342). -/
def takeAssign (p : Fin 16) (f : Frame) (s : State) : State :=
  if s.active.rill.role = .worker then
    let s1 := s.modRill fun r => { r with workerId := some f.wid, upPort := some p.val, upHops := f.hops, upRoute := f.route }
    (s1.answerFrame f 7 (wordsLe [Status.ok.code])).follow
  else s.answerFrame f 7 (wordsLe [Status.precondition.code])

/-- ASSIGN. -/
def execAssign (t : Instant) (p : Fin 16) (s : State) : Out := .next ((s.advanceTo t).takeFrame p (ofType 6) (takeAssign p))

/-! ### Commands of every role -/

/-- ROLE_SET; the manager role is absent on ZK3208-W (R323). -/
def cmdRoleSet (_q : QId) (e : QEntry) (s : State) : Res :=
  let role := bits (e.w 0) 0 2
  checked e (· == 4) (decide (role ≠ 3) && rsvHigh (e.w 0) 4 && !(s.sys.optionW && decide (role = 2))) fun _ =>
    .ok [] (s.modShadow fun k => { k with rill := { k.rill with
      role := if role = 0 then .standalone else if role = 1 then .worker else .manager
      timeFollow := bit (e.w 0) 2, forwardEvents := bit (e.w 0) 3 } })

/-- Row ROLE_SET. -/
def execRoleSet (t : Instant) (q : QId) (s : State) : Out := .next (runCmd t q 0x5000 false cmdRoleSet s)

/-- The lane carrying Rill for a port ID (Table 9.11). -/
def State.rillLane (s : State) (p : Fin 16) : Nat := ((s.canonical p).bind fun c => s.rill.links[c].lane).getD 0xF

/-- HIER_STATUS (R344). -/
def cmdHierStatus (_q : QId) (e : QEntry) (s : State) : Res :=
  checked e (· == 0) true fun _ =>
    let r := s.rill
    let a := s.active.rill
    .ok (wordsLe [pack [(a.role.code, 2), (flag a.timeFollow, 1), (flag a.forwardEvents, 1), (flag r.workerId.isSome, 1), (r.upHops, 3),
          (r.upPort.getD 0, 4), (0, 4), (r.workerId.getD 0, 12)], r.upRoute % 2 ^ 24] ++
        leBytes 8 (pack ((List.finRange 16).map fun p => (s.rillLane p, 4))) ++
        wordsLe [r.retries, r.undelivered, r.upDrops, r.crcDrops, r.formatDrops, r.lateReplies]) s

/-- Row HIER_STATUS. -/
def execHierStatus (t : Instant) (q : QId) (s : State) : Out := .next (runCmd t q 0x5001 true cmdHierStatus s)

/-- RILL_CONFIG, basic (R337). -/
def cmdRillConfig (_q : QId) (e : QEntry) (s : State) : Res :=
  checked e (· == 4) (rsv (e.w 0) 1 7 && rsvHigh (e.w 0) 19) fun _ =>
    .ok [] (s.modShadow fun k => { k with rill := { k.rill with enable := bit (e.w 0) 0 } })

/-- Row RILL_CONFIG. -/
def execRillConfig (t : Instant) (q : QId) (s : State) : Out := .next (runCmd t q 0x5050 false cmdRillConfig s)

/-- RILL_CONFIG, expert: lane preference, retries and ACK_ALLOW are written and pinned (R337). -/
def cmdRillConfigExpert (_q : QId) (e : QEntry) (s : State) : Res :=
  let retries := bits (e.w 0) 16 3
  checked e (· == 8)
    (rsv (e.w 0) 1 7 && rsvHigh (e.w 0) 19 && rsvHigh (e.w 1) 16 && decide (retries ≤ 4 ∧ 20 ≤ bits (e.w 1) 0 16 ∧ bits (e.w 1) 0 16 ≤ 1000)) fun _ =>
      let s0 := s.modShadow fun k => { k with rill := { k.rill with enable := bit (e.w 0) 0 } }
      let s1 := s0.writeExpert .rill 0x5850 128 fun k => { k with rill := { k.rill with prefLanes := bits (e.w 0) 8 8 } }
      let s2 := s1.writeExpert .rill 0x5850 129 fun k => { k with rill := { k.rill with maxRetries := retries } }
      .ok [] (s2.writeExpert .rill 0x5850 130 fun k => { k with rill := { k.rill with ackAllow := bits (e.w 1) 0 16 } })

/-- Row RILL_CONFIG, expert. -/
def execRillConfigExpert (t : Instant) (q : QId) (s : State) : Out := .next (runCmd t q 0x5850 false cmdRillConfigExpert s)

/-- The effect of a committed change of role (R324). -/
def State.roleCommitted (s : State) (old : RillP) : State :=
  if s.active.rill.role = old.role then s
  else
    let s1 := s.forEach (s.q.q2.filter fun e => decide (e.phase = .received) || (decide (e.phase = .running) && s.waitingCmd e.seq)) fun e s => s.discard .q2 e
    let gone := s1.rill.workerEpochs.filter fun w => decide (w.outcome = 1) || (decide (w.outcome = 3) &&
      !s1.commits.any fun c => decide (some c.id = w.commit) && !s1.beforeTc c)
    { s1 with
      commits := s1.commits.filter fun c => !gone.any fun w => decide (w.commit = some c.id)
      rill := { s1.rill with
        workerEpochs := s1.rill.workerEpochs.map fun w => if gone.any fun g => decide (g.id = w.id) then { w with outcome := 0xB, commit := none } else w
        workerId := none, upPort := none, upHops := 0, upRoute := 0, children := 0, followed := none
        table := if old.role = .manager then [] else s1.rill.table } }

end Sys2Proof.Machine
end

