-- ==== Sys2Proof/Machine/Manager.lean ====
section
/-! DEFINITION. The manager: discovery, worker IDs, the worker table and TUNNEL. -/
namespace Sys2Proof.Machine

/-- The device is the manager. -/
def State.isManager (s : State) : Bool := decide (s.active.rill.role = .manager)

/-- A change of the discovery in progress. -/
def State.modDisc (s : State) (f : Discovery → Discovery) : State := s.modRill fun r => { r with discovery := r.discovery.map f }

/-! ### Discovery (R340, R341) -/

/-- The DISCOVER reply (Table 9.9). -/
def discoverReply (table : List WorkerEntry) (d : Discovery) : List Byte :=
  wordsLe [pack [(table.countP WorkerEntry.present, 13), (0, 3), (d.fresh, 13)], pack [(d.assigned, 13), (0, 3), (d.unreachable, 13)],
    pack [(d.loops, 13), (0, 3), (flag d.tableFull, 1), (flag d.deeper, 1)]]

/-- A link need not be probed: its far end is this device, is present, or is being probed (R340). -/
def State.isLoop (s : State) (d : Discovery) (serial : Nat) : Bool :=
  decide (serial = s.sys.serial) || s.rill.table.any (fun w => decide (w.serial = serial) && w.present) ||
    d.outstanding.any fun o => decide (o.serial = serial)

/-- Links of the frontier are taken while fewer than 8 PROBEs are outstanding. -/
def State.probeLinks (s : State) : Nat → State
  | 0 => s
  | fuel + 1 =>
    match s.rill.discovery with
    | none => s
    | some d =>
      match d.frontier with
      | [] => s
      | (route, hops, serial) :: rest =>
        if 8 ≤ d.outstanding.length then s
        else
          let s1 := s.modDisc fun d => { d with frontier := rest }
          if s.isLoop d serial then (s1.modDisc fun d => { d with loops := d.loops + 1 }).probeLinks fuel
          else
            let x := s1.nextXtag
            match x.2.sendDown hops route { ftype := 4, hops, hopPtr := 0, up := false, route, xtag := x.1 } with
            | some s2 => (s2.modDisc fun d => { d with outstanding := d.outstanding ++ [⟨x.1, route, hops, serial, s.now⟩] }).probeLinks fuel
            | none => (x.2.modDisc fun d => { d with unreachable := d.unreachable + 1 }).probeLinks fuel

/-- The discovery goes on: PROBEs are sent, and once a depth is done the next begins or the command replies. -/
def State.discoverOn (s : State) : Nat → State
  | 0 => s
  | fuel + 1 =>
    let s1 := s.probeLinks (((s.rill.discovery.map fun d => d.frontier.length).getD 0) + 1)
    match s1.rill.discovery with
    | none => s1
    | some d =>
      if d.frontier = [] ∧ d.outstanding = [] ∧ d.assigning = [] then
        if d.next = [] ∨ d.maxHops ≤ d.depth then
          (s1.modRill fun r => { r with discovery := none }).complete d.seq .ok (discoverReply s1.rill.table d)
        else (s1.modDisc fun d => { d with depth := d.depth + 1, frontier := d.next, next := [] }).discoverOn fuel
      else s1

/-- DISCOVER (R340, R341). -/
def cmdDiscover (_q : QId) (e : QEntry) (s : State) : Res :=
  let hops := bits (e.w 0) 0 3
  checked e (· == 4) (decide (1 ≤ hops ∧ hops ≤ 6) && rsvHigh (e.w 0) 4) fun _ =>
    if s.rill.discovery.isSome then .fail .resourceBusy []
    else if s.isManager = false then .fail .precondition []
    else
      let d : Discovery := { seq := e.seq, maxHops := hops, autoAssign := bit (e.w 0) 3, depth := 1
                             frontier := s.linkPorts.map fun p => (p.val, 1, s.peerOf p), next := [], outstanding := [], assigning := []
                             fresh := 0, assigned := 0, unreachable := 0, loops := 0, tableFull := false, deeper := false }
      .wait ((s.modRill fun r => { r with table := r.table.map fun w => { w with present := false }, discovery := some d }).discoverOn 8)

/-- Row DISCOVER. -/
def execDiscover (t : Instant) (q : QId) (s : State) : Out := .next (runCmd t q 0x5010 false cmdDiscover s)

/-- The lowest worker ID that no entry holds and no ASSIGN outstanding asks for (R338). -/
def State.freeId (s : State) : Nat :=
  let asked := (s.rill.discovery.map fun d => d.assigning.map fun a => a.2.2.1).getD []
  ((List.range 4096).find? fun i => !(s.rill.table.any fun w => decide (w.id = some i)) && !asked.contains i).getD 0

/-- A device found is recorded: an entry it already has keeps its ID and takes the new route (R338, R340). -/
def State.recordDevice (s : State) (serial route hops role : Nat) (id : Option Nat) : State :=
  if s.rill.table.any fun w => decide (w.serial = serial) then
    s.modRill fun r => { r with table := r.table.map fun w => if w.serial = serial then { w with route, hops, role, present := true } else w }
  else if s.rill.table.length < 4096 then
    let id := id.filter fun i => !s.rill.table.any fun w => decide (w.id = some i)
    (s.modRill fun r => { r with table := r.table ++ [{ serial, route, hops, role, present := true, id, lastFw := 0 }] }).modDisc
      fun d => { d with fresh := d.fresh + 1 }
  else s.modDisc fun d => { d with tableFull := true }

/-- An ASSIGN goes to a device found without an ID (R340). -/
def State.autoAssign (s : State) (serial route hops : Nat) : State :=
  let id := s.freeId
  let x := s.nextXtag
  match x.2.sendDown hops route { ftype := 6, hops, hopPtr := 0, up := false, route, wid := id, xtag := x.1 } with
  | some s1 => s1.modDisc fun d => { d with assigning := d.assigning ++ [(x.1, serial, id, s.now)] }
  | none => x.2

/-- A PROBE_ANSWER at the manager (R340).  An entry that holds an ID keeps it, and AUTO_ASSIGN gives IDs to new workers only (R340, Table
9.9). -/
def takeProbeAnswer (f : Frame) (s : State) : State :=
  match s.rill.discovery with
  | none => s
  | some d =>
    match d.outstanding.find? fun o => decide (o.xtag = f.xtag) with
    | none => s
    | some o =>
      let serial := fieldAt f.body 0 8
      let w2 := wordAt f.body 2
      let role := bits w2 0 2
      let known := s.rill.table.any fun w => decide (w.serial = serial)
      let full := !known && decide (4096 ≤ s.rill.table.length)
      let held := s.rill.table.any fun w => decide (w.serial = serial) && w.id.isSome
      let s1 := (s.modDisc fun d => { d with outstanding := d.outstanding.filter fun x => decide (x.xtag ≠ o.xtag) }).recordDevice
        serial o.route o.hops role (if bit w2 2 then some (bits w2 16 12) else none)
      if full then s1.discoverOn 8
      else
        let s2 := if d.autoAssign ∧ role = 1 ∧ bit w2 2 = false ∧ held = false then s1.autoAssign serial o.route o.hops else s1
        let ports := (maskIdx 16 (bits (wordAt f.body 4) 0 16)).filter fun p => decide (p.val ≠ bits (wordAt f.body 3) 8 4)
        let s3 :=
          if role ≠ 1 ∨ ports = [] then s2
          else if d.maxHops ≤ d.depth then s2.modDisc fun d => { d with deeper := true }
          else s2.modDisc fun d => { d with
            next := d.next ++ ports.map fun p => (o.route + p.val * 2 ^ (4 * o.hops), o.hops + 1, fieldAt f.body (20 + 8 * p.val) 8) }
        s3.discoverOn 8

/-- PROBE_ANSWER. -/
def execProbeAnswer (t : Instant) (p : Fin 16) (s : State) : Out := .next ((s.advanceTo t).takeFrame p (ofType 5) takeProbeAnswer)

/-- PROBE_TIMEOUT: PROBEs unanswered for 10 ms are counted unreachable, and IDs unanswered for 100 ms are given up (R340,
R342). -/
def execProbeTimeout (t : Instant) (s : State) : Out :=
  let s := s.advanceTo t
  .next ((s.modDisc fun d =>
    let old := d.outstanding.filter fun o => s.pastMgmt (o.sentAt + msec 10)
    { d with outstanding := d.outstanding.filter (fun o => !s.pastMgmt (o.sentAt + msec 10)), unreachable := d.unreachable + old.length
             assigning := d.assigning.filter fun a => !s.pastMgmt (a.2.2.2 + msec 100) }).discoverOn 8)

/-! ### Worker IDs (R342, R343) -/

/-- The serial number of the device that a route reaches: of the entry present there, else of the first that was found there (R338). -/
def State.serialOf (s : State) (hops route : Nat) : Option Nat :=
  let there := s.rill.table.filter fun w => decide (w.route = route ∧ w.hops = hops)
  (there.filter WorkerEntry.present ++ there).head?.map WorkerEntry.serial

/-- WORKER_ASSIGN (R342). -/
def cmdWorkerAssign (_q : QId) (e : QEntry) (s : State) : Res :=
  let id := bits (e.w 0) 0 12
  let hops := bits (e.w 0) 16 3
  let route := bits (e.w 1) 0 24
  checked e (· == 8) (rsv (e.w 0) 12 4 && rsvHigh (e.w 0) 19 && rsvHigh (e.w 1) 24 && decide (1 ≤ hops ∧ hops ≤ 6)) fun _ =>
    if s.rill.table.any fun w => decide (w.id = some id ∧ some w.serial ≠ s.serialOf hops route) then .fail .resourceBusy []
    else if s.isManager = false then .fail .precondition []
    else
      let x := s.nextXtag
      match x.2.sendDown hops route { ftype := 6, hops, hopPtr := 0, up := false, route, wid := id, xtag := x.1 } with
      | some s1 => .wait (s1.modRill fun r => { r with waits := r.waits ++ [⟨e.seq, x.1, s.now + msec 100, some (id, hops, route)⟩] })
      | none => .failWith .unreachable [] x.2

/-- Row WORKER_ASSIGN. -/
def execWorkerAssign (t : Instant) (q : QId) (s : State) : Out := .next (runCmd t q 0x5011 false cmdWorkerAssign s)

/-- The entry of a serial number takes an ID; no other entry holds it (R338, R342). -/
def State.giveId (s : State) (serial id : Nat) : State :=
  s.modRill fun r => { r with table := r.table.map fun w =>
    if w.serial = serial then { w with id := some id } else if w.id = some id then { w with id := none } else w }

/-- The entry reached by a route takes an ID and that route; there is one entry of a serial number (R338, R342). -/
def State.recordId (s : State) (id hops route : Nat) : State :=
  match s.serialOf hops route with
  | some serial => (s.modRill fun r => { r with table := r.table.map fun w => if w.serial = serial then { w with hops, route } else w }).giveId serial id
  | none => s

/-- An ASSIGN_ANSWER at the manager (R340, R342). -/
def takeAssignAnswer (f : Frame) (s : State) : State :=
  let ok := decide (bits (wordAt f.body 0) 0 16 = 0)
  match s.rill.waits.find? fun w => decide (w.xtag = f.xtag ∧ w.assign.isSome) with
  | some w =>
    let s1 := s.modRill fun r => { r with waits := r.waits.filter fun x => decide (x.seq ≠ w.seq) }
    match w.assign, ok with
    | some (id, hops, route), true => (s1.recordId id hops route).complete w.seq .ok []
    | _, _ => s1.complete w.seq .precondition []
  | none =>
    match s.rill.discovery.bind fun d => d.assigning.find? fun a => decide (a.1 = f.xtag) with
    | none => s
    | some (x, serial, id, _) =>
      let s1 := s.modDisc fun d => { d with assigning := d.assigning.filter (fun a => decide (a.1 ≠ x)), assigned := d.assigned + flag ok }
      let s2 := if ok then s1.giveId serial id else s1
      s2.discoverOn 8

/-- ASSIGN_ANSWER. -/
def execAssignAnswer (t : Instant) (p : Fin 16) (s : State) : Out :=
  .next ((s.advanceTo t).takeFrame p (ofType 7) takeAssignAnswer)

/-- An entry of WORKER_LIST (Table 9.10). -/
def WorkerEntry.bytes (w : WorkerEntry) : List Byte :=
  wordsLe [pack [(w.id.getD 0, 12), (flag w.id.isSome, 1), (flag w.present, 1), (w.role, 2), (w.hops, 3)], pack [(w.route, 24), (w.lastFw, 8)]] ++
    leBytes 8 w.serial

/-- WORKER_LIST (R343). -/
def cmdWorkerList (_q : QId) (e : QEntry) (s : State) : Res :=
  checked e (· == 4) (rsvHigh (e.w 0) 12) fun _ =>
    let es := (s.rill.table.drop (bits (e.w 0) 0 12)).take 63
    .ok (wordsLe [pack [(s.rill.table.length, 13), (0, 3), (es.length, 16)]] ++ es.flatMap WorkerEntry.bytes) s

/-- Row WORKER_LIST. -/
def execWorkerList (t : Instant) (q : QId) (s : State) : Out := .next (runCmd t q 0x5012 true cmdWorkerList s)

/-! ### TUNNEL (R346) -/

/-- SYNC, length and CRC of an inner packet (R346). -/
def innerGood (bs : List Byte) : Bool :=
  decide (bits (wordAt bs 0) 0 8 = 0xA5 ∧ bs.length = 12 + 4 * ceilDiv (bits (wordAt bs 0) 16 16) 4 ∧
    ofLe (bs.drop (bs.length - 4)) = crc32c (bs.take (bs.length - 4)))

/-- The worker a TUNNEL addresses: hops, route, ID and whether it is checked; none for an ID not assigned. -/
def State.tunnelTo (s : State) (e : QEntry) : Option (Nat × Nat × Nat × Bool) :=
  let id := bits (e.w 0) 0 12
  if bit (e.w 0) 12 then some (bits (e.w 0) 13 3, bits (e.w 1) 0 24, 0, false)
  else (s.rill.table.find? fun w => decide (w.id = some id)).map fun w => (w.hops, w.route, id, true)

/-- TUNNEL. -/
def cmdTunnel (_q : QId) (e : QEntry) (s : State) : Res :=
  let packet := e.cmd.payload.drop 8
  let tmo := bits (e.w 0) 16 16
  checked e (fun n => decide (20 ≤ n ∧ n ≤ 1024 ∧ n % 4 = 0))
    (decide (1 ≤ tmo ∧ tmo ≤ 60000) && rsvHigh (e.w 1) 24 && innerGood packet &&
      (!bit (e.w 0) 12 || decide (1 ≤ bits (e.w 0) 13 3 ∧ bits (e.w 0) 13 3 ≤ 6))) fun _ =>
      if s.isManager = false then .fail .precondition []
      else match s.tunnelTo e with
        | none => .fail .unreachable []
        | some (hops, route, wid, check) =>
          let x := s.nextXtag
          match x.2.sendDown hops route { ftype := 1, hops, hopPtr := 0, up := false, route, wid, idValid := check, xtag := x.1, body := packet } with
          | some s1 => .wait (s1.modRill fun r => { r with waits := r.waits ++ [⟨e.seq, x.1, s.now + msec tmo, none⟩] })
          | none => .failWith .unreachable [] x.2

/-- Row TUNNEL. -/
def execTunnel (t : Instant) (q : QId) (s : State) : Out := .next (runCmd t q 0x5020 false cmdTunnel s)

/-- TUNNEL_TIMEOUT: every TUNNEL whose TMO_MS has passed replies TIMEOUT (R346). -/
def execTunnelTimeout (t : Instant) (s : State) : Out :=
  let s := s.advanceTo t
  let late := s.rill.waits.filter fun w => decide (w.assign = none) && s.pastMgmt w.deadline
  .next ((s.modRill fun r => { r with waits := r.waits.filter fun w => !late.contains w }).forEach late fun w s => s.complete w.seq .timeout [])

end Sys2Proof.Machine
end

