-- ==== Sys2Proof/Machine/EpochManager.lean ====
section
/-! DEFINITION. Epochs at the manager: staging, commit, abort, revert and status of many workers at one time. -/
namespace Sys2Proof.Machine

/-! ### Worker sets (Table 9.13) -/

/-- Bytes of a worker set of a kind. -/
def setLen (kind : Nat) : Nat := if kind = 2 then 520 else 8

/-- A worker set is well formed. -/
def setOk (p : List Byte) (off : Nat) : Bool :=
  let s0 := fieldAt p off 4
  let s1 := fieldAt p (off + 4) 4
  decide (bits s0 0 2 ≠ 3) && rsvHigh s0 2 && rsv s1 12 4 && rsvHigh s1 28 &&
    (decide (bits s0 0 2 ≠ 1) || decide (bits s1 0 12 ≤ bits s1 16 12))

/-- A worker set names an ID. -/
def inSet (p : List Byte) (off : Nat) (w : WorkerEntry) (id : Nat) : Bool :=
  let s1 := fieldAt p (off + 4) 4
  match bits (fieldAt p off 4) 0 2 with
  | 0 => w.present
  | 1 => decide (bits s1 0 12 ≤ id ∧ id ≤ bits s1 16 12)
  | _ => bit (fieldAt p (off + 8 + id / 8) 1) (id % 8)

/-- The assigned IDs of a worker set, in table order (R348). -/
def State.setIds (s : State) (p : List Byte) (off : Nat) : List Nat :=
  s.rill.table.filterMap fun w => w.id.filter fun i => inSet p off w i

/-! ### Records -/

/-- The manager's record of an epoch. -/
def State.epoch (s : State) (id : Nat) : Option EpochRecord := s.rill.epochs.find? fun r => decide (r.id = id)

/-- That record changed. -/
def State.modEpoch (s : State) (id : Nat) (f : EpochRecord → EpochRecord) : State :=
  s.modRill fun r => { r with epochs := r.epochs.map fun x => if x.id = id then f x else x }

/-- A worker's outcome. -/
def EpochRecord.outcome (r : EpochRecord) (w : Nat) : Nat := ((r.outcomes.find? fun x => decide (x.1 = w)).map Prod.snd).getD 0

/-- A worker's outcome changed. -/
def EpochRecord.setOutcome (r : EpochRecord) (w o : Nat) : EpochRecord :=
  { r with outcomes := r.outcomes.map fun x => if x.1 = w then (w, o) else x }

/-- A worker has answered a message. -/
def EpochRecord.hasAnswered (r : EpochRecord) (op w : Nat) : Bool := r.answered.contains (op, w)

/-- A message of an operation starts afresh: no worker has answered it. -/
def EpochRecord.begin (r : EpochRecord) (op : Nat) (now : Instant) : EpochRecord :=
  { r with answered := r.answered.filter fun x => decide (x.1 ≠ op)
           sent := (op, now, 0) :: r.sent.filter fun x => decide (x.1 ≠ op) }

/-- Workers whose answer to a message is awaited (R352). -/
def EpochRecord.awaited (r : EpochRecord) (op : Nat) : List Nat :=
  (r.outcomes.filter fun x =>
    match op with
    | 1 => decide (x.2 = 0xD)
    | 2 => decide (x.2 = 1)
    | 3 => decide (x.2 = 3) && !r.hasAnswered 3 x.1
    | 4 => decide (x.2 ≠ 0 ∧ x.2 ≠ 0xA ∧ x.2 ≠ 0xD) && !r.hasAnswered 4 x.1
    | _ => decide (x.2 = 0xA ∨ x.2 = 0xD) && !r.hasAnswered 5 x.1).map Prod.fst

/-- Workers that have not answered a message (R350). -/
def EpochRecord.silent (r : EpochRecord) (op : Nat) : List Nat :=
  (r.outcomes.filter fun x => !r.hasAnswered op x.1).map Prod.fst

/-- A unicast message to a worker was not delivered: one whose answer to STAGE, COMMIT or QUERY is outstanding becomes
UNREACHABLE. -/
def EpochRecord.lost (r : EpochRecord) (op w : Nat) : EpochRecord :=
  if op = 1 ∨ op = 5 ∨ (op = 2 ∧ (r.outcome w = 1 ∨ r.outcome w = 0xD)) then r.setOutcome w 0xA else r

/-- How many outcomes satisfy a test. -/
def EpochRecord.count (r : EpochRecord) (f : Nat → Nat → Bool) : Nat := r.outcomes.countP fun x => f x.1 x.2

/-- The reply of an epoch command (Table 9.18). -/
def EpochRecord.reply (r : EpochRecord) (op start : Nat) : List Byte :=
  let counts := fun (a b c : Nat → Nat → Bool) => wordsLe [pack [(r.count a, 13), (0, 3), (r.count b, 13)], pack [(r.count c, 13)]]
  let is := fun (os : List Nat) (_w o : Nat) => os.contains o
  match op with
  | 1 => counts (is [1]) (is [2]) (is [0xA, 0xD])
  | 2 => counts (is [3, 4, 5]) (is [2]) (is [1, 0xA, 0xD])
  | 3 => counts (is [6]) (fun w o => decide (o ≠ 6) && (r.hasAnswered 3 w || [4, 5, 7, 8, 9].contains o)) (fun w o => !r.hasAnswered 3 w && [1, 3, 0xA, 0xD].contains o)
  | 4 => counts (is [7, 8]) (is [9]) (fun w o => !r.hasAnswered 4 w && decide (o ≠ 0))
  | _ =>
    let n := min 1000 (4096 - start)
    wordsLe [r.id, n, start] ++ (List.range n).map fun i => BitVec.ofNat 8 (r.outcome (start + i))

/-- An EPOCH body (Table 9.15). -/
def epochBody (op id : Nat) (time : FTime) (tail : List Byte) : List Byte :=
  wordsLe [pack [(op, 8), (0, 8), (id, 16)]] ++ timeWords time ++ tail

/-- A unicast EPOCH message to a worker; one that cannot leave makes it unreachable. -/
def State.sendEpoch (s : State) (id op w : Nat) (body : List Byte) : State :=
  let x := s.nextXtag
  let fail := s.modEpoch id fun r => r.lost op w
  match s.rill.table.find? fun e => decide (e.id = some w) with
  | none => fail
  | some e =>
    match x.2.sendDown e.hops e.route { ftype := 8, hops := e.hops, hopPtr := 0, up := false, route := e.route, wid := w, idValid := true, xtag := x.1, body } with
    | some s1 => s1.modRill fun r => { r with out := ((x.1, .epoch id op w) :: r.out).take 8192 }
    | none => fail

/-- A broadcast EPOCH message (R348, R350). -/
def State.castEpoch (s : State) (id op : Nat) (time : FTime) : State :=
  let x := s.nextXtag
  x.2.sendAll { ftype := 8, hops := 1, hopPtr := 0, up := false, route := 0, xtag := x.1, body := epochBody op id time (wordsLe [0]) }

/-- TIME of a message: T or T2. -/
def EpochRecord.timeOf (r : EpochRecord) (op : Nat) : FTime :=
  match op with
  | 2 => r.time.getD 0
  | 4 => r.time2.getD 0
  | _ => 0

/-! ### Results and replies (R352, R353) -/

/-- EPOCH_RESULT (R353). -/
def State.epochResult (s : State) (r : EpochRecord) (revert : Bool) : State :=
  let cnt := fun (os : List Nat) => r.count fun _ o => os.contains o
  let lost := fun w o => [0xA, 0xD, 1, 3].contains o ||
    (revert && (decide (o = 7) || (decide (o = 4 ∨ o = 5) && !r.hasAnswered 4 w)))
  (s.modEpoch r.id fun x => if revert then { x with oweRevert := false } else { x with owe := false }).event 0xE070
    (if revert then r.tagRevert else r.tag)
    (wordsLe [pack [(r.id, 16), (flag revert, 1)],
      pack [(cnt (if revert then [8] else [4]), 13), (0, 3), (cnt (if revert then [9] else [5]), 13)],
      pack [(cnt [2, 6], 13), (0, 3), (r.count lost, 13)]])

/-- The final outcome of every worker of the epoch is known. -/
def EpochRecord.settled (r : EpochRecord) (revert : Bool) : Bool :=
  !r.outcomes.any fun x => [1, 3, 0xD].contains x.2 || (revert && decide (x.2 = 7)) || (revert && (r.awaited 4).contains x.1)

/-- What has become due of an epoch: replies of its commands, then EPOCH_RESULT. -/
def State.epochOn (s : State) (id : Nat) : State :=
  match s.epoch id with
  | none => s
  | some r =>
    let due := r.cmds.filter fun c => decide (r.awaited c.2.1 = [])
    let s1 := s.modEpoch id fun x => { x with cmds := x.cmds.filter fun c => !due.contains c }
    let s2 := s1.forEach due fun c s => s.complete c.1 .ok (r.reply c.2.1 c.2.2.2)
    let s3 := if r.owe ∧ r.settled false then s2.epochResult r false else s2
    if r.oweRevert ∧ r.settled true then s3.epochResult r true else s3

/-- EPOCH_ANSWER at the manager (R352, R354). -/
def takeEpochAnswer (f : Frame) (s : State) : State :=
  let w0 := wordAt f.body 0
  let id := bits w0 16 16
  let s1 := s.modRill fun r => { r with out := r.out.filter fun x => decide (x.1 ≠ f.xtag) }
  (s1.modEpoch id fun r => { r.setOutcome f.wid (bits w0 8 8) with answered := (bits w0 0 8, f.wid) :: r.answered }).epochOn id

/-- EPOCH_ANSWER. -/
def execEpochAnswer (t : Instant) (p : Fin 16) (s : State) : Out := .next ((s.advanceTo t).takeFrame p (ofType 9) takeEpochAnswer)

/-- A record's T lies ahead (R352). -/
def State.tAhead (s : State) (r : EpochRecord) : Bool := match r.time with | some t => decide (s.fnow < t) | none => false

/-! ### Commands (R352, Table 9.18) -/

/-- The places of an EPOCH_STAGE payload: the worker set, its length, and the packet. -/
def QEntry.stageSet (e : QEntry) : Nat := 8 + 4 * ceilDiv (bits (e.w 0) 16 16) 2
/-- The place of the packet. -/
def QEntry.stagePacket (e : QEntry) : Nat := e.stageSet + setLen (bits (fieldAt e.cmd.payload e.stageSet 4) 0 2)

/-- Block IDs of a list of COUNT, two per word, are listed ones, and the half word past an odd list is 0 (R88). -/
def blockIdsOk (p : List Byte) (off n : Nat) : Bool :=
  ((List.range n).all fun i => (blocksOf (fieldAt p (off + 2 * i) 2)).isSome) && (decide (n % 2 = 0) || decide (fieldAt p (off + 2 * n) 2 = 0))

/-- The records that an EPOCH_STAGE leaves: without the one of its EPOCH_ID, else, with 4 held, without the oldest; none where every one of 4
has its T ahead, or its own has. -/
def State.stageRoom (s : State) (id : Nat) : Option (List EpochRecord) :=
  match s.epoch id with
  | some r => if s.tAhead r then none else some (s.rill.epochs.filter fun x => decide (x.id ≠ id))
  | none =>
    if s.rill.epochs.length < 4 then some s.rill.epochs
    else if s.rill.epochs.all s.tAhead then none
    else some (s.rill.epochs.drop 1)

/-- EPOCH_STAGE. -/
def cmdEpochStage (_q : QId) (e : QEntry) (s : State) : Res :=
  let p := e.cmd.payload
  let id := bits (e.w 0) 0 16
  let n := bits (e.w 0) 16 16
  let len := bits (e.w 1) 0 16
  checked e (fun l => decide (l = e.stagePacket + 4 * ceilDiv len 4))
    (decide (1 ≤ id ∧ 1 ≤ n ∧ n ≤ 128 ∧ (len = 0 ∨ (12 ≤ len ∧ len ≤ 512))) && rsvHigh (e.w 1) 16 && blockIdsOk p 8 n && setOk p e.stageSet) fun _ =>
      match s.stageRoom id with
      | none => if s.isManager then .fail .resourceBusy [] else .fail .precondition []
      | some kept =>
        if s.isManager = false then .fail .precondition []
        else
          let ids := s.setIds p e.stageSet
          let r : EpochRecord := { id, outcomes := ids.map fun w => (w, 0xD), cmds := [(e.seq, 1, s.now, 0)] }
          let body := epochBody 1 id 0 (wordsLe [pack [(n, 16), (len, 16)]] ++ (p.drop 8).take (4 * ceilDiv n 2) ++ p.drop e.stagePacket)
          let s1 := s.modRill fun x => { x with epochs := kept ++ [r.begin 1 s.now] }
          .wait ((s1.forEach ids fun w s => s.sendEpoch id 1 w body).epochOn id)

/-- Row EPOCH_STAGE. -/
def execEpochStage (t : Instant) (q : QId) (s : State) : Out := .next (runCmd t q 0x5030 false cmdEpochStage s)

/-- EPOCH_COMMIT. -/
def cmdEpochCommit (_q : QId) (e : QEntry) (s : State) : Res :=
  let id := bits (e.w 0) 0 16
  match e.time 1 with
  | none => if e.len = 16 then .fail .badParam [] else .fail .badLength []
  | some tc =>
    checked e (· == 16) (rsvHigh (e.w 0) 16 && decide (tc ≤ s.fnow + secs 86400)) fun _ =>
      match s.epoch id with
      | none => .fail .precondition []
      | some r =>
        if s.isManager = false ∨ tc < s.fnow + msec 1 then .fail .precondition []
        else if r.awaited 2 = [] then .fail .notReady []
        else
          let s1 := s.modEpoch id fun x => { x.begin 2 s.now with time := some tc, tag := e.cmd.tag, owe := true, cmds := x.cmds ++ [(e.seq, 2, s.now, 0)] }
          .wait (s1.castEpoch id 2 tc)

/-- Row EPOCH_COMMIT. -/
def execEpochCommit (t : Instant) (q : QId) (s : State) : Out := .next (runCmd t q 0x5031 false cmdEpochCommit s)

/-- ABORT_EPOCH. -/
def cmdAbortEpoch (_q : QId) (e : QEntry) (s : State) : Res :=
  let id := bits (e.w 0) 0 16
  checked e (· == 4) (rsvHigh (e.w 0) 16) fun _ =>
    if s.isManager = false ∨ (s.epoch id).isNone then .fail .precondition []
    else .wait (((s.modEpoch id fun x => { x.begin 3 s.now with cmds := x.cmds ++ [(e.seq, 3, s.now, 0)] }).castEpoch id 3 0).epochOn id)

/-- Row ABORT_EPOCH. -/
def execAbortEpoch (t : Instant) (q : QId) (s : State) : Out := .next (runCmd t q 0x5032 true cmdAbortEpoch s)

/-- REVERT_EPOCH. -/
def cmdRevertEpoch (_q : QId) (e : QEntry) (s : State) : Res :=
  let id := bits (e.w 0) 0 16
  match e.time 1 with
  | none => if e.len = 16 then .fail .badParam [] else .fail .badLength []
  | some t2 =>
    checked e (· == 16) (rsvHigh (e.w 0) 16) fun _ =>
      match s.epoch id with
      | none => .fail .precondition []
      | some r =>
        if s.isManager = false ∨ r.time = none ∨ s.tAhead r = true ∨ t2 < s.fnow + msec 1 then .fail .precondition []
        else
          let s1 := s.modEpoch id fun x => { x.begin 4 s.now with time2 := some t2, tagRevert := e.cmd.tag, oweRevert := true, cmds := x.cmds ++ [(e.seq, 4, s.now, 0)] }
          .wait ((s1.castEpoch id 4 t2).epochOn id)

/-- Row REVERT_EPOCH. -/
def execRevertEpoch (t : Instant) (q : QId) (s : State) : Out := .next (runCmd t q 0x5033 false cmdRevertEpoch s)

/-- EPOCH_STATUS. -/
def cmdEpochStatus (_q : QId) (e : QEntry) (s : State) : Res :=
  let id := bits (e.w 0) 0 16
  let start := bits (e.w 0) 16 12
  checked e (· == 4) (rsvHigh (e.w 0) 29) fun _ =>
    match s.epoch id with
    | none => .fail .precondition []
    | some r =>
      if s.isManager = false then .fail .precondition []
      else if bit (e.w 0) 28 then
        let r1 := r.begin 5 s.now
        let s1 := s.modEpoch id fun _ => { r1 with cmds := r1.cmds ++ [(e.seq, 5, s.now, start)] }
        .wait ((s1.forEach (r1.awaited 5) fun w s => s.sendEpoch id 5 w (epochBody 5 id 0 (wordsLe [0]))).epochOn id)
      else .ok (r.reply 5 start) s

/-- Row EPOCH_STATUS. -/
def execEpochStatus (t : Instant) (q : QId) (s : State) : Out := .next (runCmd t q 0x5034 true cmdEpochStatus s)

/-! ### Deadlines (R350, R352, R353) -/

/-- EPOCH_RESEND: at 5 ms and 10 ms, COMMIT, ABORT or REVERT goes again by unicast to the workers that have not answered. -/
def execEpochResend (t : Instant) (id : Nat) (s : State) : Out :=
  let s := s.advanceTo t
  match s.epoch id with
  | none => .next s
  | some r =>
    let due := r.sent.filter fun x => decide ((x.1 = 2 ∨ x.1 = 3 ∨ x.1 = 4) ∧ x.2.2 < 2 ∧ x.2.1 + msec (5 * (x.2.2 + 1)) ≤ s.now)
    let s1 := s.modEpoch id fun y => { y with sent := y.sent.map fun x => if due.contains x then (x.1, x.2.1, x.2.2 + 1) else x }
    .next ((s1.forEach due fun x s => s.forEach (r.silent x.1) fun w s =>
      s.sendEpoch id x.1 w (epochBody x.1 id (r.timeOf x.1) (wordsLe [0]))).epochOn id)

/-- The deadline of an epoch command has come: 1 s, T − 100 µs, 20 ms or T2 − 100 µs (R352). -/
def State.epochDeadline (s : State) (r : EpochRecord) (c : Nat × Nat × Instant × Nat) : Bool :=
  match c.2.1 with
  | 1 => s.pastMgmt (c.2.2.1 + secs 1)
  | 2 => s.pastTime (r.time.getD 0 - usec 100)
  | 4 => s.pastTime (r.time2.getD 0 - usec 100)
  | _ => s.pastMgmt (c.2.2.1 + msec 20)

/-- EPOCH_COMMAND_DEADLINE: the epoch's commands whose deadline has come reply with the answers there are. -/
def execEpochCommandDeadline (t : Instant) (id : Nat) (s : State) : Out :=
  let s := s.advanceTo t
  match s.epoch id with
  | none => .next s
  | some r =>
    let due := r.cmds.filter (s.epochDeadline r)
    .next ((s.modEpoch id fun x => { x with cmds := x.cmds.filter fun c => !due.contains c }).forEach due fun c s =>
      s.complete c.1 .ok (r.reply c.2.1 c.2.2.2))

/-- EPOCH_RESULT_TIMEOUT: 100 ms after T or T2 the result is produced with what is known (R353). -/
def execEpochResultTimeout (t : Instant) (id : Nat) (s : State) : Out :=
  let s := s.advanceTo t
  match s.epoch id with
  | none => .next s
  | some r =>
    let late := fun (x : Option FTime) => match x with | some f => s.pastTime (f + msec 100) | none => false
    let s1 := if r.owe = true ∧ late r.time = true then s.epochResult r false else s
    .next (if r.oweRevert = true ∧ late r.time2 = true then s1.epochResult r true else s1)

/-- An EPOCH message of this manager was not delivered (R332). -/
def State.epochLost (s : State) (id op w : Nat) : State :=
  (s.modEpoch id fun r => r.lost op w).epochOn id

end Sys2Proof.Machine
end

