-- ==== Sys2Proof/Machine/Sets.lean ====
section
/-! DEFINITION. The shadow, active and previous sets of one block: its commit and its exchange. -/
namespace Sys2Proof.Machine

/-- One block commits: its active set becomes the previous one and the snapshot's set the active one (R33). -/
def State.commitBlock (s : State) (b : Block) (snap : Bank) (stamp : Stamp) : State :=
  let m := s.meta b
  { s with previous := Bank.copy b s.active s.previous, active := Bank.copy b snap s.active }.modMeta b fun _ =>
    { m with activeStamp := stamp, previousStamp := stamp, previousValid := m.storeGood, storeGood := true }

/-- One block exchanges its active and previous sets (R38, R351). -/
def State.exchangeBlock (s : State) (b : Block) (stamp : Stamp) : State :=
  { s with previous := Bank.copy b s.active s.previous, active := Bank.copy b s.previous s.active }.modMeta b fun m =>
    { m with activeStamp := stamp, previousStamp := stamp, previousValid := m.storeGood, storeGood := m.previousValid }

/-- The act-once marks of a block in the active sets have been acted on. -/
def State.clearMarks (s : State) (b : Block) : State :=
  { s with active := { s.active with marks := s.active.marks.filter fun m => decide (m.1 ≠ b) } }

/-- A released pin of a calibration table is gone. -/
def CalSets.unpin (c : CalSets) (k : Nat) : CalSets := { c with pins := vmap c.pins fun i y => y && decide (i.val ≠ k) }

/-- A released pin of a table, or of a coefficient bank, is gone. -/
def State.unpinTable (s : State) (p : Block × Nat × Nat) : State :=
  match p with
  | (.gauge g, 0x7830, k) => { s with hk := { s.hk with gauge := upd s.hk.gauge g fun c => { c with cal := c.cal.unpin k } } }
  | (.jets j, 0x7830, k) => { s with hk := { s.hk with jets := upd s.hk.jets j fun c => { c with cal := c.cal.unpin k } } }
  | (.decim d, 0x6812, _) => { s with acq := { s.acq with banks := upd s.acq.banks d fun (k : FilterBank) => { k with pinned := false } } }
  | _ => s

/-- Released parameters of a block adapt again from their pinned values at its boundary (R51). -/
def State.releaseDue (s : State) (b : Block) : State :=
  let rs := s.releases.filter fun r => decide (r.1 = b)
  if rs = [] then s
  else
    { s with releases := s.releases.filter fun r => decide (r.1 ≠ b)
             active := { s.active with pins := s.active.pins.filter fun p => !rs.contains p } }.forEach rs fun p s => s.unpinTable p

/-- A block whose boundary is an event of its own, and not a resolved commit time, commits: releases first, then the shadow set (R51, Table
1.4). -/
def State.commitShadow (s : State) (b : Block) (stamp : Stamp) : State :=
  let s1 := s.releaseDue b
  (s1.commitBlock b s1.shadow stamp).clearMarks b

end Sys2Proof.Machine
end

