-- ==== Sys2Proof/Machine/Integ.lean ====
section
/-! DEFINITION. Faults that leave the control path alone: their record, their log entries, and the FAULT event. -/
namespace Sys2Proof.Machine

/-- The last fault of any class is recorded (R432, R448). -/
def State.noteFault (s : State) (cls : Nat) : State :=
  (s.modSys fun y => { y with lastClass := cls }).modInteg fun i => { i with lastStamp := s.stampMgmt }

/-- The severity of a fault class in the event log (Table 14.5). -/
def faultSeverity (cls : Nat) : Nat := if cls ≤ 2 then 0 else if cls ≤ 4 then 1 else 2

/-- The log entry of a fault class (Table 14.5). -/
def State.logFault (s : State) (cls source detail : Nat) : State :=
  s.logEntry (0x0100 + cls) cls (faultSeverity cls) source [detail, s.sys.faultEpoch]

/-- The log entry of a fault that is logged at most once per array or lane per 1 ms (R432, R438); `key` is the array or
lane. -/
def State.logOnce (s : State) (cls key source detail : Nat) : State :=
  if s.sys.integ.logged.any fun x => decide (x.1 = cls ∧ x.2.1 = key ∧ s.now < x.2.2 + msec 1) then s
  else
    (s.modInteg fun i => { i with logged := (cls, key, s.now) :: i.logged.filter fun x => decide (s.now < x.2.2 + msec 1) }).logFault cls source detail

/-- The FAULT event (R444). -/
def State.faultEvent (s : State) (f : FaultRec) : State :=
  s.event 0xE002 0 (wordsLe [pack [(f.cls, 8), (f.epoch, 8), (min f.discarded 65535, 16)], f.detail % 65536] ++ f.stamp.bytes)

/-- An uncorrectable word of the parameter domain in a block: counted, logged, and reported at once; the fault epoch does
not change (R439). -/
def State.paramFault (s : State) (id : Nat) : State :=
  let s1 := ((s.noteFault 4).modInteg fun i => { i with uncorrParam := satAdd 16 i.uncorrParam 1 }).logFault 4 id id
  s1.faultEvent { cls := 4, epoch := s.sys.faultEpoch, detail := id, discarded := 0, stamp := s.stampMgmt }

end Sys2Proof.Machine
end

