-- ==== Sys2Proof/Machine/EpochWorker.lean ====
section
/-! DEFINITION. A worker's records of the epochs it takes part in, and its answers. -/
namespace Sys2Proof.Machine

/-- A worker's record of an epoch. -/
def State.workerEpoch (s : State) (id : Nat) : Option WorkerEpoch := s.rill.workerEpochs.find? fun w => decide (w.id = id)

/-- That record changed. -/
def State.modWorkerEpoch (s : State) (id : Nat) (f : WorkerEpoch → WorkerEpoch) : State :=
  s.modRill fun r => { r with workerEpochs := r.workerEpochs.map fun w => if w.id = id then f w else w }

/-- The body of an EPOCH_ANSWER (Table 9.15). -/
def WorkerEpoch.body (w : WorkerEpoch) (op : Nat) : List Byte :=
  wordsLe [pack [(op, 8), (w.outcome, 8), (w.id, 16)], pack [(w.failBlock, 16), (w.reason, 8)]] ++ w.stamp.bytes

/-- The answer that a worker with no record gives: it is not in the epoch. -/
def noRecord (id : Nat) : WorkerEpoch :=
  { id, outcome := 0, reason := 0, failBlock := 0xFFFF, stamp := ⟨0, false⟩, commit := none, readyAt := 0, blocks := [], time2 := none, xtag := 0 }

/-- An answer of its own accord, by the upstream route and with the XTAG of the last message (R351). -/
def State.tellManager (s : State) (w : WorkerEpoch) (op : Nat) : State :=
  s.sendUp s.rill.upHops s.rill.upRoute { ftype := 9, hops := 0, hopPtr := 0, up := true, route := 0, xtag := w.xtag, body := w.body op }

/-- What an epoch has come to: the outcome is recorded and sent (R351). -/
def State.epochCame (s : State) (id op outcome failBlock : Nat) (stamp : Stamp) (blocks : List (Block × FTime)) : State :=
  let s1 := s.modWorkerEpoch id fun w => { w with outcome, failBlock, stamp, blocks, commit := none }
  match s1.workerEpoch id with
  | some w => s1.tellManager w op
  | none => s1

/-- The epoch whose pending commit this is. -/
def State.epochOf (s : State) (commit : Nat) : Option WorkerEpoch := s.rill.workerEpochs.find? fun w => decide (w.commit = some commit)

end Sys2Proof.Machine
end

