-- ==== Sys2Proof/Machine/Gauge.lean ====
section
/-! DEFINITION. Gauge converters: sequences, injected entries, the corrections in force, and the converter's own order of
work. -/
namespace Sys2Proof.Machine

/-- The housekeeping analog block, changed. -/
def State.modHk (s : State) (f : House → House) : State := { s with hk := f s.hk }

/-- A converter, changed. -/
def State.modConv (s : State) (g : Fin 4) (f : GaugeConv → GaugeConv) : State := s.modHk fun h => { h with gauge := upd h.gauge g f }

/-- A number of 10 ns periods as elapsed time. -/
def tenNs (n : Nat) : Instant := n * nsec 10

/-! ### Calibration by temperature (R425) -/

/-- Temperatures of the five sets, 0.25 °C. -/
def setTemp : Nat → Int
  | 0 => -20 | 1 => 100 | 2 => 220 | 3 => 340 | _ => 420

/-- A correction interpolated between two sets. -/
def between (k : Nat) (q : Int) (a b : Int × Int) : Int × Int :=
  let d := (setTemp (k + 1) - setTemp k).toNat
  let f := fun (x y : Int) => roundDiv (x * (setTemp (k + 1) - q) + y * (q - setTemp k)) d
  (f a.1 b.1, f a.2 b.2)

/-- The correction of one gain or range at a temperature of 0.25 °C steps (R425). -/
def CalSets.at' (c : CalSets) (q : Int) (i : Fin 4) : Int × Int :=
  if q ≤ -20 then c.sets[0][i]
  else if q < 100 then between 0 q c.sets[0][i] c.sets[1][i]
  else if q < 220 then between 1 q c.sets[1][i] c.sets[2][i]
  else if q < 340 then between 2 q c.sets[2][i] c.sets[3][i]
  else if q < 420 then between 3 q c.sets[3][i] c.sets[4][i]
  else c.sets[4][i]

/-- The DT11 reading of the thermal monitor, 0.25 °C. -/
def State.dt11 (s : State) : Int := s.hk.temps[11]

/-- The correction of a temperature taken into force. -/
def CalSets.take (c : CalSets) (q : Int) : CalSets := { c with corr := Vector.ofFn fun i => c.at' q i }

/-! ### Entries (R397, R400) -/

/-- A channel of Table 11.1. -/
def gaugeChannelOk (c : Nat) : Bool := decide (c < 0x3F)

/-- An entry of an expert word; the flag says that SAFETY may be set. -/
def gaugeEntryOf (w : Nat) : GaugeEntry := { channel := bits w 0 8, gain := bits w 8 2, safety := bit w 10, smp := bits w 16 12 }

/-- The word of an entry (Table 11.2). -/
def GaugeEntry.word (e : GaugeEntry) : Nat := pack [(e.channel, 8), (e.gain, 2), (flag e.safety, 1), (0, 5), (e.smp, 12)]

/-- An expert entry word is in range (R397, R398, R400). -/
def gaugeEntryOk (w : Nat) : Bool :=
  gaugeChannelOk (bits w 0 8) && rsv w 11 5 && rsvHigh w 28 && decide (10 ≤ bits w 16 12 ∧ bits w 16 12 ≤ 2560) &&
    !(decide (0x28 ≤ bits w 0 8) && decide (bits w 8 2 ≠ 0))

/-- An entry lasts SMP + 0.84 µs (R400). -/
def GaugeCur.boundary (c : GaugeCur) : Instant := c.start + tenNs c.entry.smp + nsec 840

/-! ### What the converter does next -/

/-- The first entry from `i` on that runs: with `shed`, those with SAFETY only (R429). -/
def GaugeP.nextEntry (p : GaugeP) (shed : Bool) (i : Nat) : Option (Nat × GaugeEntry) :=
  (((List.finRange 16).filter fun k => decide (i ≤ k.val ∧ k.val < p.count) && (!shed || p.entries[k].safety)).head?).map fun k => (k.val, p.entries[k])

/-- A pass with no entry left to run is over, whatever holds the converter next (R401, R404). -/
def State.endPass (s : State) (g : Fin 4) : State :=
  s.modConv g fun c => { c with
    pass := c.pass.filter fun p => (s.active.gauge[g].nextEntry (p.shed || decide (4 ≤ s.sys.shedStage)) p.next).isSome }

/-- The converter is free at an instant: a calibration that waits starts, else the next injected entry, else the next
entry of the pass, which has ended when none is left (R401, R406, R427). -/
def State.converterNext (s : State) (g : Fin 4) (at' : Instant) : State :=
  let s := s.endPass g
  let c := s.hk.gauge[g]
  match c.calRun, c.injected with
  | some k, _ => s.modConv g fun c => { c with calRun := some { k with start := some at' } }
  | none, e :: es => s.modConv g fun c => { c with
      injected := es, cur := some { entry := e, start := at', injected := true, late := false }
      pass := c.pass.map fun p => { p with late := true }, cal := c.cal.take s.dt11 }
  | none, [] =>
    match c.pass with
    | none => s
    | some p =>
      let shed := p.shed || decide (4 ≤ s.sys.shedStage)
      match s.active.gauge[g].nextEntry shed p.next with
      | some (k, e) => s.modConv g fun c => { c with
          cur := some { entry := e, start := at', injected := false, late := p.late }, pass := some { p with next := k + 1, shed } }
      | none => s.modConv g fun c => { c with pass := none }

/-! ### Commands -/

/-- The converter a command names in W0 [1:0]. -/
def QEntry.conv (e : QEntry) : Fin 4 := ⟨bits (e.w 0) 0 2, by simp only [bits]; omega⟩

/-- A converter's parameters changed in a bank. -/
def Bank.gau (g : Fin 4) (f : GaugeP → GaugeP) (k : Bank) : Bank := { k with gauge := upd k.gauge g f }

/-- The entries of a sequence from the words or bytes of its payload; entries above COUNT keep their reset values. -/
def sequenceOf (n : Nat) (f : Nat → GaugeEntry) : Vector GaugeEntry 16 := Vector.ofFn fun i : Fin 16 => if i.val < n then f i.val else {}

/-- GAUGE_SEQUENCE, basic; a pinned sequence is left as it is (R50, R105, R402). -/
def cmdGaugeSequence (_q : QId) (e : QEntry) (s : State) : Res :=
  let n := bits (e.w 0) 8 5
  let ch := fun i => fieldAt e.cmd.payload (4 + i) 1
  checked e (· == 20)
    (rsv (e.w 0) 2 6 && rsvHigh (e.w 0) 13 && decide (1 ≤ n ∧ n ≤ 16) &&
      (List.range 16).all fun i => if i < n then gaugeChannelOk (ch i) else ch i == 0) fun _ =>
      .ok [] (s.writeBasic (.gauge e.conv) 0x7800 0 (Bank.gau e.conv fun p => { p with count := n, entries := sequenceOf n fun i => { channel := ch i } }))

/-- Row GAUGE_SEQUENCE. -/
def execGaugeSequence (t : Instant) (q : QId) (s : State) : Out := .next (runCmd t q 0x7000 false cmdGaugeSequence s)

/-- GAUGE_SEQUENCE, expert: it pins the sequence (R402). -/
def cmdGaugeSequenceExpert (_q : QId) (e : QEntry) (s : State) : Res :=
  let n := bits (e.w 0) 8 5
  checked e (· == 68)
    (rsv (e.w 0) 2 6 && rsvHigh (e.w 0) 13 && decide (1 ≤ n ∧ n ≤ 16) &&
      (List.range 16).all fun i => if i < n then gaugeEntryOk (e.w (1 + i)) else e.w (1 + i) == 0) fun _ =>
      .ok [] (s.writeExpert (.gauge e.conv) 0x7800 0 (Bank.gau e.conv fun p => { p with count := n, entries := sequenceOf n fun i => gaugeEntryOf (e.w (1 + i)) }))

/-- Row GAUGE_SEQUENCE, expert. -/
def execGaugeSequenceExpert (t : Instant) (q : QId) (s : State) : Out := .next (runCmd t q 0x7800 false cmdGaugeSequenceExpert s)

/-- When a conversion or a calibration that arrives now starts: at once, or, where it aborts a self-test slice, within 2 µs, by a free
value (R430).  DEDUCED (log 95): a converter under test that does nothing else is in a slice. -/
def State.afterSlice (s : State) (g : Fin 4) : Instant × State :=
  let c := s.hk.gauge[g]
  if (s.testRun (0x40 + g.val)).isSome ∧ c.cur.isNone ∧ c.pass.isNone ∧ c.calRun.isNone then
    let x := s.draw
    (s.now + Config.reading 0x7001 x.1 % (usec 2 + 1), x.2)
  else (s.now, s)

/-- GAUGE_INJECT (R406): on a converter that does nothing the first entry starts at once, or once a self-test slice is aborted (R430). -/
def cmdGaugeInject (_q : QId) (e : QEntry) (s : State) : Res :=
  let g := e.conv
  let n := bits (e.w 0) 2 3
  checked e (· == 20)
    (rsvHigh (e.w 0) 5 && decide (1 ≤ n ∧ n ≤ 4) &&
      (List.range 4).all fun i => if i < n then gaugeEntryOk (e.w (1 + i)) && !bit (e.w (1 + i)) 10 else e.w (1 + i) == 0) fun _ =>
      let c := s.hk.gauge[g]
      if 4 < c.injected.length + n then .fail .precondition []
      else
        let x := s.afterSlice g
        let s1 := x.2.modConv g fun c => { c with injected := c.injected ++ (List.range n).map fun i => gaugeEntryOf (e.w (1 + i)) }
        .ok [] (if c.cur.isNone ∧ c.calRun.isNone then s1.converterNext g x.1 else s1)

/-- Row GAUGE_INJECT. -/
def execGaugeInject (t : Instant) (q : QId) (s : State) : Out := .next (runCmd t q 0x7001 false cmdGaugeInject s)

/-- A trigger source of Table 11.3. -/
def gaugeTrigOk (t : Nat) : Bool := decide (t < 4 ∨ (0x10 ≤ t ∧ t < 0x18) ∨ (0x20 ≤ t ∧ t < 0x28) ∨ t = 0x30)

/-- GAUGE_RUN (R403). -/
def cmdGaugeRun (_q : QId) (e : QEntry) (s : State) : Res :=
  checked e (· == 4) (rsv (e.w 0) 3 5 && gaugeTrigOk (bits (e.w 0) 8 8)) fun _ =>
    .ok [] (s.modShadow (Bank.gau e.conv fun p => { p with run := bit (e.w 0) 2, trig := bits (e.w 0) 8 8, delay := bits (e.w 0) 16 16 }))

/-- Row GAUGE_RUN. -/
def execGaugeRun (t : Instant) (q : QId) (s : State) : Out := .next (runCmd t q 0x7002 false cmdGaugeRun s)

/-- The bytes of a result (Table 11.5). -/
def GaugeResult.bytes (r : GaugeResult) : List Byte :=
  wordsLe [pack [(r.value, 12), (r.channel, 8), (flag r.injected, 1), (flag r.late, 1), (flag r.clipped, 1), (flag r.stamp.valid, 1)]] ++ timeWords r.stamp.time

/-- GAUGE_READ (R408). -/
def cmdGaugeRead (_q : QId) (e : QEntry) (s : State) : Res :=
  let g := e.conv
  let n := bits (e.w 0) 8 6
  checked e (· == 4) (rsv (e.w 0) 2 6 && rsvHigh (e.w 0) 14 && decide (1 ≤ n)) fun _ =>
    let c := s.hk.gauge[g]
    let out := c.fifo.take n
    .ok (wordsLe [pack [(g.val, 2), (0, 6), (out.length, 6), (0, 2), (c.fifo.length - out.length, 7)], pack [(c.overflows, 16), (c.overruns, 16)]] ++
        out.flatMap GaugeResult.bytes)
      (s.modConv g fun c => { c with fifo := c.fifo.drop n, overflows := 0, overruns := 0 })

/-- Row GAUGE_READ. -/
def execGaugeRead (t : Instant) (q : QId) (s : State) : Out := .next (runCmd t q 0x7003 true cmdGaugeRead s)

end Sys2Proof.Machine
end

