-- ==== Sys2Proof/Machine/Jets.lean ====
section
/-! DEFINITION. Jets DACs: their queues, the causes that park an output, and the output itself. -/
namespace Sys2Proof.Machine

/-- A Jets channel, changed. -/
def State.modJets (s : State) (j : Fin 24) (f : JetsChan → JetsChan) : State := s.modHk fun h => { h with jets := upd h.jets j f }

/-- A Jets channel's parameters changed in a bank. -/
def Bank.jet (j : Fin 24) (f : JetsP → JetsP) (k : Bank) : Bank := { k with jets := upd k.jets j f }

/-- A channel is assigned to a lane by its interlock record (R174). -/
def State.assigned (s : State) (n : Fin 8) (j : Fin 24) : Bool := bit s.limits.interlock[n].jetsMask j.val

/-- A Jets rail (4 or 5 of Table 13.1) parks every channel: out of window, or back for less than 1 ms (Table 12.1). -/
def State.jetsRailBad (s : State) : Bool :=
  [(4 : Fin 8), 5].any fun r => !s.sys.pow.railOk[r] || (decide (0 < s.sys.pow.railAt[r]) && decide (s.now < s.sys.pow.railAt[r] + msec 1))

/-- Park causes of a channel but a change of range or reference (Table 11.10). -/
def State.otherParks (s : State) (j : Fin 24) : Bool :=
  let c := s.hk.jets[j]
  c.notEnabled || !s.active.jets[j].enable || c.calRun.isSome || s.sys.thermalTrip || decide (2 ≤ s.sys.pstate) ||
    decide (s.sys.pow.step = some 8) || s.jetsRailBad ||
    (List.finRange 8).any fun n => s.assigned n j && (s.lanes[n].tx.squelch.interlock || s.lanes[n].acq.shed)

/-- Some park cause of a channel is active (R416). -/
def State.parked (s : State) (j : Fin 24) : Bool := s.otherParks j || s.hk.jets[j].rangePark.isSome

/-- Every channel with a park cause has its switch open (R416). -/
def State.parkJets (s : State) : State :=
  s.modHk fun h => { h with jets := vmap h.jets fun j c => if s.parked j then { c with connected := false, hold := none } else c }

/-- A new output code differs from the old one in bits 15 to 11 (R415). -/
def deglitches (old new : Nat) : Bool := decide (bits old 11 5 ≠ bits new 11 5)

/-- A channel with no park cause takes its next code at a tick: connected, it removes the head code, which the deglitcher
may hold; parked, it connects at the head code, else at the code it last output, else stays parked (R414 to R416).  A code queued before
the limits were narrowed comes out clamped to `lo` and `hi`, those in force now (R107, R417). -/
def JetsChan.play (c : JetsChan) (lo hi : Nat) (now : Instant) : JetsChan :=
  let fit := clampTo lo hi
  match c.connected, c.queue, c.out with
  | true, x :: xs, some o => { c with queue := xs, out := some (fit x), hold := if deglitches (fit o) (fit x) then some (fit o, now) else none }
  | true, x :: xs, none => { c with queue := xs, out := some (fit x) }
  | true, [], _ => c
  | false, x :: xs, _ => { c with queue := xs, out := some (fit x), connected := true, hold := none }
  | false, [], some _ => { c with connected := true, hold := none }
  | false, [], none => c

/-- The code that drives the output: the one the deglitcher holds, or the output code, none while parked; within the limits in force (R107,
R417). -/
def JetsChan.level (c : JetsChan) (lo hi : Nat) : Option Nat :=
  if c.connected then (match c.hold with | some (o, _) => some (clampTo lo hi o) | none => c.out.map (clampTo lo hi)) else none

/-- The code that drives a channel's output. -/
def State.jetsLevel (s : State) (j : Fin 24) : Option Nat := s.hk.jets[j].level s.limits.jetsMin[j] s.limits.jetsMax[j]

/-- The output voltage of a code in a range, in units of V_REF / 65,536 (Table 11.6). -/
def jetsOutput (range code : Nat) : Int :=
  match range with
  | 0 => code
  | 1 => 2 * code
  | 2 => 2 * ((code : Int) - 32768)
  | _ => 4 * ((code : Int) - 32768)

/-- V_REF in µV: 1.250 V internal, or the JREF ball (R410, R411). -/
def vref (jrefBall : Bool) : Nat := if jrefBall then 1000000 + Config.jref % 300001 else 1250000

/-- The voltage that a channel drives, in µV / 65,536: its code in the active range, from the active reference; none while parked (R410,
R416, Table 11.6). -/
def State.jetsVolts (s : State) (j : Fin 24) : Option Int :=
  (s.jetsLevel j).map fun c => jetsOutput s.active.jets[j].range c * vref s.active.jets[j].ref

/-! ### Commands -/

/-- The channel a command names in W0 [4:0]; none for 24 to 31. -/
def QEntry.jet (e : QEntry) : Option (Fin 24) := idx? 24 (bits (e.w 0) 0 5)

/-- JETS_CONFIG (R411). -/
def cmdJetsConfig (_q : QId) (e : QEntry) (s : State) : Res :=
  match e.jet with
  | none => if e.len = 4 then .fail .badParam [] else .fail .badLength []
  | some j => checked e (· == 4) (rsv (e.w 0) 5 3 && rsv (e.w 0) 11 1 && rsvHigh (e.w 0) 14 && decide (bits (e.w 0) 12 2 ≠ 3)) fun _ =>
      .ok [] (s.modShadow (Bank.jet j fun p => { p with range := bits (e.w 0) 8 2, ref := bit (e.w 0) 10, parkLevel := bits (e.w 0) 12 2 }))

/-- Row JETS_CONFIG. -/
def execJetsConfig (t : Instant) (q : QId) (s : State) : Out := .next (runCmd t q 0x7010 false cmdJetsConfig s)

/-- JETS_QUEUE: codes are clamped at the queue input (R412). -/
def cmdJetsQueue (_q : QId) (e : QEntry) (s : State) : Res :=
  let n := bits (e.w 0) 16 7
  let bad := Res.fail (if e.len = 4 + 2 * n then .badParam else .badLength) []
  match e.jet with
  | none => bad
  | some j => checked e (fun l => decide (l = 4 + 2 * n)) (rsv (e.w 0) 5 3 && rsv (e.w 0) 9 7 && rsvHigh (e.w 0) 23 && decide (n ≤ 64)) fun _ =>
      let old := if bit (e.w 0) 8 then [] else s.hk.jets[j].queue
      if 64 < old.length + n then .fail .precondition []
      else
        let codes := (List.range n).map fun i => fieldAt e.cmd.payload (4 + 2 * i) 2
        let put := codes.map (clampTo s.limits.jetsMin[j] s.limits.jetsMax[j])
        let clamped := ((codes.zip put).filter fun x => decide (x.1 ≠ x.2)).length
        let reply := wordsLe [pack [(old.length + n, 7), (0, 9), (clamped, 7)]] ++ put.flatMap (leBytes 2)
        let s1 := s.modJets j fun c => { c with queue := old ++ put }
        if clamped = 0 then .ok reply s1 else .clamped reply s1

/-- Row JETS_QUEUE. -/
def execJetsQueue (t : Instant) (q : QId) (s : State) : Out := .next (runCmd t q 0x7011 false cmdJetsQueue s)

/-- JETS_ENABLE (R413). -/
def cmdJetsEnable (_q : QId) (e : QEntry) (s : State) : Res :=
  let div := bits (e.w 2) 16 10
  checked e (· == 12) (rsvHigh (e.w 0) 24 && rsvHigh (e.w 1) 24 && rsv (e.w 2) 2 14 && rsvHigh (e.w 2) 26 && decide (1 ≤ div ∧ div ≤ 1000)) fun _ =>
    .ok [] (s.forEach (maskIdx 24 (e.w 0)) fun j s => s.modShadow (Bank.jet j fun p =>
      { p with enable := bit (e.w 1) j.val, timer := ⟨bits (e.w 2) 0 2, by simp only [bits]; omega⟩, div }))

/-- Row JETS_ENABLE. -/
def execJetsEnable (t : Instant) (q : QId) (s : State) : Out := .next (runCmd t q 0x7012 false cmdJetsEnable s)

end Sys2Proof.Machine
end

