-- ==== Sys2Proof/Machine/PwmTimers.lean ====
section
/-! DEFINITION. PWM units and timers: their parameters, duty and edges, and the events they announce. -/
namespace Sys2Proof.Machine

/-- A PWM unit, changed. -/
def State.modPwm (s : State) (n : Fin 8) (f : PwmUnit → PwmUnit) : State := s.modHk fun h => { h with pwm := upd h.pwm n f }

/-- A timer, changed. -/
def State.modTimer (s : State) (n : Fin 4) (f : TimerUnit → TimerUnit) : State := s.modHk fun h => { h with timer := upd h.timer n f }

/-- A PWM unit's parameters changed in a bank. -/
def Bank.pw (n : Fin 8) (f : PwmP → PwmP) (k : Bank) : Bank := { k with pwm := upd k.pwm n f }

/-- A timer's parameters changed in a bank. -/
def Bank.tim (n : Fin 4) (f : TimerP → TimerP) (k : Bank) : Bank := { k with timer := upd k.timer n f }

/-- The timer that a unit takes its period from (R421). -/
def PwmP.timer (p : PwmP) : Option (Fin 4) := if 1 ≤ p.psrc then idx? 4 (p.psrc - 1) else none

/-- The period of a unit in counts, its timers' parameters given (R421). -/
def PwmP.periodIn (p : PwmP) (ts : Vector TimerP 4) : Nat :=
  match p.timer with
  | some n => ts[n].period
  | none => p.period

/-- The active width of A in counts (R422, R424). -/
def PwmP.width (p : PwmP) (period : Nat) : Nat :=
  if p.fall = 0xFFFF then period else (p.fall + period - p.rise % period) % period

/-- FALL with the duty held to the unit's maximum (R422). -/
def PwmP.clampFall (p : PwmP) (period maxd : Nat) : Nat :=
  if maxd * period < p.width period * 65536 then (p.rise + maxd * period / 65536) % period else p.fall

/-- Output A is active at a count of the period (R421).  DEDUCED (log 89): RISE and FALL count modulo the period, as in the duty of
R422, so that FALL = PERIOD, which a duty next to 1 rounds to, is count 0. -/
def PwmP.aActive (p : PwmP) (period count : Nat) : Bool :=
  let rise := p.rise % period
  let fall := p.fall % period
  if p.fall = 0xFFFF then true
  else if rise = fall then false
  else if rise < fall then decide (rise ≤ count ∧ count < fall)
  else decide (rise ≤ count ∨ count < fall)

/-- Output B is active at a count: the complement of A with DEAD counts kept free before and after each active phase of
A (R421). -/
def PwmP.bActive (p : PwmP) (period count : Nat) : Bool :=
  p.bEnable && decide (0 < period) &&
    (List.range (2 * p.dead + 1)).all fun d => !p.aActive period ((count + d + 2 * period * (p.dead + 1) - p.dead) % period)

/-- The count of a unit now. -/
def State.pwmCount (s : State) (n : Fin 8) : Nat := (s.now - s.hk.pwm[n].start) / nsec 10

/-- Levels of PWM_An and PWM_Bn (R421, R424). -/
def State.pwmPins (s : State) (n : Fin 8) : Bool × Bool :=
  let p := s.active.pwm[n]
  let on := s.hk.pwm[n].running
  let a := on && p.aActive (p.periodIn s.active.timer) (s.pwmCount n)
  let b := on && p.bActive (p.periodIn s.active.timer) (s.pwmCount n)
  (a != p.invert, b != p.invert)

/-- The trigger of an event code of Table 11.3 is announced to the converters that wait for it (R404). -/
def State.trigger (s : State) (code : Nat) (at' : Instant) : State :=
  s.modHk fun h => { h with gauge := vmap h.gauge fun g c =>
    if s.active.gauge[g].run && decide (s.active.gauge[g].trig = code) then { c with trigs := c.trigs ++ [at'] } else c }

/-- A period of a unit starts at an instant: count 0, with its EDGE event, and a CENTRE event to come (R424). -/
def State.startPeriod (s : State) (n : Fin 8) (at' : Instant) : State :=
  (s.modPwm n fun _ => { running := true, start := at', endDue := none, centre := true }).trigger (0x10 + n.val) at'

/-- Ticks of a timer reach the Jets channels, converters and PWM units that use it (R404, R413, R421). -/
def State.tickUsers (s : State) (n : Fin 4) (at' : Instant) : State :=
  let s1 := s.modHk fun h => { h with
    jets := vmap h.jets fun j c =>
      let p := s.active.jets[j]
      if p.enable && decide (p.timer = n) then
        (if p.div ≤ c.cnt + 1 then { c with cnt := 0, tickDue := true } else { c with cnt := c.cnt + 1 })
      else c
    pwm := vmap h.pwm fun k u => if u.running && decide (s.active.pwm[k].timer = some n) then { u with endDue := some at' } else u }
  s1.trigger n.val at'

/-! ### Commands -/

/-- The reply of PWM_CONFIG from the shadow set (Table 11.12). -/
def State.pwmReply (s : State) (n : Fin 8) : List Byte :=
  let p := s.shadow.pwm[n]
  let per := p.periodIn s.active.timer
  wordsLe [p.width per * 65536 / per, pack [(per, 16), (p.fall, 16)]]

/-- The shadow duty held to the unit's limit; the flag says that it was (R48, R422). -/
def State.pwmClamp (s : State) (n : Fin 8) : State × Bool :=
  let p := s.shadow.pwm[n]
  let f := p.clampFall (p.periodIn s.active.timer) s.limits.pwmMax[n]
  if f = p.fall then (s, false) else (s.modShadow (Bank.pw n fun p => { p with fall := f }), true)

/-- The reply of PWM_CONFIG after the clamp. -/
def State.pwmDone (s : State) (n : Fin 8) : Res :=
  let x := s.pwmClamp n
  if x.2 then .clamped (x.1.pwmReply n) x.1 else .ok (x.1.pwmReply n) x.1

/-- The unit a command names in W0 [2:0]. -/
def QEntry.unit (e : QEntry) : Fin 8 := ⟨bits (e.w 0) 0 3, by simp only [bits]; omega⟩

/-- The fields of W0 that both forms write. -/
def pwmHead (e : QEntry) (p : PwmP) : PwmP :=
  { p with enable := bit (e.w 0) 8, invert := bit (e.w 0) 9, bEnable := bit (e.w 0) 10, evtMask := bits (e.w 0) 16 8 }

/-- The bits that Table 11.12 reserves in both forms outside W1 and W2 (R13). -/
def pwmHeadOk (e : QEntry) : Bool :=
  rsv (e.w 0) 3 5 && rsv (e.w 0) 11 5 && rsvHigh (e.w 0) 24 && rsvHigh (e.w 3) 19 && rsvHigh (e.w 5) 10

/-- PWM_CONFIG, basic (R423). -/
def cmdPwmConfig (_q : QId) (e : QEntry) (s : State) : Res :=
  let n := e.unit
  let freq := bits (e.w 1) 0 26
  let duty := bits (e.w 2) 0 17
  checked e (· == 24)
    (pwmHeadOk e && rsvHigh (e.w 1) 26 && rsvHigh (e.w 2) 17 && decide (1526 ≤ freq ∧ freq ≤ 50000000 ∧ duty ≤ 65536)) fun _ =>
    let s0 := s.modShadow (Bank.pw n fun p => { pwmHead e p with freq, duty })
    let w := fun (el : Nat) (f : PwmP → PwmP) (s : State) => s.writeBasic (.pwm n) 0x7820 el (Bank.pw n f)
    let s1 := w 129 (fun p => { p with psrc := 0 }) (w 128 (fun p => { p with period := roundDivN 100000000 freq }) s0)
    let per := s1.shadow.pwm[n].periodIn s.active.timer
    let fall := if duty = 65536 then 0xFFFF else roundDivN (duty * per) 65536
    (w 131 (fun p => { p with fall }) (w 130 (fun p => { p with rise := 0 }) s1)).pwmDone n

/-- Row PWM_CONFIG. -/
def execPwmConfig (t : Instant) (q : QId) (s : State) : Out := .next (runCmd t q 0x7020 false cmdPwmConfig s)

/-- PWM_CONFIG, expert (R423). -/
def cmdPwmConfigExpert (_q : QId) (e : QEntry) (s : State) : Res :=
  let n := e.unit
  let per := bits (e.w 3) 0 16
  let psrc := bits (e.w 3) 16 3
  let rise := bits (e.w 4) 0 16
  let fall := bits (e.w 4) 16 16
  checked e (· == 24)
    (pwmHeadOk e && decide (e.w 1 = 0 ∧ e.w 2 = 0) && decide (2 ≤ per ∧ psrc ≤ 4) &&
      (decide (psrc ≠ 0) || (decide (rise < per) && decide (fall < per ∨ fall = 0xFFFF)))) fun _ =>
    let s0 := s.modShadow (Bank.pw n (pwmHead e))
    let w := fun (el : Nat) (f : PwmP → PwmP) (s : State) => s.writeExpert (.pwm n) 0x7820 el (Bank.pw n f)
    let s1 := w 129 (fun p => { p with psrc }) (w 128 (fun p => { p with period := per }) s0)
    let s2 := w 131 (fun p => { p with fall }) (w 130 (fun p => { p with rise }) s1)
    (w 132 (fun p => { p with dead := bits (e.w 5) 0 10 }) s2).pwmDone n

/-- Row PWM_CONFIG, expert. -/
def execPwmConfigExpert (t : Instant) (q : QId) (s : State) : Out := .next (runCmd t q 0x7820 false cmdPwmConfigExpert s)

/-- TIMER_CONFIG (R418). -/
def cmdTimerConfig (_q : QId) (e : QEntry) (s : State) : Res :=
  let p := e.w 1
  checked e (· == 8) (rsvHigh (e.w 0) 4 && decide (2 ≤ p) && (!bit (e.w 0) 3 || decide (100000000 % p = 0))) fun _ =>
    .ok [] (s.modShadow (Bank.tim e.conv fun x => { x with enable := bit (e.w 0) 2, align := bit (e.w 0) 3, period := p }))

/-- Row TIMER_CONFIG. -/
def execTimerConfig (t : Instant) (q : QId) (s : State) : Out := .next (runCmd t q 0x7021 false cmdTimerConfig s)

end Sys2Proof.Machine
end

