-- ==== Sys2Proof/Machine/HkCal.lean ====
section
/-! DEFINITION. Housekeeping calibration: the commands, and the end of a calibration. -/
namespace Sys2Proof.Machine

/-- A word of calibration: OFFSET and GAIN (Table 11.14). -/
def calWord (x : Int × Int) : Nat := pack [(ofSigned 16 x.1, 16), (ofSigned 16 x.2, 16)]

/-- OFFSET and GAIN of a word. -/
def calOfWord (w : Nat) : Int × Int := (toSigned 16 (bits w 0 16), toSigned 16 (bits w 16 16))

/-- One set written and pinned (R428). -/
def CalSets.write (c : CalSets) (k : Fin 5) (xs : Vector (Int × Int) 4) : CalSets :=
  { c with sets := c.sets.set k xs, pins := c.pins.set k true }

/-- The corrections of converters at sequence idle follow their sets and the temperature (R425). -/
def State.refreshGauge (s : State) : State :=
  s.modHk fun h => { h with gauge := vmap h.gauge fun _ c => if c.pass.isNone ∧ c.cur.isNone then { c with cal := c.cal.take s.dt11 } else c }

/-- HK_CALIBRATE, expert: one set, in force at the block's next boundary (R428). -/
def cmdHkCalibrateExpert (_q : QId) (e : QEntry) (s : State) : Res :=
  let kind := bits (e.w 0) 0 8
  let tg := bits (e.w 0) 8 8
  let words : Vector (Int × Int) 4 := Vector.ofFn fun i : Fin 4 => calOfWord (e.w (1 + i.val))
  match idx? 5 (bits (e.w 0) 16 3) with
  | none => if e.len = 20 then .fail .badParam [] else .fail .badLength []
  | some k =>
    checked e (· == 20) (rsvHigh (e.w 0) 19 && ((decide (kind = 0x81) && decide (tg < 4)) || (decide (kind = 0x82) && decide (tg < 24)))) fun _ =>
      let reply := wordsLe [pack [(0, 8), (0xFF, 8), (0, 16)]]
      if kind = 0x81 then
        match idx? 4 tg with
        | some g => .ok reply ((s.modConv g fun c => { c with cal := c.cal.write k words }).refreshGauge)
        | none => .fail .badParam []
      else
        match idx? 24 tg with
        | some j => .ok reply (s.modJets j fun c => { c with cal := c.cal.write k words })
        | none => .fail .badParam []

/-- Row HK_CALIBRATE, expert. -/
def execHkCalibrateExpert (t : Instant) (q : QId) (s : State) : Out := .next (runCmd t q 0x7830 false cmdHkCalibrateExpert s)

/-- HK_CALIBRATE, basic: a calibration starts, or waits for one injected conversion (R426, R427). -/
def cmdHkCalibrate (_q : QId) (e : QEntry) (s : State) : Res :=
  let kind := bits (e.w 0) 0 8
  let tg := bits (e.w 0) 8 8
  let run := fun (start : Option Instant) => ({ seq := e.seq, kind, start, temp := s.dt11 } : HkCal)
  checked e (· == 4)
    (rsvHigh (e.w 0) 16 && ((decide (kind = 1) && decide (tg < 4)) || ((decide (kind = 2 ∨ kind = 3)) && decide (tg < 24)))) fun _ =>
    if kind = 1 then
      match idx? 4 tg with
      | none => .fail .badParam []
      | some g =>
        let c := s.hk.gauge[g]
        if s.active.gauge[g].run ∨ c.pass.isSome ∨ c.calRun.isSome then .fail .precondition []
        else
          let x := s.afterSlice g
          .wait (x.2.modConv g fun c => { c with calRun := some (run (if c.cur.isSome then none else some x.1)) })
    else
      match idx? 24 tg with
      | none => .fail .badParam []
      | some j =>
        let c := s.hk.jets[j]
        if c.queue ≠ [] ∨ c.calRun.isSome then .fail .precondition []
        else .wait (s.modJets j fun c => { c with calRun := some (run (some s.now)) }).parkJets

/-- Row HK_CALIBRATE. -/
def execHkCalibrate (t : Instant) (q : QId) (s : State) : Out := .next (runCmd t q 0x7030 false cmdHkCalibrate s)

/-- Microseconds of a calibration kind (Table 11.13). -/
def hkMicros : Nat → Nat
  | 1 => 120 | 2 => 250 | _ => 500

/-- A difference lies in the bounds of its kind (Table 11.13): offsets in 1/16 code, gains in 2⁻¹⁶. -/
def hkInBounds (kind : Nat) (d : Int × Int) : Bool :=
  match kind with
  | 1 => decide (d.1.natAbs ≤ 128 ∧ 100 * d.2.natAbs ≤ 65536)
  | 2 => decide (d.1.natAbs ≤ 512)
  | _ => decide (d.1.natAbs ≤ 512 ∧ 200 * d.2.natAbs ≤ 65536)

/-- The indices a kind measures: every gain of a converter, the active range of a channel (R426). -/
def hkMeasured (kind range : Nat) : List (Fin 4) := (List.finRange 4).filter fun i => decide (kind = 1 ∨ i.val = range)

/-- What a kind measures: JETS_OFFSET the offset only. -/
def hkDiff (kind : Nat) (m old : Int × Int) : Int × Int := (m.1 - old.1, if kind = 2 then 0 else m.2 - old.2)

/-- A difference within bounds is added to every unpinned set (R426, R428). -/
def CalSets.adjust (c : CalSets) (i : Fin 4) (d : Int × Int) : CalSets :=
  let lim := fun (x : Int) => clampInt (-32768) 32767 x
  { c with sets := vmap c.sets fun k (xs : Vector (Int × Int) 4) => if c.pins[k] then xs else upd xs i fun x => (lim (x.1 + d.1), lim (x.2 + d.2)) }

/-- The measurements judged: the first index out of bounds, and the sets after the calibration. -/
def CalSets.judge (c : CalSets) (kind range : Nat) (temp : Int) (m : List (Int × Int)) : Option (Fin 4) × CalSets :=
  let is := hkMeasured kind range
  let diff := fun (i : Fin 4) => hkDiff kind (m.getD i.val (0, 0)) (c.at' temp i)
  match is.find? fun i => !hkInBounds kind (diff i) with
  | some i => (some i, c)
  | none => (none, is.foldl (fun c i => c.adjust i (diff i)) c)

/-- The reply of a calibration (Table 11.14), with 0 for what was not measured. -/
def hkReply (k : HkCal) (range : Nat) (bad : Option (Fin 4)) (micros : Nat) (m : List (Int × Int)) : List Byte :=
  wordsLe ([pack [(flag bad.isSome, 8), ((bad.map Fin.val).getD 0xFF, 8), (micros, 16)], pack [(ofSigned 16 (tenths k.temp), 16)]] ++
    (List.finRange 4).map fun i => if (hkMeasured k.kind range).contains i then calWord (m.getD i.val (0, 0)) else 0)

/-- A calibration's end: the sets, the rejection's log entry, and the reply. -/
def State.hkDone (s : State) (k : HkCal) (tg range : Nat) (b : Block) (skips : Nat) (bad : Option (Fin 4)) (m : List (Int × Int)) : State :=
  let s1 := if bad.isSome then s.logEntry 0x0302 0 1 b.id [pack [(0x7030, 16), (k.kind, 8), (tg, 8)]]
    else s.modMeta b fun x => { x with pinnedSkips := satAdd 16 x.pinnedSkips skips }
  s1.complete k.seq .ok (hkReply k range bad ((s.now - k.start.getD s.now) / usec 1) m)

/-- Pinned sets of a target. -/
def CalSets.pinCount (c : CalSets) : Nat := c.pins.toList.countP id

/-- HK_CALIBRATION_END: the calibration of a block has run its time; `m` is what it measured per gain or range, OFFSET and
GAIN (R426 to R428). -/
def execHkCalibrationEnd (t : Instant) (b : Block) (m : List (Int × Int)) (s : State) : Out :=
  let s := s.advanceTo t
  let over' := fun (k : HkCal) => match k.start with
    | some a => decide (a + usec (hkMicros k.kind) ≤ s.now)
    | none => false
  match b with
  | .gauge g =>
    match s.hk.gauge[g].calRun with
    | some k =>
      if over' k then
        let x := s.hk.gauge[g].cal.judge k.kind 0 k.temp m
        let s1 := s.modConv g fun c => { c with calRun := none, freeAt := s.now, idleAt := s.now, cal := x.2 }
        .next (((s1.converterNext g s.now).refreshGauge).hkDone k g.val 0 b s.hk.gauge[g].cal.pinCount x.1 m)
      else .next s
    | none => .next s
  | .jets j =>
    match s.hk.jets[j].calRun with
    | some k =>
      if over' k then
        let x := s.hk.jets[j].cal.judge k.kind s.active.jets[j].range k.temp m
        let s1 := s.modJets j fun c => { c with calRun := none, cal := x.2 }
        .next (s1.hkDone k j.val s.active.jets[j].range b s.hk.jets[j].cal.pinCount x.1 m)
      else .next s
    | none => .next s
  | _ => .next s

end Sys2Proof.Machine
end

