-- ==== Sys2Proof/Machine/Validate.lean ====
section
/-! DEFINITION. What a block requires of the snapshot that an APPLY or COMMIT sends it. -/
namespace Sys2Proof.Machine

/-- The blocks a commit names, in order. -/
def Commit.names (c : Commit) : List Block := c.blocks.map CommitBlock.block

/-- One bank with the sets of a list of blocks replaced by another bank's. -/
def Bank.copyAll (bs : List Block) (src dst : Bank) : Bank := bs.foldl (fun k b => Bank.copy b src k) dst

/-- The sets that will be active before a commit: the active sets, with the commits accepted before it whose time does not
lie after its own (R39). -/
def State.before (s : State) (c : Commit) : Bank :=
  (s.commits.filter fun x => decide (x.id < c.id ∧ x.kind ≠ .revert ∧ x.tc ≤ c.tc ∧ x.failed = none) && !x.cancelled && (decide (x.kind ≠ .epoch) || x.settled)).foldl
    (fun k x => Bank.copyAll ((x.blocks.filter fun y => y.done.isNone).map CommitBlock.block) x.snap k) s.active

/-- The sets that would be active after a commit (R166). -/
def State.after (s : State) (c : Commit) : Bank := Bank.copyAll c.names c.snap (s.before c)

/-- The grouping of a bank. -/
def Bank.grouping (k : Bank) : Nat := k.port[(0 : Fin 8)].grouping

/-- The receive lane a transmitter follows; none for the local clock. -/
def LineTxP.follows (p : LineTxP) : Option (Fin 8) := if p.clkLoop then some p.clkLane else none

/-- Both classes of a line lane are named. -/
def Commit.namesLane (c : Commit) (n : Fin 8) : Bool := c.names.contains (.lineTx n) && c.names.contains (.lineRx n)

/-- R214: a change of mode. -/
def State.modeBad (s : State) (c : Commit) (old new : Bank) (n : Fin 8) : Bool :=
  (decide (old.lineTx[n].s200 ≠ new.lineTx[n].s200 ∨ old.lineRx[n].s200 ≠ new.lineRx[n].s200)) &&
    (s.active.lineTx[n].txEn || s.active.lineRx[n].rxEn || !c.namesLane n ||
      (slicesOf new.grouping (leadOf new.grouping n)).any fun m => decide (new.lineTx[m].s200 ≠ new.lineTx[n].s200 ∨ new.lineRx[m].s200 ≠ new.lineTx[n].s200))

/-- R166: a change of transmit clock source. -/
def clockBad (old new : Bank) (n : Fin 8) : Bool :=
  decide (old.lineTx[n].follows ≠ new.lineTx[n].follows) &&
    (new.lineTx[n].txEn ||
      (match new.lineTx[n].follows with
        | some m => decide (m ≠ n) && (match new.lineTx[m].follows with | some x => decide (x ≠ m) | none => false)
        | none => false) ||
      ((List.finRange 8).any fun x => decide (x ≠ n ∧ new.lineTx[x].follows = some n)) &&
        (match new.lineTx[n].follows with | some x => decide (x ≠ n) | none => false))

/-- R239: the lanes of one port share one transmit clock source. -/
def sharedBad (new : Bank) (n : Fin 8) : Bool :=
  (slicesOf new.grouping (leadOf new.grouping n)).any fun m => decide (new.lineTx[m].follows ≠ new.lineTx[n].follows)

/-- R247, R307: a change of a line loop, and what its kind needs. -/
def State.lineLoopBad (s : State) (c : Commit) (old new : Bank) (n : Fin 8) : Bool :=
  let changed := decide (old.lineTx[n].loop ≠ new.lineTx[n].loop ∨ old.lineRx[n].loop ≠ new.lineRx[n].loop)
  (changed && (!c.namesLane n || s.lanes[n].time.xfer.isSome)) ||
    (decide (new.lineRx[n].loop = 1 ∨ new.lineRx[n].loop = 2) && !(new.lineRx[n].rxEn && new.lineTx[n].txEn))

/-- R248: a near-end serial loop whose resource another function owns. -/
def State.lineLoopBusy (s : State) (new : Bank) (n : Fin 8) : Bool :=
  decide (new.lineRx[n].loop = 1 ∨ new.lineTx[n].loop = 1) && !s.mayOwn (lineLoopRes n) .loopTest

/-- R227: what the committed sets of one host lane and its neighbour must satisfy; the two lanes of a port of which either is in relay
mode agree. -/
def hostBad (new : Bank) (h : Fin 16) : Bool :=
  let p := new.host[h]
  let slice := relayPort h
  let lo := new.host[hostLow slice]
  let hi := new.host[hostHigh slice]
  (p.relay && (decide (p.target ≠ 2) || decide (slicesPer new.grouping ≠ 1))) ||
    ((lo.relay || hi.relay) && decide (lo.enable ≠ hi.enable ∨ lo.relay ≠ hi.relay)) ||
    (p.enable && decide (h.val % 2 = 1) && new.lineRx[slice].s200)

/-- R220: a change of the host receivers' reference. -/
def State.hostRefBad (s : State) (c : Commit) (old new : Bank) (h : Fin 16) : Bool :=
  decide (old.host[h].hostref ≠ new.host[h].hostref) &&
    !(((List.finRange 16).all fun x => c.names.contains (.host x)) && (List.finRange 16).all fun x => !s.active.host[x].enable)

/-- A function uses a timer in a bank (R403, R413, R423). -/
def Bank.usesTimer (k : Bank) (t : Fin 4) : Function → Bool
  | .gaugeSeq => k.gauge.toList.any fun p => p.run && decide (p.trig = t.val)
  | .jetsClock => k.jets.toList.any fun p => p.enable && decide (p.timer = t)
  | .pwmBase => k.pwm.toList.any fun p => p.enable && decide (p.timer = some t)
  | _ => false

/-- A function drives an EVT pin in a bank (R284, R423). -/
def Bank.usesEvt (k : Bank) (e : Fin 8) : Function → Bool
  | .pwm => k.pwm.toList.any fun p => p.enable && bit p.evtMask e.val
  | .auxPps => bit k.pps.evtMask e.val
  | _ => false

/-- A timer that a function would use is owned, or would be, by another. -/
def State.timerBusy (s : State) (new : Bank) (t : Fin 4) (fn : Function) : Bool :=
  !s.mayOwn (timerRes t) fn || [Function.gaugeSeq, .jetsClock, .pwmBase].any fun f => decide (f ≠ fn) && new.usesTimer t f

/-- An EVT pin that a function would drive is owned, or would be, by another. -/
def State.evtBusy (s : State) (new : Bank) (mask : Nat) (fn : Function) : Bool :=
  (maskIdx 8 mask).any fun e => !s.mayOwn (evtRes e) fn || [Function.pwm, .auxPps].any fun f => decide (f ≠ fn) && new.usesEvt e f

/-- A sample clock of a Jets channel lies from 1 kS/s to 1 MS/s: 1 µs to 1 ms per tick (R413). -/
def jetsRateOk (k : Bank) (j : Fin 24) : Bool :=
  let p := k.jets[j]
  !p.enable || decide (100 ≤ k.timer[p.timer].period * p.div ∧ k.timer[p.timer].period * p.div ≤ 100000)

/-- R421, R423: a unit whose period comes from a timer. -/
def pwmBad (k : Bank) (n : Fin 8) : Bool :=
  let p := k.pwm[n]
  match p.timer with
  | none => false
  | some t =>
    let per := k.timer[t].period
    decide (per ≤ p.rise ∨ (per ≤ p.fall ∧ p.fall ≠ 0xFFFF)) || (p.enable && decide (65535 < per))

/-- R420: a timer's set against the rules of the function that uses it. -/
def timerBad (k : Bank) (t : Fin 4) : Bool :=
  ((List.finRange 24).any fun j => decide (k.jets[j].timer = t) && !jetsRateOk k j) || (k.usesTimer t .pwmBase && decide (65535 < k.timer[t].period))

/-- A snapshot would claim a resource that another function owns (R37, R52). -/
def State.snapBusy (s : State) (new : Bank) : Block → Bool
  | .lineTx n | .lineRx n => s.lineLoopBusy new n
  | .host h => decide (new.host[h].loop = 1) && !s.mayOwn (hostLoopRes h) .loopTest
  | .ppsOut => s.evtBusy new new.pps.evtMask .auxPps
  | .gauge g => match idx? 4 new.gauge[g].trig with
    | some t => new.gauge[g].run && s.timerBusy new t .gaugeSeq
    | none => false
  | .jets j => new.jets[j].enable && s.timerBusy new new.jets[j].timer .jetsClock
  | .pwm n => new.pwm[n].enable &&
      (s.evtBusy new new.pwm[n].evtMask .pwm || (match new.pwm[n].timer with | some t => s.timerBusy new t .pwmBase | none => false))
  | _ => false

/-- A snapshot is inconsistent in itself, with the other sets named, or with the state (R37). -/
def State.snapBad (s : State) (c : Commit) (old new : Bank) : Block → Bool
  | .lineTx n => s.modeBad c old new n || clockBad old new n || sharedBad new n || s.lineLoopBad c old new n
  | .lineRx n => s.modeBad c old new n || s.lineLoopBad c old new n || (new.lineRx[n].s200 && new.host[hostHigh n].enable)
  | .port p =>
    decide (old.port[p].grouping ≠ new.port[p].grouping) &&
      (!((List.finRange 8).all fun x => c.names.contains (.port x)) || sharedBad new p || (List.finRange 16).any fun h => (new.host[hostLow (relayPort h)].relay || new.host[hostHigh (relayPort h)].relay) && hostBad new h)
  | .host h => hostBad new h || s.hostRefBad c old new h
  | .jets j => !jetsRateOk new j
  | .pwm n => pwmBad new n
  | .timer t => timerBad new t
  | _ => false

/-- The status with which a block refuses its snapshot; none for a consistent one (R37). -/
def State.validate (s : State) (c : Commit) (b : Block) : Option Status :=
  let old := s.before c
  let new := s.after c
  if s.snapBusy new b then some .resourceBusy
  else if s.snapBad c old new b then some .precondition
  else none

end Sys2Proof.Machine
end

