-- ==== Sys2Proof/Machine/CommitActs.lean ====
section
/-! DEFINITION. What a block does as its new active set takes force. -/
namespace Sys2Proof.Machine

/-! ### The laser-bias interlock (R97, R174) -/

/-- The bound of a lane's interlock record that a result of a channel crosses: 0 bias lower, 1 bias upper, 2 power lower,
3 power upper (R97); none for a record not enabled, another channel, or a result within bounds. -/
def InterlockLimit.crossed (i : InterlockLimit) (ch code : Nat) : Option Nat :=
  if i.enable = false then none
  else if ch = i.biasCh ∧ code < i.biasLo then some 0
  else if ch = i.biasCh ∧ i.biasHi < code then some 1
  else if ch = i.powerCh ∧ code < i.powerLo then some 2
  else if ch = i.powerCh ∧ i.powerHi < code then some 3
  else none

/-- The latest result of a Gauge channel. -/
def State.latest (s : State) (ch : Nat) : Option GaugeLast := (idx? 64 ch).bind fun c => s.hk.last[c].head?

/-- The latest result, bias first, that lies outside a bound of a lane: its channel, the bound, and the result. -/
def State.interlockBad (s : State) (n : Fin 8) : Option (Nat × Nat × GaugeLast) :=
  let i := s.limits.interlock[n]
  [i.biasCh, i.powerCh].findSome? fun ch => (s.latest ch).bind fun g => (i.crossed ch g.code).map fun b => (ch, b, g)

/-- The INTERLOCK event (R97). -/
def State.interlockEvent (s : State) (n : Fin 8) (ch bound : Nat) (g : GaugeLast) (atRelease : Bool) : State :=
  s.event 0xE080 0 (wordsLe [pack [(n.val, 3), (0, 5), (ch, 8), (bound, 2), (flag atRelease, 1)], g.code] ++ g.stamp.bytes)

/-- A commit that enables a transmitter releases a latched interlock when the latest results are within bounds (R174). -/
def State.releaseInterlock (s : State) (n : Fin 8) : State :=
  if s.lanes[n].tx.squelch.interlock = false then s
  else match s.interlockBad n with
    | some x => s.interlockEvent n x.1 x.2.1 x.2.2 true
    | none => s.setSquelch (.line n) fun q => { q with interlock := false }

/-! ### Line lanes -/

/-- A line lane's loop kind in force, of a kind in the active set (R252). -/
def effLoop (suspended : Bool) (kind : Nat) : Nat := if suspended then 0 else kind

/-- The transmit values of a line lane that take force at its commit (R34, R163, R164, R167, R214, R218, R247).  DESIGN CHOICE: the first burst
of kind 3 after a commit that changes the injection falls in the first codeword, and bursts in progress are dropped (log 144); a skew
committed to a lane that is not LOCKED or in RETRAIN, or does not drive, is applied at once, a slew in progress or not (log 146). -/
def State.lineTxValues (s : State) (k0 : Bank) (n : Fin 8) : State :=
  let old := k0.lineTx[n]
  let p := s.active.lineTx[n]
  let l := s.lanes[n]
  let slews := decide (l.acq.state = .locked ∨ l.acq.state = .retrain) && l.tx.driving
  let hold := p.clkLoop && !s.lanes[p.clkLane].acq.cdrLock
  let inj := if p.injKind = 4 ∧ p.s200 = false then (if s.active.marked (.lineTx n) 0x2051 then p.injMarkers else l.tx.injLeft) else 0
  let base : Stage := if p.s200 then .s200 else .a
  let bursts := decide (old.injKind ≠ p.injKind ∨ old.injPoint ≠ p.injPoint ∨ old.injBurst ≠ p.injBurst ∨ old.injInterval ≠ p.injInterval)
  let left := decide (effLoop l.acq.loopSuspended old.loop = 3 ∧ p.loop ≠ 3)
  let moved := decide (old.s200 ≠ p.s200) || left
  let tx : LaneTx := { l.tx with
    stage := if moved then base else l.tx.stage
    traffic := l.tx.traffic && !moved, st := if moved then none else l.tx.st
    restart := if left then 65 else l.tx.restart
    aligned := l.tx.aligned && old.skewAlign && p.skewAlign
    injWait := if bursts then 0 else l.tx.injWait, injRuns := if bursts then [] else l.tx.injRuns
    skewTarget := p.skew, skewApplied := if slews then l.tx.skewApplied else p.skew
    clkHoldover := hold, injLeft := inj }
  let s0 := s.modLane (.line n) fun l => { l with tx }
  let s1 := if moved || decide (old.clkLoop ≠ p.clkLoop ∨ old.clkLane ≠ p.clkLane) then s0.alignTx (.line n) else s0
  if hold ∧ l.tx.clkHoldover = false then s1.logEntry 0x0304 0 1 (Block.lineTx n).id [n.val] else s1

/-- A transmitter is enabled: its squelch releases, its output starts at the boundary of the commit where that is a marker, and no time
marker has left it yet (R169, R172, R174, R189). -/
def State.lineTxOn (s : State) (n : Fin 8) : State :=
  let s1 := (s.releaseInterlock n).setSquelch (.line n) fun q => { q with notEnabled := false }
  s1.modLane (.line n) fun l => { l with
    tx := { l.tx with driving := l.tx.driving || (decide (l.tx.markAt = some s.now) && s1.mayDrive (.line n)) }
    time := { l.time with lastDep := none } }

/-- A line lane's transmit set takes force (R132, R169, R171, R174, R307). -/
def State.lineTxActed (s : State) (k0 : Bank) (n : Fin 8) : State :=
  let s1 := s.lineTxValues k0 n
  let was := k0.lineTx[n].txEn
  let en := s.active.lineTx[n].txEn
  if was = false ∧ en = true then s1.lineTxOn n
  else if was = true ∧ en = false then (s1.abandonXfer n).setSquelch (.line n) fun q => { q with notEnabled := true }
  else s1

/-- The receive values of a line lane that take force at its commit: pinned ones, and those a command has changed, replace
what adaptation holds (R50, R110, R121, R122). -/
def LaneEq.load (q : LaneEq) (pin : Nat → Nat → Bool) (old p : LineRxP) : LaneEq :=
  { q with
    taps := vmap q.taps fun j w => if pin 0x2810 j.val then p.taps[j] else w
    cursor := if p.cursor = 0 then q.cursor else p.cursor
    h1 := if pin 0x2810 131 ∨ old.h1 ≠ p.h1 then p.h1 else q.h1
    h2 := if pin 0x2810 132 ∨ old.h2 ≠ p.h2 then p.h2 else q.h2
    gain := if pin 0x2811 128 then p.gainCode else q.gain }

/-- A line lane's loop resource follows its loop in force (R248). -/
def State.lineLoopOwner (s : State) (n : Fin 8) (was eff : Nat) : State :=
  if eff = 1 ∧ was ≠ 1 then s.claim (lineLoopRes n) .loopTest n.val
  else if was = 1 ∧ eff ≠ 1 then s.disown (lineLoopRes n) .loopTest
  else s

/-- A line lane's receive set takes force (R127, R132, R214, R246, R248, R252, R307). -/
def State.lineRxActed (s : State) (k0 : Bank) (n : Fin 8) : State :=
  let r := LaneRef.line n
  let old := k0.lineRx[n]
  let p := s.active.lineRx[n]
  let a := s.lanes[n].acq
  let carries := s.active.marked (.lineRx n) 0x2060 || decide (old.loop ≠ p.loop)
  let was := effLoop a.loopSuspended old.loop
  let eff := effLoop (a.loopSuspended && !carries) p.loop
  let s1 := s.modLane r fun l => { l with
    acq := { l.acq with loopSuspended := l.acq.loopSuspended && !carries, stage := if old.s200 = p.s200 then l.acq.stage else s.firstStage r }
    eq := l.eq.load (fun op el => s.active.pinned (.lineRx n) op el) old p }
  let s2 := s1.lineLoopOwner n was eff
  let s3 :=
    if a.state = .still then s2
    else if old.rxEn = true ∧ p.rxEn = false then (s2.toState r .disabled (s.firstStage r) 0x08).abandonXfer n
    else if a.state = .disabled then (if p.rxEn then s2.toState r .dark (s.firstStage r) 0x08 else s2)
    else if (eff = 1 ∨ eff = 2) ∧ eff ≠ was then s2.toState r .dark (s.firstStage r) 0x08
    else s2.judgePorts
  s3.followClock r

/-! ### Ports -/

/-- A port that a change of grouping takes away leaves its faults, each with its clearing event (R241). -/
def State.vanish (s : State) (lead : Fin 8) : State :=
  s.forEach [false, true] fun toLine s =>
    let d := if toLine then s.ports[lead].toLine else s.ports[lead].toHost
    let clear := fun (s : State) => s.modPort lead fun p => if toLine then { p with toLine := { faulted := false } } else { p with toHost := { faulted := false } }
    if d.faulted then clear (s.event 0xE012 0 (wordsLe [pack [(lead.val, 3), (flag toLine, 1), (0, 1), (0, 3), (0, 8)], d.causes] ++ s.stampMgmt.bytes))
    else s

/-- The grouping of the ports changes: ports whose composition changes fault with REGROUP (R241). -/
def State.regroup (s : State) (g0 g : Nat) : State :=
  let gone := (leads g0).filter fun l => !(leads g).contains l
  let changed := (leads g).filter fun l => !((leads g0).contains l && decide (slicesOf g0 l = slicesOf g l))
  (s.forEach gone fun l s => s.vanish l).forEach changed fun l s =>
    (s.forEach (slicesOf g l) fun n s => s.modPort n fun p => { p with regHost := true, regLine := true }).modPort l
      fun p => { p with hostAligned := false }

/-- A port island's set takes force; the grouping's effects fall with that of PI0 (R241, R254). -/
def State.portActed (s : State) (k0 : Bank) (p : Fin 8) : State :=
  (if p = 0 ∧ k0.grouping ≠ s.grouping then s.regroup k0.grouping s.grouping else s).judgePorts

/-! ### Host lanes -/

/-- The transmit taps of a host lane that take force: pinned ones, and all of them with adaptation off or in relay mode (R225, R226, R243). -/
def State.hostTaps (s : State) (h : Fin 16) : State :=
  let p := s.active.host[h]
  let tap := fun (j : Fin 5) (c : Int) => if p.relay || s.active.pinned (.host h) 0x3810 (128 + j.val) || decide (p.adapt = 2) then p.taps[j] else c
  s.modHost h fun x => { x with taps := vmap x.taps tap }

/-- A host receiver that no longer selects HOSTREF has not lost it (R223). -/
def State.hostRefActed (s : State) (h : Fin 16) : State :=
  if s.active.host[h].hostref then s
  else { s.modHost h fun x => { x with onRefclk := false } with tb := { s.tb with hostrefLost := false } }

/-- A relay lane restarts from DARK, its island clocked unless it still runs on FIRC, its boundaries those of its rate, and its transmitter
enabled (R21, R34, R169, R227, R242). -/
def State.relayStart (s : State) (h : Fin 16) (exit : Nat) : State :=
  let r := LaneRef.relay h
  let s1 := (s.modLane r fun l => { l with tx := { l.tx with clocked := s.sys.islands[r.island], stage := .a } }).alignTx r
  ((s1.modLane r fun l => { l with time := { l.time with lastDep := none } }).setSquelch r
    fun q => { q with notEnabled := false, power := decide (s.hosts[h].powerTarget ≠ .l0) }).toState r .dark .a exit

/-- A relay lane is disabled. -/
def State.relayStop (s : State) (h : Fin 16) : State :=
  let r := LaneRef.relay h
  let s1 := (s.toState r .disabled .a 0x08).setSquelch r fun q => { q with notEnabled := true }
  s1.modLane r fun l => { l with tx := { l.tx with clocked := false }, time := { l.time with lastDep := none } }

/-- The half of a host lane that its mode does not use rests, with no event of its own: the event to come names the state it left where
the mode has changed (R227, R231, R234). -/
def State.hostIdle (s : State) (h : Fin 16) (relay changed : Bool) : State :=
  if relay then
    (s.hostLeave h).modHost h fun x => { x with
      left := if changed then some x.state.code else x.left, state := if x.state = .still then .still else .disabled, sent := [] }
  else
    let was := s.relays[h].acq.state.code
    (s.modHost h fun x => { x with left := if changed then some was else x.left }).modLane (.relay h) fun l => { l with
      acq := { l.acq with state := .disabled }, time := { l.time with lastDep := none }
      tx := { l.tx with clocked := false, driving := false, squelch := { l.tx.squelch with notEnabled := true } } }

/-- A host lane goes to DARK by its commit: it is enabled, its target or mode has changed, or a loop starts (R227, R228,
R246).  LAST_EXIT is the 0x07 of R227, and in relay mode 0x08, the code of a command there, unless the change is the one of RELAY that
R227 names (log 124).  A lane that is in L1, or on its way there, is QUIET there: its transmitter stays squelched (R249). -/
def State.hostStart (s : State) (h : Fin 16) (changed : Bool) : State :=
  if s.active.host[h].relay then (s.hostIdle h true changed).relayStart h (if changed then 0x07 else 0x08)
  else
    let s1 := s.hostIdle h false changed
    if s.hosts[h].state = .quiet then s1.modHost h fun x => { x with quietQualified := false }
    else
      let s2 := s1.hostTo h .dark 0 0x07
      if s.hosts[h].powerTarget = .l1 then (s2.modHost h fun x => { x with quietFrom := .dark, quietQualified := false }).hostTo h .quiet 0 0x08 else s2

/-- The lane is in STILL, in the mode given. -/
def State.hostStill (s : State) (h : Fin 16) (relay : Bool) : Bool :=
  decide (s.hosts[h].power = .l2 ∨ (if relay then s.relays[h].acq.state = .still else s.hosts[h].state = .still))

/-- The enable, mode and loop of a host lane take force (R227, R228, R246, R248, R252). -/
def State.hostMoves (s : State) (k0 : Bank) (h : Fin 16) : State :=
  let old := k0.host[h]
  let p := s.active.host[h]
  let sus := s.hosts[h].loopSuspended
  let carries := s.active.marked (.host h) 0x3020 || decide (old.loop ≠ p.loop)
  let was := effLoop sus old.loop
  let eff := effLoop (sus && !carries) p.loop
  let s1 := s.modHost h fun x => { x with loopSuspended := x.loopSuspended && !carries }
  let s2 := if eff = 1 ∧ was ≠ 1 then s1.claim (hostLoopRes h) .loopTest h.val
    else if was = 1 ∧ eff ≠ 1 then s1.disown (hostLoopRes h) .loopTest else s1
  if s.hostStill h old.relay then s2
  else if old.enable = true ∧ p.enable = false then (if old.relay then s2.relayStop h else s2.hostTo h .disabled 0 0x07)
  else if p.enable = true ∧ (old.enable = false ∨ old.relay ≠ p.relay ∨ old.target ≠ p.target ∨ ((eff = 1 ∨ eff = 2) ∧ eff ≠ was)) then
    s2.hostStart h (old.enable && decide (old.relay ≠ p.relay))
  else s2

/-- A host lane's set takes force. -/
def State.hostActed (s : State) (k0 : Bank) (h : Fin 16) : State :=
  (((((s.hostTaps h).hostHold k0 h).hostRefActed h).hostMoves k0 h).judgePorts).judgeRill

/-! ### Timers, pins and the housekeeping blocks -/

/-- DETAIL of an EVT pin's owner: the lowest PWM unit that drives it (Table 2.18). -/
def Bank.evtDetail (k : Bank) (e : Fin 8) (fn : Function) : Nat :=
  if fn = .pwm then (((List.finRange 8).find? fun n => k.pwm[n].enable && bit k.pwm[n].evtMask e.val).map Fin.val).getD 0xFFFF else 0xFFFF

/-- A resource follows the use that the active sets make of it: released where a function no longer uses it, claimed where
one does (R52). -/
def State.syncOne (s : State) (r : Fin 41) (fn : Function) (used : Bool) (detail : Nat) : State :=
  if used then s.claim r fn detail else s.disown r fn

/-- Timers and EVT pins follow the active sets (R52, R284, R403, R413, R423). -/
def State.syncOwners (s : State) : State :=
  let fns : List Function := [.gaugeSeq, .jetsClock, .pwmBase]
  let pins : List Function := [.pwm, .auxPps]
  let s1 := s.forEach (List.finRange 4) fun t s => s.forEach fns fun f s => s.syncOne (timerRes t) f (s.active.usesTimer t f) 0xFFFF
  s1.forEach (List.finRange 8) fun e s => s.forEach pins fun f s => s.syncOne (evtRes e) f (s.active.usesEvt e f) (s.active.evtDetail e f)

/-- A converter's set takes force: a sequence that stops, or changes its trigger, forgets what was announced, and a
CONTINUOUS one starts (R403, R404). -/
def State.gaugeActed (s : State) (k0 : Bank) (g : Fin 4) : State :=
  let old := k0.gauge[g]
  let p := s.active.gauge[g]
  let s1 := if p.run = false ∨ old.run = false ∨ old.trig ≠ p.trig then s.modConv g fun c => { c with trigs := [], startAt := none } else s
  if p.run = true ∧ p.trig = 0x30 ∧ (s1.hk.gauge[g]).pass.isNone ∧ (s1.hk.gauge[g]).startAt.isNone then s1.modConv g fun c => { c with startAt := some s.now } else s1

/-- A Jets channel's set takes force: a change of range or reference on an enabled channel that nothing else parks, parks it (R413,
R416). -/
def State.jetsActed (s : State) (k0 : Bank) (j : Fin 24) : State :=
  let old := k0.jets[j]
  let p := s.active.jets[j]
  let s1 := s.modJets j fun c => { c with
    notEnabled := c.notEnabled && !p.enable
    cnt := if old.enable then c.cnt else 0
    tickDue := c.tickDue && p.enable
    rangePark := if (old.range ≠ p.range ∨ old.ref ≠ p.ref) ∧ p.enable = true ∧ old.enable = true ∧ s.otherParks j = false then some s.now else c.rangePark }
  s1.parkJets

/-- A PWM unit's set takes force: the duty is held to the unit's limit, a unit that is enabled begins its periods, and one that is not
has come to the end of its last (R48, R422, R424). -/
def State.pwmActed (s : State) (n : Fin 8) : State :=
  let per := s.active.pwm[n].periodIn s.active.timer
  let s1 : State := { s with active := Bank.pw n (fun p => { p with fall := p.clampFall per s.limits.pwmMax[n] }) s.active }
  if s1.active.pwm[n].enable = false then s1.modPwm n fun _ => {}
  else if s1.hk.pwm[n].running = false ∧ s1.sys.thermalTrip = false then s1.startPeriod n s.now
  else s1

/-- The duties of the units whose period base is a timer are held to their limits with its active period (R48, R422). -/
def State.holdDuties (s : State) (n : Fin 4) : State :=
  let held := fun (k : Fin 8) (p : PwmP) => if p.timer = some n then { p with fall := p.clampFall (p.periodIn s.active.timer) s.limits.pwmMax[k] } else p
  { s with active := { s.active with pwm := vmap s.active.pwm held } }

/-- A timer's set takes force: one that is enabled starts at its commit time (R418), and the units based on it keep to their
maximum duty (R422). -/
def State.timerActed (s : State) (n : Fin 4) (at' : Instant) : State :=
  let s := s.holdDuties n
  if s.active.timer[n].enable then
    (if s.hk.timer[n].running then s else s.modTimer n fun _ => { running := true, start := at', ticked := false })
  else s.modTimer n fun _ => {}

/-! ### Every block -/

/-- What a block does as its new active set takes force, the active sets before it and the elapsed time of the resolved
commit time given. -/
def State.commitActs (s : State) (k0 : Bank) (at' : Instant) : Block → State
  | .lineTx n => s.lineTxActed k0 n
  | .lineRx n => s.lineRxActed k0 n
  | .port p => s.portActed k0 p
  | .host h => s.hostActed k0 h
  | .servo => s.servoCommitted k0.servo (s.active.marked .servo 0x4010) (s.active.marked .servo 0x4811)
  | .ppsOut => (s.ppsCommitted k0.pps (s.active.marked .ppsOut 0x4022)).syncOwners
  | .rill => (s.roleCommitted k0.rill).judgeRill
  | .gauge g => (s.gaugeActed k0 g).syncOwners
  | .jets j => (s.jetsActed k0 j).syncOwners
  | .pwm n => (s.pwmActed n).syncOwners
  | .timer n => s.timerActed n at'
  | .weir | .channel _ | .decim _ | .cistern | .spillway | .sluice => s

/-- The act-once fields that a block's commit has acted on are spent: the shadow set and the snapshots still waiting no
longer carry them (R218, R252, R270, R285). -/
def State.spendMarks (s : State) (b : Block) : State :=
  let spent := s.active.marks.filter fun m => decide (m.1 = b)
  let drop := fun (k : Bank) => { k with marks := k.marks.filter fun m => !spent.contains m }
  { s with active := drop s.active, shadow := drop s.shadow, commits := s.commits.map fun c => { c with snap := drop c.snap } }

/-- The commit stamp of a block, on its own island (R24, R33). -/
def State.stampOf (s : State) : Block → Stamp
  | .lineTx n | .lineRx n => s.stampOn ⟨n.val, by omega⟩
  | .host n => s.stampOn ⟨17 + n.val, by omega⟩
  | .servo | .ppsOut => ⟨s.fnow, s.tb.running⟩
  | .weir => s.stampOn 49
  | .gauge n => s.stampGauge n s.now
  | .port _ | .rill | .channel _ | .decim _ | .cistern | .spillway | .jets _ | .pwm _ | .timer _ | .sluice => s.stampMgmt

/-- A block commits a snapshot now, with everything that follows from its new active set. -/
def State.commitNow (s : State) (b : Block) (snap : Bank) (at' : Instant) : State :=
  ((s.commitBlock b snap (s.stampOf b)).commitActs s.active at' b).spendMarks b

/-- A block exchanges its active and previous sets now, with everything that follows; a block with no valid previous set
stays as it is (R38, R439). -/
def State.revertNow (s : State) (b : Block) : State :=
  if (s.meta b).previousValid then ((s.exchangeBlock b (s.stampOf b)).commitActs s.active s.now b).spendMarks b else s

end Sys2Proof.Machine
end

