-- ==== Sys2Proof/Machine/Commit.lean ====
section
/-! DEFINITION. APPLY, COMMIT and COMMIT_CANCEL, the validation of their snapshots, and the commits and reverts of the
blocks at their boundaries. -/
namespace Sys2Proof.Machine

/-! ### Replies -/

/-- The 28 bytes of an APPLY reply (Table 2.10). -/
def Commit.reply (c : Commit) (fail : Option Block) : List Byte :=
  timeWords c.tc ++ timeWords c.last.time ++ wordsLe [pack [(flag c.last.valid, 8), (0, 8), ((fail.map Block.id).getD 0xFFFF, 16)]]

/-- COMMIT_DONE (R90). -/
def State.commitDone (s : State) (c : Commit) (st : Status) (fail : Option Block) : State :=
  s.event 0xE001 c.tag (wordsLe [st.code] ++ c.reply fail)

/-- A commit gone from the list. -/
def State.dropCommit (s : State) (id : Nat) : State := { s with commits := s.commits.filter fun c => decide (c.id ≠ id) }

/-- A commit changed. -/
def State.modCommit (s : State) (id : Nat) (f : Commit → Commit) : State :=
  { s with commits := s.commits.map fun c => if c.id = id then f c else c }

/-- The commit of a number. -/
def State.commitOf (s : State) (id : Nat) : Option Commit := s.commits.find? fun c => decide (c.id = id)

/-- One block of a commit changed. -/
def Commit.modBlock (c : Commit) (b : Block) (f : CommitBlock → CommitBlock) : Commit :=
  { c with blocks := c.blocks.map fun x => if x.block = b then f x else x }

/-! ### Acceptance (R36, R40, R41, R47, R89, R90) -/

/-- A timed COMMIT, or an epoch that is staged or accepted, is pending (R41, R351); the revert of an epoch is none. -/
def Commit.pendingTimed (c : Commit) : Bool := decide (c.kind = .commit ∨ c.kind = .epoch) && !c.cancelled && c.failed.isNone

/-- A block is named by a pending COMMIT or epoch (R41). -/
def State.namedPending (s : State) (bs : List Block) : Bool :=
  s.commits.any fun c => c.pendingTimed && c.names.any bs.contains

/-- A block of classes 0x08 to 0x0C (R89). -/
def Block.acquires : Block → Bool
  | .weir | .channel _ | .decim _ | .cistern | .spillway => true
  | _ => false

/-- Acquisition is armed or the Spillway is streaming or draining, so that classes 0x08 to 0x0C cannot be named (R89). -/
def State.acquiring (s : State) : Bool := decide (s.acq.state ≠ .disarmed ∨ s.acq.spw.state = .stream ∨ s.acq.spw.state = .drain)

/-- A snapshot enables a line transmitter, a Jets output or a PWM output that is off (R47). -/
def enabling (old new : Bank) (bs : List Block) : Bool :=
  bs.any fun b => match b with
    | .lineTx n => new.lineTx[n].txEn && !old.lineTx[n].txEn
    | .jets j => new.jets[j].enable && !old.jets[j].enable
    | .pwm n => new.pwm[n].enable && !old.pwm[n].enable
    | _ => false

/-- The blocks that COUNT IDs from a place in a payload name; none for an unlisted one, or the Spillway of a ZK3208-W (R3,
R88). -/
def State.blocksAt (s : State) (p : List Byte) (off n : Nat) : Option (List Block) :=
  match namedBlocks ((List.range n).map fun i => fieldAt p (off + 2 * i) 2) with
  | some bs => if s.sys.optionW ∧ bs.contains .spillway then none else some bs
  | none => none

/-- A commit begins: its snapshots are taken and sent to their blocks (R36, R40). -/
def State.openCommit (s : State) (kind : CommitKind) (q : QId) (e : QEntry) (bs : List Block) (tc : FTime) : State :=
  { s with
    nextCommit := s.nextCommit + 1
    commits := s.commits ++ [{
      id := s.nextCommit, kind, queue := q, tag := e.cmd.tag, seq := e.seq, blocks := bs.map fun b => ⟨b, false, none, false⟩
      snap := s.shadow, tc, at' := s.now, settled := false, cancelled := false, failed := none, last := ⟨0, false⟩ }] }

/-- Checks 7 and 8 that APPLY and COMMIT share (R41, R89). -/
def State.commitRefused (s : State) (bs : List Block) : Option Status :=
  if s.namedPending bs then some .resourceBusy
  else if bs.any Block.acquires ∧ s.acquiring = true then some .precondition
  else none

/-- The first accepted command that enables an output locks the limits (R47). -/
def State.lockFor (s : State) (bs : List Block) (cause : Nat) (q : QId) (tag : Nat) : State :=
  if enabling s.active s.shadow bs then s.lockLimits cause q tag else s

/-- APPLY (R36). -/
def cmdApply (q : QId) (e : QEntry) (s : State) : Res :=
  let n := bits (e.w 0) 0 16
  match s.blocksAt e.cmd.payload 4 n with
  | none => if e.len = 4 + 2 * n then .fail .badParam [] else .fail .badLength []
  | some bs =>
    checked e (fun l => decide (l = 4 + 2 * n)) (decide (1 ≤ n ∧ n ≤ 128) && rsvHigh (e.w 0) 16) fun _ =>
      match s.commitRefused bs with
      | some st => .fail st []
      | none => .wait ((s.lockFor bs 2 q e.cmd.tag).openCommit .apply q e bs (s.fnow + usec 8))

/-- Row APPLY. -/
def execApply (t : Instant) (q : QId) (s : State) : Out := .next (runCmd t q 0x1010 false cmdApply s)

/-- COMMIT (R40, R41). -/
def cmdCommit (q : QId) (e : QEntry) (s : State) : Res :=
  let n := bits (e.w 3) 0 16
  match e.time 0, s.blocksAt e.cmd.payload 16 n with
  | some tc, some bs =>
    checked e (fun l => decide (l = 16 + 2 * n)) (decide (1 ≤ n ∧ n ≤ 128 ∧ tc ≤ s.fnow + secs 86400) && rsvHigh (e.w 3) 16) fun _ =>
      if 4 ≤ (s.commits.filter Commit.pendingTimed).length then .fail .resourceBusy []
      else match s.commitRefused bs with
        | some st => .fail st []
        | none =>
          if tc < s.fnow + usec 8 then .fail .precondition []
          else .wait ((s.lockFor bs 3 q e.cmd.tag).openCommit .commit q e bs tc)
  | _, _ => if e.len = 16 + 2 * n then .fail .badParam [] else .fail .badLength []

/-- Row COMMIT. -/
def execCommit (t : Instant) (q : QId) (s : State) : Out := .next (runCmd t q 0x1011 false cmdCommit s)

/-- COMMIT_CANCEL: the earliest pending COMMIT of a tag and queue is cancelled up to the island cycle of its Tc (R42,
R102). -/
def cmdCommitCancel (_q : QId) (e : QEntry) (s : State) : Res :=
  let qn := bits (e.w 0) 16 2
  checked e (· == 4) (decide (qn ≠ 1) && rsvHigh (e.w 0) 18) fun _ =>
    match s.commits.find? fun c => decide (c.kind = .commit) && c.pendingTimed && decide (c.tag = bits (e.w 0) 0 16 ∧ c.queue.num = qn) with
    | none => .fail .precondition []
    | some c =>
      if s.beforeTc c = false then .fail .precondition []
      else if c.settled then .ok [] ((s.dropCommit c.id).commitDone c .discarded none)
      else .ok [] (s.modCommit c.id fun c => { c with cancelled := true })

/-- Row COMMIT_CANCEL. -/
def execCommitCancel (t : Instant) (q : QId) (s : State) : Out := .next (runCmd t q 0x1012 true cmdCommitCancel s)

/-! ### Validation (R37, R87) -/

/-- A commit fails before its Tc: every block discards its snapshot and the command replies at once (R37). -/
def State.failBefore (s : State) (c : Commit) (st : Status) (b : Option Block) : State :=
  (s.dropCommit c.id).complete c.seq st (c.reply b)

/-- Every snapshot of a COMMIT has been validated: it replies OK, and one cancelled meanwhile is done (R40, R41). -/
def State.settleCommit (s : State) (id : Nat) : State :=
  match s.commitOf id with
  | none => s
  | some c =>
    if c.kind = .commit ∧ c.settled = false ∧ (c.blocks.all CommitBlock.validated) = true then
      let s1 := (s.modCommit id fun c => { c with settled := true }).complete c.seq .ok (c.reply none)
      if c.cancelled then (s1.dropCommit id).commitDone c .discarded none else s1
    else s

/-- What the blocks of a list find of their snapshots of a commit: the first that fails, in the order in which the command
names its blocks, with its status (R37). -/
def State.firstFailure (s : State) (c : Commit) (bs : List Block) : Option (Status × Block) :=
  (c.blocks.filter fun x => bs.contains x.block && !x.validated).findSome? fun x => (s.validate c x.block).map fun st => (st, x.block)

/-- Snapshots validated. -/
def Commit.validated (c : Commit) (bs : List Block) : Commit :=
  { c with blocks := c.blocks.map fun x => if bs.contains x.block then { x with validated := true } else x }

/-- SNAPSHOT_VALIDATE: the blocks that have received their snapshots in this command-interface island cycle find them
consistent or not (R37). -/
def execSnapshotValidate (t : Instant) (id : Nat) (bs : List Block) (s : State) : Out :=
  let s := s.advanceTo t
  match s.commitOf id with
  | none => .next s
  | some c =>
    if s.beforeTc c = true ∧ c.blocks.any fun x => bs.contains x.block && !x.validated then
      match s.firstFailure c bs with
      | some (st, b) => .next (s.failBefore c st (some b))
      | none => .next ((s.modCommit id fun c => c.validated bs).settleCommit id)
    else .next s

/-- APPLY_TC_REACHED: an APPLY whose snapshots are not all validated at its Tc replies PRECONDITION (R37). -/
def execApplyTcReached (t : Instant) (id : Nat) (s : State) : Out :=
  let s := s.advanceTo t
  match s.commitOf id with
  | none => .next s
  | some c =>
    match c.blocks.find? fun x => !x.validated with
    | some x => if c.kind = .apply ∧ s.beforeTc c = false then .next (s.failBefore c .precondition (some x.block)) else .next s
    | none => .next s

/-- COMMIT_VALIDATION_TIMEOUT: a COMMIT whose snapshots are not all validated within 1 ms replies TIMEOUT (R37, R87). -/
def execCommitValidationTimeout (t : Instant) (id : Nat) (s : State) : Out :=
  let s := s.advanceTo t
  match s.commitOf id with
  | none => .next s
  | some c =>
    if c.kind = .commit ∧ c.settled = false ∧ s.pastCmd (c.at' + msec 1) = true then .next (s.failBefore c .timeout none) else .next s

/-! ### Boundaries (R33, R36, R38, R39, R51) -/

/-- A commit is to take effect in a block at its next boundary: it stands, its snapshots are validated, and the island cycle
of its Tc is over (R36). -/
def State.due (s : State) (b : Block) (c : Commit) : Bool :=
  !c.cancelled && c.failed.isNone && !s.beforeTc c && (decide (c.kind = .apply ∨ c.kind = .revert) || c.settled) && c.blocks.all CommitBlock.validated &&
    c.blocks.any fun x => decide (x.block = b ∧ x.done = none)

/-- A commit whose blocks have all committed, or whose committed blocks have all reverted, is over and is reported (R36,
R38, R40, R351). -/
def State.finish (s : State) (c : Commit) : State :=
  if c.blocks.any CommitBlock.revert then s
  else if c.failed.isSome then
    let s1 := s.dropCommit c.id
    match c.kind with
    | .apply => s1.complete c.seq .applyFailed (c.reply c.failed)
    | .commit => s1.commitDone c .applyFailed c.failed
    | .epoch => match s1.epochOf c.id with
      | some w => s1.epochCame w.id 2 5 ((c.failed.map Block.id).getD 0xFFFF) ⟨0, false⟩ []
      | none => s1
    | .revert => s1
  else if c.blocks.all fun x => x.done.isSome then
    let s1 := s.dropCommit c.id
    match c.kind with
    | .apply => s1.complete c.seq .ok (c.reply none)
    | .commit => s1.commitDone c .ok none
    | .epoch => match s1.epochOf c.id with
      | some w => s1.epochCame w.id 2 4 0xFFFF c.last (c.blocks.filterMap fun x => x.done.map fun d => (x.block, d))
      | none => s1
    | .revert => match s1.epochOf c.id with
      | some w => s1.epochCame w.id 4 8 0xFFFF c.last []
      | none => s1
  else s

/-- A command received before the last control-path fault has not replied. -/
def State.oldUnreplied (s : State) : Bool := s.q.all.any fun e => decide (e.seq < s.sys.integ.cut ∧ e.phase ≠ .replied)

/-- After the last DISCARDED reply of a fault, the COMMITs it cancelled are reported; then, once recovery is complete, the
FAULT events (R444, R447). -/
def State.settleFaults (s : State) : State :=
  if s.oldUnreplied then s
  else
    let s1 := s.forEach (s.commits.filter fun c => c.cancelled && c.settled && decide (c.kind = .commit)) fun c s => (s.dropCommit c.id).commitDone c .discarded none
    if s1.sys.recovering then s1
    else (s1.forEach s1.sys.integ.faults fun f s => s.faultEvent f).modInteg fun i => { i with faults := [] }

/-- Every commit that is over is reported, in order of acceptance. -/
def State.finishAll (s : State) : State := (s.forEach s.commits fun c s => s.finish c).settleFaults

/-- Blocks that committed a commit that has failed go back to their previous sets at this boundary (R38). -/
def State.revertBlock (s : State) (b : Block) : State :=
  if s.commits.any fun c => c.blocks.any fun x => decide (x.block = b) && x.revert then
    let s1 := s.revertNow b
    { s1 with commits := s1.commits.map fun c => c.modBlock b fun x => { x with revert := false } }
  else s

/-- The elapsed time at which a Fountainhead time since the acceptance of a commit was reached. -/
def State.instantOf (s : State) (c : Commit) : Instant := max c.at' (s.now - (s.fnow - c.tc))

/-- A block takes the last of the commits that are due: it contains the writes of those before it, which commit at the same
boundary (R39). -/
def State.commitDue (s : State) (b : Block) : State :=
  let ds := s.commits.filter (s.due b)
  match ds.getLast? with
  | none => s
  | some c =>
    let stamp := s.stampOf b
    let s1 := if c.kind = .revert then s.revertNow b else s.commitNow b c.snap (s.instantOf c)
    { s1 with commits := s1.commits.map fun x =>
        if ds.any fun d => decide (d.id = x.id) then { x.modBlock b fun y => { y with done := some stamp.time } with last := stamp } else x }

/-- A commit boundary of a block: reverts, then releases, then the commits that are due, which may pin a released parameter
anew; and what is over is reported. -/
def State.boundary (s : State) (b : Block) : State := (((s.revertBlock b).releaseDue b).commitDue b).finishAll

/-- A commit fails in a block after its Tc: no other block commits it, those that have revert, and the fault of the block's
parameter store is recorded (R38, R439). -/
def State.failCommit (s : State) (id : Nat) (b : Block) : State :=
  ((s.modCommit id fun c => { c with failed := some b, blocks := c.blocks.map fun x => { x with revert := x.done.isSome } }).paramFault b.id).finishAll

/-! ### When a block has a boundary (Table 1.4) -/

/-- A transmitted marker of a line lane falls now; a lane whose island is not clocked has none, and commits at any time. -/
def State.txBoundary (s : State) (n : Fin 8) : Bool :=
  let tx := s.lanes[n].tx
  !tx.clocked || decide (tx.markAt = some s.now)

/-- Rill is between two frames: no link has a frame under way in either direction (Table 1.4; log 120). -/
def State.rillBetween (s : State) : Bool := s.rill.links.toList.all fun l => l.rxBytes.isNone && l.txBytes.isEmpty

/-- The servo's data path is not running: FREE, or no update within 1.25 T_u before the Tc of the commit that is due, or before now
where a commit reverts (R532).  An update before the source was committed is none of its updates. -/
def State.servoIdle (s : State) : Bool :=
  let at' := match (s.commits.filter (s.due .servo)).getLast? with
    | some c => s.instantOf c
    | none => s.now
  decide (s.active.servo.source = .free) || !s.tb.running || !s.tb.updated || decide (s.tb.updateAt + emptyTime s.active.servo ≤ at')

/-- A boundary of a block falls now by its own running, or the block's data path is not running.  The boundaries of the
blocks whose own rows take their commits (a servo update, a pass's end, a tick, a period's end, a comparator update) are not
here.  DEDUCED (log 141): a channel or unit whose timer is stopped has no tick and no period's end, so its data path is not running. -/
def State.atBoundary (s : State) : Block → Bool
  | .lineTx n => s.txBoundary n
  | .lineRx n =>
    let a := s.lanes[n].acq
    if a.state = .calibrating ∨ ((a.state = .disabled ∨ a.state = .still) ∧ s.engineTested (.line n) = true) then false
    else if a.state = .negotiate ∨ a.state = .locked then decide (s.lanes[n].rx.markAt = some s.now)
    else s.txBoundary n
  | .port p => s.txBoundary (leadOf s.grouping p)
  | .host n => s.hostBoundary n
  | .rill => s.rillBetween
  | .servo => s.servoIdle
  | .ppsOut => !s.tb.running || s.atPpsInstant
  | .weir | .channel _ | .decim _ | .cistern | .spillway => !s.acquiring
  | .gauge g => s.hk.gauge[g].pass.isNone
  | .jets j => !s.active.jets[j].enable || !s.hk.timer[s.active.jets[j].timer].running
  | .pwm n => !s.hk.pwm[n].running || match s.active.pwm[n].timer with
    | some k => !s.hk.timer[k].running && s.hk.pwm[n].endDue.isNone
    | none => false
  | .timer n => !s.hk.timer[n].running
  | .sluice => false

/-- BLOCK_COMMIT: a block's first boundary at or after Tc (R33, R36); `good` says that the read of its parameter store held
no uncorrectable word (R439).  The PPS_OUT edge due at the boundary of class 0x06 obeys the old set (R284). -/
def execBlockCommit (t : Instant) (b : Block) (good : Bool) (s : State) : Out :=
  let s := s.advanceTo t
  if s.atBoundary b = false then .next s
  else match good, (s.commits.filter (s.due b)).getLast? with
    | false, some c => .next (s.failCommit c.id b)
    | _, _ => .next ((if b = .ppsOut then s.ppsEdge else s).boundary b)

/-- BLOCK_REVERT: the next boundary of a block that committed a commit that failed (R38). -/
def execBlockRevert (t : Instant) (b : Block) (s : State) : Out :=
  let s := s.advanceTo t
  if s.atBoundary b then .next (s.revertBlock b).finishAll else .next s

end Sys2Proof.Machine
end

