-- ==== Sys2Proof/Machine/HkEvents.lean ====
section
/-! DEFINITION. What the housekeeping analog block does by its own running: timer ticks, trigger events, passes and results
of the converters, Jets ticks, and PWM periods. -/
namespace Sys2Proof.Machine

/-! ### Timers (R418, R419) -/

/-- The elapsed time of the tick that falls now: the end of the period, or with ALIGN the first grid instant, at least
half a period after the last tick. -/
def State.tickAt (s : State) (n : Fin 4) : Option Instant :=
  let u := s.hk.timer[n]
  let p := s.active.timer[n]
  if u.running = false then none
  else if p.align then
    let grid := s.tb.running && decide (roundDivN s.fnow (nsec 10) % p.period = 0)
    let far := if u.ticked then decide (u.start + tenNs p.period / 2 ≤ s.now) else decide (u.start < s.now)
    if grid && far then some s.now else none
  else if u.start + tenNs p.period ≤ s.now then some (u.start + tenNs p.period) else none

/-- TIMER_TICK: the end of a timer's period, which its users see and at which its set commits (R404, R413, R418, R421). -/
def execTimerTick (t : Instant) (n : Fin 4) (s : State) : Out :=
  let s := s.advanceTo t
  match s.tickAt n with
  | none => .next s
  | some a => .next (((s.tickUsers n a).modTimer n fun u => { u with start := a, ticked := true }).boundary (.timer n))

/-! ### Converters (R400 to R408) -/

/-- No entry of a sequence runs under the shedding stage in force (R429). -/
def State.nothingToRun (s : State) (g : Fin 4) : Bool :=
  decide (4 ≤ s.sys.shedStage) && ((s.active.gauge[g].nextEntry true 0).isNone)

/-- An event at an instant is an overrun: it falls in a pass or within the DELAY of an earlier event, and not while injected
entries or a calibration hold back the pass of an earlier one (R404). -/
def GaugeConv.overrun (c : GaugeConv) (a : Instant) : Bool :=
  c.pass.isSome || match c.startAt with
    | some b => decide (a < b) || (c.cur.isNone && c.calRun.isNone && decide (c.injected = []))
    | none => false

/-- GAUGE_TRIGGER_EVENT: the event at the head of those announced to a converter falls: during a pass or a delay it counts
in OVERRUNS, else a pass is to start DELAY after it, or the pass that is held back serves it (R404, R429). -/
def execGaugeTriggerEvent (t : Instant) (g : Fin 4) (s : State) : Out :=
  let s := s.advanceTo t
  let p := s.active.gauge[g]
  match s.hk.gauge[g].trigs with
  | [] => .next s
  | a :: rest =>
    let s1 := s.modConv g fun c => { c with trigs := rest }
    if p.run = false ∨ s.nothingToRun g = true then .next s1
    else if s.hk.gauge[g].overrun a then .next (s1.modConv g fun c => { c with overruns := satAdd 16 c.overruns 1 })
    else if s.hk.gauge[g].startAt.isSome then .next s1
    else .next (s1.modConv g fun c => { c with startAt := some (a + tenNs p.delay) })

/-- GAUGE_PASS_START: a free converter starts its pass at the instant set for it, or late when injected entries or a
calibration held it (R404, R425). -/
def execGaugePassStart (t : Instant) (g : Fin 4) (s : State) : Out :=
  let s := s.advanceTo t
  let c := s.hk.gauge[g]
  match c.startAt with
  | none => .next s
  | some a =>
    if a ≤ s.now ∧ c.cur.isNone ∧ c.pass.isNone ∧ c.calRun.isNone ∧ c.injected = [] ∧ s.sys.pstate ≤ 1 then
      let s1 := s.modConv g fun c => { c with
        startAt := none, pass := some { next := 0, late := decide (a < c.freeAt), shed := false }, cal := c.cal.take s.dt11 }
      .next (s1.converterNext g (max a c.freeAt))
    else .next s

/-- VALUE of a conversion, of the voltage at the converter in nV, the gain, and the correction in force: 4,096 × V × g / 1.600 V, corrected,
rounded and then saturated; the flag is CLIPPED, an input beyond the range of the gain before the correction (R398, R425, Table 11.5). -/
def gaugeValue (corr : Int × Int) (gain : Nat) (v : Int) : Nat × Bool :=
  ((clampInt 0 4095 (roundDiv (16 * gain * v * (65536 + corr.2) + corr.1 * 65536 * 390625) (16 * 65536 * 390625))).toNat,
    decide (v < 0 ∨ 1600000000 < gain * v))

/-- A result joins the FIFO, which overwrites its oldest when full (R407). -/
def GaugeConv.put (c : GaugeConv) (r : GaugeResult) : GaugeConv :=
  if c.fifo.length < 64 then { c with fifo := c.fifo ++ [r] }
  else { c with fifo := c.fifo.drop 1 ++ [r], overflows := satAdd 16 c.overflows 1 }

/-- The first bound of a lane that the results of one result interval cross, those of its bias channel before those of its power channel: the
channel, the bound and the result (R97). -/
def InterlockLimit.firstCrossed (i : InterlockLimit) (rs : List (Nat × GaugeLast)) : Option (Nat × Nat × GaugeLast) :=
  [i.biasCh, i.powerCh].findSome? fun ch => rs.findSome? fun r => if r.1 = ch then (i.crossed ch r.2.code).map fun b => (ch, b, r.2) else none

/-- The results of one result interval are judged against one lane's interlock (R97, R174). -/
def State.judgeInterlock (s : State) (rs : List (Nat × GaugeLast)) (n : Fin 8) : State :=
  if s.lanes[n].tx.squelch.interlock then s
  else match s.limits.interlock[n].firstCrossed rs with
    | none => s
    | some x =>
      let s1 := s.setSquelch (.line n) fun q => { q with interlock := true }
      (((s1.parkJets).interlockEvent n x.1 x.2.1 x.2.2 false).logEntry 0x0305 0 2 (Block.lineTx n).id [pack [(n.val, 3), (0, 5), (x.1, 8)]])

/-- The value of a conversion, the flag CLIPPED, and when and with what stamp it was sampled (R398, R407, R425). -/
def State.gaugeValueOf (s : State) (g : Fin 4) (c : GaugeCur) (raw : Int) : GaugeLast × Bool :=
  let v := gaugeValue (s.hk.gauge[g].cal.corr[c.entry.gain % 4]'(Nat.mod_lt _ (by decide))) (2 ^ c.entry.gain) raw
  let sampled := c.start + tenNs c.entry.smp
  ({ code := v.1, at' := sampled, stamp := s.stampGauge g sampled }, v.2)

/-- A conversion's result, by its converter, reaches the capture crossbar while acquisition is armed (R407). -/
def State.toCrossbar (s : State) (g : Fin 4) (c : GaugeCur) (v : GaugeLast) : State :=
  if s.acq.state = .disarmed then s
  else { s with acq := { s.acq with gauge := upd s.acq.gauge g fun xs => xs ++ [⟨v.at', v.stamp.time, v.stamp.valid, v.code, c.entry.channel⟩] } }

/-- A conversion's result goes to the FIFO, the capture crossbar and the monitors (R407). -/
def State.gaugeResult (s : State) (g : Fin 4) (c : GaugeCur) (raw : Int) : State :=
  let v := s.gaugeValueOf g c raw
  let r : GaugeResult := { value := v.1.code, channel := c.entry.channel, injected := c.injected, late := c.late, clipped := v.2, stamp := v.1.stamp }
  let s1 := (s.modConv g fun x => { x.put r with cur := none, idleAt := c.boundary, freeAt := if c.injected then c.boundary else x.freeAt }).toCrossbar g c v.1
  match idx? 64 c.entry.channel with
  | some k => s1.modHk fun h => { h with last := upd h.last k fun l => (v.1 :: l).take 3 }
  | none => s1

/-- The end of a pass: the boundary of the converter's set, and the next pass of a CONTINUOUS sequence (R403, R425). -/
def State.passEnd (s : State) (g : Fin 4) (at' : Instant) : State :=
  let s1 := s.refreshGauge.boundary (.gauge g)
  let p := s1.active.gauge[g]
  if p.run = true ∧ p.trig = 0x30 ∧ s1.nothingToRun g = false then s1.modConv g fun c => { c with startAt := some at' } else s1

/-- The entry boundary of a converter's conversion: its result is taken, and the converter goes on; with the result, by its channel, for the
interlocks (R400, R401, R406, R407). -/
def State.gaugeEnd (s : State) (g : Fin 4) (raw : Int) : State × List (Nat × GaugeLast) :=
  match s.hk.gauge[g].cur with
  | none => (s, [])
  | some c =>
    if s.now < c.boundary then (s, [])
    else
      let had := s.hk.gauge[g].pass.isSome
      let s1 := (s.gaugeResult g c raw).converterNext g c.boundary
      (if had ∧ s1.hk.gauge[g].pass.isNone then s1.passEnd g c.boundary else s1, [(c.entry.channel, (s.gaugeValueOf g c raw).1)])

/-- The entry boundaries of several converters in one island cycle. -/
def State.gaugeEnds (s : State) : List (Fin 4 × Int) → State × List (Nat × GaugeLast)
  | [] => (s, [])
  | x :: xs =>
    let a := s.gaugeEnd x.1 x.2
    let b := a.1.gaugeEnds xs
    (b.1, a.2 ++ b.2)

/-- GAUGE_RESULT: the entry boundary of the conversion in progress; `raw` is the voltage at the converter in nV, and those of other
converters in the same island cycle, which together are one result interval of the interlocks (R97, R398, R400, R401, R406, R407;
log 88). -/
def execGaugeResult (t : Instant) (g : Fin 4) (raw : Int × List (Fin 4 × Int)) (s : State) : Out :=
  let s := s.advanceTo t
  let x := s.gaugeEnds ((g, raw.1) :: raw.2)
  .next (x.1.forEach (List.finRange 8) fun n s => s.judgeInterlock x.2 n)

/-! ### Jets (R413 to R416) -/

/-- JETS_TICK: a tick of a channel: first a due commit, then the next code (R414, R416, R425). -/
def execJetsTick (t : Instant) (j : Fin 24) (s : State) : Out :=
  let s := s.advanceTo t
  if s.hk.jets[j].tickDue then
    let s1 := (s.modJets j fun c => { c with tickDue := false, cal := c.cal.take s.dt11 }).boundary (.jets j)
    .next (if s1.parked j then s1 else s1.modJets j fun c => c.play s1.limits.jetsMin[j] s1.limits.jetsMax[j] s1.now)
  else .next s

/-- JETS_DEGLITCH_END: 300 ns after the tick the held output moves to its new code (R415). -/
def execJetsDeglitchEnd (t : Instant) (j : Fin 24) (s : State) : Out :=
  let s := s.advanceTo t
  match s.hk.jets[j].hold with
  | some (_, a) => .next (if a + nsec 300 ≤ s.now then s.modJets j fun c => { c with hold := none } else s)
  | none => .next s

/-- JETS_PARK_TIMER: 20 µs after the commit tick a change of range or reference no longer parks the channel
(Table 11.10). -/
def execJetsParkTimer (t : Instant) (j : Fin 24) (s : State) : Out :=
  let s := s.advanceTo t
  match s.hk.jets[j].rangePark with
  | some a => .next (if a + usec 20 ≤ s.now then s.modJets j fun c => { c with rangePark := none } else s)
  | none => .next s

/-! ### PWM units (R421 to R424) -/

/-- The elapsed time at which the current period of a unit has ended (R421). -/
def State.periodEnd (s : State) (n : Fin 8) : Option Instant :=
  let u := s.hk.pwm[n]
  let p := s.active.pwm[n]
  if u.running = false then none
  else match p.timer with
    | some _ => u.endDue
    | none => if u.start + tenNs p.period ≤ s.now then some (u.start + tenNs p.period) else none

/-- PWM_PERIOD_END: the end of a unit's period, at which its set commits; a unit still enabled starts the next one and
another goes inactive (R424). -/
def execPwmPeriodEnd (t : Instant) (n : Fin 8) (s : State) : Out :=
  let s := s.advanceTo t
  match s.periodEnd n with
  | none => .next s
  | some a =>
    let s1 := s.boundary (.pwm n)
    .next (if s1.active.pwm[n].enable then s1.startPeriod n a else s1.modPwm n fun _ => {})

/-- The elapsed time of the CENTRE event of the current period (R424). -/
def State.centreAt (s : State) (n : Fin 8) : Instant :=
  let p := s.active.pwm[n]
  let per := p.periodIn s.active.timer
  s.hk.pwm[n].start + tenNs ((p.rise + p.width per / 2) % per)

/-- PWM_CENTRE_EVENT: the CENTRE event of a unit's period (R424). -/
def execPwmCentreEvent (t : Instant) (n : Fin 8) (s : State) : Out :=
  let s := s.advanceTo t
  let u := s.hk.pwm[n]
  if u.running ∧ u.centre ∧ s.centreAt n ≤ s.now then
    .next ((s.modPwm n fun u => { u with centre := false }).trigger (0x20 + n.val) (s.centreAt n))
  else .next s

end Sys2Proof.Machine
end

