-- ==== Sys2Proof/Machine/ServoRows.lean ====
section
/-! DEFINITION. The servo's updates, each of which is also the commit boundary of class 0x05. -/
namespace Sys2Proof.Machine

/-- A servo update takes the commits that are due before it is computed; `upd` computes it from the new set, and an offset
of a source or group that the new set no longer names is not acted on (R532).  The next interval begins on every lane (R299, R305). -/
def State.servoUpdate (s : State) (upd : State → State) : State :=
  let s1 := s.boundary .servo
  (if groupChanged s.active.servo s1.active.servo then s1 else upd s1).forEach timeLanes fun r s => s.latchDelays r

/-- SERVO_UPDATE: the 2^k-th time marker has been counted on the group (R268, R269). -/
def execServoUpdate (t : Instant) (s : State) : Out :=
  let s := s.advanceTo t
  .next (if s.active.servo.source = .line ∧ 2 ^ s.active.servo.k ≤ s.tb.markers then s.servoUpdate State.lineUpdate else s)

/-- SERVO_EMPTY_UPDATE: no counted marker for 1.25 T_u; the lane statuses are evaluated all the same (R269). -/
def execServoEmptyUpdate (t : Instant) (s : State) : Out :=
  let s := s.advanceTo t
  .next (if s.active.servo.source = .line ∧ s.emptyDue then s.servoUpdate fun s => s.endInterval.1.servoEmpty else s)

/-- PPS_IN_EDGE: an edge of the configured polarity crosses the threshold at the ball (R268, R279, R281). -/
def execPpsInEdge (t : Instant) (s : State) : Out :=
  let s := s.advanceTo t
  if s.ppsJudged = false then .next s
  else if s.ppsAccepts s.ppsStamp = false then .next (s.modTb fun b => { b with ppsRejects := satAdd 32 b.ppsRejects 1 })
  else
    let f := s.ppsStamp
    let s1 := s.modTb fun b => { b with ppsLast := some f, ppsBase := some f }
    let s2 := s1.forEach s1.edgeTakers fun e s =>
      let x := s.limitStep (((e.time 0).getD 0 : Int) - f)
      s.modTb fun b => b.hostStep e.seq x.1 x.2
    .next (if s.active.servo.source = .pps then s2.servoUpdate fun s => s.servoOffset (ppsOffset f s.active.servo.cableDelay) false else s2)

/-- PPS_WINDOW_MISSED: a window passes with no accepted edge, and the next is counted from the expected instant; none is
missed in HOLDOVER (R279). -/
def execPpsWindowMissed (t : Instant) (s : State) : Out :=
  let s := s.advanceTo t
  match s.tb.ppsBase with
  | none => .next s
  | some b =>
    if s.ppsJudged = true ∧ s.tb.state ≠ .holdover ∧ s.pastTick (b + msec 1100) = true then
      let s1 := s.modTb fun x => { x with ppsBase := some (b + secs 1) }
      .next (if s.active.servo.source = .pps then s1.servoUpdate State.servoEmpty else s1)
    else .next s

end Sys2Proof.Machine
end

