-- ==== Sys2Proof/Machine/Capture.lean ====
section
/-! DEFINITION. What a capture channel makes of its source's samples: scale values, decimation, reduction, the samples of a record or
a unit, and their stored bytes. -/
namespace Sys2Proof.Machine

/-- A source delivers samples now (R356): of a line lane, while its receive half works and is neither in CALIBRATING nor in STILL, and for
the equaliser output while its engine runs too; any other source always. -/
def State.carries (s : State) (src : Nat) : Bool :=
  match idx? 8 (src % 16) with
  | some n =>
    if decimable src then s.lanes[n].receiving && (decide (src / 16 ≠ 2) || s.engineRuns s.lanes[n].eq.engine) else true
  | none => true

/-- The converter whose results a source is (Table 10.1). -/
def gaugeOf (src : Nat) : Option (Fin 4) := if 0x50 ≤ src then idx? 4 (src - 0x50) else none

/-- The carriage of the island that a source stands in: its lane's, else Weir's. -/
def State.carriageOf (s : State) (src : Nat) : Carriage :=
  if decimable src then s.carriage.toList.getD (src % 16) {} else s.carriage[8]

/-- The spans of time in which a source delivered nothing while armed (R356). -/
def State.silences (s : State) (src : Nat) : List (Instant × Instant) :=
  if decimable src = false then []
  else if src / 16 = 2 then (s.carriageOf src).eqSilent
  else (s.carriageOf src).silent

/-- An instant falls in one of some spans of time. -/
def inSpan (xs : List (Instant × Instant)) (a : Instant) : Bool := xs.any fun x => decide (x.1 ≤ a ∧ a < x.2)

/-- The stamp of a sample taken at an instant, formed by the replica of its source's island, the line lane's or Weir's, and valid where
that island's stamps were valid then (R24, R26, R368). -/
def State.sampleStamp (s : State) (src : Nat) (a : Instant) : Stamp :=
  let n : Fin 64 := if decimable src then ⟨src % 8, by omega⟩ else 49
  ⟨(s.stampAt n 1 1 a).time, if a < s.now then !inSpan (s.carriageOf src).unstamped a else s.stampsValid n⟩

/-- An instant lies in an arming: from ARM until DISARMED (R381, R383). -/
def Arming.has (r : Arming) (now a : Instant) : Bool := decide (r.start ≤ a ∧ a ≤ r.ended.getD now)

/-- What a source has delivered in an arming: of the samples brought, those taken in it while the source was not stopped, with their
stamps; of a Gauge source, the results that the converter delivered (R356, R368, R383, R407). -/
def State.delivered (s : State) (r : Arming) (src : Nat) (xs : List SrcSample) : List Sampled :=
  match gaugeOf src with
  | some g => s.acq.gauge[g].filter fun x => r.has s.now x.inst
  | none =>
    (xs.filter fun x => r.has s.now x.at' && !inSpan (s.silences src) x.at').map fun x =>
      let st := s.sampleStamp src x.at'
      ⟨x.at', st.time, st.valid, x.value, 0⟩

/-- A source misses samples, or changed its rate, between two instants (R356, R379). -/
def State.gapIn (s : State) (src : Nat) (a b : Instant) : Bool :=
  (s.silences src).any (fun x => decide (x.1 < b ∧ a < x.2)) || (decimable src && (s.carriageOf src).changes.any fun c => decide (a < c ∧ c ≤ b))

/-- The signed 16-bit scale value of a stored sample (Table 10.1). -/
def scaleValue (src : Nat) (v : Int) : Int :=
  match src / 16 with
  | 1 => v * 256
  | 4 => if v = 0 then 0 else 16384
  | 5 => v * 8
  | _ => v

/-- An output sample of a channel: its time, in elapsed time as well, whether that is valid, and its value, the minimum and maximum of a
pair, or the value and channel of a Gauge result. -/
structure OutSample where
  inst : Instant
  at' : FTime
  valid : Bool
  vals : List Int
  deriving DecidableEq, Repr

/-- A sample as it is stored with no decimator (Table 10.1). -/
def stored (src : Nat) (x : Sampled) : OutSample := ⟨x.inst, x.at', x.valid, if src / 16 = 5 then [x.value, x.channel] else [x.value]⟩

/-- Outputs of `n` half-band stages for a number of inputs (R359). -/
def halvings : Nat → Nat → Nat
  | 0, m => m
  | n + 1, m => halvings n (ceilDiv m 2)

/-- The sample of a source nearest to an index of it. -/
def sampleNear (xs : List Sampled) (k : Nat) : Sampled := xs.getD (min k (xs.length - 1)) ⟨0, 0, false, 0, 0⟩

/-- The output sample of a decimator at an instant on the source, given in 1/256 samples: its time by linear interpolation between the two
samples about it (R362). -/
def outAt (xs : List Sampled) (i v : Int) : OutSample :=
  let k := min (i / 256).toNat (xs.length - 2)
  let a := sampleNear xs k
  let b := sampleNear xs (k + 1)
  ⟨a.inst, ((a.at' : Int) + (i - 256 * k) * ((b.at' : Int) - a.at') / 256).toNat, a.valid && b.valid, [v]⟩

/-- The accumulator values of the output samples that a decimator can form of `m` inputs: those whose index lies within what its stages
have given (R361). -/
def phases (p : DecimP) (m : Nat) : List Nat :=
  let n := halvings p.stages m
  ((List.range n).map (· * p.step)).filter fun a => decide (a / 2 ^ 31 < n)

/-- What a decimator reads: the scale value of input `i` (R359). -/
def scaleIn (src : Nat) (xs : List Sampled) (i : Nat) : Int := match xs[i]? with | some x => scaleValue src x.value | none => 0

/-- A decimator's output since it started, with every filter delay removed from its times (R359 to R362). -/
def decimOut (coef : Nat → Int) (p : DecimP) (src : Nat) (xs : List Sampled) : List OutSample :=
  (phases p xs.length).map fun a => outAt xs (sourceInstant p.stages a) (decimate coef p.stages (scaleIn src xs) a)

/-- One of a decimator's output samples saturates (R359). -/
def decimSaturates (coef : Nat → Int) (p : DecimP) (src : Nat) (xs : List Sampled) : Bool :=
  (phases p xs.length).any fun a => decide (decimateSum coef p.stages (scaleIn src xs) a ≠ decimate coef p.stages (scaleIn src xs) a)

/-- The least and the greatest of a list of values. -/
def extremes : List Int → List Int
  | [] => []
  | v :: vs => [vs.foldl min v, vs.foldl max v]

/-- The min/max reducer: one pair for each whole interval from the channel's start, at the time of its first sample (R366). -/
def reducePairs (interval : Nat) (xs : List OutSample) : List OutSample :=
  (List.range (xs.length / interval)).filterMap fun g =>
    let part := (xs.drop (g * interval)).take interval
    part.head?.map fun x => { x with vals := extremes (part.flatMap OutSample.vals) }

/-- The results of a Gauge source that GAUGE_CH takes; of any other source, every sample (R357, R367). -/
def channelTakes (src gaugeCh : Nat) (xs : List Sampled) : List Sampled :=
  if src / 16 = 5 ∧ gaugeCh ≠ 0xFF then xs.filter fun x => decide (x.channel = gaugeCh) else xs

/-- A channel's output before its reducer, given what its source has delivered (R355 to R362). -/
def State.decimated (s : State) (k : Bank) (c : Fin 8) (xs : List Sampled) : List OutSample :=
  let p := k.channel[c]
  match idx? 4 p.decim with
  | some d => decimOut s.acq.banks[d].coef k.decim[d] p.source (channelTakes p.source p.gaugeCh xs)
  | none => (channelTakes p.source p.gaugeCh xs).map (stored p.source)

/-- A channel's output, given what its source has delivered (R355 to R366). -/
def State.chanOut (s : State) (k : Bank) (c : Fin 8) (xs : List Sampled) : List OutSample :=
  let p := k.channel[c]
  if p.minmax then reducePairs p.interval (s.decimated k c xs) else s.decimated k c xs

/-- FORMAT of a channel's samples (Table 10.10). -/
def formatOf (decimated minmax : Bool) (source : Nat) : Nat :=
  if decimated then (if minmax then 4 else 2)
  else match source / 16 with
    | 4 => 0
    | 1 => if minmax then 3 else 1
    | 5 => 5
    | _ => if minmax then 4 else 2

/-- Bits of a stored sample of a FORMAT. -/
def formatBits (format : Nat) : Nat :=
  match format with
  | 0 => 1 | 1 => 8 | 2 => 16 | 3 => 16 | 4 => 32 | _ => 64

/-- FORMAT of a channel. -/
def Bank.format (k : Bank) (c : Fin 8) : Nat := formatOf (decide (k.channel[c].decim ≠ 0xF)) k.channel[c].minmax k.channel[c].source

/-- A Gauge result as it is stored (Table 10.2). -/
def gaugeSample (x : OutSample) : List Byte :=
  wordsLe [pack [((x.vals.getD 0 0).toNat, 12), ((x.vals.getD 1 0).toNat, 8)], pack [(x.at' / 65536 % 1000000000, 30), (x.at' / 65536000000000, 2)]]

/-- One-bit samples, eight to a byte, the earliest in bit 0 (Table 10.1). -/
def packLevels (xs : List OutSample) : List Byte :=
  (List.range (ceilDiv xs.length 8)).map fun b =>
    BitVec.ofNat 8 (pack (((xs.drop (8 * b)).take 8).map fun x => (flag (decide (x.vals.getD 0 0 ≠ 0)), 1)))

/-- The stored bytes of samples of a FORMAT; a pair holds its minimum in the lower half (Table 10.1, R366). -/
def storedBytes (format : Nat) (xs : List OutSample) : List Byte :=
  match format with
  | 0 => packLevels xs
  | 1 | 3 => xs.flatMap fun x => x.vals.flatMap fun v => leBytes 1 (ofSigned 8 v)
  | 2 | 4 => xs.flatMap fun x => x.vals.flatMap fun v => leBytes 2 (ofSigned 16 v)
  | _ => xs.flatMap gaugeSample

/-- What was brought for a channel. -/
def samplesOf (data : List Captured) (c : Fin 8) : List SrcSample :=
  ((data.find? fun d => decide (d.channel = c)).map Captured.samples).getD []

/-- The segment of a record channel: of the samples written since its slot began, the last PRE before the trigger sample, which is the
first at or after the trigger, and POST from it on; samples are missing where the source was stopped, or changed its rate, between the
first and the last, or in the time in which it should have given those that lack (R356, R376, R379). -/
def State.segment (s : State) (trigger : FTime) (data : List Captured) (c : Fin 8) : Segment :=
  let p := s.active.channel[c]
  let outs := (s.chanOut s.active c (s.delivered s.acq.run p.source (samplesOf data c))).filter fun o => decide (s.acq.slotFrom ≤ o.at')
  let before := outs.filter fun o => decide (o.at' < trigger)
  let pre := before.drop (before.length - p.pre)
  let post := (outs.filter fun o => decide (trigger ≤ o.at')).take p.post
  let mine := pre ++ post
  let first := if pre.length < p.pre then s.acq.slotAt else (mine.head?.map OutSample.inst).getD s.now
  let last := if post.length < p.post then s.now else (mine.getLast?.map OutSample.inst).getD s.now
  { channel := c, preValid := pre.length, postWritten := post.length, gap := s.gapIn p.source first last
    tFirst := (mine.head?.map OutSample.at').getD 0, tLast := (mine.getLast?.map OutSample.at').getD 0
    tValid := (mine.head?.map OutSample.valid).getD false && (mine.getLast?.map OutSample.valid).getD false
    bytes := storedBytes (s.active.format c) mine }

/-- The decimators that have saturated an output, given what a source has brought: those that a channel with that source names (R359). -/
def State.saturations (s : State) (src : Nat) (xs : List SrcSample) : Nat :=
  idxMask ((List.finRange 4).filter fun d =>
    (List.finRange 8).any (fun c => decide (s.active.channel[c].decim = d.val ∧ s.active.channel[c].source = src)) &&
      decimSaturates s.acq.banks[d].coef s.active.decim[d] src (s.delivered s.acq.run src xs))

/-- SATURATED after what a source has brought (R359). -/
def State.saturate (s : State) (src : Nat) (xs : List SrcSample) : State :=
  if s.acq.state = .disarmed then s else { s with acq := { s.acq with saturated := s.acq.saturated ||| s.saturations src xs } }

/-- Samples of a channel that fill the 4,032 payload bytes of a unit (R390). -/
def unitSamples (k : Bank) (c : Fin 8) : Nat := 32256 / formatBits (k.format c)

/-- The samples brought are of the arming before the present one (R393). -/
def State.ofLast (s : State) (u : Captured) : Bool := decide (u.samples ≠ []) && u.samples.all fun x => decide (x.at' < s.acq.run.start)

/-- The arming and the sets that what was brought for a STREAM channel belongs to: an ARM makes the sets of the one before it the previous
ones (R33, R393). -/
def State.streamRun (s : State) (u : Captured) : Arming × Bank := if s.ofLast u then (s.acq.lastRun, s.previous) else (s.acq.run, s.active)

/-- What a STREAM channel has to send of its samples: those after the ones its units have taken, up to a unit's payload (R393). -/
def State.streamPart (s : State) (u : Captured) : List OutSample :=
  let r := s.streamRun u
  ((s.chanOut r.2 u.channel (s.delivered r.1 r.2.channel[u.channel].source u.samples)).drop r.1.streamed[u.channel]).take (unitSamples r.2 u.channel)

end Sys2Proof.Machine
end

