-- ==== Sys2Proof/Machine/Weir.lean ====
section
/-! DEFINITION. Acquisition: trigger units on their samples, Weir's decisions, records, ARM and DISARM. -/
namespace Sys2Proof.Machine

/-- The acquisition record of the device, changed. -/
def State.modAcq (s : State) (f : Acq → Acq) : State := { s with acq := f s.acq }

/-- A stamp of the Weir island. -/
def State.stampWeir (s : State) : Stamp := s.stampOn 49

/-! ### Trigger units (R368 to R370) -/

/-- The time of a crossing of a level between two samples, rounded down to 1/64 of their interval (R368). -/
def crossing (t0 t1 : FTime) (s0 s1 level : Int) : FTime :=
  if s1 = s0 then t1 else t0 + 64 * (level - s0).natAbs / (s1 - s0).natAbs * (t1 - t0) / 64

/-- A comparator's state after a sample (R368). -/
def comparator (old : Bool) (s level : Int) (hyst : Nat) : Bool :=
  if level ≤ s then true else if s < level - hyst then false else old

/-- A measured time meets MODE (R370). -/
def meets (p : TrigP) (x : Int) : Bool :=
  match p.mode with
  | 0 => decide (x < p.t1)
  | 1 => decide ((p.t1 : Int) < x)
  | 2 => decide ((p.t1 : Int) ≤ x ∧ x ≤ p.t2)
  | _ => decide (x < p.t1 ∨ (p.t2 : Int) < x)

/-- A unit's thresholds with negative polarity turned over (R369). -/
def TrigP.levels (p : TrigP) : Int × Int :=
  if p.neg = false then (p.tl, p.th)
  else if p.cond = 3 ∨ p.cond = 5 then (-p.th, -p.tl)
  else (p.tl, -p.th)

/-- The value a unit evaluates (R369). -/
def TrigP.value (p : TrigP) (s : Int) : Int := if p.neg then min (-s) 32767 else s

/-- One sample of a unit: its state after it, and the trigger instant when it fires (R368 to R370).  `interp` says that
crossing times are interpolated, `arm` is the ARM instant. -/
def TrigUnit.feed (u : TrigUnit) (p : TrigP) (interp : Bool) (arm t : FTime) (sample : Int) : TrigUnit × Option FTime :=
  let s := p.value sample
  let (tl, th) := p.levels
  match u.prev with
  | none =>
    let high := decide (th ≤ s)
    ({ u with prev := some (t, s), high, low := decide (tl ≤ s), rise := if p.cond = 4 ∧ high then some arm else none }, none)
  | some (t0, s0) =>
    let at' := fun (level : Int) => if interp then crossing t0 t s0 s level else t
    let high := comparator u.high s th p.hyst
    let low := comparator u.low s tl p.hyst
    let riseH := !u.high && high
    let fallH := u.high && !high
    let riseL := !u.low && low
    let fallL := u.low && !low
    let v := { u with prev := some (t, s), high, low }
    match p.cond with
    | 1 => (v, if riseH then some (at' th) else none)
    | 2 =>
      let tf := at' (th - p.hyst)
      if riseH then ({ v with rise := some (at' th) }, none)
      else if fallH then
        ({ v with rise := none }, match u.rise with | some tr => if meets p ((tf : Int) - tr) then some tf else none | none => none)
      else (v, none)
    | 3 =>
      let runt := if fallL then false else ((u.runt || riseL) && !riseH)
      ({ v with runt }, if fallL ∧ u.runt then some (at' (tl - p.hyst)) else none)
    | 4 =>
      if riseH then ({ v with rise := some (at' th) }, none)
      else if fallH then
        ({ v with rise := none }, match u.rise with
          | some tr => if tr + p.t1 < at' (th - p.hyst) then some (tr + p.t1) else none
          | none => none)
      else (v, none)
    | 5 =>
      let slew := if fallL then none else if riseL then some (at' tl) else u.slew
      ({ v with slew }, if riseH then match slew with | some ta => if meets p ((at' th : Int) - ta) then some (at' th) else none | none => none else none)
    | _ => (v, none)

/-- A source whose crossing times are not interpolated (R368). -/
def noInterp (src : Nat) : Bool := decide (src = 0x40 ∨ src = 0x41 ∨ (0x50 ≤ src ∧ src < 0x54))

/-- A firing is counted and, from a unit of UNIT_MASK, waits for Weir's decision (R372). -/
def State.fire (s : State) (n : Fin 4) (stamp : Stamp) : State :=
  s.modAcq fun a => { a with
    units := upd a.units n fun u => { u with firings := satAdd 32 u.firings 1 }
    firings := if bit s.active.weir.unitMask n.val then a.firings ++ [{ unit := n, stamp, decided := false }] else a.firings }

/-- The channel whose output, before its reducer, a trigger source names (R367). -/
def trigChannel (src : Nat) : Option (Fin 8) := if 0x80 ≤ src then idx? 8 (src - 0x80) else none

/-- The samples that a unit evaluates, given what its source has brought since ARM: times, scale values and whether the stamps are valid;
of Gauge results, those of its GAUGE_CH; of a channel, those after its decimator (R355, R366, R367). -/
def State.watched (s : State) (n : Fin 4) (xs : List SrcSample) : List (FTime × Int × Bool) :=
  let p := s.active.weir.units[n]
  let u := underlying s.active p.src
  let ys := channelTakes u.1 p.gaugeCh (s.delivered s.acq.run u.1 xs)
  match trigChannel p.src with
  | some c => (s.decimated s.active c ys).map fun o => (o.at', if u.2 then o.vals.getD 0 0 else scaleValue u.1 (o.vals.getD 0 0), o.valid)
  | none => ys.map fun y => (y.at', scaleValue u.1 y.value, y.valid)

/-- One sample passes through a unit, which may fire (R368 to R370). -/
def State.feedUnit (s : State) (n : Fin 4) (interp : Bool) (x : FTime × Int × Bool) : State :=
  let r := s.acq.units[n].feed s.active.weir.units[n] interp s.acq.armStamp.time x.1 x.2.1
  let s1 := s.modAcq fun a => { a with units := a.units.set n r.1 }
  match r.2 with
  | some f => s1.fire n ⟨f, x.2.2⟩
  | none => s1

/-- TRIGGER_FIRING: what a unit's source has brought since ARM; the samples that it has not evaluated yet pass through the unit, which
fires where its condition is met; of a stopped source there are none (R356, R367, R383).  Weir carries nothing while its island runs on
FIRC (R21). -/
def execTriggerFiring (t : Instant) (n : Fin 4) (samples : List SrcSample) (s : State) : Out :=
  let s := s.advanceTo t
  let p := s.active.weir.units[n]
  let src := (underlying s.active p.src).1
  if s.isArmed = false ∨ p.cond = 0 ∨ s.onIslandClock 49 = false then .next s
  else
    let xs := s.watched n samples
    let s1 := (s.saturate src samples).forEach (xs.drop s.acq.units[n].fed) fun x s => s.feedUnit n (p.interp && !noInterp src) x
    .next (s1.modAcq fun a => { a with units := upd a.units n fun u => { u with fed := xs.length } })

/-- TRIGGER_TIMEOUT_FIRE: no falling crossing has a time at or before t_r + T1, in the Weir cycle of the expiry either (R45, R370).  A unit
whose source is stopped then does not fire (R383).  DESIGN CHOICE (log 150): nor does it for that crossing once the source resumes. -/
def execTriggerTimeoutFire (t : Instant) (n : Fin 4) (s : State) : Out :=
  let s := s.advanceTo t
  let p := s.active.weir.units[n]
  match s.acq.units[n].rise with
  | some tr =>
    if s.isArmed = true ∧ p.cond = 4 ∧ (tr + p.t1) / 65536 < s.fnow / 65536 then
      let s1 := s.modAcq fun a => { a with units := upd a.units n fun u => { u with rise := none } }
      .next (if s.carries (underlying s.active p.src).1 then s1.fire n ⟨tr + p.t1, s.stampWeir.valid⟩ else s1)
    else .next s
  | none => .next s

/-! ### Record images (R379) -/

/-- FORMAT of a segment (Table 10.10). -/
def RecSeg.format (g : RecSeg) : Nat := formatOf g.decimated g.minmax g.source

/-- Bytes of a segment padded to a multiple of 64. -/
def RecSeg.padded (g : RecSeg) : List Byte := g.seg.bytes ++ List.replicate (64 * ceilDiv g.seg.bytes.length 64 - g.seg.bytes.length) 0

/-- A segment's descriptor (Table 10.10). -/
def RecSeg.descriptor (g : RecSeg) (offset : Nat) : List Byte :=
  wordsLe [pack [(g.seg.channel.val, 3), (flag g.decimated, 1), (flag g.minmax, 1), (flag g.seg.gap, 1), (0, 2), (g.source, 8), (g.format, 3)],
      g.seg.preValid, g.seg.postWritten, offset, g.seg.bytes.length] ++
    timeWords g.seg.tFirst ++ timeWords g.seg.tLast ++ wordsLe [flag g.seg.tValid]

/-- The descriptors of segments laid from an offset. -/
def descriptors : Nat → List RecSeg → List Byte
  | _, [] => []
  | off, g :: gs => g.descriptor off ++ descriptors (off + g.padded.length) gs

/-- The record image (R379). -/
def Record.image (r : Record) : List Byte :=
  let first := 32 + 48 * r.segs.length
  let total := first + (r.segs.map fun g => g.padded.length).sum
  wordsLe [pack [(r.index, 16), (r.slot, 8), (r.cause, 4), (r.primary, 2), (flag r.forced, 1), (flag r.shortPre, 1)]] ++ timeWords r.stamp.time ++
    wordsLe [pack [(flag r.stamp.valid, 1), (flag r.truncated, 1), (flag r.ecc, 1), (0, 5), (idxMask (r.segs.map fun g => g.seg.channel), 8),
        (min r.postTriggers 65535, 16)], min r.dead 0xFFFFFFFF, min r.missed 0xFFFFFFFF, total] ++
    descriptors first r.segs ++ r.segs.flatMap RecSeg.padded

/-! ### Record triggers (R372, R373, R376, R378) -/

/-- The newest record, changed while it is held. -/
def Acq.modLast (a : Acq) (f : Record → Record) : Acq :=
  { a with records := a.records.map fun r => if (r.index + 1) % 65536 = a.nextIndex then f r else r }

/-- One more trigger after a record trigger. -/
def Record.bump (r : Record) : Record := { r with postTriggers := satAdd 16 r.postTriggers 1 }

/-- A trigger that a record does not capture: it is counted where its stamp lies after the record's (R378). -/
def Record.follow (r : Record) (stamp : Stamp) : Record := if r.stamp.time < stamp.time then r.bump else r

/-- A trigger in dead time (R378). -/
def Acq.miss (a : Acq) : Acq := { a with missed := satAdd 32 a.missed 1, missedTotal := satAdd 32 a.missedTotal 1 }

/-- The pulse of a record trigger on the EVT pins of EVT_MASK follows the decision; by how much is not given, and is a free value
(R371). -/
def State.trigPulse (s : State) : State :=
  if s.active.weir.evtMask = 0 then s
  else
    let x := s.draw
    x.2.modAcq fun a => { a with pulse := (s.active.weir.evtMask, s.now + Config.reading 0x6021 x.1) }

/-- The level of the trigger pulse on an EVT pin: high for 100 ns (R371). -/
def State.pulseLevel (s : State) (e : Fin 8) : Bool :=
  bit s.acq.pulse.1 e.val && decide (s.acq.pulse.2 ≤ s.now ∧ s.now < s.acq.pulse.2 + nsec 100)

/-- A record trigger: it starts a record, or is counted where it falls after a record trigger or in dead time (R376, R378).  The flag
says that it started one. -/
def State.recordTrigger (s : State) (stamp : Stamp) (cause primary : Nat) (forced : Bool) : State × Bool :=
  let s1 := s.trigPulse
  let late := decide (stamp.time ≤ s.acq.lastPost ∧ s.acq.taken ≠ 0)
  match s.acq.state with
  | .disarmed => (s, false)
  | .post => (s1.modAcq fun a => { a with cur := a.cur.map fun r => r.follow stamp }, false)
  | .rearm => (s1.modAcq fun a => if late then a.modLast fun r => r.follow stamp else a.miss, false)
  | .armed =>
    if late then (s1.modAcq fun a => a.modLast fun r => r.follow stamp, false)
    else if stamp.time < s.acq.slotFrom then (s1.modAcq Acq.miss, false)
    else
      (s1.modAcq fun a => { a with
        state := .post, nextIndex := (a.nextIndex + 1) % 65536, missed := 0
        cur := some { index := a.nextIndex, slot := a.nextIndex % max a.nslots 1, cause, primary, forced, stamp, dead := a.dead, missed := a.missed } }, true)

/-- The earliest undecided firing (R372). -/
def earliest (fs : List Firing) : Option Firing :=
  (fs.filter fun f => !f.decided).foldl (fun best f =>
    match best with
    | none => some f
    | some b => if f.stamp.time < b.stamp.time then some f else best) none

/-- One sample period of a unit's source, in 2⁻¹⁶ ns (R372). -/
def State.samplePeriod (s : State) (n : Fin 4) : Rat :=
  let src := s.active.weir.units[n].src
  let rate := match idx? 8 (src - 0x80) with
    | some c => if 0x80 ≤ src then s.decimRate s.active c else s.sourceRate src
    | none => s.sourceRate src
  if rate = 0 then 0 else 65536000000000 / rate

/-- The firings that join a trigger formed at a firing; none when none is formed (R372). -/
def State.joins (s : State) (f : Firing) : Option (List Firing) :=
  let fs := s.acq.firings
  let p := s.active.weir
  if p.and' then
    let lo := f.stamp.time - nsec p.window
    let pick := fun n : Fin 4 => (fs.filter fun g => g.forced.isNone && decide (g.unit = n ∧ lo ≤ g.stamp.time ∧ g.stamp.time ≤ f.stamp.time)).foldl (fun best g =>
      match best with
      | none => some g
      | some (b : Firing) => if b.stamp.time ≤ g.stamp.time then some g else best) none
    (maskIdx 4 p.unitMask).mapM pick
  else some (fs.filter fun g => !g.decided && g.forced.isNone && (decide (g = f) || decide (((g.stamp.time - f.stamp.time : Nat) : Rat) < s.samplePeriod f.unit)))

/-- The reply of FORCE_TRIGGER: its stamp, and whether it started a record (R373). -/
def forceReply (st : Stamp) (captured : Bool) : List Byte := timeWords st.time ++ wordsLe [pack [(flag st.valid, 1), (flag captured, 1)]]

/-- TRIGGER_DECISION: Weir decides on the earliest undecided firing once time has passed its stamp by D; a FORCE_TRIGGER acts alone, and
replies then (R372, R373). -/
def execTriggerDecision (t : Instant) (s : State) : Out :=
  let s := s.advanceTo t
  match earliest s.acq.firings with
  | none => .next s
  | some f =>
    if s.isArmed = false ∨ s.fnow < f.stamp.time + nsec s.active.weir.delay then .next s
    else if let some c := f.forced then
      let r := (s.modAcq fun a => { a with firings := a.firings.filter fun g => decide (g ≠ f) }).recordTrigger f.stamp 0 0 true
      .next (r.1.complete c .ok (forceReply f.stamp r.2))
    else match s.joins f with
      | none => .next (s.modAcq fun a => { a with firings := (a.firings.filter fun g => decide (f.stamp.time ≤ g.stamp.time + nsec s.active.weir.window)).map fun g =>
          if g = f then { g with decided := true } else g })
      | some js =>
        let cause := idxMask (js.map Firing.unit)
        let primary := ((maskIdx 4 cause).head?.map Fin.val).getD 0
        let stamp := ((js.filter fun g => decide (g.unit.val = primary)).head?.map Firing.stamp).getD f.stamp
        .next ((s.modAcq fun a => { a with firings := a.firings.filter fun g => !js.contains g }).recordTrigger stamp cause primary false).1

/-- FORCE_TRIGGER: a firing that waits for Weir's decision, in the order of the stamps (R372, R373). -/
def cmdForceTrigger (_q : QId) (e : QEntry) (s : State) : Res :=
  checked e (· == 0) true fun _ =>
    if s.isArmed = false then .fail .precondition []
    else .wait (s.modAcq fun a => { a with firings := a.firings ++ [{ unit := 0, stamp := s.stampWeir, decided := false, forced := some e.seq }] })

/-- Row FORCE_TRIGGER. -/
def execForceTrigger (t : Instant) (q : QId) (s : State) : Out := .next (runCmd t q 0x6032 false cmdForceTrigger s)

/-! ### DISARM (R383) -/

/-- The FORCE_TRIGGER commands whose firings Weir has not decided on reply that they started no record (R373).  DESIGN CHOICE (log 151):
the reply is OK, for the manual gives none. -/
def State.dropForced (s : State) : State :=
  s.forEach (s.acq.firings.filterMap fun f => f.forced.map fun c => (c, f.stamp)) fun x s => s.complete x.1 .ok (forceReply x.2 false)

/-- Acquisition is disarmed: claims released, units and firings gone, the commands that waited reply. -/
def State.disarmNow (s : State) (cause : Nat) (cmds : List Nat) : State :=
  let s1 := s.dropForced.modAcq fun a => { a with
    state := .disarmed, lastDisarm := cause, disarming := none, cur := none, firings := [], run := { a.run with ended := some s.now } }
  let s2 := s1.forEach (List.finRange 4) fun d s => s.disown (decimRes d) .capture
  let s3 := (s2.disown 16 .capture).forEach (List.finRange 8) fun n s => s.disown (evtRes n) .trigger
  s3.forEach cmds fun c s => s.complete c .ok []

/-- A disarm begins: at once, or once the record in POST has been closed (R383). -/
def State.disarm (s : State) (cause : Nat) (cmds : List Nat) : State :=
  match s.acq.state with
  | .disarmed => s.forEach cmds fun c s => s.complete c .ok []
  | .post => s.modAcq fun a => { a with disarming := some (match a.disarming with | some d => (d.1, d.2 ++ cmds) | none => (cause, cmds)) }
  | _ => s.disarmNow cause cmds

/-- DISARM. -/
def cmdDisarm (_q : QId) (e : QEntry) (s : State) : Res :=
  checked e (· == 0) true fun _ => if s.isArmed then .wait (s.disarm 1 [e.seq]) else .ok [] s

/-- Row DISARM. -/
def execDisarm (t : Instant) (q : QId) (s : State) : Out := .next (runCmd t q 0x6031 false cmdDisarm s)

/-! ### Records (R376, R377, R386) -/

/-- A segment written by a record channel of the active sets, with its description. -/
def State.describe (s : State) (g : Segment) : RecSeg :=
  let p := s.active.channel[g.channel]
  { seg := g, burst := p.burst, decimated := decide (p.decim ≠ 0xF), minmax := p.minmax, source := p.source }

/-- RECORD_COMPLETE: every record channel has written its POST samples, or the record is closed by a disarm; `data` is what
the sources of the channels have brought since ARM (R376, R379, R383). -/
def execRecordComplete (t : Instant) (data : List Captured) (s : State) : Out :=
  let s := (s.advanceTo t).forEach data fun d s => s.saturate s.active.channel[d.channel].source d.samples
  match s.acq.cur with
  | none => .next s
  | some r =>
    let k := s.active
    let mine := (recordChans k).map (s.segment r.stamp.time data)
    let truncated := mine.any fun g => decide (g.postWritten < k.channel[g.channel].post)
    if truncated ∧ s.acq.disarming.isNone then .next s
    else
      let r1 := { r with
        truncated, segs := mine.map s.describe
        shortPre := mine.any fun g => decide (g.preValid < k.channel[g.channel].pre) }
      let f := s.stampWeir
      let s1 := s.modAcq fun a => { a with
        state := .rearm, cur := none, records := a.records ++ [r1], taken := a.taken + 1, lastPost := f.time }
      let s2 := s1.event 0xE030 0
        (wordsLe [pack [(r1.index, 16), (r1.cause, 4), (r1.primary, 2), (flag r1.forced, 1), (flag r1.shortPre, 1)]] ++ timeWords r1.stamp.time ++
          wordsLe [flag r1.stamp.valid])
      match s2.acq.disarming with
      | some d => .next (s2.disarmNow d.1 d.2)
      | none =>
        if k.weir.recordLimit ≠ 0 ∧ k.weir.recordLimit ≤ s2.acq.taken then .next (s2.disarmNow 2 [])
        else .next s2

/-- A RECORD_READ reply that waits in the stream, of a record of which some index is `gone`, has OVERWRITTEN set: W0 [16] (R387).  DESIGN
CHOICE (log 152): of a reply that the host has begun to read nothing is changed. -/
def Packet.overwrite (p : Packet) (gone : List Nat) : Packet :=
  if p.kind = .reply ∧ p.code % 65536 = 0x6033 ∧ p.status = 0 ∧ 8 ≤ p.payload.length ∧ gone.contains (wordAt p.payload 0 % 65536) = true then
    { p with payload := leBytes 4 (wordAt p.payload 0 % 65536 + 65536) ++ p.payload.drop 4 }
  else p

/-- The replies that wait of records overwritten (R387). -/
def State.overwrite (s : State) (gone : List Nat) : State :=
  { s with bus := { s.bus with stream := s.bus.stream.zipIdx.map fun x => if x.2 = 0 ∧ s.bus.readPos ≠ 0 then x.1 else x.1.overwrite gone } }

/-- REARM: re-arm completes, when the next slot is free or FULL_POLICY is OVERWRITE (R377). -/
def execRearm (t : Instant) (s : State) : Out :=
  let s := s.advanceTo t
  let slot := s.acq.nextIndex % max s.acq.nslots 1
  let used := s.acq.records.any fun r => decide (r.slot = slot)
  if s.acq.state = .rearm ∧ (used = false ∨ s.active.weir.overwrite = true) then
    let f := s.stampWeir.time
    .next ((s.overwrite ((s.acq.records.filter fun r => decide (r.slot = slot)).map Record.index)).modAcq fun a => { a with
      state := .armed, records := a.records.filter fun r => decide (r.slot ≠ slot)
      slotFrom := f, slotAt := s.now, dead := min ((f - a.lastPost) / 65536) 0xFFFFFFFF })
  else .next s

/-- A record's slot is freed: of one being drained, the next record is drained from its start (R387, R393). -/
def State.freeRecord (s : State) (index : Nat) : State :=
  s.modAcq fun a => { a with
    records := a.records.filter fun x => decide (x.index ≠ index)
    spw := if a.records.head?.map Record.index = some index then { a.spw with offset := 0 } else a.spw }

/-- RECORD_READ (R387). -/
def cmdRecordRead (_q : QId) (e : QEntry) (s : State) : Res :=
  let index := bits (e.w 0) 0 16
  let n := e.w 2
  checked e (· == 12) (rsvHigh (e.w 0) 17 && decide (1 ≤ n ∧ n ≤ 1008)) fun _ =>
    match s.acq.records.find? fun r => decide (r.index = index) with
    | none => .fail .precondition []
    | some r =>
      let img := r.image
      if img.length ≤ e.w 1 then .fail .badParam []
      else
        let part := (img.drop (e.w 1)).take n
        let s1 := if bit (e.w 0) 16 then s.freeRecord index else s
        .ok (wordsLe [index, e.w 1] ++ part ++ List.replicate (n - part.length) 0) s1

/-- Row RECORD_READ. -/
def execRecordRead (t : Instant) (q : QId) (s : State) : Out := .next (runCmd t q 0x6033 false cmdRecordRead s)

/-- STATE codes (Table 10.12). -/
def AcqState.code : AcqState → Nat
  | .disarmed => 0 | .armed => 1 | .post => 2 | .rearm => 3

/-- ACQ_STATUS (R385). -/
def cmdAcqStatus (_q : QId) (e : QEntry) (s : State) : Res :=
  checked e (· == 0) true fun _ =>
    let a := s.acq
    .ok (wordsLe ([pack [(a.state.code, 2), (0, 6), (a.lastDisarm, 8), (a.nslots, 9), (a.saturated, 4)],
        pack [(a.nextIndex, 16), (a.records.length, 16)], (a.records.head?.map Record.index).getD 0, a.missedTotal] ++
        (a.units.toList.map TrigUnit.firings) ++ [a.eccCorrected, a.eccUncorrectable]) ++ a.armStamp.bytes) s

/-- Row ACQ_STATUS. -/
def execAcqStatus (t : Instant) (q : QId) (s : State) : Out := .next (runCmd t q 0x6000 true cmdAcqStatus s)

/-! ### ARM (R381) -/

/-- The first entry of a list that fails a test, as a FAIL_ITEM. -/
def firstItem {n : Nat} (xs : List (Fin n)) (bad : Fin n → Bool) : Option Nat := (xs.find? bad).map Fin.val

/-- Why ARM is refused on ownership: REASON 0x20 and the item (R381, check 1). -/
def State.armBusy (s : State) (k : Bank) : Option Nat :=
  let cs := (List.finRange 8).filter fun c => decide (k.channel[c].decim < 4)
  let taken := firstItem cs fun c => match idx? 4 k.channel[c].decim with | some d => !s.mayOwn (decimRes d) .capture | none => false
  let twice := firstItem cs fun c => cs.any fun c' => decide (c'.val < c.val ∧ k.channel[c'].decim = k.channel[c].decim)
  let burst := if (recordChans k).any (fun c => k.channel[c].burst) ∧ s.mayOwn 16 .capture = false then firstItem (recordChans k) (fun c => k.channel[c].burst) else none
  let evt := firstItem (maskIdx 8 k.weir.evtMask) fun n => !s.mayOwn (evtRes n) .trigger
  taken <|> twice <|> burst <|> evt

/-- Why ARM is refused on state or consistency: REASON and FAIL_ITEM (Table 10.11). -/
def State.armFault (s : State) (k : Bank) : Option (Nat × Nat) :=
  let cs := (List.finRange 8).filter fun c => decide (k.channel[c].source ≠ 0)
  let on := (List.finRange 4).filter fun n => decide (k.weir.units[n].cond ≠ 0)
  let item := fun (reason : Nat) (x : Option Nat) => x.map fun i => (reason, i)
  if s.isArmed then some (0x10, 0xFF)
  else if s.acq.spw.state = .drain ∨ (s.acq.spw.state ≠ .off ∧ s.acq.spw.toDrain = true) then some (0x11, 0xFF)
  else
    item 0x12 (firstItem cs fun c => k.channel[c].stream && decide (s.acq.spw.state ≠ .stream)) <|>
    item 0x13 (firstItem cs fun c => let p := k.channel[c]; (decide (p.decim ≠ 0xF) && !(decimable p.source && decide (s.sourceRate p.source ≤ 256000000000))) || (p.minmax && !reducible p.source)) <|>
    item 0x14 (firstItem (List.finRange 8) fun c => match idx? 4 k.channel[c].decim with
      | some d => !k.pinned (.decim d) 0x6811 128 && decide (k.decim[d].source ≠ k.channel[c].source)
      | none => false) <|>
    (if s.slotCount k = 0 then some (0x15, 0xFF) else none) <|>
    (if cs = [] ∧ on = [] then some (0x16, 0xFF) else none) <|>
    item 0x17 (firstItem on fun n => match idx? 8 (k.weir.units[n].src - 0x80) with
      | some c => decide (0x80 ≤ k.weir.units[n].src ∧ k.channel[c].source = 0)
      | none => false) <|>
    (if 2 ≤ s.sys.shedStage then some (0x18, 0xFF) else none)

/-- The ARM reply (Table 10.11). -/
def State.armReply (s : State) (k : Bank) (reason item : Nat) (stamp : Stamp) : List Byte :=
  let l := s.loads k
  wordsLe [pack [(reason, 8), (item, 8), (s.slotCount k, 9)], ceilDiv l.1 1000, ceilDiv l.2.1 1000, ceilDiv l.2.2 1000] ++ stamp.bytes

/-- The blocks ARM commits: classes 0x08 to 0x0B, every instance (R381). -/
def armBlocks : List Block := [.weir] ++ (List.finRange 8).map .channel ++ (List.finRange 4).map .decim ++ [.cistern]

/-- What a source did before an instant is no longer needed; its stage is the one given. -/
def Carriage.trim (c : Carriage) (stage : Stage) (a : Instant) : Carriage :=
  let late := fun (xs : List (Instant × Instant)) => xs.filter fun x => decide (a < x.2)
  { stage, changes := c.changes.filter (a < ·), silent := late c.silent, eqSilent := late c.eqSilent, unstamped := late c.unstamped }

/-- At ARM the carriage keeps what concerns the arming before, whose last units may still leave (R393). -/
def State.trimCarriage (s : State) : State :=
  { s with carriage := vmap s.carriage fun i c =>
      c.trim (match idx? 8 i.val with | some n => s.lanes[n].acq.stage | none => c.stage) s.acq.run.start }

/-- An admitted ARM: the sets commit, records go, slots and resources are taken, and every channel and unit starts. -/
def State.armNow (s : State) : State :=
  let k := s.shadow
  let st := s.stampWeir
  let s1 := s.forEach armBlocks fun b s => s.commitShadow b st
  let s2 := s1.forEach (List.finRange 8) fun c s =>
    match idx? 4 k.channel[c].decim with
    | some d => s.claim (decimRes d) .capture c.val
    | none => s
  let s3 := if (recordChans k).any (fun c => k.channel[c].burst) then s2.claim 16 .capture 0xFFFF else s2
  let s4 := s3.forEach (maskIdx 8 k.weir.evtMask) fun n s => s.claim (evtRes n) .trigger 0xFFFF
  let s5 := s4.trimCarriage
  s5.modAcq fun a => { a with
    state := .armed, nslots := s.slotCount k, saturated := 0, nextIndex := 0, taken := 0, records := [], missedTotal := 0
    units := Vector.replicate 4 {}, firings := [], cur := none, slotFrom := st.time, lastPost := 0, dead := 0, missed := 0
    eccCorrected := 0, eccUncorrectable := 0, armStamp := st, disarming := none, slotAt := s.now, run := { start := s.now }, lastRun := a.run
    gauge := vmap a.gauge fun _ xs => xs.filter fun x => decide (a.run.start ≤ x.inst) }

/-- ARM. -/
def cmdArm (_q : QId) (e : QEntry) (s : State) : Res :=
  checked e (· == 0) true fun _ =>
    let k := s.shadow
    let l := s.loads k
    match s.armBusy k with
    | some i => .fail .resourceBusy (s.armReply k 0x20 i ⟨0, false⟩)
    | none =>
      match s.armFault k with
      | some x => .fail .precondition (s.armReply k x.1 x.2 ⟨0, false⟩)
      | none =>
        if 256000000000 < l.1 then .fail .bandwidth (s.armReply k 0x01 0xFF ⟨0, false⟩)
        else if 64000000000 < l.2.1 then .fail .bandwidth (s.armReply k 0x02 0xFF ⟨0, false⟩)
        else if 25000000000 < l.2.2 then .fail .bandwidth (s.armReply k 0x03 0xFF ⟨0, false⟩)
        else
          let s1 := (s.endTests [0x30, 0x31] 2).armNow
          .ok (s.armReply k 0 0xFF s1.acq.armStamp) s1

/-- Row ARM. -/
def execArm (t : Instant) (q : QId) (s : State) : Out := .next (runCmd t q 0x6030 false cmdArm s)

end Sys2Proof.Machine
end

