-- ==== Sys2Proof/Machine/SetRead.lean ====
section
/-! DEFINITION. Reading, reloading and releasing the sets of a block, and releasing owned resources. -/
namespace Sys2Proof.Machine

/-! ### The image of a set (R103) -/

/-- One record of an image: its header word and the command's payload. -/
def imageRecord (op : Nat) (payload : List Byte) : List Byte :=
  wordsLe [pack [(op, 16), (4 + payload.length, 16)]] ++ payload

/-- The records of class 0x01. -/
def lineTxImage (p : LineTxP) (n : Fin 8) : List Byte :=
  let m := 2 ^ n.val
  imageRecord 0x2000 (wordsLe [pack [(m, 8), (flag p.s200, 1)]]) ++
    imageRecord 0x2001 (wordsLe [pack [(m, 8), (0, 8), (flag p.txEn * m, 8)]]) ++
    imageRecord 0x2820 (wordsLe [pack [(m, 8), (0, 10), (p.fsCode, 10)]]) ++
    imageRecord 0x2821 (wordsLe [m] ++ tapsReply p.taps) ++
    imageRecord 0x2822 (wordsLe [m] ++ p.pd.toList.map fun x => BitVec.ofNat 8 (ofSigned 8 x)) ++
    imageRecord 0x2823 (wordsLe [pack [(m, 8), (0, 8), (ofSigned 14 p.skew, 14)]]) ++
    imageRecord 0x2024 (wordsLe [pack [(m, 8), (flag p.clkLoop, 1), (p.clkLane.val, 3)]]) ++
    imageRecord 0x2851 (wordsLe [pack [(m, 8), (0, 3), (p.injKind, 3), (flag p.injPoint, 1)], p.injRate, pack [(p.injBurst, 11), (0, 5), (p.injInterval, 16)], p.injMarkers]) ++
    imageRecord 0x2060 (wordsLe [pack [(n.val, 3), (0, 5), (p.loop, 2)]])

/-- The records of class 0x02. -/
def lineRxImage (p : LineRxP) (n : Fin 8) : List Byte :=
  let m := 2 ^ n.val
  imageRecord 0x2000 (wordsLe [pack [(m, 8), (flag p.s200, 1)]]) ++
    imageRecord 0x2001 (wordsLe [pack [(m, 8), (flag p.rxEn * m, 8)]]) ++
    imageRecord 0x2810 (p.eqWords m) ++
    imageRecord 0x2811 (wordsLe [pack [(m, 8), (0, 8), (p.gainCode, 7)]]) ++
    imageRecord 0x2812 (wordsLe [pack [(m, 8), (0, 8), (p.kpShift, 4), (0, 1), (p.kiShift, 5)], ofSigned 7 p.phase]) ++
    imageRecord 0x2813 (wordsLe [pack [(m, 8), (0, 8), (p.depth, 3), (0, 5), (p.llrScale, 8)]]) ++
    imageRecord 0x2014 (wordsLe [pack [(m, 8), (0, 8), (p.failThreshold, 16)], pack [(p.optChannel, 8), (0, 8), (p.optScale, 16)],
      pack [(p.losAssert, 16), (p.losDeassert, 16)], p.darkLevel]) ++
    imageRecord 0x2060 (wordsLe [pack [(n.val, 3), (0, 5), (p.loop, 2)]]) ++
    imageRecord 0x4831 (wordsLe [pack [(n.val, 3), (0, 5), (3, 2)], ofSigned 32 p.txInt, ofSigned 32 p.rxInt, p.txMod, p.rxMod]) ++
    imageRecord 0x4832 (wordsLe [n.val, ofSigned 32 p.asym])

/-- The records of class 0x03. -/
def portImage (p : PortP) (n : Fin 8) : List Byte :=
  imageRecord 0x1050 (wordsLe [p.grouping]) ++
    imageRecord 0x3040 (wordsLe [pack [(n.val, 3), (0, 5), (flag p.squelchMode, 1), (0, 7), (p.clearHold, 16)]]) ++
    imageRecord 0x4040 (wordsLe [pack [(n.val, 3), (flag p.ptp.toLine, 1), (flag p.ptp.toHost, 1), (flag p.ptp.eth, 1), (flag p.ptp.udp4, 1), (flag p.ptp.udp6, 1),
      (flag p.ptp.vlan, 1)], ofSigned 32 p.ptp.hostToPin, ofSigned 32 p.ptp.pinToHost])

/-- The records of class 0x04. -/
def hostImage (p : HostP) (h : Fin 16) : List Byte :=
  imageRecord 0x3000 (wordsLe [pack [(2 ^ h.val, 16), (p.target, 2), (flag p.relay, 1), (flag p.enable, 1)]]) ++
    imageRecord 0x3810 (wordsLe [2 ^ h.val] ++ hostEqWords p.taps p.ctlePeak p.ctleDc p.dfe 0xF p.rxFfe) ++
    imageRecord 0x3020 (wordsLe [pack [(h.val, 4), (0, 4), (p.loop, 2)]]) ++
    imageRecord 0x3030 (wordsLe [flag p.hostref]) ++
    imageRecord 0x4832 (wordsLe [pack [(h.val, 4), (1, 1)], ofSigned 32 p.asym])

/-- The records of class 0x05. -/
def servoImage (p : ServoP) : List Byte :=
  imageRecord 0x4010 (wordsLe [pack [(p.source.code, 2), (0, 6), (p.laneMask, 8), (p.relayPort.val, 3), (flag p.relay, 1)]]) ++
    imageRecord 0x4811 (wordsLe [pack [(0, 8), (p.k, 5), (0, 3), (0xF, 4)], p.kp, p.ki, p.stepThreshold, p.lockWindow] ++ leBytes 8 (ofSigned 64 p.rateWord)) ++
    imageRecord 0x4020 (wordsLe [pack [(flag p.timeref, 1), (flag p.timeref100, 1)]]) ++
    imageRecord 0x4023 (wordsLe [pack [(flag p.ppsIn, 1), (flag p.ppsFalling, 1)], ofSigned 32 p.cableDelay])

/-- The records of class 0x06. -/
def ppsImage (p : PpsP) : List Byte :=
  imageRecord 0x4021 (wordsLe [pack [(flag p.enable, 1), (flag p.falling, 1), (p.gate, 2), (0, 4), (p.evtMask, 8)], p.width] ++ leBytes 8 (ofSigned 64 p.offset)) ++
    imageRecord 0x4022 (wordsLe [pack [(flag p.refEnable, 1), (flag p.ref100, 1)]])

/-- The records of class 0x07. -/
def rillImage (p : RillP) : List Byte :=
  imageRecord 0x5000 (wordsLe [pack [(p.role.code, 2), (flag p.timeFollow, 1), (flag p.forwardEvents, 1)]]) ++
    imageRecord 0x5850 (wordsLe [pack [(flag p.enable, 1), (0, 7), (p.prefLanes, 8), (p.maxRetries, 3)], p.ackAllow])

/-- The record of one trigger unit. -/
def trigImage (p : TrigP) (n : Fin 4) : List Byte :=
  imageRecord 0x6820 (wordsLe [pack [(n.val, 2), (0, 6), (p.src, 8), (p.cond, 3), (flag p.neg, 1), (p.mode, 2), (flag p.interp, 1)],
    pack [(ofSigned 16 p.tl, 16), (ofSigned 16 p.th, 16)], pack [(p.hyst, 16), (p.gaugeCh, 8)]] ++ leBytes 8 p.t1 ++ leBytes 8 p.t2)

/-- The records of class 0x08: one for each trigger unit, then the combination. -/
def weirImage (p : WeirP) : List Byte :=
  ((List.finRange 4).flatMap fun n => trigImage p.units[n] n) ++
    imageRecord 0x6021 (wordsLe [pack [(flag p.and', 1), (0, 3), (p.unitMask, 4), (p.evtMask, 8), (flag p.overwrite, 1)], p.window, p.recordLimit])

/-- The records of class 0x09. -/
def channelImage (p : ChannelP) (c : Fin 8) : List Byte :=
  imageRecord 0x6010 (wordsLe [pack [(c.val, 3), (0, 5), (p.source, 8), (p.decim, 4), (flag p.stream, 1), (0, 3), (p.gaugeCh, 8)]]) ++
    imageRecord 0x6013 (wordsLe [pack [(c.val, 3), (0, 5), (flag p.minmax, 1)], p.interval]) ++
    imageRecord 0x6022 (wordsLe [pack [(c.val, 3), (0, 5), (flag p.burst, 1)], p.pre, p.post])

/-- A calibration: the five sets and the correction in force (R103, R425). -/
def CalSets.image (c : CalSets) : List Byte :=
  wordsLe ((c.sets.toList ++ [c.corr]).flatMap fun (xs : Vector (Int × Int) 4) => xs.toList.map calWord)

/-- The records of class 0x0D. -/
def gaugeImage (p : GaugeP) (g : Fin 4) (c : CalSets) : List Byte :=
  imageRecord 0x7800 (wordsLe (pack [(g.val, 2), (0, 6), (p.count, 5)] :: (p.entries.toList.map GaugeEntry.word))) ++
    imageRecord 0x7002 (wordsLe [pack [(g.val, 2), (flag p.run, 1), (0, 5), (p.trig, 8), (p.delay, 16)]]) ++ c.image

/-- The records of class 0x0E. -/
def jetsImage (p : JetsP) (j : Fin 24) (c : CalSets) : List Byte :=
  imageRecord 0x7010 (wordsLe [pack [(j.val, 5), (0, 3), (p.range, 2), (flag p.ref, 1), (0, 1), (p.parkLevel, 2)]]) ++
    imageRecord 0x7012 (wordsLe [2 ^ j.val, flag p.enable * 2 ^ j.val, pack [(p.timer.val, 2), (0, 14), (p.div, 10)]]) ++ c.image

/-- The record of class 0x0F. -/
def pwmImage (p : PwmP) (n : Fin 8) : List Byte :=
  imageRecord 0x7820 (wordsLe [pack [(n.val, 3), (0, 5), (flag p.enable, 1), (flag p.invert, 1), (flag p.bEnable, 1), (0, 5), (p.evtMask, 8)], 0, 0,
    pack [(p.period, 16), (p.psrc, 3)], pack [(p.rise, 16), (p.fall, 16)], p.dead])

/-- Words W1 to W5 of SHED_CONFIG (Table 13.4). -/
def SluiceP.words (p : SluiceP) : List Nat :=
  [pack [(p.shed[0], 16), (p.shed[1], 16)], pack [(p.shed[2], 16), (p.shed[3], 16)], pack [(p.shed[4], 16), (p.shed[5], 16)],
   pack [(p.hyst[0], 8), (p.hyst[1], 8), (p.hyst[2], 8), (p.hyst[3], 8)], pack [(p.hyst[4], 8), (p.hyst[5], 8)]]

/-- The image of the set of a block in a bank: one record for each command that writes its class, in ascending order of
basic opcode (R103). -/
def State.image (s : State) (k : Bank) : Block → List Byte
  | .lineTx n => lineTxImage k.lineTx[n] n
  | .lineRx n => lineRxImage k.lineRx[n] n
  | .port n => portImage k.port[n] n
  | .host n => hostImage k.host[n] n
  | .servo => servoImage k.servo
  | .ppsOut => ppsImage k.pps
  | .rill => rillImage k.rill
  | .weir => weirImage k.weir
  | .channel c => channelImage k.channel[c] c
  | .decim d => imageRecord 0x6811 (wordsLe [pack [(d.val, 2), (0, 14), (k.decim[d].stages, 4)], 0, k.decim[d].step])
  | .cistern => []
  | .spillway => imageRecord 0x6040 (wordsLe [k.spillway.base, pack [(k.spillway.size, 30), (flag k.spillway.noWrap, 1)]])
  | .gauge g => gaugeImage k.gauge[g] g s.hk.gauge[g].cal
  | .jets j => jetsImage k.jets[j] j s.hk.jets[j].cal
  | .pwm n => pwmImage k.pwm[n] n
  | .timer n => imageRecord 0x7021 (wordsLe [pack [(n.val, 2), (flag k.timer[n].enable, 1), (flag k.timer[n].align, 1)], k.timer[n].period])
  | .sluice => imageRecord 0x9810 (wordsLe (0 :: k.sluice.words))

/-- The active sets as they are applied: values beyond a bound set since read back clamped (R107). -/
def State.activeClamped (s : State) : Bank :=
  { s.active with
    lineTx := vmap s.active.lineTx fun n p => { p with fsCode := s.fsInForce n }
    servo := { s.active.servo with stepThreshold := min s.active.servo.stepThreshold s.limits.maxStep }
    pwm := vmap s.active.pwm fun n p => { p with fall := p.clampFall (p.periodIn s.active.timer) s.limits.pwmMax[n] } }

/-- Pinned parameters of a block in a bank, and in the tables and coefficient banks outside the sets (R50, R365, R428). -/
def State.pinCount (s : State) (k : Bank) (b : Block) : Nat :=
  (k.pins.filter fun p => decide (p.1 = b)).length +
    match b with
    | .gauge g => s.hk.gauge[g].cal.pinCount
    | .jets j => s.hk.jets[j].cal.pinCount
    | .decim d => flag s.acq.banks[d].pinned
    | _ => 0

/-- SET_READ (R103). -/
def cmdSetRead (_q : QId) (e : QEntry) (s : State) : Res :=
  let id := bits (e.w 0) 0 16
  let which := bits (e.w 0) 16 2
  let off := e.w 1
  match s.blocksAt e.cmd.payload 0 1 with
  | some [b] =>
    let k := if which = 0 then s.shadow else if which = 1 then s.activeClamped else s.previous
    let img := s.image k b
    let m := s.meta b
    let stamp := if which = 0 then ⟨0, false⟩ else if which = 1 then m.activeStamp else m.previousStamp
    checked e (· == 8) (decide (which ≠ 3 ∧ bits id 0 8 ≠ 0xFF ∧ off % 4 = 0 ∧ off < img.length) && rsvHigh (e.w 0) 18) fun _ =>
      .ok (wordsLe [pack [(id, 16), (which, 2), (flag (decide (which ≠ 2) || m.previousValid), 1)], pack [(s.pinCount k b, 16), (m.pinnedSkips, 16)], img.length, off] ++
        stamp.bytes ++ (img.drop off).take 976) s
  | _ => if e.len = 8 then .fail .badParam [] else .fail .badLength []

/-- Row SET_READ. -/
def execSetRead (t : Instant) (q : QId) (s : State) : Out := .next (runCmd t q 0x1013 true cmdSetRead s)

/-- The shadow set of a block is reloaded from its active set (R104, R439). -/
def State.reloadShadow (s : State) (b : Block) : State := s.modShadow (Bank.copy b s.active)

/-- SHADOW_RESET (R104). -/
def cmdShadowReset (_q : QId) (e : QEntry) (s : State) : Res :=
  match s.blocksAt e.cmd.payload 0 1 with
  | none => if e.len = 4 then .fail .badParam [] else .fail .badLength []
  | some bs => checked e (· == 4) (rsvHigh (e.w 0) 16) fun _ => .ok [] (s.forEach bs fun b s => s.reloadShadow b)

/-- Row SHADOW_RESET. -/
def execShadowReset (t : Instant) (q : QId) (s : State) : Out := .next (runCmd t q 0x1014 false cmdShadowReset s)

/-! ### EXPERT_RELEASE (R51, R105) -/

/-- The expert forms that write a block's class. -/
def expertOps : Block → List Nat
  | .lineTx _ => [0x2820, 0x2821, 0x2822, 0x2823, 0x2851]
  | .lineRx _ => [0x2810, 0x2811, 0x2812, 0x2813, 0x4831, 0x4832]
  | .host _ => [0x3810, 0x4832]
  | .servo => [0x4811]
  | .rill => [0x5850]
  | .weir => [0x6820]
  | .decim _ => [0x6811, 0x6812]
  | .gauge _ => [0x7800, 0x7830]
  | .jets _ => [0x7830]
  | .pwm _ => [0x7820]
  | .sluice => [0x9810]
  | .port _ | .ppsOut | .channel _ | .cistern | .spillway | .timer _ => []

/-- What a release selects: everything, or of one expert opcode the elements of a mask and the parameters outside the
indexed field. -/
structure Selection where
  all : Bool
  op : Nat
  scalars : Bool
  mask : Nat
  deriving DecidableEq, Repr

/-- A pin is selected. -/
def Selection.has (x : Selection) (op el : Nat) : Bool :=
  x.all || (decide (op = x.op) && (if 128 ≤ el then x.scalars else bit x.mask el))

/-- The pinned sets of a calibration that a release selects: their numbers. -/
def CalSets.selected (c : CalSets) (x : Selection) : List Nat :=
  ((List.finRange 5).filter fun k => c.pins[k] && x.has 0x7830 k.val).map Fin.val

/-- Pins of a block's tables, which no set holds, that a release selects: its calibration sets, and its coefficient bank. -/
def State.tablePins (s : State) (x : Selection) : Block → List (Block × Nat × Nat)
  | .gauge g => (s.hk.gauge[g].cal.selected x).map fun k => (.gauge g, 0x7830, k)
  | .jets j => (s.hk.jets[j].cal.selected x).map fun k => (.jets j, 0x7830, k)
  | .decim d => if s.acq.banks[d].pinned && x.has 0x6812 0 then [(.decim d, 0x6812, 0)] else []
  | _ => []

/-- A release of one block: its shadow pins clear, with those of the snapshots already taken; the pins of its active set and
of its tables clear at its next boundary (R51).  The count says how many parameters. -/
def State.releaseBlock (s : State) (x : Selection) (b : Block) : State × Nat :=
  let hit := fun (p : Block × Nat × Nat) => decide (p.1 = b) && x.has p.2.1 p.2.2
  let clear := fun (k : Bank) => { k with pins := k.pins.filter fun p => !hit p }
  let tables := s.tablePins x b
  ({ s.modShadow clear with
      commits := s.commits.map fun c => { c with snap := clear c.snap }
      releases := s.releases ++ ((s.active.pins.filter hit) ++ tables).filter fun p => !s.releases.contains p },
    (s.shadow.pins.filter hit).length + (tables.filter fun p => !s.releases.contains p).length)

/-- EXPERT_RELEASE. -/
def cmdExpertRelease (_q : QId) (e : QEntry) (s : State) : Res :=
  let x : Selection := { all := bit (e.w 0) 16, op := bits (e.w 1) 0 16, scalars := bit (e.w 0) 17, mask := fieldAt e.cmd.payload 8 16 }
  match s.blocksAt e.cmd.payload 0 1 with
  | none => if e.len = 24 then .fail .badParam [] else .fail .badLength []
  | some bs => checked e (· == 24) (rsvHigh (e.w 0) 18 && rsvHigh (e.w 1) 16 && (x.all || bs.all fun b => (expertOps b).contains x.op)) fun _ =>
      let r := bs.foldl (fun (a : State × Nat) b => let y := a.1.releaseBlock x b; (y.1, a.2 + y.2)) (s, 0)
      .ok (wordsLe [pack [(min r.2 65535, 16)]]) r.1

/-- Row EXPERT_RELEASE. -/
def execExpertRelease (t : Instant) (q : QId) (s : State) : Out := .next (runCmd t q 0x1022 false cmdExpertRelease s)

/-! ### EVT pins (R284, R371, R423) -/

/-- The level that a function drives on an EVT pin; none on a pin that it does not own: trigger pulses, the copy of PPS_OUT, or output A of the
lowest PWM unit that names the pin. -/
def State.evtLevel (s : State) (e : Fin 8) : Option Bool :=
  match s.owners[evtRes e].fn with
  | .trigger => some (s.pulseLevel e)
  | .auxPps => some (s.ppsCopy e)
  | .pwm => (idx? 8 (s.active.evtDetail e .pwm)).map fun n => (s.pwmPins n).1
  | _ => none

/-! ### OWNER_RELEASE (R108) -/

/-- A resource is in use by its owning function: by an active set, an armed configuration, or a running loop or
calibration. -/
def State.resourceUsed (s : State) (r : Fin 41) : Bool :=
  let fn := s.owners[r].fn
  match fn with
  | .none | .gpio => false
  | .trigger | .capture => s.isArmed
  | .auxPps | .pwm => (List.finRange 8).any fun e => decide (evtRes e = r) && s.active.usesEvt e fn
  | .gaugeSeq | .jetsClock | .pwmBase => (List.finRange 4).any fun t => decide (timerRes t = r) && s.active.usesTimer t fn
  | .loopTest => (List.finRange 8).any (fun n => decide (lineLoopRes n = r) && s.lineLooped n) || (List.finRange 16).any fun h => decide (hostLoopRes h = r) && s.hostLooped h
  | .stampCal => (List.finRange 8).any fun n => decide (lineLoopRes n = r) && s.lanes[n].time.xfer.isSome

/-- OWNER_RELEASE. -/
def cmdOwnerRelease (_q : QId) (e : QEntry) (s : State) : Res :=
  match resourceIndex (bits (e.w 0) 0 8) with
  | none => if e.len = 4 then .fail .badParam [] else .fail .badLength []
  | some r => checked e (· == 4) (rsvHigh (e.w 0) 8) fun _ =>
      if s.resourceUsed r then .fail .precondition [] else .ok [] { s with owners := s.owners.set r {} }

/-- Row OWNER_RELEASE. -/
def execOwnerRelease (t : Instant) (q : QId) (s : State) : Out := .next (runCmd t q 0x1041 false cmdOwnerRelease s)

end Sys2Proof.Machine
end

