-- ==== Sys2Proof/Machine/Faults.lean ====
section
/-! DEFINITION. Faults: residue mismatches, uncorrectable words, and the control-path faults, which discard what has not
settled and close with their recovery. -/
namespace Sys2Proof.Machine

/-! ### What a control-path fault discards (R440 to R444) -/

/-- A commit's time was reached at or before the island cycle of now (R44, R45). -/
def State.tcReached (s : State) (c : Commit) : Bool := decide (cmdCycle c.tc ≤ cmdCycle s.fnow)

/-- A running command has passed its settling point: an APPLY whose Tc was reached (Table 12.3).  Every other command replies
as it settles. -/
def State.hasSettled (s : State) (e : QEntry) : Bool :=
  s.commits.any fun c => decide (c.seq = e.seq ∧ c.kind = .apply) && s.tcReached c

/-- A housekeeping calibration stops with its old values (R442). -/
def State.dropHkCal (s : State) (seq : Nat) : State :=
  let mine := fun (k : Option HkCal) => match k with | some x => decide (x.seq = seq) | none => false
  let s1 := s.modHk fun h => { h with jets := vmap h.jets fun _ c => if mine c.calRun then { c with calRun := none } else c }
  s1.forEach (List.finRange 4) fun g s =>
    if mine s.hk.gauge[g].calRun then
      let idle := s.hk.gauge[g].cur.isNone
      let s2 := s.modConv g fun c => { c with calRun := none, freeAt := s.now, idleAt := s.now }
      if idle then s2.converterNext g s.now else s2
    else s

/-- An on-demand self-test stops at the end of its slice, and the takeover it waits for is abandoned (R442, R453). -/
def Bist.dropCommand (b : Bist) (seq : Nat) : Bist :=
  { b with
    runs := b.runs.map fun r =>
      let mine := match r.cmd with | some (x, _) => decide (x = seq) | none => false
      { r with cmd := if mine then none else r.cmd, stop := if mine then 6 else r.stop, aborts := r.aborts.filter fun a => decide (a ≠ seq) }
    takeover := b.takeover.filter fun k => match k.kind with | .onDemand x _ => decide (x ≠ seq) | _ => true }

/-- Lanes on their way to a commanded power state turn back (R442). -/
def State.undoPower (s : State) (w : Nat) : State :=
  s.forEach (powerLanes w) fun r s =>
    let (p, tg, _) := s.powerOf r
    if p = tg then s
    else if p = .l2 then (s.commandPower r p).sendPower p r
    else (s.commandPower r p).setPower r tg p

/-- Acquisition goes on where a DISARM that waited is discarded, and the record port where a start or stop is; the firing of a
FORCE_TRIGGER goes with it (R442, R446). -/
def State.dropAcqCommand (s : State) (seq : Nat) : State :=
  s.modAcq fun a =>
    let w := a.spw
    let stops := w.stopCmds.filter fun c => decide (c ≠ seq)
    { a with
      firings := a.firings.filter fun f => decide (f.forced ≠ some seq)
      disarming := match a.disarming with
        | some (cause, cmds) => if cause = 1 ∧ cmds.all (fun c => decide (c = seq)) then none else some (cause, cmds.filter fun c => decide (c ≠ seq))
        | none => none
      spw := { w with
        stopCmds := stops
        state := if w.state = .starting ∧ w.startCmd = seq then .off
          else if w.state = .stopping ∧ w.stopCmds ≠ [] ∧ stops = [] then (if w.toDrain then .drain else .stream) else w.state } }

/-- The procedures at the manager that a command waits for stop; epoch records stay (R354, R442). -/
def Rill.dropCommand (r : Rill) (seq : Nat) : Rill :=
  { r with
    discovery := r.discovery.filter fun d => decide (d.seq ≠ seq)
    waits := r.waits.filter fun w => decide (w.seq ≠ seq)
    epochs := r.epochs.map fun x => { x with cmds := x.cmds.filter fun c => decide (c.1 ≠ seq) }
    fw := r.fw.filter fun f => decide (f.seq ≠ seq) }

/-- Every lane is sent to the power state commanded for it, but those that shedding holds off (R472, R475, R478). -/
def State.lanesBack (s : State) : State :=
  s.forEach ((List.finRange 8).map LaneRef.line ++ (List.finRange 16).map LaneRef.relay) fun r s =>
    if s.isShed r then s else s.sendPower (s.powerCmd r) r

/-- A procedure that a discarded command started stops at its next safe point and keeps its old values (R442). -/
def State.abandonRun (s : State) (e : QEntry) : State :=
  let lane : Option (Fin 8) := idx? 8 (bits (e.w 0) 0 3)
  let s1 := match e.cmd.op, lane with
    | 0x2030, some n => if s.lanes[n].acq.state = LaneState.calibrating then s.leaveCalibrating n else s
    | 0x4031, some n => if s.lanes[n].time.xfer.isSome then s.endXfer n else s
    | 0x9002, _ => s.undoPower (e.w 0)
    | _, _ => s
  let s2 := ((s1.dropHkCal e.seq).dropAcqCommand e.seq).modBist fun b => b.dropCommand e.seq
  let s3 := (s2.modRill fun r => r.dropCommand e.seq).modTb fun b =>
    { b with pending := { b.pending with hosts := b.pending.hosts.filter fun h => decide (h.1 ≠ e.seq) } }
  let s4 : State := { s3 with
    commits := s3.commits.filter fun (c : Commit) => decide (c.seq ≠ e.seq ∨ c.kind = .epoch ∨ c.kind = .revert)
    scans := s3.scans.filter fun x => decide (x.seq ≠ e.seq) }
  match s4.sys.pow.entry with
  | some p => if p.seq = e.seq then (s4.modPow fun x => { x with entry := none }).lanesBack else s4
  | none => s4

/-- A worker's epoch whose time has not been reached gives up its staging; its answer follows at recovery (R44, R351). -/
def State.dropEpochs (s : State) : State :=
  let gone := s.commits.filter fun c => decide (c.kind = .epoch) && !s.tcReached c
  let hit := fun (w : WorkerEpoch) => match w.commit with | some i => gone.any fun c => decide (c.id = i) | none => false
  { s with commits := s.commits.filter fun c => !gone.any fun g => decide (g.id = c.id) }.modRill fun r =>
    { r with workerEpochs := r.workerEpochs.map fun w => if hit w then { w with outcome := 0xB } else w }

/-- Pending COMMITs whose time has not been reached are cancelled (R44). -/
def State.cancelCommits (s : State) : State :=
  { s with commits := s.commits.map fun c => if c.kind = .commit ∧ c.settled = true ∧ s.tcReached c = false then { c with cancelled := true } else c }

/-- The commands a fault discards, and the COMMITs it cancels (R441, R444). -/
def State.discardCount (s : State) : Nat :=
  (s.q.all.countP fun e => decide (e.phase ≠ .replied ∧ s.sys.integ.cut ≤ e.seq) && !s.hasSettled e) +
    s.commits.countP fun c => decide (c.kind = .commit) && c.settled && !c.cancelled && !s.tcReached c

/-- A control-path fault: the fault epoch moves on, acceptance stops, the commands that have not settled are discarded, and
the FAULT event waits for recovery (R440 to R444, R447, R448).  DESIGN CHOICE (log 19): a fault while ENINT is 0, or with no dynamic
address, keeps its IBI 0x02, which is presented once ENEC enables IBIs; those of BOOT_DONE and of the stream that fall due then are not
kept (R64). -/
def State.controlFault (s : State) (cls detail : Nat) : State :=
  let s1 : State := s.modSys fun y => { y with faultEpoch := (y.faultEpoch + 1) % 256, recovering := true }
  let s2 := ((s1.noteFault cls).logFault cls 0xFFFF detail).modInteg fun i => { i with
    faults := i.faults ++ [{ cls, epoch := s1.sys.faultEpoch, detail, discarded := s.discardCount, stamp := s.stampMgmt }]
    cut := s.q.nextSeq, faultAt := s.now }
  let s3 : State := { s2 with bus := { s2.bus with ibiFault := true } }.cancelCommits.dropEpochs
  let running := s3.q.all.filter fun e => decide (e.phase = .running) && !s3.hasSettled e
  let s4 := s3.forEach running fun e s =>
    match s.queueOf e.seq with
    | some (q, x) => if x.phase = .running then (s.abandonRun x).replyTo q x .discarded [] else s
    | none => s
  s4.sweep.settleFaults

/-- The firmware is reloaded: before BOOT_DONE the boot ROM runs again, and afterwards the running slot is loaded with no
run of the boot ROM and no BOOT_DONE; an open reception is closed, its slot invalid (Table 12.1, R445, R488, R496). -/
def State.restartFirmware (s : State) : State :=
  s.modFw fun f => { f with
    romDue := match f.boot with | some (k, _) => some k | none => f.romDue
    boot := none, reception := none, halted := false }

/-- FAULT_RECOVERY_COMPLETE: the command interface accepts commands again, once a boot that a fault cut short runs again; workers' epochs
that a fault discarded are answered, and the FAULT events follow the last DISCARDED reply (R351, R444, R445). -/
def execFaultRecoveryComplete (t : Instant) (s : State) : Out :=
  let s := s.advanceTo t
  if s.sys.recovering = false ∨ s.sys.fw.romDue.isSome then .next s
  else
    let s1 := s.modSys fun y => { y with recovering := false }
    let told := s1.rill.workerEpochs.filter fun w => decide (w.outcome = 0xB) && w.commit.isSome
    let s2 := s1.forEach told fun w s => s.epochCame w.id 2 0xB 0xFFFF ⟨0, false⟩ []
    .next s2.sweep.settleFaults

/-! ### The classes of control-path fault (Table 12.1) -/

/-- WATCHDOG_EXPIRY: the firmware has not serviced the watchdog for 100 ms; it does not run while the processor is halted or
unpowered (R432, R507). -/
def execWatchdogExpiry (t : Instant) (s : State) : Out :=
  let s := s.advanceTo t
  if s.sys.fw.halted ∨ s.sys.pow.held ∨ s.sys.pstate = 2 ∨ s.sys.pstate = 3 then .next s
  else
    let s1 := s.modInteg fun i => { i with watchdogs := satAdd 16 i.watchdogs 1 }
    .next (s1.controlFault 6 0xFFFF).restartFirmware

/-- A clock-loss fault of an island. -/
def State.clockLoss (s : State) (n : Nat) : State :=
  (s.modInteg fun i => { i with clockLosses := satAdd 16 i.clockLosses 1, clockHold := if i.clockHold.contains n then i.clockHold else i.clockHold ++ [n] }).controlFault 7 n

/-- REFCLK is lost: the PLL moves, and it is a clock-loss fault detected by the time base (R264, R444). -/
def State.refclkLoss (s : State) : State := (s.modTb fun b => { b with refclkOk := false, refclkLost := true }).judgeClk.clockLoss 43

/-- REFERENCE_LOST: `timeref` says which; the loss of REFCLK is a clock-loss fault detected by the time base (R264,
R444). -/
def execReferenceLost (t : Instant) (timeref : Bool) (s : State) : Out :=
  let s := s.advanceTo t
  if timeref then .next (s.modTb fun b => { b with timerefOk := false, timerefLost := true }).judgeClk
  else
    .next (if s.tb.refclkLost then s else s.refclkLoss)

/-- REFERENCE_QUALIFIED: 1 s with neither condition of loss; REFCLK qualified again ends its hold on FAULT_N (R264). -/
def execReferenceQualified (t : Instant) (timeref : Bool) (s : State) : Out :=
  let s := s.advanceTo t
  if timeref then .next (s.modTb fun b => { b with timerefOk := true, timerefLost := false }).judgeClk
  else .next ((s.modTb fun b => { b with refclkOk := true, refclkLost := false }).judgeClk.modInteg fun i => { i with clockHold := i.clockHold.filter fun n => decide (n ≠ 43) })

/-- Islands whose absent clock is a fault: the management processor, the command interface and the always-on island
(Table 12.1). -/
def watchedIsland (n : Fin 64) : Bool := decide (n.val = 45 ∨ n.val = 46 ∨ n.val = 47)

/-- CLOCK_LOSS: an island's clock has been absent for 1 µs and it moves to FIRC; 43 stands for REFCLK, as REFERENCE_LOST
has it. -/
def execClockLoss (t : Instant) (n : Fin 64) (s : State) : Out :=
  let s := s.advanceTo t
  if n = 43 then
    .next (if s.tb.refclkLost then s else s.refclkLoss)
  else if watchedIsland n ∧ s.sys.integ.clockHold.contains n.val = false then
    .next (((s.modSys fun y => { y with islands := y.islands.set n false }).unalign n).clockLoss n.val)
  else .next s

/-- CLOCK_RESTORED: an island's clock has been present for 1 µs; the island returns to it and its hold on FAULT_N ends. -/
def execClockRestored (t : Instant) (n : Fin 64) (s : State) : Out :=
  let s := s.advanceTo t
  if watchedIsland n ∧ s.sys.integ.clockHold.contains n.val = true then
    .next (s.modSys fun y => { y with
      islands := y.islands.set n true, integ := { y.integ with clockHold := y.integ.clockHold.filter fun x => decide (x ≠ n.val) } })
  else .next s

/-- SUPPLY_FAULT: rails of Table 13.1, one bit each, found outside their window for 10 µs; DETAIL names the lowest-numbered
Gauge channel among them, and a Jets rail parks every Jets channel (R444, R458). -/
def execSupplyFault (t : Instant) (rails : Nat) (s : State) : Out :=
  let s := s.advanceTo t
  match (maskIdx 8 rails).filter fun r => s.sys.pow.railOk[r] with
  | [] => .next s
  | r :: rs =>
    if s.sys.pow.isOff ∨ s.sys.pow.held ∨ s.sys.pow.powered = false ∨ s.sys.pstate = 2 ∨ s.sys.pstate = 3 then .next s
    else
      let s1 := s.modPow fun p => { p with
        railOk := updAll p.railOk (r :: rs) fun _ _ => false, railAt := updAll p.railAt (r :: rs) fun _ _ => s.now }
      .next (((s1.modInteg fun i => { i with supplyFaults := satAdd 16 i.supplyFaults 1 }).controlFault 8 (0x2A + r.val)).parkJets)

/-- The thermal trip: every line transmitter squelched, every Jets channel parked and every PWM output inactive, until reset
(Table 12.1). -/
def State.thermalTrip (s : State) (sensor : Nat) : State :=
  let s1 := (s.modSys fun y => { y with thermalTrip := true }).modInteg fun i => { i with thermalTrips := satAdd 16 i.thermalTrips 1 }
  let s2 := s1.forEach (List.finRange 8) fun n s => s.setSquelch (.line n) fun q => { q with thermal := true }
  (((s2.parkJets).modHk fun h => { h with pwm := vmap h.pwm fun _ _ => {} })).controlFault 9 (0x32 + sensor)

/-- The thermal monitor runs: the device is powered, out of reset, and in RUN or STANDBY (R409, R462, Table 13.5). -/
def State.monitored (s : State) : Bool := s.sys.pow.powered && !s.sys.pow.held && decide (s.sys.pstate ≠ 2 ∧ s.sys.pstate ≠ 3)

/-- THERMAL_MONITOR_READ: the readings of DT0 to DT11 and DTP, in 0.25 °C; the first at or above 125.0 °C trips (R409). -/
def execThermalMonitorRead (t : Instant) (readings : List Int) (s : State) : Out :=
  let s := s.advanceTo t
  if s.monitored = false then .next s else
  let s1 := (s.modHk fun h => { h with temps := vmap h.temps fun i x => readings.getD i.val x }).refreshGauge
  match (List.finRange 13).find? fun i : Fin 13 => decide (500 ≤ s1.hk.temps[i]) with
  | some i => .next (if s.sys.thermalTrip then s1 else s1.thermalTrip i.val)
  | none => .next s1

/-! ### Residue mismatches (R433 to R436) -/

/-- A class 0x02 mismatch of a lane: recorded, and logged at most once per lane per 1 ms (R432). -/
def State.residueNoted (s : State) (b : Block) : State := (s.noteFault 2).logOnce 2 b.id b.id 0xFFFF

/-- The codeword pair in progress on a slice, or it and the next one, is marked, from the line or from the host, while the slice carries a
flow that way (R210, R211). -/
def State.markPairs (s : State) (n : Fin 8) (toLine two : Bool) : State :=
  let k := if two then 2 else 1
  if toLine then (if s.hostSupplies n then s.modPort n fun p => { p with markLine := max p.markLine k } else s)
  else if s.lanes[n].rx.forwarding then s.modPort n fun p => { p with markHost := max p.markHost k } else s

/-- Blocks of the superframe in progress marked on a line lane: inner codewords, and with them the pairs they touch, or its marker block
(R210, R212). -/
def State.markInner (s : State) (n : Fin 8) (blocks : List Nat) : State :=
  s.modLane (.line n) fun l => { l with rx := { l.rx with marks := l.rx.marks ++ blocks.filter fun b => !l.rx.marks.contains b } }

/-- The blocks that an engine cycle of 256 symbols from a symbol of the superframe covers: 512 bits, or 256 at stage A (R210). -/
def State.cycleBlocks (s : State) (n : Fin 8) (symbol : Nat) : List Nat :=
  if s.lanes[n].acq.stage = .a then Stage.a.blocksTouched symbol 256 else s.lanes[n].acq.stage.blocksTouched (2 * symbol) 512

/-- The fourth receive mismatch of a lane within 1 s marks its engine SUSPECT and calls for a priority takeover (R436). -/
def State.countRecent (s : State) (n : Fin 8) : State :=
  let hits := (s.now :: s.sys.integ.recent[n]).filter fun a => decide (s.now ≤ a + secs 1)
  if hits.length < 4 then s.modInteg fun i => { i with recent := i.recent.set n hits }
  else
    let s1 := s.modInteg fun i => { i with recent := i.recent.set n [] }
    match idx? 9 s.lanes[n].eq.engine with
    | some e => (s1.modBist fun b => { b with suspect := b.suspect.set e true, due := if b.due.contains n then b.due else b.due ++ [n] }).serveDue
    | none => s1

/-- The transmit cycle of 256 symbols from a symbol of the superframe in progress goes out as bypass levels, while the lane has a clock
(R435). -/
def State.bypassCycle (s : State) (n : Fin 8) (symbol : Nat) : State :=
  s.modLane (.line n) fun l => { l with tx := { l.tx with bypass := if l.tx.clocked then l.tx.bypass ++ [(symbol : Int)] else l.tx.bypass } }

/-- RESIDUE_MISMATCH: in the receive direction the affected data is marked, in the transmit direction the cycle's symbols go
out as bypass levels (R434, R435). -/
def execResidueMismatch (t : Instant) (p : ResiduePlace) (s : State) : Out :=
  let s := s.advanceTo t
  let host := fun (s : State) => s.modInteg fun i => { i with hostResidue := satAdd 32 i.hostResidue 1 }
  match p with
  | .lineRx n symbol =>
    .next (((((s.residueNoted (.lineRx n)).modInteg fun i => { i with rxResidue := upd i.rxResidue n fun c => satAdd 32 c 1 }).markInner n
      (s.cycleBlocks n symbol))).countRecent n)
  | .lineTx n symbol =>
    .next (((s.residueNoted (.lineTx n)).modInteg fun i => { i with txResidue := upd i.txResidue n fun c => satAdd 32 c 1 }).bypassCycle n symbol)
  | .hostRx h two => .next ((host (s.residueNoted (.host h))).markPairs (relayPort h) true two)
  | .hostTx h => .next (host (s.residueNoted (.host h)))

/-! ### Memories (R437 to R439) -/

/-- ECC_CORRECTABLE: one bit in error is corrected and written back, counted, and logged at most once per array per 1 ms;
`cistern` says that the array is the capture store (R432). -/
def execEccCorrectable (t : Instant) (array : Nat) (cistern : Bool) (s : State) : Out :=
  let s := s.advanceTo t
  let s1 := ((s.noteFault 1).modInteg fun i => { i with corrected := satAdd 32 i.corrected 1 }).logOnce 1 array 0xFFFF 0xFFFF
  .next (if cistern then s1.modAcq fun a => { a with eccCorrected := satAdd 32 a.eccCorrected 1 } else s1)

/-- An uncorrectable word of the data path, the capture store or the Rill router (R438); `key` names the array. -/
def State.dataFault (s : State) (key : Nat) : State :=
  ((s.noteFault 3).modInteg fun i => { i with uncorrData := satAdd 32 i.uncorrData 1 }).logOnce 3 key 0xFFFF 0xFFFF

/-- An uncorrectable word in a snapshot: before Tc the snapshot is inconsistent, and a COMMIT that has replied is done with
that status; after Tc its commit fails (R37, R38, R439; log 120). -/
def State.snapshotFault (s : State) (id : Nat) (b : Block) : State :=
  match s.commitOf id with
  | none => s
  | some c =>
    match c.blocks.find? fun x => decide (x.block = b) with
    | none => s
    | some x =>
      if x.done.isSome ∨ c.failed.isSome then s
      else if s.beforeTc c = false then s.failCommit id b
      else
        let s1 := s.paramFault b.id
        match c.kind with
        | .apply | .commit => if c.settled then (s1.dropCommit id).commitDone c .precondition (some b) else s1.failBefore c .precondition (some b)
        | .epoch | .revert => s1.dropCommit id

/-- A lane's calibration entry returns to its factory or reset value (R439). -/
def State.reloadCal (s : State) (n : Fin 8) (b : Block) (f : Lane → Lane) : State := (s.modLane (.line n) f).paramFault b.id

/-- Delay-table values with no factory value return to their reset values (R439, Table 8.4). -/
def LaneTime.reload (x : LaneTime) : LaneTime := { x with loopDelay := x.loopRef, calTemp := 250, calStamp := 0, calValid := false }

/-- ECC_UNCORRECTABLE: a word with more than one bit in error, handled by where it lies (Table 12.2, R438, R439). -/
def execEccUncorrectable (t : Instant) (place : EccPlace) (s : State) : Out :=
  let s := s.advanceTo t
  match place with
  | .engine n bit => .next ((s.dataFault n.val).markInner n (s.lanes[n].acq.stage.blocksTouched bit 64))
  | .buffer n toLine two => .next ((s.dataFault (0x10 + n.val)).markPairs n toLine two)
  | .capture index =>
    let mark := fun (r : Record) => if r.index = index then { r with ecc := true } else r
    .next ((s.dataFault 0x20).modAcq fun a => { a with
      records := a.records.map mark, cur := a.cur.map mark, eccUncorrectable := satAdd 32 a.eccUncorrectable 1 })
  | .rill p => .next ((s.dataFault (0x30 + p.val)).modLink p fun l => { l with rxFrame := none, rxBytes := none })
  | .shadow b => .next ((s.reloadShadow b).paramFault b.id)
  | .snapshot id b => .next (s.snapshotFault id b)
  | .active b => .next (s.paramFault b.id)
  | .previous b => .next ((s.modMeta b fun m => { m with previousValid := false }).paramFault b.id)
  | .adcEntry n k => .next (s.reloadCal n (.lineRx n) fun l => { l with cal := { l.cal with
      adcOffset := l.cal.adcOffset.set k 0, adcGain := l.cal.adcGain.set k 0, adcSkew := l.cal.adcSkew.set k 0, adcRejected := l.cal.adcRejected.set k false } })
  | .gainEntry n k => .next (s.reloadCal n (.lineRx n) fun l => { l with cal := { l.cal with gainTable := l.cal.gainTable.set k (-1536 + 64 * (k.val : Int)) } })
  | .dacEntry n k => .next (s.reloadCal n (.lineTx n) fun l => { l with cal := { l.cal with
      dacOffset := l.cal.dacOffset.set k 0, dacGain := l.cal.dacGain.set k 0, dacSkew := l.cal.dacSkew.set k 0 } })
  | .delayTable n => .next (s.reloadCal n (.lineRx n) fun l => { l with time := l.time.reload })
  | .gaugeSet g k => .next ((s.modConv g fun c => { c with cal := { c.cal with sets := c.cal.sets.set k (Vector.replicate 4 (0, 0)) } }).paramFault (Block.gauge g).id)
  | .jetsSet j k => .next ((s.modJets j fun c => { c with cal := { c.cal with sets := c.cal.sets.set k (Vector.replicate 4 (0, 0)) } }).paramFault (Block.jets j).id)
  | .filter d => .next ((s.modAcq fun a => { a with banks := a.banks.set d {} }).paramFault (Block.decim d).id)
  | .jetsQueue j i => .next ((s.modJets j fun c => { c with queue := c.queue.eraseIdx i }).paramFault (Block.jets j).id)
  | .gaugeFifo g i => .next ((s.modConv g fun c => { c with fifo := c.fifo.eraseIdx i, overflows := satAdd 16 c.overflows 1 }).paramFault (Block.gauge g).id)
  | .mgmt => .next (((s.modInteg fun i => { i with uncorrMgmt := satAdd 16 i.uncorrMgmt 1 }).controlFault 5 0xFFFF).restartFirmware)

/-- SCRUB_PASS: every word of the parameter and management arrays is read; what a pass finds comes as ECC_CORRECTABLE and
ECC_UNCORRECTABLE (R437). -/
def execScrubPass (t : Instant) (s : State) : Out := .next (s.advanceTo t)

end Sys2Proof.Machine
end

