-- ==== Sys2Proof/Machine/Bist.lean ====
section
/-! DEFINITION. The self-test commands, the rotating spare engine, and the end of a slice. -/
namespace Sys2Proof.Machine

/-! ### Where a test may run (R449, R453) -/

/-- A Cistern region holds a record. -/
def State.regionHeld (s : State) (bulk : Bool) : Bool := s.acq.records.any fun r => r.segs.any fun g => decide (g.burst ≠ bulk)

/-- A Cistern test may run: acquisition disarmed, no record in the region, and the record port not draining. -/
def State.cisternFree (s : State) (bulk : Bool) : Bool :=
  decide (s.acq.state = .disarmed) && !s.regionHeld bulk && !(decide (s.acq.spw.state ≠ .off) && s.acq.spw.toDrain)

/-- A converter has gaps between passes. -/
def State.hasGaps (s : State) (g : Fin 4) : Bool := !(s.active.gauge[g].run && decide (s.active.gauge[g].trig = 0x30))

/-- A converter is in a gap now (R430). -/
def State.inGap (s : State) (g : Fin 4) : Bool :=
  let c := s.hk.gauge[g]
  c.cur.isNone && c.pass.isNone && c.calRun.isNone && c.injected.isEmpty && s.hasGaps g

/-- The lane an engine is bound to. -/
def State.boundTo (s : State) (e : Fin 9) : Option (Fin 8) := (List.finRange 8).find? fun n => decide (s.lanes[n].eq.engine = e.val)

/-- What a BIST_RUN of an engine comes to. -/
inductive EngineRun where
  | now | takeOver (n : Fin 8) (spare : Fin 9) | refused
  deriving DecidableEq, Repr

/-- R453: the spare, and an engine of a lane that is disabled or in STILL, are tested at once; one of a LOCKED lane after a
takeover by the spare.  DESIGN CHOICE (log 139): a spare that takes over a lane in its turn for a BIST_RUN or a priority takeover is
tested by no other BIST_RUN. -/
def State.engineRun (s : State) (e : Fin 9) : EngineRun :=
  if s.sys.bist.spare = some e then
    (if s.sys.bist.takeover.any fun k => decide (k.kind ≠ .periodic) then .refused else .now)
  else match s.boundTo e with
    | none => .refused
    | some n =>
      let st := s.lanes[n].acq.state
      let free : Bool := match s.sys.bist.takeover with
        | none => true
        | some k => decide (k.kind = .periodic)
      if st = .disabled ∨ st = .still then .now
      else if st = .locked ∧ free = true then (match s.sys.bist.spare with | some x => .takeOver n x | none => .refused)
      else .refused

/-- A periodic takeover is abandoned (R451, R453). -/
def State.dropPeriodic (s : State) : State :=
  s.modBist fun b => { b with takeover := b.takeover.filter fun k => decide (k.kind ≠ .periodic) }

/-- An on-demand test starts: where it is that of the spare, a periodic step that the spare shadows for is abandoned (R142, R453). -/
def State.startDemand (s : State) (id : Nat) (cmd : Nat × Nat) : State :=
  (if testEngine id = s.sys.bist.spare ∧ s.sys.bist.spare.isSome = true then s.dropPeriodic else s).startTest id (some cmd) false none

/-- A test may start, or be made able to (R451). -/
def State.testAllowed (s : State) (id : Nat) : Bool :=
  match testEngine id, testGauge id with
  | some e, _ => decide (s.engineRun e ≠ .refused)
  | none, some g => s.hasGaps g
  | none, none => s.cisternFree (decide (id = 0x31))

/-! ### Commands (R448, R450, R451) -/

/-- BIST_RUN. -/
def cmdBistRun (_q : QId) (e : QEntry) (s : State) : Res :=
  let id := bits (e.w 0) 0 8
  checked e (· == 4) (testOk id && rsvHigh (e.w 0) 8) fun _ =>
    match s.testRun id with
    | some r =>
      if r.cmd.isSome then .fail .resourceBusy []
      else .wait (s.modRun id fun r => { r with cmd := some (e.seq, e.cmd.tag) })
    | none =>
      if s.sys.pstate ≠ 0 ∨ s.testAllowed id = false then .fail .precondition []
      else match (testEngine id).map s.engineRun with
        | some (.takeOver n x) =>
          if s.sys.bist.takeover.any fun k => decide (k.kind ≠ .periodic) then .fail .precondition []
          else .wait ((s.freeSpare x).modBist fun b => { b with takeover := some { lane := n, kind := .onDemand e.seq e.cmd.tag, start := s.now } })
        | _ => .wait (s.startDemand id (e.seq, e.cmd.tag))

/-- Row BIST_RUN. -/
def execBistRun (t : Instant) (q : QId) (s : State) : Out := .next (runCmd t q 0x8000 true cmdBistRun s)

/-- The integrity record (Table 12.4). -/
def State.integrityWords (s : State) : List Nat :=
  let i := s.sys.integ
  let b := s.sys.bist
  let mask := fun (v : Vector Bool 9) => idxMask ((List.finRange 9).filter fun e => v[e])
  [pack [(0, 8), (s.sys.lastClass, 8), (s.sys.faultEpoch, 8)], i.corrected, i.uncorrData, pack [(i.uncorrParam, 16), (i.uncorrMgmt, 16)]] ++
    i.rxResidue.toList ++ i.txResidue.toList ++
    [i.hostResidue, pack [(i.watchdogs, 16), (i.clockLosses, 16)], pack [(i.supplyFaults, 16), (i.thermalTrips, 16)],
     pack [(mask b.retired, 9), (mask b.suspect, 9), ((b.spare.map Fin.val).getD 0xF, 4), (flag (s.testing && b.spare.isSome), 1)]]

/-- BIST_RESULT. -/
def cmdBistResult (_q : QId) (e : QEntry) (s : State) : Res :=
  let id := bits (e.w 0) 0 8
  checked e (· == 4) ((testOk id || decide (id = 0)) && rsvHigh (e.w 0) 8) fun _ =>
    if id = 0 then .ok (wordsLe s.integrityWords ++ s.sys.integ.lastStamp.bytes) s
    else .ok ((((s.sys.bist.records.find? fun x => decide (x.1 = id)).map Prod.snd).getD {}).bytes id) s

/-- Row BIST_RESULT. -/
def execBistResult (t : Instant) (q : QId) (s : State) : Out := .next (runCmd t q 0x8001 true cmdBistResult s)

/-- BIST_SCHEDULE. -/
def cmdBistSchedule (_q : QId) (e : QEntry) (s : State) : Res :=
  checked e (· == 4) (rsvHigh (e.w 0) 1) fun _ =>
    let s1 := s.modBist fun b => { b with enable := bit (e.w 0) 0 }
    .ok [] (if bit (e.w 0) 0 then s1 else s1.dropPeriodic)

/-- Row BIST_SCHEDULE. -/
def execBistSchedule (t : Instant) (q : QId) (s : State) : Out := .next (runCmd t q 0x8002 false cmdBistSchedule s)

/-- BIST_ABORT: it replies at the end of the slice. -/
def cmdBistAbort (_q : QId) (e : QEntry) (s : State) : Res :=
  let id := bits (e.w 0) 0 8
  checked e (· == 4) (testOk id && rsvHigh (e.w 0) 8) fun _ =>
    if (s.testRun id).isNone then .fail .precondition []
    else .wait (s.modRun id fun r => { r with stop := 1, aborts := r.aborts ++ [e.seq] })

/-- Row BIST_ABORT. -/
def execBistAbort (t : Instant) (q : QId) (s : State) : Out := .next (runCmd t q 0x8003 true cmdBistAbort s)

/-! ### The schedule (R449, R452) -/

/-- A periodic test starts where its test is not running already. -/
def State.startPeriodic (s : State) (id : Nat) : State := if (s.testRun id).isSome then s else s.startTest id none true none

/-- CISTERN_TEST_SCHEDULE: every 10 s a region that is eligible is tested. -/
def execCisternTestSchedule (t : Instant) (bulk : Bool) (s : State) : Out :=
  let s := s.advanceTo t
  let k : Fin 2 := if bulk then 1 else 0
  if s.testing ∧ s.cisternFree bulk ∧ s.sys.bist.cisternAt[k] + secs 10 ≤ s.now then
    .next ((s.modBist fun b => { b with cisternAt := b.cisternAt.set k s.now }).startPeriodic (if bulk then 0x31 else 0x30))
  else .next s

/-- The lane of the next rotation step: the first LOCKED one after the previous step's, cyclically (R452). -/
def State.nextRotation (s : State) : Option (Fin 8) :=
  let first := match s.sys.bist.lastLane with | some n => n.val + 1 | none => 0
  (List.range 8).findSome? fun i =>
    let n : Fin 8 := ⟨(first + i) % 8, Nat.mod_lt _ (by decide)⟩
    if s.lanes[n].acq.state = LaneState.locked then some n else none

/-- ROTATION_STEP: every 250 ms, with a healthy spare that is not under test, the spare begins to shadow the next LOCKED
lane; with none it is tested again (R452). -/
def execRotationStep (t : Instant) (s : State) : Out :=
  let s := (s.advanceTo t).serveDue
  match s.sys.bist.spare with
  | none => .next s
  | some e =>
    if s.testing = false ∨ s.now < s.sys.bist.stepAt + msec 250 then .next s
    else
      let s1 := s.modBist fun b => { b with stepAt := s.now }
      if s.sys.bist.takeover.isSome ∨ (s.testRun (0x10 + e.val)).isSome then .next s1
      else match s.nextRotation with
        | none => .next (s1.startPeriodic (0x10 + e.val))
        | some n => .next (s1.modBist fun b => { b with lastLane := some n, takeover := some { lane := n, kind := .periodic, start := s.now } })

/-- The spare serves a lane from now on, and the lane's engine becomes the spare and is tested (R452, R453, R454). -/
def State.swapEngine (s : State) (k : Takeover) (spare old : Fin 9) (matches' : Bool) : State :=
  let s1 := (s.modLane (.line k.lane) fun l => { l with eq := { l.eq with engine := spare.val } }).modBist fun b => { b with spare := some old, takeover := none }
  match k.kind with
  | .periodic => s1.startPeriodic (0x10 + old.val)
  | .onDemand seq tag => s1.startTest (0x10 + old.val) (some (seq, tag)) false none
  | .priority =>
    (s1.logEntry 0x0601 0 2 0xFFFF [0x10 + old.val, if matches' then 0xFFFFFFFF else 0]).startTest (0x10 + old.val) none false none

/-- ENGINE_SWAP: the received marker at or after 12 µs of a takeover; `matches'` says what the shadow compare found.  A
mismatch of a periodic step leaves the lane its engine, and the spare is tested; an engine under test takes no lane (R142, R452, R454). -/
def execEngineSwap (t : Instant) (matches' : Bool) (s : State) : Out :=
  let s := s.advanceTo t
  match s.sys.bist.takeover, s.sys.bist.spare with
  | some k, some e =>
    let l := s.lanes[k.lane]
    if l.acq.state = .locked ∧ k.start + usec 12 ≤ s.now ∧ l.rx.markAt = some s.now ∧ (s.testRun (0x10 + e.val)).isNone then
      if k.kind = .periodic ∧ matches' = false then
        .next ((s.modBist fun b => { b with takeover := none }).startTest (0x10 + e.val) none true (some k.lane))
      else match idx? 9 l.eq.engine with
        | some old => .next ((s.swapEngine k e old matches').serveDue)
        | none => .next s
    else .next s
  | _, _ => .next s

/-! ### Slices (R449, R455, R456) -/

/-- A test that is to go no further at the end of its slice: why (Table 12.6). -/
def State.sliceStop (s : State) (r : TestRun) : Nat :=
  if r.stop ≠ 0 then r.stop
  else if s.sys.pstate ≠ 0 then 5
  else if r.periodic ∧ r.cmd.isNone ∧ s.testing = false then 4
  else 0

/-- The next pass of a converter that is scheduled starts no earlier than now (R404, R430). -/
def State.passLater (s : State) (g : Fin 4) : Bool :=
  let c := s.hk.gauge[g]
  (match c.startAt with | some a => decide (s.now ≤ a) | none => true) && c.trigs.all fun a => decide (s.now ≤ a + tenNs s.active.gauge[g].delay)

/-- A slice of a converter's test that began no earlier than an instant can end now: the whole of it lay in one gap, and it ends before the
next scheduled pass starts (R430). -/
def State.sliceFits (s : State) (g : Fin 4) (from' : Instant) : Bool :=
  s.inGap g && decide (max from' s.hk.gauge[g].idleAt + usec (sliceMicros (0x40 + g.val)) ≤ s.now) && s.passLater g

/-- A slice of a test can have run: a converter's only in a gap (R430). -/
def State.sliceRan (s : State) (r : TestRun) : Bool :=
  match testGauge r.id with
  | some g => s.sliceFits g (max r.start r.sliceAt)
  | none => decide (r.start + usec (sliceMicros r.id * (r.slices + 1)) ≤ s.now)

/-- A periodic converter test begins with its first slice (R449). -/
def State.beginGauge (s : State) (id : Nat) : State :=
  match testGauge id with
  | some g =>
    if (s.testRun id).isNone ∧ s.testing = true ∧ s.sliceFits g 0 = true then
      (s.startTest id none true none).modRun id fun r => { r with start := s.now - usec 2, stamp := { r.stamp with time := s.fAt (s.now - usec 2) } }
    else s
  | none => s

/-- BIST_SLICE_END: a slice of a test ends, `failure` what it found; the next one runs, or the test ends. -/
def execBistSliceEnd (t : Instant) (id : Nat) (failure : Option Nat) (s : State) : Out :=
  let s := (s.advanceTo t).beginGauge id
  match s.testRun id with
  | none => .next s
  | some r =>
    if s.sliceRan r then
      let s1 := s.modRun id fun r => { r with slices := r.slices + 1, sliceAt := s.now, fail := r.fail.orElse fun _ => failure }
      let why := s.sliceStop r
      .next (if testSlices id ≤ r.slices + 1 then (s1.endTest id (if r.stop = 1 then 1 else 0)).serveDue
        else if why ≠ 0 then (s1.endTest id why).serveDue
        else s1)
    else if s.sliceStop r ≠ 0 then .next (s.endTest id (s.sliceStop r)).serveDue
    else .next s

end Sys2Proof.Machine
end

