-- ==== Sys2Proof/Machine/Spillway.lean ====
section
/-! DEFINITION. The record port: its units and blocks, its ring, and its starts and stops. -/
namespace Sys2Proof.Machine

/-- The record port, changed. -/
def State.modSpw (s : State) (f : Spillway → Spillway) : State := s.modAcq fun a => { a with spw := f a.spw }

/-! ### Units and blocks (R388, R390) -/

/-- The 64-byte unit header (Table 10.14). -/
def unitHeader (kind channel : Nat) (wrap short : Bool) (bytes seq ring : Nat) (stamp : Stamp) (ecc : Bool) (pos : List Byte) (id : Nat) : List Byte :=
  wordsLe [pack [(kind, 8), (channel, 3), (flag wrap, 1), (flag short, 1), (0, 3), (bytes, 16)], seq] ++ leBytes 8 (ring * 4096 % 2 ^ 41) ++
    timeWords stamp.time ++ wordsLe [pack [(flag stamp.valid, 1), (flag ecc, 1)]] ++ pos ++ wordsLe [id, 0, 0, 0, 0, 0]

/-- A whole unit: its header, its payload and zeros up to 4,096 bytes. -/
def unitBytes (header payload : List Byte) : List Byte := header ++ payload ++ List.replicate (4096 - header.length - payload.length) 0

/-- A 66-bit block: sync header and 8 bytes. -/
abbrev SpwBlock := Nat × List Byte

/-- The blocks of a unit: SOF, 512 data blocks and EOF with the unit's CRC-32C (R388). -/
def unitBlocks (u : List Byte) : List SpwBlock :=
  [(2, 0x78 :: List.replicate 7 0)] ++ ((List.range 512).map fun i => (1, (u.drop (8 * i)).take 8)) ++
    [(2, 0x87 :: leBytes 4 (crc32c u) ++ List.replicate 3 0)]

/-- The blocks that a lane carries of the port's: they alternate, the even ones on SPW0 (R388). -/
def laneBlocks (lane : Nat) (xs : List SpwBlock) : List SpwBlock :=
  (xs.zipIdx.filter fun p => decide (p.2 % 2 = lane)).map Prod.fst

/-- The alignment marker block of a lane (R388). -/
def amBlock (lane count : Nat) : SpwBlock := (2, 0x4B :: leBytes 1 lane ++ leBytes 4 count ++ [0, 0])

/-- The self-synchronising scrambler x⁵⁸ + x³⁹ + 1 over bits, the last 58 scrambled bits in a register, newest in bit 0
(R388). -/
def scramble : Nat → List Bool → List Bool
  | _, [] => []
  | r, b :: bs =>
    let o := xor b (xor (r.testBit 38) (r.testBit 57))
    o :: scramble ((2 * r + flag o) % 2 ^ 58) bs

/-- A lane's blocks from a place of its sequence on, with an alignment marker at every 16,384th place (R388).  DESIGN CHOICE (log 153): the
first block of a start is a marker, with AM count 0. -/
def withMarkers (lane : Nat) : Nat → List SpwBlock → List SpwBlock
  | _, [] => []
  | slot, x :: xs =>
    if slot % 16384 = 0 then amBlock lane (slot / 16384 % 2 ^ 32) :: x :: withMarkers lane (slot + 2) xs else x :: withMarkers lane (slot + 1) xs

/-- The 66 bits of a block, its two sync header bits first, in the bit order of Clause 49, and the register after it: the 64 bits after
the header are scrambled (R388). -/
def blockBits (r : Nat) (b : SpwBlock) : List Bool × Nat :=
  let out := scramble r (b.2.flatMap fun x => (List.range 8).map fun i => x.toNat.testBit i)
  ([b.1.testBit 1, b.1.testBit 0] ++ out, (out.foldl (fun v o => 2 * v + flag o) r) % 2 ^ 58)

/-- The number of a block on a lane, its first bit highest. -/
def bitsNumber (xs : List Bool) : Nat := xs.foldl (fun v b => 2 * v + flag b) 0

/-- Blocks on a lane as numbers, and the scrambler's register after them (R388). -/
def laneStream (r : Nat) (xs : List SpwBlock) : List Nat × Nat :=
  xs.foldl (fun a b => let x := blockBits a.2 b; (a.1 ++ [bitsNumber x.1], x.2)) ([], r)

/-- An IDLE block (R388). -/
def idleBlock : SpwBlock := (2, 0x1E :: List.replicate 7 0)

/-- IDLE blocks that fill the places of a lane from one to another, alignment markers apart (R388). -/
def idleFill (slot due : Nat) : List SpwBlock :=
  List.replicate ((due - slot) - (ceilDiv due 16384 - ceilDiv slot 16384)) idleBlock

/-- Blocks that a lane has sent since the start at an instant: 106.25 Gb/s in blocks of 66 bits (R388). -/
def Spillway.due (w : Spillway) (now : Instant) : Nat := (now - w.startAt) * 10625 / 432537600

/-- The blocks of a unit leave: on each lane after the IDLE blocks of the gap before it, with alignment markers, scrambled (R388). -/
def Spillway.emit (w : Spillway) (u : List Byte) (now : Instant) : Spillway :=
  let gap := fun l : Fin 2 => withMarkers l.val w.slots (idleFill w.slots (w.due now))
  let start := w.slots + (gap 0).length
  let unit := fun l : Fin 2 => withMarkers l.val start (laneBlocks l.val (unitBlocks u))
  let out := fun l : Fin 2 => laneStream (laneStream w.scramblers[l] (gap l)).2 (unit l)
  { w with
    slots := start + (unit 0).length
    lastBlocks := Vector.ofFn fun l => (out l).1
    scramblers := Vector.ofFn fun l => (out l).2 }

/-! ### The ring (R391) -/

/-- The last address of the ring. -/
def SpillwayP.last (p : SpillwayP) : Nat := p.base + p.size - 1

/-- A unit leaves at the next ring address (R391, R393). -/
def State.sendUnit (s : State) (kind channel : Nat) (short : Bool) (payload : List Byte) (stamp : Stamp) (ecc : Bool) (pos : List Byte) : State :=
  let p := s.active.spillway
  s.modSpw fun w =>
    let u := unitBytes (unitHeader kind channel w.wrapped short payload.length w.seq w.next stamp ecc pos w.id) payload
    let wrap := decide (p.last ≤ w.next)
    { w.emit u s.now with
      lastUnit := u, seq := (w.seq + 1) % 2 ^ 32, next := if wrap then p.base else w.next + 1, wrapped := wrap
      wraps := if wrap then (w.wraps + 1) % 2 ^ 32 else w.wraps }

/-- An END unit. -/
def State.sendEnd (s : State) : State := s.sendUnit 0x03 0 false [] ⟨0, false⟩ false (leBytes 8 0)

/-- The port is OFF: SPILLWAY_STOPPED, and the commands that waited reply; the STREAM channels stop with it (R394, R395). -/
def State.spwOff (s : State) (cause : Nat) : State :=
  let w := s.acq.spw
  let s1 := s.modAcq fun a => { a with
    run := { a.run with streamOff := true }, lastRun := { a.lastRun with streamOff := true }
    spw := { a.spw with state := .off, cause, stopCmds := [] } }
  let s2 := s1.event 0xE031 0 (wordsLe [cause] ++ leBytes 8 (w.next * 4096) ++ wordsLe [w.seq] ++ s.stampWeir.bytes)
  let s3 := if w.state = .starting then s2.complete w.startCmd .precondition [] else s2
  s3.forEach w.stopCmds fun c s => s.complete c .ok (leBytes 8 (w.next * 4096) ++ wordsLe [w.seq])

/-- A stop that sends no final units: SINK_FAULT, SHED or POWER_STATE (Table 10.15). -/
def State.spwCut (s : State) (cause : Nat) : State := if s.acq.spw.state = .off then s else s.spwOff cause

/-- With NO_WRAP, the port that has come to the last address sends END there and stops (R391). -/
def State.ringFull (s : State) : State :=
  if s.active.spillway.noWrap ∧ s.active.spillway.last ≤ s.acq.spw.next then s.sendEnd.spwOff 4 else s

/-! ### Commands -/

/-- SPILLWAY_CONFIG (R391). -/
def cmdSpillwayConfig (_q : QId) (e : QEntry) (s : State) : Res :=
  let base := bits (e.w 0) 0 29
  let size := bits (e.w 1) 0 30
  checked e (· == 8) (!s.sys.optionW && rsvHigh (e.w 0) 29 && rsvHigh (e.w 1) 31 && decide (1 ≤ size ∧ size ≤ 2 ^ 29 ∧ base + size ≤ 2 ^ 29)) fun _ =>
    .ok [] (s.modShadow fun k => { k with spillway := { base, size, noWrap := bit (e.w 1) 30 } })

/-- Row SPILLWAY_CONFIG. -/
def execSpillwayConfig (t : Instant) (q : QId) (s : State) : Out := .next (runCmd t q 0x6040 false cmdSpillwayConfig s)

/-- An address wrapped into a ring (R392). -/
def SpillwayP.wrap (p : SpillwayP) (a : Nat) : Nat := p.base + (a + p.size - p.base % p.size) % p.size

/-- SPILLWAY_START; what the scramblers start from is not given, and is free (R388, R392). -/
def cmdSpillwayStart (_q : QId) (e : QEntry) (s : State) : Res :=
  let mode := bits (e.w 0) 0 2
  let p := s.shadow.spillway
  checked e (· == 4) (!s.sys.optionW && rsv (e.w 0) 2 6 && rsvHigh (e.w 0) 9 && decide (mode = 1 ∨ mode = 2)) fun _ =>
    if s.acq.spw.state ≠ .off ∨ p.size = 0 ∨ s.acq.spw.fault = true ∨ 1 ≤ s.sys.shedStage ∨ (mode = 2 ∧ s.isArmed = true) then .fail .precondition []
    else if mode = 1 ∧ 25000000000 < (s.loads s.shadow).2.2 then .fail .bandwidth []
    else
      let x := (s.commitShadow .spillway s.stampWeir).draw
      .wait (x.2.modSpw fun w =>
        let a := if bit (e.w 0) 8 then p.base else p.wrap w.next
        { w with state := .starting, next := a, start := a, seq := 0, wraps := 0, wrapped := false, id := (w.id + 1) % 2 ^ 32, startAt := s.now
                 toDrain := decide (mode = 2), startCmd := e.seq, offset := 0, slots := 0
                 scramblers := Vector.ofFn fun l => Config.reading (0x6041 + l.val) x.1 % 2 ^ 58 })

/-- Row SPILLWAY_START. -/
def execSpillwayStart (t : Instant) (q : QId) (s : State) : Out := .next (runCmd t q 0x6041 false cmdSpillwayStart s)

/-- SPILLWAY_START_COMPLETE: 100 µs of IDLE have been sent (R392). -/
def execSpillwayStartComplete (t : Instant) (s : State) : Out :=
  let s := s.advanceTo t
  let w := s.acq.spw
  if w.state = .starting ∧ w.startAt + usec 100 ≤ s.now then
    let s1 := s.modSpw fun w => { w with state := if w.toDrain then .drain else .stream }
    let n := if w.toDrain then s.acq.records.length else ceilDiv (s.loads s.shadow).2.2 1000
    .next (s1.complete w.startCmd .ok (wordsLe [w.id, n] ++ leBytes 8 (w.start * 4096))).ringFull
  else .next s

/-- SPILLWAY_STOP; a stop waits for the final units (R394, R395). -/
def cmdSpillwayStop (_q : QId) (e : QEntry) (s : State) : Res :=
  checked e (· == 0) (!s.sys.optionW) fun _ =>
    let w := s.acq.spw
    match w.state with
    | .off => .ok (leBytes 8 (w.next * 4096) ++ wordsLe [w.seq]) s
    | .starting => .wait ((s.modSpw fun w => { w with stopCmds := w.stopCmds ++ [e.seq] }).spwOff 1)
    | _ => .wait (s.modSpw fun w => { w with state := .stopping, stopCmds := w.stopCmds ++ [e.seq] })

/-- Row SPILLWAY_STOP. -/
def execSpillwayStop (t : Instant) (q : QId) (s : State) : Out := .next (runCmd t q 0x6042 false cmdSpillwayStop s)

/-- STATE codes (R395). -/
def SpwState.code : SpwState → Nat
  | .off => 0 | .starting => 1 | .stream => 2 | .drain => 3 | .stopping => 4

/-- SPILLWAY_STATUS (R395). -/
def cmdSpillwayStatus (_q : QId) (e : QEntry) (s : State) : Res :=
  checked e (· == 0) (!s.sys.optionW) fun _ =>
    let w := s.acq.spw
    .ok (wordsLe [pack [(w.state.code, 3), (flag w.fault, 1), (0, 4), (w.cause, 8)]] ++ leBytes 8 (w.next * 4096) ++
      wordsLe [w.seq, w.wraps, (s.acq.records.head?.map Record.index).getD 0, w.id]) s

/-- Row SPILLWAY_STATUS. -/
def execSpillwayStatus (t : Instant) (q : QId) (s : State) : Out := .next (runCmd t q 0x6043 true cmdSpillwayStatus s)

/-! ### Units leaving (R393, R394) -/

/-- A STREAM unit of a channel: its next samples, with the time and the index of the first (R390, R393). -/
def State.sendStream (s : State) (u : Captured) : State :=
  let part := s.streamPart u
  let r := s.streamRun u
  let b := storedBytes (r.2.format u.channel) part
  let took : Arming := { r.1 with streamed := upd r.1.streamed u.channel fun n => n + part.length }
  let s1 := (s.saturate s.active.channel[u.channel].source u.samples).modAcq fun a => if s.ofLast u then { a with lastRun := took } else { a with run := took }
  let st : Stamp := ((part.head?.map fun o => ⟨o.at', o.valid⟩)).getD ⟨0, false⟩
  (s1.sendUnit 0x01 u.channel.val (decide (b.length < 4032)) b st false (leBytes 8 r.1.streamed[u.channel])).ringFull

/-- A STREAM channel has a unit to send: once its payload is full, and at a stop or after its arming with the samples there are; none
once the channels have stopped (R383, R393, R394). -/
def State.unitReady (s : State) (u : Captured) : Bool :=
  let n := (s.streamPart u).length
  let r := s.streamRun u
  (streamChans r.2).contains u.channel && !r.1.streamOff &&
    (decide (n = unitSamples r.2 u.channel) || (decide (n ≠ 0) && (r.1.ended.isSome || decide (s.acq.spw.state = .stopping))))

/-- The next DRAIN unit; after the last unit of a record its slot is free, and after the last record the port stops. -/
def State.sendDrain (s : State) : State :=
  match s.acq.records with
  | [] => s.sendEnd.spwOff 2
  | r :: rest =>
    let img := r.image
    let off := s.acq.spw.offset
    let b := (img.drop off).take 4032
    let s1 := s.sendUnit 0x02 0 (decide (b.length < 4032)) b ⟨0, false⟩ r.ecc (wordsLe [r.index, off])
    if img.length ≤ off + 4032 then
      let s2 := (s1.modAcq fun a => { a with records := rest }).modSpw fun w => { w with offset := 0 }
      let s3 := s2.ringFull
      if s3.acq.spw.state = .drain ∧ rest = [] then s3.sendEnd.spwOff 2 else s3
    else (s1.modSpw fun w => { w with offset := off + 4032 }).ringFull

/-- SPILLWAY_UNIT_SEND: a STREAM channel's filled unit, the next unit of a drain, or, while stopping, a channel's partly
filled unit or, with none left, the END unit; `u` is a STREAM channel with what its source has brought since ARM.  Nothing goes out
while a lane of the port runs on FIRC (R21). -/
def execSpillwayUnitSend (t : Instant) (u : Option Captured) (s : State) : Out :=
  let s := s.advanceTo t
  if s.onIslandClock 41 = false ∨ s.onIslandClock 42 = false then .next s
  else .next (match s.acq.spw.state, u with
    | .stream, some x => if s.unitReady x then s.sendStream x else s
    | .drain, _ => s.sendDrain
    | .stopping, some x => if s.unitReady x ∧ s.acq.spw.toDrain = false then s.sendStream x else s
    | .stopping, none => s.sendEnd.spwOff 1
    | _, _ => s)

/-- SPW_FAULT_STOP: the SPW_FAULT level and since when it stands; high for 1 µs stops the port.  ZK3208-W ignores the pin (R4, R394,
R395). -/
def execSpwFaultStop (t : Instant) (high : Bool) (since : Nat) (s : State) : Out :=
  let s := s.advanceTo t
  if s.sys.optionW then .next s
  else
    let s1 := s.modSpw fun w => { w with fault := high }
    .next (if high = true ∧ since + usec 1 ≤ s.now then s1.spwCut 3 else s1)

end Sys2Proof.Machine
end

