-- ==== Sys2Proof/Machine/Power.lean ====
section
/-! DEFINITION. Sluice: the rails, power-on, shutdown and reset; supply-sag shedding; and the clocks of the islands. -/
namespace Sys2Proof.Machine

/-! ### Reset (R459, R460, R462) -/

/-- What flash and OTP keep through every reset; of the CMIS bytes, page 03h (R482, R500, R504, R508). -/
def Firmware.kept (f : Firmware) : Firmware :=
  { slots := f.slots, records := f.records, keys := f.keys, revoked := f.revoked, rollback := f.rollback, flashLog := f.flashLog
    cmis := f.cmis.filter fun x => decide (x.1 / 256 = 3 ∧ 128 ≤ x.1 % 256), romDue := none }

/-- What the rails and the input pins keep through a reset of every domain. -/
def Power.kept (p : Power) : Power :=
  { powered := p.powered, railOk := p.railOk, railAt := p.railAt, starting := p.starting, held := true, resetN := p.resetN, bypass := p.bypass
    bypassTaken := p.bypassTaken, shutdowns := p.shutdowns, isOff := p.isOff, stuckOff := p.stuckOff, shutRails := p.shutRails, vin := p.vin
    vinPrev := p.vinPrev, wakeN := p.wakeN, lpmode := p.lpmode }

/-- Every domain returns to its reset values, and reset is held: what stands is OTP, flash, the rails and the levels of the
input pins (R462). -/
def State.fullReset (s : State) : State :=
  { State.reset with
    pending := s.pending, now := s.now, free := s.free
    lanes := vmap State.reset.lanes fun _ l => { l with tx := { l.tx with squelch := { l.tx.squelch with txDisable := s.sys.txDisable } } }
    acq := { spw := { fault := s.acq.spw.fault } }
    sys := { optionW := s.sys.optionW, serial := s.sys.serial, txDisable := s.sys.txDisable, fw := s.sys.fw.kept, pow := s.sys.pow.kept } }

/-- What the always-on island keeps while the rails are off: the dynamic address, the wake configuration and the failure
records (R460, R470). -/
def State.alwaysOn (s old : State) : State :=
  { s with
    bus := { s.bus with dynAddr := old.bus.dynAddr }
    sys := { s.sys with
      wakeFail := old.sys.wakeFail
      pow := { s.sys.pow with wakeEdge := old.sys.pow.wakeEdge, timerMs := old.sys.pow.timerMs, mask := old.sys.pow.mask, failures := old.sys.pow.failures } } }

/-- The order in which rails soft-start: places of Table 13.1 (R462). -/
def railOrder : List (Fin 8) := [7, 6, 3, 0, 1, 2, 4, 5]

/-- Sluice makes a rail: in bypass not the first three (R461). -/
def Power.makes (p : Power) (r : Fin 8) : Bool := !p.bypass || decide (3 ≤ r.val)

/-- The next soft-start from a place of the order on. -/
def Power.nextStart (p : Power) (k : Nat) (now : Instant) : Option (Nat × Instant) :=
  ((List.range 8).find? fun i => decide (k ≤ i) && (match railOrder[i]? with | some r => p.makes r | none => false)).map fun i => (i, now)

/-- UVLO_FALL: every rail is removed and nothing is kept but OTP and flash (R459). -/
def execUvloFall (t : Instant) (s : State) : Out :=
  let s := (s.advanceTo t).fullReset
  .next (s.modPow fun p => { p with
    powered := false, railOk := Vector.replicate 8 false, railAt := Vector.replicate 8 s.now, starting := none, bypassTaken := false, shutdowns := []
    isOff := false, stuckOff := false, shutRails := [], vin := 0, vinPrev := none })

/-- POWER_ON: the always-on island starts, and the first soft-start 0.10 ms later (R459, Table 13.2). -/
def execPowerOn (t : Instant) (s : State) : Out :=
  let s := s.advanceTo t
  if s.sys.pow.powered then .next s
  else .next (s.modPow fun p => { p with powered := true, held := true, starting := some (0, s.now + usec 100) })

/-- RAIL_IN_WINDOW: the rail that is soft-starting reaches its window and the next one starts; or an external rail, or one
that had left its window, is in window.  `bypass` is the strap as VIO18 first reaches its window (R461, R462, R516). -/
def execRailInWindow (t : Instant) (r : Fin 8) (bypass : Bool) (s : State) : Out :=
  let s := s.advanceTo t
  let p := s.sys.pow
  if p.powered = false ∨ p.isOff ∨ p.railOk[r] then .next s
  else
    let inWindow := fun (p : Power) => { p with railOk := p.railOk.set r true, railAt := p.railAt.set r s.now }
    match p.starting with
    | some (k, a) =>
      if railOrder[k]? = some r ∧ a ≤ s.now then
        .next (s.modPow fun p =>
          let p1 := if r = 6 ∧ p.bypassTaken = false then { p with bypass, bypassTaken := true } else p
          { inWindow p1 with starting := p1.nextStart (k + 1) s.now })
      else if p.makes r then .next s
      else .next (s.modPow inWindow)
    | none => .next (s.modPow inWindow)

/-- A supply shutdown: the rails that Sluice makes go off and every domain they power is reset; the third within 1 s leaves
them off (R460, R461). -/
def State.shutdown (s : State) (rails : Nat) : State :=
  let times := (s.now :: s.sys.pow.shutdowns).filter fun a => decide (s.now ≤ a + secs 1)
  (s.fullReset.alwaysOn s).modPow fun p => { p with
    starting := none, isOff := true, stuckOff := decide (3 ≤ times.length), shutdowns := times, shutRails := p.shutRails ++ [rails]
    railOk := vmap p.railOk fun r b => b && !p.makes r, railAt := Vector.replicate 8 s.now }

/-- SUPPLY_SHUTDOWN: a rail has lain below 80 % or above 110 % of nominal for 10 µs; `rails` are those out of window. -/
def execSupplyShutdown (t : Instant) (rails : Nat) (s : State) : Out :=
  let s := s.advanceTo t
  if s.sys.pow.powered = false ∨ s.sys.pow.isOff then .next s else .next (s.shutdown (rails % 256))

/-- RAIL_START_TIMEOUT: a rail not in window within 2 ms of its start causes a shutdown (R462). -/
def execRailStartTimeout (t : Instant) (s : State) : Out :=
  let s := s.advanceTo t
  match s.sys.pow.starting with
  | some (_, a) =>
    if s.past 1310720 1 (a + msec 2) then .next (s.shutdown (idxMask ((List.finRange 8).filter fun r => !s.sys.pow.railOk[r]))) else .next s
  | none => .next s

/-- SHUTDOWN_RESTART: 10 ms after a shutdown the rails start again, unless it was the third within 1 s (R460). -/
def execShutdownRestart (t : Instant) (s : State) : Out :=
  let s := s.advanceTo t
  let p := s.sys.pow
  if p.isOff ∧ p.stuckOff = false ∧ p.shutdowns.headD 0 + msec 10 ≤ s.now then
    .next (s.modPow fun p => { p with isOff := false, starting := p.nextStart 0 s.now })
  else .next s

/-- RESET_N_ASSERT: RESET_N low for at least 1 µs is a full reset, and lets rails that a third shutdown left off start again
(R460, R462). -/
def execResetNAssert (t : Instant) (s : State) : Out :=
  let s := s.advanceTo t
  let s1 := s.fullReset.modPow fun p => { p with resetN := false }
  if s.sys.pow.powered = false then .next (s.modPow fun p => { p with resetN := false })
  else if s.sys.pow.stuckOff then
    .next (s1.modPow fun p => { p with isOff := false, stuckOff := false, shutdowns := [], starting := p.nextStart 0 s.now })
  else .next s1

/-- RSTACT_FULL_RESET: RSTACT action 0x02 equals RESET_N (R57, R462). -/
def execRstactFullReset (t : Instant) (addr : Option Nat) (s : State) : Out :=
  let s := s.advanceTo t
  if s.reached addr then .next (s.fullReset.answer .ack) else .next (s.answer .nack)

/-- RESET_RELEASE: every rail has been in window for 1 ms and RESET_N is high; SADDR_SEL is sampled and the boot ROM is to run
(R462). -/
def execResetRelease (t : Instant) (saddr : Bool) (s : State) : Out :=
  let s := s.advanceTo t
  let p := s.sys.pow
  let ready := (List.finRange 8).all fun r => p.railOk[r] && decide (p.railAt[r] + msec 1 ≤ s.now)
  if p.held ∧ p.powered ∧ p.isOff = false ∧ ready then
    .next ((s.modSys fun y => { y with saddrSel := saddr, pow := { y.pow with held := false, resetN := true } }).modFw fun f => { f with romDue := some .reset })
  else .next s

/-! ### Islands (R21, R287) -/

/-- The stages of a wake are behind the device (R475). -/
def Power.staged (p : Power) : Bool := match p.wake with | some w => decide (w.stage = 4 ∧ w.cancelled = false) | none => false

/-- ISLAND_CLOCK_SWITCH: the firmware moves an island from FIRC to its island clock; with the time base's the counter starts
at 0.  The record-port islands of a ZK3208-W stay powered down (R2).  In a wake it does so from the end of the last stage on (R475). -/
def execIslandClockSwitch (t : Instant) (n : Fin 64) (s : State) : Out :=
  let s := s.advanceTo t
  if s.sys.pow.held ∨ s.sys.pow.powered = false ∨ ((s.sys.pstate = 2 ∨ s.sys.pstate = 3) ∧ s.sys.pow.staged = false) ∨ s.absentIsland n = true then .next s
  else
    let s1 := s.modSys fun y => { y with islands := y.islands.set n true }
    let clock := fun (r : LaneRef) => (s1.modLane r fun l => { l with tx := { l.tx with clocked := true } }).alignTx r
    if n = 43 then .next (if s.tb.running then s1 else s1.modTb fun b => { b with running := true, counter := 0, startAt := s.now, past := [] })
    else if h : n.val < 8 then .next (if s.lanes[n.val].acq.power = .l2 then s1 else clock (.line ⟨n.val, h⟩))
    else if h : 17 ≤ n.val ∧ n.val < 33 then
      let k : Fin 16 := ⟨n.val - 17, by omega⟩
      .next (if s.isRelay k ∧ s.active.host[k].enable ∧ s.hosts[k].power ≠ .l2 then clock (.relay k) else s1)
    else .next s1

/-! ### Shedding (R464 to R469) -/

/-- VSHED of a stage, in mV; 0 disabled. -/
def SluiceP.level (p : SluiceP) (n : Nat) : Nat := match idx? 6 (n - 1) with | some i => 10 * p.shed[i] | none => 0

/-- HYST of a stage, in mV. -/
def SluiceP.band (p : SluiceP) (n : Nat) : Nat := match idx? 6 (n - 1) with | some i => 10 * p.hyst[i] | none => 0

/-- The deepest stage whose enabled threshold VIN lies below at both of two updates; 0 for none (R465). -/
def SluiceP.deepest (p : SluiceP) (a b : Nat) : Nat :=
  ((List.range 7).filter fun n => decide (1 ≤ n ∧ p.level n ≠ 0 ∧ a < p.level n ∧ b < p.level n)).getLast?.getD 0

/-- The first enabled threshold at or deeper than a stage. -/
def SluiceP.guard (p : SluiceP) (n : Nat) : Option Nat := (List.range 7).find? fun m => decide (n ≤ m ∧ 1 ≤ m ∧ p.level m ≠ 0)

/-- VIN at two updates restores a stage (R465). -/
def SluiceP.restores (p : SluiceP) (n a b : Nat) : Bool :=
  match p.guard n with
  | some m => decide (p.level m + p.band m ≤ a ∧ p.level m + p.band m ≤ b)
  | none => true

/-- A lane is held off: L2, and a line lane's transmitter squelched (R466). -/
def State.holdOff (s : State) (r : LaneRef) : State :=
  match r with
  | .line n => ((s.modLane r fun l => { l with acq := { l.acq with shed := true } }).setSquelch (.line n) fun q => { q with shed := true }).sendPower .l2 r
  | .relay n => (s.modHost n fun h => { h with shed := true }).sendPower .l2 r

/-- A lane held off returns to its commanded power state; in or on the way to a lower device state it stays in L2 (R466,
R472). -/
def State.letGo (s : State) (r : LaneRef) : State :=
  let s1 := match r with
    | .line n => (s.modLane r fun l => { l with acq := { l.acq with shed := false } }).setSquelch (.line n) fun q => { q with shed := false }
    | .relay n => s.modHost n fun h => { h with shed := false }
  if s.sys.pstate = 0 ∧ s.sys.pow.entry.isNone then s1.sendPower (s1.powerCmd r) r else s1

/-- A host lane is unused (R253). -/
def State.unused (s : State) (h : Fin 16) : Bool :=
  let slice := relayPort h
  let r := s.rill
  let known := r.upPort.isSome || decide (r.children ≠ 0)
  decide (s.hosts[h].power = .l2) || (decide (h.val % 2 = 1) && s.active.lineRx[slice].s200) ||
    (if s.isRelay h then
      decide (s.relays[h].acq.state = .disabled ∨ s.relays[h].acq.state = .still) ||
        (known && !bit r.children (8 + slice.val) && decide (r.upPort ≠ some (8 + slice.val)))
    else decide (s.hosts[h].state = .disabled ∨ s.hosts[h].state = .still ∨ s.hosts[h].state = .test))

/-- The lanes of stage-6 step k, for k from 1 to 8 (R466). -/
def stepLanes (k : Nat) : List LaneRef :=
  match idx? 8 (8 - k) with
  | some n => [.line n, .relay (hostLow n), .relay (hostHigh n)]
  | none => []

/-- A step of stage 6 is taken (R466). -/
def State.takeStep (s : State) (k : Nat) : State :=
  let rs := if k = 0 then ((List.finRange 16).filter s.unused).map LaneRef.relay else (stepLanes k).filter fun r => !s.isShed r
  ((s.forEach rs fun r s => s.holdOff r).modPow fun p => { p with step := some k }).parkJets

/-- The most recent step of stage 6 is reversed: step 0 lets the unused host lanes go (R466). -/
def State.undoStep (s : State) (k : Nat) : State :=
  let rs := if k = 0 then ((List.finRange 16).map LaneRef.relay).filter s.isShed else (stepLanes k).filter s.isShed
  (s.forEach rs fun r s => s.letGo r).modPow fun p => { p with step := if k = 0 then none else some (k - 1) }

/-- What the shedding of one stage does (Table 13.3). -/
def State.shedStage (s : State) : Nat → State
  | 1 => s.spwCut 5
  | 2 => s.disarm 3 []
  | 3 => s.dropPeriodic
  | 5 => s.modBist fun b => { b with runs := b.runs.map fun r => if (testEngine r.id).isSome ∧ r.stop = 0 then { r with stop := 4 } else r }
  | 6 => s.takeStep 0
  | _ => s

/-- A CONTINUOUS sequence that runs, and that no pass is serving, begins its next pass: the restoration of stage 4 lets every entry run
again (R403, R429). -/
def State.resumeGauge (s : State) : State :=
  s.modHk fun h => { h with gauge := vmap h.gauge fun g c =>
    if s.active.gauge[g].run = true ∧ s.active.gauge[g].trig = 0x30 ∧ s.sys.pstate ≤ 1 ∧ c.pass.isNone ∧ c.startAt.isNone then { c with startAt := some s.now } else c }

/-- The stage in force set, and the instant of its change. -/
def State.setStage (s : State) (n : Nat) : State :=
  let s1 := s.modSys fun y => { y with shedStage := n, pow := { y.pow with shedAt := s.now } }
  if 4 ≤ s.sys.shedStage ∧ n < 4 then s1.resumeGauge else s1

/-- Stage n + 1 is restored, so that S is n, with the disabled stages that go with it (R465). -/
def restoreTo : Nat → State → State
  | 0, s => s.setStage 0
  | n + 1, s => if s.active.sluice.level (n + 1) = 0 then restoreTo n s else s.setStage (n + 1)

/-- SHED (R469). -/
def State.shedEvent (s : State) (shed : Bool) : State :=
  let w0 := pack [(s.sys.shedStage, 3), (flag shed, 1), (s.sys.pow.step.getD 0xF, 4)]
  (s.event 0xE040 0 (wordsLe [w0, s.sys.pow.vin] ++ s.stampMgmt.bytes)).logEntry 0x0401 0 1 (Block.sluice).id [w0, s.sys.pow.vin]

/-- SUPPLY_COMPARATOR_UPDATE: a reading of VIN, in mV: the boundary of class 0x11, then stages shed or restored (R465,
R469, Table 1.4). -/
def execSupplyComparatorUpdate (t : Instant) (vin : Nat) (s : State) : Out :=
  let s := s.advanceTo t
  if s.sys.pow.held ∨ s.sys.pow.powered = false ∨ s.sys.pstate = 2 ∨ s.sys.pstate = 3 then .next s
  else
    let s1 := (s.boundary .sluice).modPow fun p => { p with vin, vinPrev := some vin }
    match s.sys.pow.vinPrev with
    | none => .next s1
    | some prev =>
      let p := s1.active.sluice
      let old := s1.sys.shedStage
      let n := p.deepest prev vin
      if old < n then
        .next (((s1.forEach ((List.range 7).filter fun i => decide (old < i ∧ i ≤ n)) fun i s => s.shedStage i).setStage n).shedEvent true)
      else if 0 < old ∧ s1.sys.pow.shedAt + msec 1 ≤ s1.now ∧ p.restores old prev vin = true then
        match s1.sys.pow.step with
        | some 0 => .next ((restoreTo 5 (s1.undoStep 0)).shedEvent false)
        | some (k + 1) => .next (((s1.undoStep (k + 1)).setStage 6).shedEvent false)
        | none => .next ((restoreTo (old - 1) s1).shedEvent false)
      else .next s1

/-- SHED_STEP: the next step of stage 6, 100 µs after the last while VIN lies below VSHED6 (R466). -/
def execShedStep (t : Instant) (s : State) : Out :=
  let s := s.advanceTo t
  match s.sys.pow.step with
  | some k =>
    if s.sys.shedStage = 6 ∧ k < 8 ∧ s.sys.pow.shedAt + usec 100 ≤ s.now ∧ s.sys.pow.vin < s.active.sluice.level 6 then
      .next (((s.takeStep (k + 1)).setStage 6).shedEvent true)
    else .next s
  | none => .next s

/-! ### SHED_CONFIG (R468) -/

/-- Enabled thresholds strictly descend (R468). -/
def descending (vs : List Nat) : Bool :=
  let on := vs.filter fun v => decide (v ≠ 0)
  (on.zip on.tail).all fun x => decide (x.2 < x.1)

/-- Thresholds that an expert SHED_CONFIG takes. -/
def shedOk (vs : List Nat) : Bool := vs.all (fun v => decide (v = 0 ∨ (280 ≤ v ∧ v ≤ 4200))) && descending vs

/-- The firmware's choice of thresholds for a nominal VIN: free; a free choice that no expert command could make is read as
no shedding. -/
def policyShed (vnom : Nat) : Vector Nat 6 :=
  let vs := (List.range 6).map fun i => Config.policy (0x100 + i) vnom
  if shedOk vs then Vector.ofFn fun i => vs.getD i.val 0 else Vector.replicate 6 0

/-- SHED_CONFIG. -/
def cmdShedConfig (_q : QId) (e : QEntry) (s : State) : Res :=
  let v := e.w 0
  checked e (· == 4) (decide (300 ≤ v ∧ v ≤ 4200)) fun _ =>
    let shed := policyShed v
    let s1 := s.modShadow fun k => { k with sluice := { k.sluice with vnom := v } }
    let s2 := s1.forEach (List.finRange 6) fun i s =>
      (s.writeBasic .sluice 0x9810 (128 + i.val) fun k => { k with sluice := { k.sluice with shed := k.sluice.shed.set i shed[i] } }).writeBasic
        .sluice 0x9810 (134 + i.val) fun k => { k with sluice := { k.sluice with hyst := k.sluice.hyst.set i (clampTo 5 100 (Config.policy (0x106 + i.val) v)) } }
    .ok (wordsLe s2.shadow.sluice.words) s2

/-- Row SHED_CONFIG. -/
def execShedConfig (t : Instant) (q : QId) (s : State) : Out := .next (runCmd t q 0x9010 false cmdShedConfig s)

/-- SHED_CONFIG, expert form. -/
def cmdShedConfigExpert (_q : QId) (e : QEntry) (s : State) : Res :=
  let vs := (List.range 6).map fun i => fieldAt e.cmd.payload (4 + 2 * i) 2
  let hs := (List.range 6).map fun i => fieldAt e.cmd.payload (16 + i) 1
  checked e (· == 24) (decide (e.w 0 = 0) && rsvHigh (e.w 5) 16 && shedOk vs && hs.all fun h => decide (5 ≤ h ∧ h ≤ 100)) fun _ =>
    let s1 := s.forEach (List.finRange 6) fun i s =>
      (s.writeExpert .sluice 0x9810 (128 + i.val) fun k => { k with sluice := { k.sluice with shed := k.sluice.shed.set i (vs.getD i.val 0) } }).writeExpert
        .sluice 0x9810 (134 + i.val) fun k => { k with sluice := { k.sluice with hyst := k.sluice.hyst.set i (hs.getD i.val 0) } }
    .ok (wordsLe s1.shadow.sluice.words) s1

/-- Row SHED_CONFIG, expert form. -/
def execShedConfigExpert (t : Instant) (q : QId) (s : State) : Out := .next (runCmd t q 0x9810 false cmdShedConfigExpert s)

/-- Two signed halfwords of readings. -/
def readingPair (i k : Nat) : Nat := pack [(Config.reading (0x200 + i) k, 16), (Config.reading (0x201 + i) k, 16)]

/-- POWER_STATUS (R480): what the rails measure and the input power are free readings. -/
def cmdPowerStatus (_q : QId) (e : QEntry) (s : State) : Res :=
  checked e (· == 0) true fun _ =>
    let p := s.sys.pow
    let w0 := pack [(s.sys.pstate, 2), (s.sys.shedStage, 3), (p.step.getD 0xF, 4), (flag p.bypass, 1), (flag s.sys.wakeFail, 1), (p.lastSources, 4)]
    let lines := idxMask ((List.finRange 8).filter fun n => s.lanes[n].acq.shed)
    let hosts := idxMask ((List.finRange 16).filter fun n => s.hosts[n].shed)
    let rails := idxMask ((List.finRange 8).filter fun r => p.railOk[r])
    let (k, s1) := s.draw
    .ok (wordsLe [w0, p.vin, pack [(lines, 8), (hosts, 16), (rails, 8)], readingPair 0 k, readingPair 2 k, readingPair 4 k, readingPair 6 k,
      Config.reading 0x208 k]) s1

/-- Row POWER_STATUS. -/
def execPowerStatus (t : Instant) (q : QId) (s : State) : Out := .next (runCmd t q 0x9011 true cmdPowerStatus s)

end Sys2Proof.Machine
end

