-- ==== Sys2Proof/Machine/Wake.lean ====
section
/-! DEFINITION. The device power states: entry into STANDBY, SLEEP and DEEP, the wake sources, the wake and its failures, and the private
transfers, whose address headers are I3C activity. -/
namespace Sys2Proof.Machine

/-! ### WAKE_CONFIG (R474) -/

/-- WAKE_CONFIG. -/
def cmdWakeConfig (_q : QId) (e : QEntry) (s : State) : Res :=
  checked e (· == 8) (rsvHigh (e.w 0) 1) fun _ => .ok [] (s.modPow fun p => { p with wakeEdge := bit (e.w 0) 0, timerMs := e.w 1 })

/-- Row WAKE_CONFIG. -/
def execWakeConfig (t : Instant) (q : QId) (s : State) : Out := .next (runCmd t q 0x9003 false cmdWakeConfig s)

/-! ### POWER_ENTER (R471, R472) -/

/-- Every lane, a host lane written `.relay`. -/
def allLanes : List LaneRef := (List.finRange 8).map LaneRef.line ++ (List.finRange 16).map LaneRef.relay

/-- An on-demand self-test, a calibration or XFER_CAL is running. -/
def State.measuring (s : State) : Bool :=
  s.sys.bist.runs.any (fun r => r.cmd.isSome) ||
    (match s.sys.bist.takeover with | some k => (match k.kind with | .onDemand _ _ => true | _ => false) | none => false) ||
    (List.finRange 8).any (fun n : Fin 8 => decide (s.lanes[n].acq.state = .calibrating) || s.lanes[n].time.xfer.isSome) ||
    (List.finRange 4).any (fun g : Fin 4 => s.hk.gauge[g].calRun.isSome) || (List.finRange 24).any fun j : Fin 24 => s.hk.jets[j].calRun.isSome

/-- A COMMIT is pending, or an epoch is ACCEPTED and its T has not been reached. -/
def State.commitAhead (s : State) : Bool :=
  s.commits.any fun c => decide (c.kind = .commit) || (decide (c.kind = .epoch) && c.settled && s.beforeTc c)

/-- POWER_ENTER is refused with PRECONDITION (R471). -/
def State.enterRefused (s : State) (seq target mask : Nat) : Bool :=
  (bit mask 3 && decide (s.sys.pow.timerMs = 0)) || s.sys.pow.entry.isSome || s.sys.pow.wake.isSome ||
    (decide (2 ≤ target) && ((s.q.q0 ++ s.q.q2).any (fun x => decide (x.phase ≠ .replied ∧ x.seq ≠ seq)) || s.commitAhead || s.measuring ||
      s.sys.fw.reception.isSome))

/-- Preparation: acquisition disarmed, the record port stopped, self-tests to end with their slice, and the lanes sent to L2
(R451, R472). -/
def State.prepare (s : State) (lanes : Bool) : State :=
  let s1 := ((s.disarm 4 []).spwCut 6).modBist fun b => { b with runs := b.runs.map fun r => if r.stop = 0 then { r with stop := 5 } else r }
  if lanes then s1.forEach allLanes fun r s => s.sendPower .l2 r else s1

/-- Preparation has ended. -/
def State.prepared (s : State) : Bool :=
  decide (s.acq.state = .disarmed ∧ s.acq.spw.state = .off) && allLanes.all fun r => decide ((s.powerOf r).1 = .l2)

/-- POWER_ENTER: SLEEP and DEEP reply at once, STANDBY once preparation has ended; the lanes that carry a Q2 reply go down after
it (R472). -/
def cmdPowerEnter (q : QId) (e : QEntry) (s : State) : Res :=
  let target := bits (e.w 0) 0 2
  let mask := bits (e.w 0) 8 4
  checked e (· == 4) (decide (target ≠ 0) && rsv (e.w 0) 2 6 && rsvHigh (e.w 0) 12) fun _ =>
    if s.enterRefused e.seq target mask then .fail .precondition []
    else
      let s1 := s.modPow fun p => { p with
        mask := if target = 1 then mask - mask % 2 else mask
        entry := some { queue := q, seq := e.seq, target, at' := s.now, replied := decide (target ≠ 1) } }
      if target = 1 then .wait (s1.prepare true) else .ok [] (s1.prepare (decide (q ≠ .q2)))

/-- Row POWER_ENTER. -/
def execPowerEnter (t : Instant) (q : QId) (s : State) : Out := .next (runCmd t q 0x9000 true cmdPowerEnter s)

/-- SLEEP_REQUEST: for STANDBY at the end of preparation, with the reply; for SLEEP and DEEP once the reply has been read in full,
has been acknowledged by the first hop, or is 1 ms old (R472). -/
def execSleepRequest (t : Instant) (s : State) : Out :=
  let s := s.advanceTo t
  match s.sys.pow.entry with
  | none => .next s
  | some e =>
    if e.request.isSome then .next s
    else
      let replyGone := decide (e.target = 1) || (s.queueOf e.seq).isNone || s.pastMgmt (e.at' + msec 1)
      let s1 := if replyGone then s.forEach allLanes fun r s => s.sendPower .l2 r else s
      if replyGone ∧ s1.prepared = true then
        let s2 := s1.modPow fun p => { p with entry := some { e with request := some s.now, replied := true } }
        .next (if e.replied then s2 else s2.complete e.seq .ok [])
      else .next s1

/-- Islands that a state turns off are off, and their replicas have to align again (R27, R470). -/
def State.islandsOff (s : State) (off : Nat → Bool) : State :=
  let s1 := s.modSys fun y => { y with islands := vmap y.islands fun i b => b && !off i.val }
  { s1 with replicas := vmap s1.replicas fun i r => { r with aligned := r.aligned && !off i.val } }

/-- Islands off in STANDBY: the lanes, the engines, the port islands, the Rill router, acquisition and the record port (Table
13.5, Table 2.13). -/
def offInStandby (i : Nat) : Bool := decide (i ≤ 42 ∨ i = 44 ∨ (49 ≤ i ∧ i ≤ 56))

/-- What SLEEP stops in the housekeeping block (R431): its sets, tables and queues stay. -/
def House.asleep (h : House) : House :=
  { h with
    gauge := vmap h.gauge fun _ c => { c with cur := none, pass := none, startAt := none, trigs := [], injected := [], calRun := none }
    jets := vmap h.jets fun _ c => { c with notEnabled := true, connected := false, hold := none, tickDue := false, calRun := none }
    pwm := Vector.replicate 8 {}
    timer := Vector.replicate 4 {} }

/-- SLEEP is entered: the Cistern is lost and the servo is in HOLDOVER; REFOUT is low there, as `State.refoutHigh` says (R288,
R431, R470). -/
def State.toSleep (s : State) : State :=
  let s1 := (s.islandsOff fun i => decide (i ≠ 43 ∧ i ≠ 47)).modAcq fun a => { a with records := [], cur := none }
  let s2 := (s1.modHk House.asleep).modSys fun y => { y with pstate := 2 }
  if s.active.servo.source ≠ .free ∧ s.tb.state ≠ .holdover then s2.servoTo .holdover 0x0C else s2

/-- DEEP is entered: what the always-on island, OTP and the locked limits hold stands, all else returns to its reset value
(R46, R288, R431, R470). -/
def State.toDeep (s : State) : State :=
  let d := s.fullReset.alwaysOn s
  { d with limits := if s.limits.locked then s.limits else d.limits }.modSys fun y =>
    { y with pstate := 3, saddrSel := s.sys.saddrSel, pow := { y.pow with held := false } }

/-! ### Sources (R473, R474) -/

/-- Level sources active: WAKE_N low where it is a level, and the expired timer. -/
def Power.levels (p : Power) : Nat := (if !p.wakeEdge && !p.wakeN then 2 else 0) + (if p.timerUp then 8 else 0)

/-- Enabled sources active when a source fires (R479). -/
def Power.sources (p : Power) (fired : Nat) : Nat := (fired ||| p.levels) &&& p.mask

/-- A wake starts, at a stage of Table 13.8 or, from STANDBY and at a cancellation, past them. -/
def State.startWake (s : State) (origin sources stage : Nat) (recovery cancelled : Bool) : State :=
  s.modPow fun p => { p with wake := some { origin, sources, stage, stageAt := s.now, retry := 0, recovery, cancelled } }

/-- An entry is cancelled before the sleep request: the device goes back to RUN as from STANDBY (R472). -/
def State.cancelEntry (s : State) (sources : Nat) : State :=
  match s.sys.pow.entry with
  | none => s
  | some e =>
    let s1 := (s.modPow fun p => { p with entry := none }).startWake e.target sources 4 false true
    if e.replied then s1 else s1.complete e.seq .ok []

/-- A source fires: it cancels an entry, starts a wake, or is ignored (R472, R473, R475 to R478). -/
def State.activity (s : State) (src : Nat) : State :=
  let p := s.sys.pow
  let on := bit p.mask src
  let sources := p.sources (2 ^ src)
  match p.entry with
  | some e => if e.request.isNone && on then s.cancelEntry sources else s
  | none =>
    if p.wake.isSome ∨ p.retryOf.isSome then s
    else if p.stuck then (if src = 0 then s.startWake 3 1 1 true false else s)
    else if on = false then s
    else match s.sys.pstate with
      | 1 => s.startWake 1 sources 4 false false
      | 2 => s.startWake 2 sources 1 false false
      | 3 => s.startWake 3 sources 1 false false
      | _ => s

/-- WAKE_SOURCE: 0 an address header at the dynamic address, 1 the level of WAKE_N (active low), 2 a PPS_IN edge, 3 the expired
timer seen again. -/
def execWakeSource (t : Instant) (src : Fin 4) (active : Bool) (s : State) : Out :=
  let s := s.advanceTo t
  match src.val with
  | 1 =>
    let falls := s.sys.pow.wakeN && active
    let s1 := s.modPow fun p => { p with wakeN := !active }
    .next (if (s.sys.pow.wakeEdge && falls) || (!s.sys.pow.wakeEdge && active) then s1.activity 1 else s1)
  | 3 => .next (if s.sys.pow.timerUp then s.activity 3 else s)
  | k => .next (if active ∧ (k = 0 → s.bus.dynAddr.isSome) then s.activity k else s)

/-- ALWAYS_ON_TIMER: TIMER_MS milliseconds, to 0.1 %, after cycle 4 of the entry. -/
def execAlwaysOnTimer (t : Instant) (s : State) : Out :=
  let s := s.advanceTo t
  match s.sys.pow.timerFrom with
  | some a =>
    if 1000 * a + 999 * msec s.sys.pow.timerMs ≤ 1000 * s.now then
      .next ((s.modPow fun p => { p with timerFrom := none, timerUp := true }).activity 3)
    else .next s
  | none => .next s

/-- POWER_STATE_ENTRY: cycle 4 of the entry window, 160 ns after the request: the state is entered, the timer starts, and an active
level source wakes the device at once (R472, R473). -/
def execPowerStateEntry (t : Instant) (s : State) : Out :=
  let s := s.advanceTo t
  match s.sys.pow.entry with
  | none => .next s
  | some e =>
    match e.request with
    | none => .next s
    | some r =>
      if s.now < r + nsec 160 then .next s
      else
        let s1 := (s.endTests (s.sys.bist.runs.map TestRun.id) 5).modPow fun p => { p with entry := none }
        let s2 := match e.target with
          | 1 => (s1.islandsOff offInStandby).modSys fun y => { y with pstate := 1 }
          | 2 => s1.toSleep
          | _ => s1.toDeep
        let s3 := s2.modPow fun p => { p with timerFrom := if bit p.mask 3 then some s.now else none, timerUp := false }
        .next (if bit s3.sys.pow.mask 1 ∧ s3.sys.pow.levels ≠ 0 then s3.activity 1 else s3)

/-! ### Wake stages and failures (R475, R476) -/

/-- The device is in the stuck state: DEEP, with FAULT_N asserted (R476). -/
def State.getStuck (s : State) : State :=
  (if s.sys.pstate = 3 then s else s.toDeep).modPow fun p => { p with stuck := true, wake := none, retryOf := none, restricted := none }

/-- WAKE_STAGE_COMPLETE: the stage in progress completes; after the last, a device that wakes from DEEP runs its boot ROM. -/
def execWakeStageComplete (t : Instant) (s : State) : Out :=
  let s := s.advanceTo t
  match s.sys.pow.wake with
  | none => .next s
  | some w =>
    if w.stage = 0 ∨ 3 < w.stage then .next s
    else
      let s1 := s.modPow fun p => { p with wake := some { w with stage := w.stage + 1, stageAt := s.now } }
      .next (if w.stage = 3 ∧ w.origin = 3 then (s1.modSys fun y => { y with pstate := 4 }).modFw fun f => { f with romDue := some .deep } else s1)

/-- WAKE_STAGE_TIMEOUT: a stage has lasted 2 ms: a wake failure, recorded, with the rails out of window; a recovery attempt that
fails leaves the device stuck (R476, R477). -/
def execWakeStageTimeout (t : Instant) (rails : Nat) (s : State) : Out :=
  let s := s.advanceTo t
  match s.sys.pow.wake with
  | none => .next s
  | some w =>
    if w.stage = 0 ∨ 3 < w.stage ∨ s.pastAlwaysOn (w.stageAt + msec 2) = false then .next s
    else
      let f : WakeFailure := { stage := w.stage, retry := w.retry, origin := w.origin, rails := if w.stage = 1 then rails % 256 else 0 }
      let s1 := (s.modSys fun y => { y with wakeFail := true }).modPow fun p => { p with
        failures := (p.failures ++ [f]).take 4, wake := none, retryOf := if w.recovery then none else some (s.now, w) }
      .next s1

/-- WAKE_RETRY: 10 ms after a failure the wake is tried again, whatever the sources do; after three retries the device is stuck. -/
def execWakeRetry (t : Instant) (s : State) : Out :=
  let s := s.advanceTo t
  match s.sys.pow.retryOf with
  | none => .next s
  | some (a, w) =>
    if s.now < a + msec 10 then .next s
    else if 3 ≤ w.retry then .next s.getStuck
    else .next (s.modPow fun p => { p with retryOf := none, wake := some { w with stage := 1, stageAt := s.now, retry := w.retry + 1 } })

/-! ### Command-ready, and POWER_RECOVER (R475 to R479) -/

/-- The WAKE event (R479). -/
def State.wakeEvent (s : State) (w : Wake) : State :=
  (s.event 0xE041 0 (wordsLe [pack [(w.sources, 4), (w.origin, 2), (flag w.cancelled, 1), (flag w.recovery, 1), (w.retry + 1, 3)]] ++
    s.stampMgmt.bytes)).modPow fun p => { p with lastSources := w.sources }

/-- The WAKE_FAIL event of a recorded failure, and its log entry (R476, Table 14.5). -/
def State.wakeFailEvent (s : State) (f : WakeFailure) : State :=
  let w0 := pack [(f.stage, 2), (0, 2), (f.retry, 2), (f.origin, 2), (f.rails, 8)]
  (s.event 0xE042 0 (wordsLe [w0])).logEntry 0x0402 0 2 0xFFFF [w0]

/-- COMMAND_READY: the device is in RUN, its lanes leave L2, and failures and the wake are reported; after a recovery attempt the
WAKE event waits for POWER_RECOVER. -/
def execCommandReady (t : Instant) (s : State) : Out :=
  let s := s.advanceTo t
  match s.sys.pow.wake with
  | none => .next s
  | some w =>
    if w.stage ≠ 4 ∨ (w.origin = 3 ∧ w.cancelled = false ∧ s.sys.booted = false) then .next s
    else
      let s1 := s.modSys fun y => { y with
        pstate := 0
        islands := if w.origin = 1 ∧ w.cancelled = false then vmap y.islands fun i b => b || (offInStandby i.val && !s.absentIsland i) else y.islands
        pow := { y.pow with wake := if y.pow.restricted.isSome then some { w with stage := 5 } else none, timerFrom := none, timerUp := false, failures := [] } }
      let s2 := (s1.lanesBack).forEach s.sys.pow.failures fun f s => s.wakeFailEvent f
      let s3 := if s.sys.pow.restricted.isSome then s2 else s2.wakeEvent w
      .next (s3.forEach (s3.q.all.filter fun e => decide (e.phase = .running ∧ e.cmd.op = 0x9001)) fun e s => s.complete e.seq .ok []).sweep

/-- POWER_RECOVER (R477, R478): the WAKE event of a recovery attempt follows it, at once where the device is command-ready. -/
def cmdPowerRecover (_q : QId) (e : QEntry) (s : State) : Res :=
  checked e (· == 0) true fun _ =>
    let s1 := s.modSys fun y => { y with wakeFail := false, pow := { y.pow with failures := [], restricted := none } }
    if s.sys.pow.restricted.isSome then
      match s.sys.pow.wake with
      | some w => .ok [] (if w.stage = 5 then (s1.modPow fun p => { p with wake := none }).wakeEvent w else s1)
      | none => .ok [] s1
    else if s.sys.pstate = 1 then .wait (if s.sys.pow.wake.isSome then s1 else s1.startWake 1 (s.sys.pow.sources 0) 4 false false)
    else .ok [] s1

/-- Row POWER_RECOVER. -/
def execPowerRecover (t : Instant) (q : QId) (s : State) : Out := .next (runCmd t q 0x9001 true cmdPowerRecover s)

/-- RECOVERY_WINDOW_EXPIRY: no POWER_RECOVER within 1 s of BOOT_DONE (R477). -/
def execRecoveryWindowExpiry (t : Instant) (s : State) : Out :=
  let s := s.advanceTo t
  match s.sys.pow.restricted with
  | some a => .next (if s.pastMgmt (a + secs 1) then s.toDeep.getStuck else s)
  | none => .next s

/-! ### Private transfers (R56, R472, R473) -/

/-- PRIVATE_WRITE: at the dynamic address it cancels an entry before the sleep request, and in SLEEP and DEEP it is I3C
activity. -/
def execPrivateWrite (t : Instant) (addr : Nat) (hdr : Option Nat) (err : Bool) (bytes : List Byte) (s : State) : Out :=
  let s := s.advanceTo t
  let before : Bool := match s.sys.pow.entry with | some e => e.request.isNone | none => false
  let s1 :=
    if s.bus.dynAddr ≠ some addr then s
    else if before then s.cancelEntry (s.sys.pow.sources 1)
    else if s.sys.pstate = 2 ∨ s.sys.pstate = 3 then s.activity 0
    else s
  .next (s1.privateWrite addr hdr err bytes)

/-- PRIVATE_READ: in SLEEP and DEEP its address header is I3C activity. -/
def execPrivateRead (t : Instant) (addr : Nat) (hdr : Option Nat) (n : Nat) (s : State) : Out :=
  let s := s.advanceTo t
  let s1 := if s.bus.dynAddr = some addr ∧ (s.sys.pstate = 2 ∨ s.sys.pstate = 3) then s.activity 0 else s
  .next (s1.privateRead addr hdr n)

end Sys2Proof.Machine
end

