-- ==== Sys2Proof/Machine/Boot.lean ====
section
/-! DEFINITION. Images, the boot ROM, the configuration body, BOOT_DONE and updating. -/
namespace Sys2Proof.Machine

/-! ### Images (R483, R486) -/

/-- Value of the anti-rollback counter (R500). -/
def Firmware.counter (f : Firmware) : Nat := f.rollback.headD 0

/-- Firmware slots are 0 and 1, configuration slots 2 and 3 (R492). -/
def isConfigSlot (i : Fin 4) : Bool := decide (2 ≤ i.val)

/-- The slot of a firmware image. -/
def fwSlot (i : Fin 2) : Fin 4 := ⟨i.val, by omega⟩

/-- The slot of a configuration image. -/
def cfgSlotOf (i : Fin 2) : Fin 4 := ⟨2 + i.val, by omega⟩

/-- Verification of an image in a slot: the step that fails and its status (R486). -/
def Firmware.verifyImage (f : Firmware) (optionW : Bool) (slot : Fin 4) (x : Image) : Option (Nat × Status) :=
  let known := match x.keySlot with | some k => f.keys[k] && !f.revoked[k] | none => false
  if x.headerOk = false ∨ x.config ≠ isConfigSlot slot ∨ bit x.options (flag optionW) = false then some (1, .authFailed)
  else if known = false then some (2, .authFailed)
  else if x.sigOk = false then some (3, .authFailed)
  else if x.digestOk = false then some (4, .authFailed)
  else if x.rollback < f.counter then some (5, .rollback)
  else none

/-- A slot holds an image that verifies now. -/
def Firmware.verifies (f : Firmware) (optionW : Bool) (slot : Fin 4) : Bool :=
  match f.slots[slot].image with
  | some x => f.slots[slot].verified && (f.verifyImage optionW slot x).isNone
  | none => false

/-- The image of the running firmware, and that of the configuration in use. -/
def Firmware.running (f : Firmware) : Option Image := f.runSlot.bind fun i => f.slots[fwSlot i].image
/-- The image of the configuration in use. -/
def Firmware.config (f : Firmware) : Option Image := f.cfgSlot.bind fun i => f.slots[cfgSlotOf i].image

/-- Bytes of a slot from an offset on. -/
def Slot.field (x : Slot) (off n : Nat) : List Byte := (x.data.filter fun d => decide (off ≤ d.1 ∧ d.1 < off + n)).map Prod.snd

/-- A little-endian word of a slot. -/
def Slot.word (x : Slot) (i : Nat) : Nat := ofLe (x.field (4 * i) 4)

/-- The image a slot's bytes spell (Table 14.2); what the hashes and the signature come to is given. -/
def Slot.parse (x : Slot) (bytes : Nat) (key : Option (Fin 4)) (sigOk digestOk : Bool) : Image :=
  let w1 := x.word 1
  let body := x.word 5
  let load := x.word 6
  let config := decide (bits w1 8 8 = 2)
  let cap := if config then 65536 else 4194304
  { headerOk := decide (x.word 0 = 0x3208A55A ∧ bits w1 0 8 = 1 ∧ (bits w1 8 8 = 1 ∨ bits w1 8 8 = 2)) && rsvHigh w1 18 &&
      decide (512 + body ≤ bytes ∧ 512 + body ≤ cap ∧ x.word 7 = 0) && (x.field 272 240).all (fun b => decide (b = 0)) &&
      (if config then decide (load = 0) else decide (load % 4 = 0 ∧ load ≤ 1572864 ∧ load ≤ body))
    config, options := bits w1 16 2, version := x.word 2, rollback := ofLe (x.field 12 8), keySlot := key, sigOk, digestOk
    digest := x.field 128 48, body := x.field 512 body }

/-! ### Boot records (R487) -/

/-- The place of the record that governs. -/
def Firmware.governs (f : Firmware) : Fin 2 := if f.records[0].seq < f.records[1].seq then 1 else 0

/-- The governing boot record. -/
def Firmware.record (f : Firmware) : BootRecord := f.records[f.governs]

/-- A boot record is written over the other one. -/
def Firmware.writeRecord (f : Firmware) (r : BootRecord) : Firmware :=
  let other : Fin 2 := 1 - f.governs
  { f with records := f.records.set other { r with seq := f.record.seq + 1 } }

/-! ### Configuration bodies (R484, R485) -/

/-- What a configuration body holds: its packets, its CMIS section, and what counts in CONFIG_ERRORS before anything runs. -/
structure ConfigBody where
  cmds : List Cmd := []
  cmis : Option (List Byte) := none
  errors : Nat := 0
  deriving DecidableEq, Repr

/-- A body read from its start, packet by packet. -/
def readConfig : Nat → List Byte → ConfigBody
  | 0, _ => {}
  | fuel + 1, bs =>
    if bs = [] then {}
    else
      let w0 := wordAt bs 0
      if bits w0 0 8 = 0xA5 then
        let n := 12 + 4 * ceilDiv (bits w0 16 16) 4
        let rest := readConfig fuel (bs.drop n)
        match checkPacket (bs.take n) false 15 with
        | .good _ c => { rest with cmds := c :: rest.cmds }
        | _ => { rest with errors := rest.errors + 1 }
      else if w0 = 0x434D4953 then
        let n := wordAt bs 1
        let tail := bs.drop (8 + 4 * ceilDiv n 4)
        if 4 ≤ n ∧ n ≤ 32768 ∧ 8 + n ≤ bs.length then { cmis := some ((bs.drop 8).take n), errors := if tail = [] then 0 else 1 } else { errors := 1 }
      else { errors := 1 }

/-- The configuration body of an image. -/
def Image.configBody (x : Image) : ConfigBody := readConfig (x.body.length + 1) x.body

/-- The configuration in use has a CMIS section. -/
def Firmware.hasCmis (f : Firmware) : Bool := match f.config with | some x => x.configBody.cmis.isSome | none => false

/-! ### The boot ROM (R488, R491, R503, R504, R506) -/

/-- The boot record after a boot begins: the count, and the trial's tries or its end; the flag notes a fallback. -/
def BootRecord.boot (r : BootRecord) : BootRecord × Bool :=
  let r1 := { r with count := satAdd 32 r.count 1 }
  if r.trial = false then (r1, false)
  else if 2 ≤ r.tries then ({ r1 with trial := false, tries := 0, fw := 1 - r.fw }, true)
  else ({ r1 with tries := r.tries + 1 }, false)

/-- What the boot ROM decides: the record, the slots it starts, and a fallback. -/
def Firmware.bootRom (f : Firmware) (optionW : Bool) : Firmware :=
  let (r, fell) := f.record.boot
  let f1 := f.writeRecord r
  let run := if f1.verifies optionW (fwSlot r.fw) then some r.fw else if f1.verifies optionW (fwSlot (1 - r.fw)) then some (1 - r.fw) else none
  let cfg := if f1.verifies optionW (cfgSlotOf r.cfg) then some r.cfg else if f1.verifies optionW (cfgSlotOf (1 - r.cfg)) then some (1 - r.cfg) else none
  { f1 with
    runSlot := run, cfgSlot := if run.isSome then cfg else none, trial := r.trial && decide (run = some r.fw)
    fallback := fell || (run.isSome && decide (run ≠ some r.fw)), recovery := run.isNone
    dbgScope := none, halted := false, dbgOut := none, reception := none, configErrors := 0 }

/-- The firmware takes the commands of a configuration body into Q3, as it has room for them (R74, R484). -/
def State.queueConfig (s : State) (x : Image) : State :=
  let b := x.configBody
  let s1 := s.forEach b.cmds fun c s => s.toQ3 c true
  s1.modFw fun f => { f with configErrors := min b.errors 255 }

/-- BOOT_ROM_RUN: after a reset release, a wake from DEEP, a watchdog expiry before BOOT_DONE, or an activation with NOW; a restart
over a running data path executes no configuration. -/
def execBootRomRun (t : Instant) (s : State) : Out :=
  let s := s.advanceTo t
  match s.sys.fw.romDue with
  | none => .next s
  | some kind =>
    if s.sys.pow.held ∨ s.sys.pow.powered = false then .next s
    else
      let f := s.sys.fw.bootRom s.sys.optionW
      let logSeq := match s.sys.fw.flashLog.getLast? with | some e => (e.seq + 1) % 2 ^ 32 | none => 0
      let s1 : State := { s with
        q := { s.q with q3 := s.q.q3.filter fun e => !e.local' }
        sys := { s.sys with
          booted := false, pstate := if kind = .restart then s.sys.pstate else 4, bootCount := f.record.count, log := [], logSeq
          fw := { f with romDue := none, boot := some (kind, s.now), fromDeep := decide (kind = .deep), q3Wait := f.q3Wait.filter fun c => !c.2 } } }
      let s2 := (s1.forEach s.sys.pow.shutRails fun r s => s.logEntry 0x0403 0 2 0xFFFF [r]).modPow fun p => { p with shutRails := [] }
      .next (match kind, f.recovery, f.config with
        | .restart, _, _ => s2
        | _, false, some x => s2.queueConfig x
        | _, _, _ => s2).sweep

/-! ### BOOT_DONE (R489, R490) -/

/-- RUN_SLOT (R490). -/
def Firmware.runCode (f : Firmware) : Nat := match f.runSlot with | some i => i.val | none => 0xF

/-- CFG_SLOT (R490). -/
def Firmware.cfgCode (f : Firmware) : Nat := match f.cfgSlot with | some i => 2 + i.val | none => 0xF

/-- FW_VERSION: 0 in recovery. -/
def Firmware.version (f : Firmware) : Nat := match f.running with | some x => x.version | none => 0

/-- The firmware confirms its image: TRIAL is cleared, and the counter advances where the image's index exceeds it (R489, R500). -/
def State.confirm (s : State) : State :=
  match s.sys.fw.running with
  | none => s
  | some x =>
    let f := s.sys.fw
    let s1 := s.modFw fun f =>
      let f1 := { f with trial := false }
      if f.trial then f1.writeRecord { f.record with trial := false, tries := 0 } else f1
    if f.counter < x.rollback ∧ f.rollback.length < 64 then
      (s1.modFw fun f => { f with rollback := x.rollback :: f.rollback }).logEntry 0x0504 0 0 0xFFFF [x.rollback % 2 ^ 32, x.rollback / 2 ^ 32]
    else s1

/-- BOOT_DONE: once the configuration has run and no fault is being recovered from, the firmware, or the boot ROM in recovery,
reports it by IBI 0x01 and by the event. -/
def execBootDone (t : Instant) (s : State) : Out :=
  let s := s.advanceTo t
  match s.sys.fw.boot with
  | none => .next s
  | some (kind, at') =>
    if s.sys.recovering ∨ s.sys.fw.halted ∨ s.q.q3.any (fun e => e.local') = true then .next s
    else
      let f := s.sys.fw
      let w1 := pack [(f.runCode, 4), (flag f.trial, 1), (flag f.fallback, 1), (flag f.recovery, 1), (flag f.activated, 1), (flag f.fromDeep, 1),
        (flag f.cfgSlot.isNone, 1), (0, 6), (f.configErrors, 8)]
      let s1 := s.confirm.modSys fun y => { y with
        booted := true, pstate := if kind = .restart then y.pstate else 0
        fw := { y.fw with boot := none, activated := false }
        pow := { y.pow with restricted := match y.pow.wake with | some w => if w.recovery then some s.now else y.pow.restricted | none => y.pow.restricted } }
      let s2 : State := { s1 with bus := { s1.bus with ibiBoot := s1.bus.ibiBoot || s1.bus.enint } }
      let s3 := s2.event 0xE000 0 (wordsLe [f.version, w1, s.sys.bootCount % 65536, s.microsSince at'])
      .next (s3.logEntry 0x0501 0 0 0xFFFF [w1, f.version]).sweep

/-! ### Updates (R492 to R496) -/

/-- A slot changed. -/
def Firmware.modSlot (f : Firmware) (i : Fin 4) (g : Slot → Slot) : Firmware := { f with slots := upd f.slots i g }

/-- The slot runs, or is named active in the governing boot record. -/
def Firmware.inUse (f : Firmware) (i : Fin 4) : Bool :=
  decide (f.runSlot.map fwSlot = some i ∨ f.cfgSlot.map cfgSlotOf = some i ∨ fwSlot f.record.fw = i ∨ cfgSlotOf f.record.cfg = i)

/-- The slot is marked invalid, erased and opened for reception. -/
def Firmware.open' (f : Firmware) (i : Fin 4) (bytes : Nat) (rill : Bool) : Firmware :=
  { f.modSlot i fun _ => {} with reception := some (i, bytes, rill) }

/-- The slot of a payload's W0 [1:0]. -/
def slotOf (w : Nat) : Fin 4 := ⟨bits w 0 2, by simp only [bits]; omega⟩

/-- UPDATE_BEGIN. -/
def cmdUpdateBegin (_q : QId) (e : QEntry) (s : State) : Res :=
  let i := slotOf (e.w 0)
  let bytes := e.w 1
  checked e (· == 8) (rsvHigh (e.w 0) 2 && decide (512 ≤ bytes ∧ bytes ≤ if isConfigSlot i then 65536 else 4194304)) fun _ =>
    if s.sys.fw.inUse i then .fail .precondition []
    else if s.sys.fw.reception.isSome then .fail .resourceBusy []
    else .ok [] (s.modFw fun f => f.open' i bytes false)

/-- Row UPDATE_BEGIN. -/
def execUpdateBegin (t : Instant) (q : QId) (s : State) : Out := .next (runCmd t q 0xA000 false cmdUpdateBegin s)

/-- Two ascending lists of bytes by offset, as one. -/
def mergeBytes (old new : List (Nat × Byte)) : List (Nat × Byte) :=
  let lo := match new.head? with | some x => x.1 | none => 0
  let hi := lo + new.length
  old.filter (fun x => decide (x.1 < lo)) ++ new ++ old.filter fun x => decide (hi ≤ x.1)

/-- Bytes at an offset agree with those a slot holds. -/
def Slot.agrees (x : Slot) (new : List (Nat × Byte)) : Bool :=
  x.data.all fun d => match new.find? fun n => decide (n.1 = d.1) with | some n => decide (n.2 = d.2) | none => true

/-- Bytes by offset. -/
def offsets (off : Nat) (bs : List Byte) : List (Nat × Byte) := (List.range bs.length).zip bs |>.map fun x => (off + x.1, x.2)

/-- UPDATE_CHUNK. -/
def cmdUpdateChunk (_q : QId) (e : QEntry) (s : State) : Res :=
  let n := bits (e.w 0) 0 11
  let off := e.w 1
  checked e (fun l => decide (8 ≤ l ∧ l = 8 + n)) (decide (1 ≤ n ∧ n ≤ 1016) && rsvHigh (e.w 0) 11) fun _ =>
    match s.sys.fw.reception with
    | some (i, bytes, false) =>
      let new := offsets off (e.cmd.payload.drop 8)
      if bytes < off + n then .fail .badParam []
      else if s.sys.fw.slots[i].agrees new then .ok [] (s.modFw fun f => f.modSlot i fun x => { x with data := mergeBytes x.data new })
      else .fail .precondition []
    | _ => .fail .precondition []

/-- Row UPDATE_CHUNK. -/
def execUpdateChunk (t : Instant) (q : QId) (s : State) : Out := .next (runCmd t q 0xA001 false cmdUpdateChunk s)

/-- The reception closes and its slot is verified; the status is logged (R486, R494, Table 14.5). -/
def State.closeReception (s : State) (i : Fin 4) (bytes : Nat) (key : Option (Fin 4)) (sigOk digestOk : Bool) : Option Status × Image × State :=
  let x := s.sys.fw.slots[i].parse bytes key sigOk digestOk
  let bad := (s.sys.fw.verifyImage s.sys.optionW i x).map Prod.snd
  let s1 := s.modFw fun f => { f.modSlot i fun y => if bad.isNone then { y with image := some x, verified := true } else { y with image := none, verified := false }
    with reception := none }
  let st := (bad.map Status.code).getD 0
  (bad, x, s1.logEntry 0x0502 0 (if bad.isSome then 2 else 0) 0xFFFF [pack [(i.val, 2), (0, 14), (st, 16)], x.version])

/-- UPDATE_END: which key-hash slot the hash of PUBKEY equals, and whether SIGNATURE and DIGEST hold, are given. -/
def cmdUpdateEnd (key : Option (Fin 4)) (sigOk digestOk : Bool) (_q : QId) (e : QEntry) (s : State) : Res :=
  checked e (· == 0) true fun _ =>
    match s.sys.fw.reception with
    | some (i, bytes, false) =>
      if s.sys.fw.slots[i].data.length < bytes then .fail .precondition []
      else match s.closeReception i bytes key sigOk digestOk with
        | (some st, _, s1) => .failWith st [] s1
        | (none, x, s1) => .ok (wordsLe [x.version] ++ leBytes 8 x.rollback ++
            wordsLe [pack [((x.keySlot.map Fin.val).getD 0xF, 4), (0, 4), (if x.config then 2 else 1, 8)]]) s1
    | _ => .fail .precondition []

/-- Row UPDATE_END. -/
def execUpdateEnd (t : Instant) (q : QId) (key : Option (Fin 4)) (sigOk digestOk : Bool) (s : State) : Out :=
  .next (runCmd t q 0xA002 false (cmdUpdateEnd key sigOk digestOk) s)

/-- A failed authentication is logged (R499, Table 14.5). -/
def State.logAuth (s : State) (op step : Nat) : State := s.logEntry 0x0507 0 2 0xFFFF [pack [(op, 16), (step, 8)]]

/-- The boot record that an activation writes. -/
def Firmware.activate (f : Firmware) (i : Fin 4) : Firmware :=
  f.writeRecord (match i with
    | 0 => { f.record with fw := 0, trial := true, tries := 0 }
    | 1 => { f.record with fw := 1, trial := true, tries := 0 }
    | 2 => { f.record with cfg := 0 }
    | 3 => { f.record with cfg := 1 })

/-- The processor restarts into the boot ROM: an open reception is closed (R495, R496). -/
def State.restartNow (s : State) : State :=
  s.modSys fun y => { y with
    booted := false
    fw := { y.fw with romDue := some (if y.fw.recovery then .reset else .restart), activated := true, reception := none } }

/-- UPDATE_ACTIVATE. -/
def cmdUpdateActivate (_q : QId) (e : QEntry) (s : State) : Res :=
  let i := slotOf (e.w 0)
  let now := bit (e.w 0) 8
  let f := s.sys.fw
  checked e (· == 4) (rsv (e.w 0) 2 6 && rsvHigh (e.w 0) 9 && !(now && isConfigSlot i)) fun _ =>
    match f.slots[i].image with
    | none => .fail .precondition []
    | some x =>
      if f.slots[i].verified = false ∨ (now ∧ (s.q.q0 ++ s.q.q2).any (fun y => decide (y.phase ≠ .replied ∧ y.seq ≠ e.seq)) = true) then
        .fail .precondition []
      else match f.verifyImage s.sys.optionW i x with
        | some (step, st) => .failWith st [] (if st = .authFailed then s.logAuth 0xA003 step else s)
        | none => .ok [] (((s.modFw fun f => f.activate i).logEntry 0x0503 0 0 0xFFFF [pack [(i.val, 2), (0, 6), (flag now, 1)]]))

/-- Row UPDATE_ACTIVATE: with NOW the processor restarts after the reply. -/
def execUpdateActivate (t : Instant) (q : QId) (s : State) : Out :=
  let s1 := runCmd t q 0xA003 false cmdUpdateActivate s
  let done : Bool := match (s.advanceTo t).acceptable q with
    | some e => decide (e.cmd.op = 0xA003) && bit (e.w 0) 8 && decide (s1.sys.fw.record.seq ≠ s.sys.fw.record.seq)
    | none => false
  .next (if done then s1.restartNow else s1)

end Sys2Proof.Machine
end

