-- ==== Sys2Proof/Machine/Identity.lean ====
section
/-! DEFINITION. Identity, attestation, keys, the event log, the debug port and the CMIS window. -/
namespace Sys2Proof.Machine

/-! ### Identity and attestation (R490, R501, R502) -/

/-- SERIAL as two words. -/
def State.serialBytes (s : State) : List Byte := leBytes 8 s.sys.serial

/-- VERSION of the configuration in use, 0 when none. -/
def Firmware.cfgVersion (f : Firmware) : Nat := match f.config with | some x => x.version | none => 0

/-- The mask-programmed boot ROM's version: open. -/
def romVersion : Nat := Config.reading 0x1001 0

/-- IDENTIFY. -/
def cmdIdentify (_q : QId) (e : QEntry) (s : State) : Res :=
  checked e (· == 0) true fun _ =>
    let f := s.sys.fw
    let w4 := pack [(f.runCode, 4), (flag f.trial, 1), (flag f.recovery, 1), (flag s.limits.locked, 1), (flag f.dbgScope.isSome, 1), (f.cfgCode, 4), (0, 4),
      (s.sys.bootCount, 16)]
    .ok (wordsLe [pack [(0x3208, 16), (flag s.sys.optionW, 4), (0, 4), (0xB0, 8)]] ++ leBytes 6 s.pid ++ leBytes 2 0 ++ wordsLe [f.version, w4] ++
      s.serialBytes ++ wordsLe [romVersion, f.cfgVersion, s.sys.bootCount]) s

/-- Row IDENTIFY. -/
def execIdentify (t : Instant) (q : QId) (s : State) : Out := .next (runCmd t q 0x1000 true cmdIdentify s)

/-- A byte string cut or padded with zeros to a length. -/
def fitTo (n : Nat) (bs : List Byte) : List Byte := (bs ++ List.replicate n 0).take n

/-- The signed part of the attestation report (Table 14.3). -/
def State.attestBody (s : State) (nonce : List Byte) : List Byte :=
  let f := s.sys.fw
  let st := s.stampMgmt
  let w0 := pack [(1, 8), (0xB0, 8), (flag s.sys.optionW, 4), (f.runCode, 4), (flag f.trial, 1), (flag f.recovery, 1), (flag s.limits.locked, 1),
    (flag f.dbgScope.isSome, 1), (f.dbgScope.getD 0, 4)]
  let w8 := pack [((f.running.bind fun x => x.keySlot.map Fin.val).getD 0xF, 4), (idxMask ((List.finRange 4).filter fun k => f.revoked[k]), 4),
    (64 - f.rollback.length, 8), (s.sys.faultEpoch, 8), (f.cfgCode, 4)]
  wordsLe [w0] ++ s.serialBytes ++ wordsLe [f.version] ++ leBytes 8 ((f.running.map Image.rollback).getD 0) ++ leBytes 8 f.counter ++
    wordsLe [w8, romVersion, f.cfgVersion] ++ fitTo 48 ((f.running.map Image.digest).getD []) ++ fitTo 48 ((f.config.map Image.digest).getD []) ++
    wordsLe [pack [(s.sys.bootCount, 16), (f.configErrors, 8)]] ++ timeWords st.time ++ wordsLe [pack [(flag st.valid, 1), (flag s.tb.timeValid, 1)]] ++ nonce

/-- ATTEST: the signature of the security engine is given. -/
def cmdAttest (sig : List Byte) (_q : QId) (e : QEntry) (s : State) : Res :=
  checked e (· == 32) true fun _ => .ok (s.attestBody e.cmd.payload ++ fitTo 96 sig) s

/-- Row ATTEST. -/
def execAttest (t : Instant) (q : QId) (sig : List Byte) (s : State) : Out := .next (runCmd t q 0xA010 false (cmdAttest sig) s)

/-- TOTAL of the certificate chain. -/
def certTotal : Nat := Config.certLength % 16384 + 1

/-- CERT_READ. -/
def cmdCertRead (_q : QId) (e : QEntry) (s : State) : Res :=
  let n := bits (e.w 0) 0 10
  let off := e.w 1
  checked e (· == 8) (decide (1 ≤ n ∧ n ≤ 1012 ∧ off < certTotal) && rsvHigh (e.w 0) 10) fun _ =>
    .ok (wordsLe [certTotal, off] ++ (List.range (min n (certTotal - off))).map fun i => Config.certByte (off + i)) s

/-- Row CERT_READ. -/
def execCertRead (t : Instant) (q : QId) (s : State) : Out := .next (runCmd t q 0xA011 true cmdCertRead s)

/-! ### Keys (R497 to R499) -/

/-- A key-hash slot is programmed and not revoked. -/
def Firmware.keyLive (f : Firmware) (k : Fin 4) : Bool := f.keys[k] && !f.revoked[k]

/-- KEY_REVOKE: whether PUBKEY matches KEY_SLOT's hash, and whether SIGNATURE holds, are given. -/
def cmdKeyRevoke (keyOk sigOk : Bool) (_q : QId) (e : QEntry) (s : State) : Res :=
  let w := e.w 0
  let f := s.sys.fw
  match idx? 4 (bits w 8 8), idx? 4 (bits w 16 8) with
  | some target, some key =>
    checked e (· == 204) (decide (bits w 0 8 = 1) && rsvHigh w 24) fun _ =>
      if f.keyLive key = false ∨ keyOk = false then .failWith .authFailed [] (s.logAuth 0xA040 2)
      else if fieldAt e.cmd.payload 4 8 ≠ s.sys.serial then .failWith .authFailed [] (s.logAuth 0xA040 0)
      else if sigOk = false then .failWith .authFailed [] (s.logAuth 0xA040 3)
      else if f.keyLive target = false ∨ ((List.finRange 4).filter f.keyLive).length ≤ 1 ∨ f.running.bind Image.keySlot = some target then .fail .precondition []
      else
        let s1 := s.modFw fun f => { f with
          revoked := f.revoked.set target true
          slots := vmap f.slots fun _ x => if x.image.bind Image.keySlot = some target then { x with verified := false } else x }
        .ok [] (s1.logEntry 0x0505 0 2 0xFFFF [pack [(target.val, 4), (key.val, 4)]])
  | _, _ => if e.len = 204 then .fail .badParam [] else .fail .badLength []

/-- Row KEY_REVOKE. -/
def execKeyRevoke (t : Instant) (q : QId) (keyOk sigOk : Bool) (s : State) : Out := .next (runCmd t q 0xA040 false (cmdKeyRevoke keyOk sigOk) s)

/-! ### The event log (R503 to R505) -/

/-- The 48 bytes of an entry (Table 14.4). -/
def LogEntry.bytes (e : LogEntry) : List Byte :=
  wordsLe [e.seq, pack [(e.code, 16), (e.cls, 8), (e.severity, 2), (flag e.inFlash, 1)], pack [(e.source, 16), (e.boot, 16)]] ++ timeWords e.stamp.time ++
    wordsLe [pack [(flag e.stamp.valid, 1), (flag e.timeValid, 1)]] ++ fitTo 20 (wordsLe e.detail)

/-- SEQ at or above another, modulo 2³². -/
def seqFrom (seq base : Nat) : Bool := decide ((seq + 2 ^ 32 - base) % 2 ^ 32 < 2 ^ 31)

/-- LOG_READ. -/
def cmdLogRead (_q : QId) (e : QEntry) (s : State) : Res :=
  let w := e.w 0
  let n := bits w 8 5
  checked e (· == 8) (rsv w 1 7 && rsvHigh w 13 && decide (1 ≤ n ∧ n ≤ 21)) fun _ =>
    let held := if bit w 0 then s.sys.fw.flashLog else s.sys.log
    let out := (held.filter fun x => seqFrom x.seq (e.w 1)).take n
    let oldest := match held.head? with | some x => x.seq | none => s.sys.logSeq
    .ok (wordsLe [oldest, s.sys.logSeq, pack [(out.length, 5), (0, 11), (min s.sys.fw.flashSkipped 0xFFFF, 16)]] ++ out.flatMap LogEntry.bytes) s

/-- Row LOG_READ. -/
def execLogRead (t : Instant) (q : QId) (s : State) : Out := .next (runCmd t q 0xA020 true cmdLogRead s)

/-- An entry is copied to flash: severity 1 or 2, or code 0x05xx. -/
def LogEntry.toFlash (e : LogEntry) : Bool := decide (1 ≤ e.severity ∨ e.code / 256 = 5) && !e.inFlash && !e.skipped

/-- LOG_FLASH_COPY: the oldest entry that waits is copied; beyond 32 in a second it stays in RAM only. -/
def execLogFlashCopy (t : Instant) (s : State) : Out :=
  let s := s.advanceTo t
  match s.sys.log.find? LogEntry.toFlash with
  | none => .next s
  | some x =>
    if s.sys.pow.held ∨ 2 ≤ s.sys.pstate ∧ s.sys.pstate ≤ 3 then .next s
    else
      let f := s.sys.fw
      let recent := f.copied.filter fun a => decide (s.now < a + secs 1)
      let set := fun (g : LogEntry → LogEntry) => s.sys.log.map fun y => if y.seq = x.seq then g y else y
      if 32 ≤ recent.length then
        .next (s.modSys fun y => { y with log := set fun z => { z with skipped := true }, fw := { f with flashSkipped := satAdd 16 f.flashSkipped 1, copied := recent } })
      else
        let l := f.flashLog ++ [{ x with inFlash := true }]
        .next (s.modSys fun y => { y with
          log := set fun z => { z with inFlash := true }, fw := { f with flashLog := l.drop (l.length - 4096), copied := recent ++ [s.now] } })

/-! ### The debug port (R506, R507) -/

/-- DEBUG_UNLOCK: whether PUBKEY matches KEY_SLOT's hash, and whether SIGNATURE holds, are given. -/
def cmdDebugUnlock (keyOk sigOk : Bool) (_q : QId) (e : QEntry) (s : State) : Res :=
  let w := e.w 0
  let f := s.sys.fw
  match idx? 4 (bits w 16 8) with
  | some key =>
    checked e (· == 208) (decide (bits w 0 8 = 1) && rsv w 12 4 && rsvHigh w 24) fun _ =>
      if fieldAt e.cmd.payload 4 8 ≠ s.sys.serial ∨ e.w 3 ≠ s.sys.bootCount ∨ s.sys.bootCount = 0xFFFFFFFF then .failWith .authFailed [] (s.logAuth 0xA030 0)
      else if f.keyLive key = false ∨ keyOk = false then .failWith .authFailed [] (s.logAuth 0xA030 2)
      else if sigOk = false then .failWith .authFailed [] (s.logAuth 0xA030 3)
      else .ok [] ((s.modFw fun f => { f with dbgScope := some (bits w 8 4) }).logEntry 0x0506 0 2 0xFFFF [pack [(bits w 8 4, 4), (key.val, 4)]])
  | none => if e.len = 208 then .fail .badParam [] else .fail .badLength []

/-- Row DEBUG_UNLOCK. -/
def execDebugUnlock (t : Instant) (q : QId) (keyOk sigOk : Bool) (s : State) : Out := .next (runCmd t q 0xA030 false (cmdDebugUnlock keyOk sigOk) s)

/-- One byte set in an ascending list of bytes by address. -/
def setByte (m : List (Nat × Byte)) (a : Nat) (v : Byte) : List (Nat × Byte) := mergeBytes m [(a, v)]

/-- DEBUG_PORT_ACCESS: within the unlocked scope, and ignored while locked; a byte that the port has not written reads as a free
value. -/
def execDebugPortAccess (t : Instant) (op : DebugOp) (s : State) : Out :=
  let s := s.advanceTo t
  let scope := if s.sys.pow.held ∨ s.sys.pstate = 2 ∨ s.sys.pstate = 3 then 0 else s.sys.fw.dbgScope.getD 0
  match op with
  | .halt => .next (if bit scope 0 then s.modFw fun f => { f with halted := true } else s)
  | .resume => .next (if bit scope 0 then (s.modFw fun f => { f with halted := false }).sweep else s)
  | .step => .next s
  | .read a =>
    if bit scope 1 then
      match s.sys.fw.mem.find? fun x => decide (x.1 = a) with
      | some x => .next (s.modFw fun f => { f with dbgOut := some x.2 })
      | none =>
        let (k, s1) := s.draw
        .next (s1.modFw fun f => { f with dbgOut := some (BitVec.ofNat 8 (Config.reading 0x1002 k)) })
    else .next s
  | .write a v => .next (if bit scope 2 then s.modFw fun f => { f with mem := setByte f.mem a v } else s)
  | .factory => .next s

/-! ### The CMIS window (R508, R509) -/

/-- The window's key of a byte: its page, by the bank where pages are banked; none where the page is not served (Table 14.6). -/
def Firmware.cmisKey (f : Firmware) (off : Nat) : Option Nat :=
  if off < 128 then some off
  else if f.cmisPage ≤ 3 then some (256 * f.cmisPage + off)
  else if [0x10, 0x11, 0x13, 0x14].contains f.cmisPage ∧ f.cmisBank ≤ 1 then some (65536 * f.cmisBank + 256 * f.cmisPage + off)
  else none

/-- Bytes that a write changes: page 03h, the lane controls and diagnostics, and the control bytes of lower memory, which CMIS 5.2
places at 26 to 36 and 118 to 127. -/
def cmisWritable (key : Nat) : Bool :=
  if key < 128 then decide ((26 ≤ key ∧ key ≤ 36) ∨ 118 ≤ key)
  else decide (key / 256 = 3) || [0x10, 0x13, 0x14].contains (key / 256 % 256)

/-- The window answers (R509): not while reset is held, nor in SLEEP and DEEP. -/
def State.cmisOpen (s : State) : Bool := !s.sys.pow.held && s.sys.pow.powered && decide (s.sys.pstate ≠ 2 ∧ s.sys.pstate ≠ 3)

/-- One byte of the window: what firmware policy puts there is free. -/
def State.cmisByte (s : State) (off : Nat) (k : Nat) : Byte :=
  let f := s.sys.fw
  if s.sys.booted = false ∧ s.restarting = false then (if off = 3 then 0x04 else 0)
  else match f.cmisKey off with
    | none => 0
    | some key =>
      if key = 126 then BitVec.ofNat 8 f.cmisBank
      else if key = 127 then BitVec.ofNat 8 f.cmisPage
      else match f.cmis.find? fun x => decide (x.1 = key) with
        | some x => x.2
        | none => BitVec.ofNat 8 (Config.policy (0x10000 + key) k)

/-- The byte that follows in a transaction. -/
def cmisNext (off : Nat) : Nat := if 255 ≤ off then 128 else off + 1

/-- The offsets of a run of bytes. -/
def cmisRun : Nat → Nat → List Nat
  | 0, _ => []
  | n + 1, off => off :: cmisRun n (cmisNext off)

/-- CMIS_READ: `n` bytes from an offset. -/
def execCmisRead (t : Instant) (off : Fin 256) (n : Nat) (s : State) : Out :=
  let s := s.advanceTo t
  if s.cmisOpen then
    let (k, s1) := s.draw
    .next (s1.answer (.data ((cmisRun n off.val).map fun o => s1.cmisByte o k)))
  else .next (s.answer .nack)

/-- One byte written to the window. -/
def State.cmisPut (s : State) (off : Nat) (v : Byte) : State :=
  match s.sys.fw.cmisKey off with
  | none => s
  | some key =>
    if cmisWritable key = false then s
    else s.modFw fun f =>
      if key = 127 then { f with cmisPage := v.toNat }
      else if key = 126 then { f with cmisBank := v.toNat }
      else { f with cmis := setByte f.cmis key v }

/-- CMIS_WRITE: at most 8 bytes, a ninth being NACKed; ignored until BOOT_DONE. -/
def execCmisWrite (t : Instant) (off : Fin 256) (bytes : List Byte) (s : State) : Out :=
  let s := s.advanceTo t
  if s.cmisOpen = false then .next (s.answer .nack)
  else
    let s1 := if s.sys.booted ∨ s.restarting = true then s.forEach ((cmisRun 8 off.val).zip (bytes.take 8)) fun x s => s.cmisPut x.1 x.2 else s
    .next (s1.answer (if 8 < bytes.length then .nack else .ack))

/-- CMIS_PROFILE. -/
def cmdCmisProfile (_q : QId) (e : QEntry) (s : State) : Res :=
  let p := bits (e.w 0) 0 8
  checked e (· == 4) (decide (1 ≤ p ∧ p ≤ 3) && rsvHigh (e.w 0) 8) fun _ =>
    if p = 3 ∧ s.sys.fw.hasCmis = false then .fail .precondition [] else .ok [] (s.modFw fun f => { f with cmisProfile := p })

/-- Row CMIS_PROFILE. -/
def execCmisProfile (t : Instant) (q : QId) (s : State) : Out := .next (runCmd t q 0xA050 false cmdCmisProfile s)

/-- LPMODE_CHANGE: the level, which has no hardware action; holding lanes on its account is firmware policy, and this firmware does
not. -/
def execLpmodeChange (t : Instant) (level : Bool) (s : State) : Out := .next ((s.advanceTo t).modPow fun p => { p with lpmode := level })

end Sys2Proof.Machine
end

