-- ==== Sys2Proof/Machine/Broadcast.lean ====
section
/-! DEFINITION. Firmware broadcast: the manager's procedure, and the messages at a worker. -/
namespace Sys2Proof.Machine

/-! ### Messages (Table 9.14) -/

/-- An FW body. -/
def fwBody (op arg blen : Nat) (data : List Byte) : List Byte := wordsLe [pack [(op, 8)], arg, pack [(blen, 16)]] ++ data

/-- An FW_ANSWER body. -/
def fwAnswer (op : Nat) (st : Status) (missing : Nat) (map : List Nat) : List Byte :=
  wordsLe ([pack [(op, 8), (0, 8), (st.code, 16)], pack [(missing, 16)]] ++ map)

/-- Blocks of 992 bytes of an image. -/
def fwBlocks (bytes : Nat) : Nat := ceilDiv bytes 992

/-! ### The manager (R349) -/

/-- The broadcast in progress, changed. -/
def State.modCast (s : State) (f : FwBroadcast → FwBroadcast) : State := s.modRill fun r => { r with fw := r.fw.map f }

/-- LAST_FW of a worker. -/
def State.setLastFw (s : State) (w code : Nat) : State :=
  s.modRill fun r => { r with table := r.table.map fun e => if e.id = some w then { e with lastFw := code } else e }

/-- A worker's part is over: how it counts in the reply, and its LAST_FW where the broadcast records one. -/
def State.fwOver (s : State) (w code : Nat) (record : Bool) : State :=
  let s1 := s.modCast fun b => { b with
    selecting := b.selecting.filter fun x => decide (x.1 ≠ w), selected := b.selected.filter fun x => decide (x ≠ w)
    querying := b.querying.filter fun x => decide (x ≠ w), ending := b.ending.filter fun x => decide (x ≠ w), results := b.results ++ [(w, code)] }
  if record then s1.setLastFw w code else s1

/-- A worker that cannot be reached: before its SELECT is answered it keeps its LAST_FW. -/
def State.fwLost (s : State) (w : Nat) : State :=
  match s.rill.fw with
  | none => s
  | some b => if b.selecting.any fun x => decide (x.1 = w) then s.fwOver w 5 false else if b.selected.contains w then s.fwOver w 5 true else s

/-- A unicast FW message; a worker that it cannot leave for is lost. -/
def State.sendFw (s : State) (op w : Nat) (body : List Byte) : State :=
  let x := s.nextXtag
  match s.rill.table.find? fun e => decide (e.id = some w) with
  | none => s.fwLost w
  | some e =>
    match x.2.sendDown e.hops e.route { ftype := 0xA, hops := e.hops, hopPtr := 0, up := false, route := e.route, wid := w, idValid := true, xtag := x.1, body } with
    | some s1 => s1.modRill fun r => { r with out := ((x.1, .fw op w) :: r.out).take 8192 }
    | none => s.fwLost w

/-- One block of the image. -/
def FwBroadcast.block (b : FwBroadcast) (i : Nat) : List Byte :=
  let d := (b.bytes.drop (992 * i)).take 992
  fwBody 2 (992 * i) d.length (d ++ padding d.length)

/-- Every block, by broadcast. -/
def State.castBlocks (s : State) (b : FwBroadcast) : State :=
  s.forEach (List.range (fwBlocks b.bytes.length)) fun i s =>
    let x := s.nextXtag
    x.2.sendAll { ftype := 0xA, hops := 1, hopPtr := 0, up := false, route := 0, xtag := x.1, body := b.block i }

/-- The reply of FW_BROADCAST: verified, failed, unreachable and other. -/
def FwBroadcast.reply (b : FwBroadcast) : List Byte :=
  let n := fun (cs : List Nat) => b.results.countP fun x => cs.contains x.2
  wordsLe [pack [(n [2], 13), (0, 3), (n [3, 4], 13)], pack [(n [5], 13), (0, 3), (n [6, 7], 13)]]

/-- The next query round, or the end: round 4 stands for END. -/
def State.fwRound (s : State) (b : FwBroadcast) : State :=
  if b.round = 0 ∨ (b.lacking ∧ b.round < 3) then
    let s1 := if b.round = 0 then s.castBlocks b else s
    (s1.modCast fun b => { b with round := b.round + 1, lacking := false, querying := b.selected }).forEach b.selected fun w s => s.sendFw 3 w (fwBody 3 0 0 [])
  else (s.modCast fun b => { b with round := 4, ending := b.selected }).forEach b.selected fun w s => s.sendFw 4 w (fwBody 4 0 0 [])

/-- The broadcast goes on as far as it can. -/
def State.fwOn (s : State) : Nat → State
  | 0 => s
  | fuel + 1 =>
    match s.rill.fw with
    | none => s
    | some b =>
      if b.selecting ≠ [] ∨ b.querying ≠ [] ∨ b.ending ≠ [] then s
      else if b.round = 4 then (s.modRill fun r => { r with fw := none }).complete b.seq .ok b.reply
      else (s.fwRound b).fwOn fuel

/-- The bytes of the image in a slot: as received, or for the factory's own image open ones. -/
def State.imageBytes (s : State) (i : Fin 4) : List Byte :=
  let d := s.sys.fw.slots[i].data
  if d = [] then (List.range (512 + Config.reading 0x1003 0 % 4193793)).map fun k => BitVec.ofNat 8 (Config.reading 0x1004 k) else d.map Prod.snd

/-- FW_BROADCAST. -/
def cmdFwBroadcast (_q : QId) (e : QEntry) (s : State) : Res :=
  let p := e.cmd.payload
  let i := fwSlot ⟨bits (e.w 0) 0 1, by simp only [bits]; omega⟩
  let bytes := s.imageBytes i
  checked e (fun l => decide (l = 4 + setLen (bits (fieldAt p 4 4) 0 2))) (rsvHigh (e.w 0) 1 && setOk p 4 && decide (bytes.length ≤ 4194304)) fun _ =>
    if s.rill.fw.isSome then .fail .resourceBusy []
    else if s.isManager = false ∨ s.sys.fw.slots[i].verified = false then .fail .precondition []
    else
      let ids := s.setIds p 4
      let s1 := s.modRill fun r => { r with fw := some { seq := e.seq, slot := ⟨bits (e.w 0) 0 1, by simp only [bits]; omega⟩, bytes, selecting := ids.map fun w => (w, s.now) } }
      .wait ((s1.forEach ids fun w s => s.sendFw 1 w (fwBody 1 bytes.length 0 [])).fwOn 8)

/-- Row FW_BROADCAST. -/
def execFwBroadcast (t : Instant) (q : QId) (s : State) : Out := .next (runCmd t q 0x5040 false cmdFwBroadcast s)

/-- FW_SELECT_TIMEOUT: a worker without OK in 100 ms is left out and keeps its LAST_FW. -/
def execFwSelectTimeout (t : Instant) (s : State) : Out :=
  let s := s.advanceTo t
  match s.rill.fw with
  | none => .next s
  | some b => .next ((s.forEach (b.selecting.filter fun x => s.pastMgmt (x.2 + msec 100)) fun x s => s.fwOver x.1 5 false).fwOn 8)

/-- LAST_FW that a status at END leaves (Table 9.10). -/
def lastFwOf (st : Nat) : Nat :=
  if st = Status.ok.code then 2 else if st = Status.authFailed.code then 3 else if st = Status.rollback.code then 4
  else if st = Status.resourceBusy.code then 6 else 7

/-- An FW_ANSWER at the manager. -/
def takeFwAnswer (f : Frame) (s : State) : State :=
  let s1 := s.modRill fun r => { r with out := r.out.filter fun x => decide (x.1 ≠ f.xtag) }
  let st := bits (wordAt f.body 0) 16 16
  match s.rill.fw with
  | none => s1
  | some b =>
    match bits (wordAt f.body 0) 0 8 with
    | 1 =>
      if b.selecting.any fun x => decide (x.1 = f.wid) then
        if st = Status.ok.code then
          ((s1.modCast fun b => { b with selecting := b.selecting.filter (fun x => decide (x.1 ≠ f.wid)), selected := b.selected ++ [f.wid] }).setLastFw f.wid 1).fwOn 8
        else (s1.fwOver f.wid 6 false).fwOn 8
      else s1
    | 3 =>
      if b.querying.contains f.wid then
        let lost := (List.range (fwBlocks b.bytes.length)).filter fun i => bit (wordAt f.body (2 + i / 32)) (i % 32)
        let s2 := s1.modCast fun b => { b with querying := b.querying.filter (fun x => decide (x ≠ f.wid)), lacking := b.lacking || decide (lost ≠ []) }
        (s2.forEach lost fun i s => s.sendFw 2 f.wid (b.block i)).fwOn 8
      else s1
    | 4 => if b.ending.contains f.wid then (s1.fwOver f.wid (lastFwOf st) true).fwOn 8 else s1
    | _ => s1

/-- FW_ANSWER. -/
def execFwAnswer (t : Instant) (p : Fin 16) (s : State) : Out := .next ((s.advanceTo t).takeFrame p (ofType 0xB) takeFwAnswer)

/-! ### A worker (R349) -/

/-- The firmware slot that is not running. -/
def Firmware.idleSlot (f : Firmware) : Fin 4 := if f.runSlot = some 0 then 1 else 0

/-- SELECT: reception opens into the idle slot, as UPDATE_BEGIN does. -/
def takeSelect (f : Frame) (s : State) : State :=
  let bytes := wordAt f.body 1
  let i := s.sys.fw.idleSlot
  let host : Bool := match s.sys.fw.reception with | some (_, _, rill) => !rill | none => false
  let answer := fun (s : State) (st : Status) => s.answerFrame f 0xB (fwAnswer 1 st 0 [])
  if bytes < 512 ∨ 4194304 < bytes then answer s .badParam
  else if s.sys.fw.inUse i then answer s .precondition
  else if host then answer s .resourceBusy
  else answer (s.modFw fun g => g.open' i bytes true) .ok

/-- FW_SELECT. -/
def execFwSelect (t : Instant) (p : Fin 16) (s : State) : Out := .next ((s.advanceTo t).takeFrame p (ofOp 0xA 1) takeSelect)

/-- BLOCK: a selected worker stores it, once. -/
def takeBlock (f : Frame) (s : State) : State :=
  let off := wordAt f.body 1
  let n := bits (wordAt f.body 2) 0 16
  match s.sys.fw.reception with
  | some (i, bytes, true) =>
    let new := offsets off ((f.body.drop 12).take n)
    if off % 992 ≠ 0 ∨ n = 0 ∨ 992 < n ∨ bytes < off + n ∨ new.length ≠ n then s
    else if s.sys.fw.slots[i].data.any fun d => decide (off ≤ d.1 ∧ d.1 < off + n) then s
    else s.modFw fun g => g.modSlot i fun x => { x with data := mergeBytes x.data new }
  | _ => s

/-- FW_BLOCK: every worker forwards it. -/
def execFwBlock (t : Instant) (p : Fin 16) (s : State) : Out := .next ((s.advanceTo t).takeFrame p (ofOp 0xA 2) takeBlock)

/-- Blocks of a reception with a byte missing. -/
def Slot.missing (x : Slot) (bytes : Nat) : List Nat :=
  (List.range (fwBlocks bytes)).filter fun b => decide ((x.data.countP fun d => decide (d.1 / 992 = b)) < min 992 (bytes - 992 * b))

/-- A list of blocks as words of a bitmap. -/
def blockMap (blocks : Nat) (is : List Nat) : List Nat :=
  (List.range (ceilDiv blocks 32)).map fun w => (is.filter fun i => decide (i / 32 = w)).foldl (fun m i => m ||| 2 ^ (i % 32)) 0

/-- QUERY: the blocks missing. -/
def takeQuery (f : Frame) (s : State) : State :=
  match s.sys.fw.reception with
  | some (i, bytes, true) =>
    let m := s.sys.fw.slots[i].missing bytes
    s.answerFrame f 0xB (fwAnswer 3 .ok m.length (blockMap (fwBlocks bytes) m))
  | _ => s.answerFrame f 0xB (fwAnswer 3 .precondition 0 [])

/-- FW_QUERY. -/
def execFwQuery (t : Instant) (p : Fin 16) (s : State) : Out := .next ((s.advanceTo t).takeFrame p (ofOp 0xA 3) takeQuery)

/-- END: the worker verifies the image as UPDATE_END does; what its hashes and signature come to is given. -/
def takeEnd (key : Option (Fin 4)) (sigOk digestOk : Bool) (f : Frame) (s : State) : State :=
  let answer := fun (s : State) (st : Status) => s.answerFrame f 0xB (fwAnswer 4 st 0 [])
  match s.sys.fw.reception with
  | some (i, bytes, true) =>
    if s.sys.fw.slots[i].data.length < bytes then answer s .precondition
    else
      let r := s.closeReception i bytes key sigOk digestOk
      answer r.2.2 (r.1.getD .ok)
  | _ => answer s .precondition

/-- FW_END. -/
def execFwEnd (t : Instant) (p : Fin 16) (key : Option (Fin 4)) (sigOk digestOk : Bool) (s : State) : Out :=
  .next ((s.advanceTo t).takeFrame p (ofOp 0xA 4) (takeEnd key sigOk digestOk))

end Sys2Proof.Machine
end

