-- ==== Sys2Proof/Machine/RillLinks.lean ====
section
/-! DEFINITION. Delivery hop by hop: acknowledgements, timeouts, and the end of a delivery. -/
namespace Sys2Proof.Machine

/-! ### A frame of this device's own that is not delivered (R332, R340, R342, R346, R350) -/

/-- The command or procedure that a transaction of the manager serves learns that its frame was not delivered. -/
def State.lost (s : State) (xtag : Nat) : State :=
  match s.rill.waits.find? fun w => decide (w.xtag = xtag) with
  | some w => (s.modRill fun r => { r with waits := r.waits.filter fun x => decide (x.seq ≠ w.seq) }).complete w.seq .unreachable []
  | none =>
    match s.rill.out.find? fun x => decide (x.1 = xtag) with
    | some (_, RillFor.epoch id op w) => (s.modRill fun r => { r with out := r.out.filter fun x => decide (x.1 ≠ xtag) }).epochLost id op w
    | some (_, RillFor.fw _ w) => ((s.modRill fun r => { r with out := r.out.filter fun x => decide (x.1 ≠ xtag) }).fwLost w).fwOn 8
    | none =>
      let probe := match s.rill.discovery with | some d => d.outstanding.any fun o => decide (o.xtag = xtag) | none => false
      ((s.modDisc fun d => { d with
        outstanding := d.outstanding.filter fun o => decide (o.xtag ≠ xtag), assigning := d.assigning.filter fun a => decide (a.1 ≠ xtag)
        unreachable := d.unreachable + flag probe })).discoverOn 8

/-- UNDELIVERED at the manager. -/
def execUndelivered (t : Instant) (p : Fin 16) (s : State) : Out := .next ((s.advanceTo t).takeFrame p (ofType 0xC) fun f s => s.lost f.xtag)

/-! ### The end of a delivery (R335) -/

/-- A frame that will not be delivered on a link: a unicast down frame is reported, to the command itself where it is the
manager's own; any other is dropped. -/
def State.settleFrame (s : State) (f : Frame) (reason : Nat) : State :=
  if f.up ∨ f.bcast then s.dropUp f else if f.hopPtr = 0 then s.lost f.xtag else s.undeliver f reason

/-- Every frame in a link's window and queue is settled, and the next frame sent carries RESYNC. -/
def State.settleLink (s : State) (p : Fin 16) (reason : Nat) : State :=
  let l := s.rill.links[p]
  let s1 := s.modLink p fun l => { l with
    window := [], queue := [], sendIdx := 0, retries := 0, busySince := none, busyAt := none, resend := false, resync := true
    txBytes := if l.txAck then l.txBytes else [] }
  (s1.forEach (l.window.map Prod.fst ++ l.queue) fun f s => s.settleFrame f reason).drainOutbox

/-! ### Acknowledgements (R333, R334) -/

/-- A data frame is leaving the link. -/
def Link.sending (l : Link) : Bool := decide (l.txBytes ≠ []) && !l.txAck

/-- The window is sent again from its oldest frame, once the frame being sent has left. -/
def Link.again (l : Link) : Link := if l.sending then { l with resend := true } else { l with sendIdx := 0 }

/-- Frames that an ACK_SEQ acknowledges: none where it lies outside the window. -/
def Link.acked (l : Link) (seq : Nat) : Nat :=
  match l.window.head? with
  | some (f, _) => let k := (seq + 256 - f.lseq) % 256; if k ≤ l.window.length then k else 0
  | none => 0

/-- The first frames of the window are delivered. -/
def Link.drop (l : Link) (k : Nat) : Link :=
  if k = 0 then l
  else
    let l1 := { l with window := l.window.drop k, sendIdx := l.sendIdx - k, retries := 0, busySince := none, busyAt := none }
    if l.sendIdx < k ∧ l.sending = true then { l1 with resend := true } else l1

/-- A BUSY acknowledgement restarts the timer, without a retry. -/
def Link.held (l : Link) (now : Instant) : Link :=
  { l with
    window := match l.window with | (f, _) :: rest => (f, now) :: rest | [] => []
    busySince := some (l.busySince.getD now), busyAt := some now }.again

/-- ACK: a received ACK frame acknowledges frames up to ACK_SEQ, or says BUSY. -/
def execAck (t : Instant) (p : Fin 16) (s : State) : Out :=
  let s := s.advanceTo t
  let l := s.rill.links[p]
  match l.ackIn with
  | none => .next s
  | some (seq, busy) =>
    let k := l.acked seq
    let s1 := s.modLink p fun l =>
      let l1 : Link := { l with ackIn := none }.drop k
      if busy ∧ l1.window ≠ [] then l1.held s.now else l1
    .next ((s1.forEach (l.window.take k) fun x s => s.freeSlot x.1).drainOutbox)

/-- The lane that carries a link. -/
def linkLane (p : Fin 16) (n : Nat) : Option LaneRef :=
  if p.val < 8 then (idx? 8 n).map LaneRef.line else (idx? 16 (2 * (p.val - 8) + n)).map LaneRef.relay

/-- ACK_ALLOW of a link and its round trip (R334). -/
def State.ackTime (s : State) (p : Fin 16) : Nat :=
  let allow := usec s.active.rill.ackAllow * (if p.val < 8 then 1 else 2)
  let trip := match s.rill.links[p].lane.bind (linkLane p) with
    | some r =>
      let x := (s.lane r).time
      match x.lSum with
      | some (v, _) => if s.now ≤ x.lSumAt + msec 1 then v.toNat else msec 1
      | none => msec 1
    | none => msec 1
  allow + trip

/-- RILL_ACK_TIMEOUT: the window is sent again and a retry counted, or after MAX_RETRIES delivery ends.  An ACK that has been received
counts as arrived, though its row has not yet taken it up (R45). -/
def execRillAckTimeout (t : Instant) (p : Fin 16) (s : State) : Out :=
  let s := s.advanceTo t
  let l := s.rill.links[p]
  match l.window.head? with
  | none => .next s
  | some (_, left) =>
    if l.lane = none ∨ l.ackIn.isSome ∨ l.sendIdx = 0 ∨ l.resend ∨ l.busyAt.isSome ∨ s.pastCore (left + s.ackTime p) = false then .next s
    else if s.active.rill.maxRetries ≤ l.retries then .next (s.settleLink p 2)
    else .next ((s.modRill fun r => { r with retries := satAdd 32 r.retries 1 }).modLink p fun l => { l with retries := l.retries + 1 }.again)

/-- RILL_BUSY_RESEND: 20 µs after the last BUSY acknowledgement. -/
def execRillBusyResend (t : Instant) (p : Fin 16) (s : State) : Out :=
  let s := s.advanceTo t
  match s.rill.links[p].busyAt with
  | some a => .next (if a + usec 20 ≤ s.now then s.modLink p fun l => { l with busyAt := none } else s)
  | none => .next s

/-- RILL_BUSY_LIMIT: BUSY has lasted 10 ms; an ACK that has been received counts as arrived (R45). -/
def execRillBusyLimit (t : Instant) (p : Fin 16) (s : State) : Out :=
  let s := s.advanceTo t
  match s.rill.links[p].busySince with
  | some a => .next (if s.rill.links[p].ackIn.isNone ∧ s.pastCore (a + msec 10) then s.settleLink p 3 else s)
  | none => .next s

/-- RILL_LINK_DOWN_TIMEOUT: the link has been down for Rill for 10 ms. -/
def execRillLinkDownTimeout (t : Instant) (p : Fin 16) (s : State) : Out :=
  let s := s.advanceTo t
  let l := s.rill.links[p]
  .next (if l.lane = none ∧ s.pastCore (l.downSince + msec 10) then s.settleLink p 1 else s)

end Sys2Proof.Machine
end

