-- ==== Sys2Proof/Machine/EpochRows.lean ====
section
/-! DEFINITION. Epoch messages at a worker (R348, R351, Table 9.17). -/
namespace Sys2Proof.Machine

/-- A time that no commit reaches: the Tc of a staging before its COMMIT. -/
def farTime : FTime := 2 ^ 96

/-- A message of an epoch is answered with a record. -/
def State.answerEpoch (s : State) (f : Frame) (w : WorkerEpoch) (op : Nat) : State := s.answerFrame f 9 (w.body op)

/-- The current outcome is the answer. -/
def State.answerCurrent (s : State) (f : Frame) (id op : Nat) : State :=
  match s.workerEpoch id with
  | some w => (s.modWorkerEpoch id fun w => { w with xtag := f.xtag }).answerEpoch f w op
  | none => if op = 5 then s.answerEpoch f (noRecord id) op else s

/-- A record changed by a message, and sent as its answer. -/
def State.epochAnswer (s : State) (f : Frame) (id op : Nat) (g : WorkerEpoch → WorkerEpoch) : State :=
  let s1 := s.modWorkerEpoch id fun w => { g w with xtag := f.xtag }
  match s1.workerEpoch id with
  | some w => s1.answerEpoch f w op
  | none => s1

/-- The staging of an epoch is released. -/
def State.unstage (s : State) (id : Nat) : State :=
  match (s.workerEpoch id).bind WorkerEpoch.commit with
  | some c => (s.dropCommit c).modWorkerEpoch id fun w => { w with commit := none }
  | none => s

/-- A new record of an epoch takes the place of the old one. -/
def State.setRecord (s : State) (w : WorkerEpoch) : State :=
  s.modRill fun r => { r with workerEpochs := r.workerEpochs.filter (fun x => decide (x.id ≠ w.id)) ++ [w] }

/-- The blocks that a STAGE names. -/
def State.stageBlocks (s : State) (f : Frame) : Option (List Block) := s.blocksAt f.body 20 (bits (wordAt f.body 4) 0 16)

/-- The first condition of a STAGE that fails: REASON and FAIL_BLOCK (Tables 9.15 and 9.17). -/
def State.stageFault (s : State) (c : Commit) (bs : List Block) : Option (Nat × Nat) :=
  match c.blocks.find? fun x => (s.validate c x.block).isSome with
  | some x => some (1, x.block.id)
  | none =>
    if s.tb.timeValid = false then some (2, 0xFFFF)
    else if 4 ≤ (s.commits.filter Commit.pendingTimed).length ∨ s.namedPending bs = true then some (5, 0xFFFF)
    else none

/-- A STAGE whose packet, if any, has replied `status`: the snapshots are taken and judged at once (R36, R351). -/
def State.stageNow (s : State) (f : Frame) (status : Nat) : State :=
  let id := bits (wordAt f.body 0) 16 16
  let w := { noRecord id with xtag := f.xtag, readyAt := s.now }
  let refuse := fun (reason fail : Nat) =>
    let w' := { w with outcome := 2, reason, failBlock := fail }
    (s.setRecord w').answerEpoch f w' 1
  if status ≠ 0 ∧ status ≠ 1 then refuse 6 0xFFFF
  else match s.stageBlocks f with
    | none => refuse 1 0xFFFF
    | some bs =>
      let c : Commit :=
        { id := s.nextCommit, kind := .epoch, queue := .q2, tag := 0, seq := s.q.nextSeq, blocks := bs.map fun b => ⟨b, true, none, false⟩
          snap := s.shadow, tc := farTime, at' := s.now, settled := false, cancelled := false, failed := none, last := ⟨0, false⟩ }
      match s.stageFault c bs with
      | some (reason, fail) => refuse reason fail
      | none =>
        let w' := { w with outcome := 1, commit := some c.id }
        (({ s with commits := s.commits ++ [c], nextCommit := s.nextCommit + 1, q := { s.q with nextSeq := s.q.nextSeq + 1 } } : State).setRecord w').answerEpoch f w' 1

/-- The bytes of the packet a STAGE carries. -/
def stagedPacket (f : Frame) : List Byte :=
  let w4 := wordAt f.body 4
  (f.body.drop (20 + 4 * ceilDiv (bits w4 0 16) 2)).take (bits w4 16 16)

/-- A STAGE: its packet is received into Q2, and the rest waits for the packet's status; one for an epoch already ACCEPTED is
answered with the current outcome. -/
def takeStage (f : Frame) (s : State) : State :=
  let id := bits (wordAt f.body 0) 16 16
  let accepted : Bool := match s.workerEpoch id with | some w => decide (w.outcome = 3) | none => false
  if accepted then s.answerCurrent f id 1
  else
    let s1 := s.unstage id
    if bits (wordAt f.body 4) 16 16 = 0 then s1.stageNow f 0
    else match checkPacket (stagedPacket f) false 0 with
      | .good _ c =>
        if 16 ≤ s1.q.q2.length then s1.stageNow f Status.queueFull.code
        else
          let seq := s1.q.nextSeq
          let e : QEntry := { cmd := c, seq, local' := true, phase := .received, acceptedAt := 0, stamp := 0 }
          let s2 : State := { s1 with q := { s1.q with q2 := s1.q.q2 ++ [e], nextSeq := seq + 1 } }
          (s2.modRill fun r => { r with staging := some { frame := f, seq, status := none } }).sweep
      | .reject st => s1.stageNow f st.code
      | .drop => s1.stageNow f Status.badParam.code

/-- EP_STAGE: a STAGE is taken up, or the one whose packet has replied goes on; a second one waits for the first. -/
def execEpStage (t : Instant) (p : Fin 16) (s : State) : Out :=
  let s := s.advanceTo t
  match s.rill.staging with
  | none => .next (s.takeFrame p (ofOp 8 1) takeStage)
  | some g =>
    match g.status with
    | some st => .next ((s.modRill fun r => { r with staging := none }).stageNow g.frame st)
    | none => .next s

/-- TIME of a message. -/
def bodyTime (f : Frame) : FTime := ofLe ((f.body.drop 4).take 2) + 65536 * (fieldAt f.body 6 4 % 2 ^ 30) + 65536000000000 * fieldAt f.body 10 6

/-- COMMIT: acted on once since the last STAGE (R348).  In time on a staged worker, Tc is T and the limits lock where the snapshots enable an output (R47); else the staging is
released. -/
def takeEpCommit (f : Frame) (s : State) : State :=
  let id := bits (wordAt f.body 0) 16 16
  match s.workerEpoch id with
  | none => s
  | some w =>
    if w.commitHeard then s.answerCurrent f id 2
    else match w.outcome, w.commit.bind s.commitOf with
      | 1, some c =>
        if s.fnow + usec 100 ≤ bodyTime f then
          let s1 := s.modCommit c.id fun c => { c with tc := bodyTime f, settled := true }
          let s2 := if enabling s.active c.snap c.names then s1.lockLimits 3 .q2 0 else s1
          s2.epochAnswer f id 2 fun w => { w with outcome := 3, reason := 0, commitHeard := true }
        else (s.unstage id).epochAnswer f id 2 fun w => { w with outcome := 2, reason := 3, commitHeard := true }
      | _, _ => (s.unstage id).epochAnswer f id 2 fun w => { w with outcome := 2, reason := 4, commitHeard := true }

/-- EP_COMMIT. -/
def execEpCommit (t : Instant) (p : Fin 16) (s : State) : Out := .next ((s.advanceTo t).takeFrame p (ofOp 8 2) takeEpCommit)

/-- ABORT: up to the island cycle of Tc the staging is released. -/
def takeEpAbort (f : Frame) (s : State) : State :=
  let id := bits (wordAt f.body 0) 16 16
  match (s.workerEpoch id).bind WorkerEpoch.commit |>.bind s.commitOf with
  | some c => if c.kind = .epoch ∧ s.beforeTc c = true then (s.unstage id).epochAnswer f id 3 fun w => { w with outcome := 6, reason := 0 } else s.answerCurrent f id 3
  | none => s.answerCurrent f id 3

/-- EP_ABORT. -/
def execEpAbort (t : Instant) (p : Fin 16) (s : State) : Out := .next ((s.advanceTo t).takeFrame p (ofOp 8 3) takeEpAbort)

/-- The active sets of an epoch's blocks are still the ones it committed, and their previous sets are valid (R439). -/
def State.mayRevert (s : State) (w : WorkerEpoch) : Bool :=
  w.blocks.all fun x => decide ((s.meta x.1).activeStamp.time = x.2) && (s.meta x.1).previousValid

/-- REVERT: a COMMITTED epoch whose sets still stand is to be exchanged at T2.  In any other case the answer is REVERT_REFUSED, and the
record stays as it is: no action is taken (Table 9.17; log 145). -/
def takeEpRevert (f : Frame) (s : State) : State :=
  let id := bits (wordAt f.body 0) 16 16
  match s.workerEpoch id with
  | none => s
  | some w =>
    if w.outcome = 7 ∨ w.outcome = 8 then s.answerCurrent f id 4
    else if w.outcome = 4 ∧ s.fnow + usec 100 ≤ bodyTime f ∧ s.mayRevert w = true then
      let c : Commit :=
        { id := s.nextCommit, kind := .revert, queue := .q2, tag := 0, seq := s.q.nextSeq, blocks := w.blocks.map fun x => ⟨x.1, true, none, false⟩
          snap := s.previous, tc := bodyTime f, at' := s.now, settled := true, cancelled := false, failed := none, last := ⟨0, false⟩ }
      let s1 : State := { s with commits := s.commits ++ [c], nextCommit := s.nextCommit + 1, q := { s.q with nextSeq := s.q.nextSeq + 1 } }
      s1.epochAnswer f id 4 fun w => { w with outcome := 7, commit := some c.id, time2 := some c.tc }
    else (s.modWorkerEpoch id fun w => { w with xtag := f.xtag }).answerEpoch f { w with outcome := 9 } 4

/-- EP_REVERT. -/
def execEpRevert (t : Instant) (p : Fin 16) (s : State) : Out := .next ((s.advanceTo t).takeFrame p (ofOp 8 4) takeEpRevert)

/-- EP_QUERY: the current outcome. -/
def execEpQuery (t : Instant) (p : Fin 16) (s : State) : Out :=
  .next ((s.advanceTo t).takeFrame p (ofOp 8 5) fun f s => s.answerCurrent f (bits (wordAt f.body 0) 16 16) 5)

/-- EPOCH_TC_REACHED: the epoch's Tc or T2 has come: its blocks with a boundary now take it; the others take it in their own rows. -/
def execEpochTcReached (t : Instant) (id : Nat) (s : State) : Out :=
  let s := s.advanceTo t
  match (s.workerEpoch id).bind WorkerEpoch.commit |>.bind s.commitOf with
  | none => .next s
  | some c =>
    if s.beforeTc c then .next s
    else .next (s.forEach c.names fun b s => if s.atBoundary b then (if b = .ppsOut then s.ppsEdge else s).boundary b else s)

/-- EPOCH_STAGING_EXPIRY: no COMMIT within 10 s of READY. -/
def execEpochStagingExpiry (t : Instant) (id : Nat) (s : State) : Out :=
  let s := s.advanceTo t
  match s.workerEpoch id with
  | none => .next s
  | some w =>
    if w.outcome = 1 ∧ s.pastMgmt (w.readyAt + secs 10) then .next ((s.unstage id).epochCame id 1 0xC 0xFFFF ⟨0, false⟩ [])
    else .next s

end Sys2Proof.Machine
end

