-- ==== Sys2Proof/Machine/Timeouts.lean ====
section
/-! DEFINITION. The time limits of commands (R87, Table 2.8). -/
namespace Sys2Proof.Machine

/-- The time limit of a self-test of an ID (R449). -/
def testLimit (id : Nat) : Nat := if (testEngine id).isSome then msec 200 else if (testGauge id).isSome then secs 2 else msec 10

/-- Procedures whose chapters state no limit: 10 s (Table 2.8).  Every other command that Q1 does not take is a shadow write, a read or an
ownership command, of 1 ms. -/
def procedures : List Nat := [0x6030, 0x6031, 0x6032, 0x6041, 0x6042, 0x7001, 0x7011, 0xA000, 0xA002, 0xA003, 0xA010, 0xA030, 0xA040]

/-- The time limit of a command; none where another rule bounds it: APPLY, TUNNEL, and the commits and reverts of an epoch (Table
2.8 and the procedures' chapters). -/
def QEntry.limit (e : QEntry) : Option Nat :=
  match e.cmd.op with
  | 0x1010 | 0x5020 | 0x5031 | 0x5033 => none
  | 0x1011 => some (msec 1)
  | 0x2030 | 0x7030 | 0x7830 | 0x9000 | 0x9002 => some (msec 5)
  | 0x2041 | 0x2841 => some (secs 60)
  | 0x4001 => some (if bit (e.w 3) 0 then secs 2 + msec 1 else msec 1)
  | 0x4801 => some (msec 1)
  | 0x4031 => some (msec 1500)
  | 0x5010 => some (secs 30)
  | 0x5011 => some (msec 100)
  | 0x5030 => some (secs 10)
  | 0x5032 => some (msec 25)
  | 0x5034 => some (if bit (e.w 0) 28 then msec 25 else usec 100)
  | 0x5040 => some (secs 600)
  | 0x8000 => some (testLimit (bits (e.w 0) 0 8))
  | 0x9001 => some (secs 10)
  | 0xA001 => some (msec 20)
  | op => some (if restrictedOps.contains op then usec 100 else if procedures.contains op then secs 10 else msec 1)

/-- A command past its limit: TIMEOUT, and UNREACHABLE for WORKER_ASSIGN (R342); what it started is abandoned, and a COMMIT not yet
validated is withdrawn with its reply's 28 bytes (R90). -/
def State.timeOut (s : State) (e : QEntry) : State :=
  match e.cmd.op, s.commits.find? fun c => decide (c.seq = e.seq ∧ c.kind = .commit) with
  | 0x1011, some c => s.failBefore c .timeout none
  | 0x5011, _ => (s.abandonRun e).complete e.seq .unreachable []
  | _, _ => (s.abandonRun e).complete e.seq .timeout []

/-- The time limit of a command now: a TIME_SET that still waits for an edge waits 2 s for it (R281). -/
def State.limitOf (s : State) (e : QEntry) : Option Nat := if s.edgeWaiters.contains e then some (secs 2) else e.limit

/-- COMMAND_TIMEOUT: the running command of a queue has come to its limit. -/
def execCommandTimeout (t : Instant) (q : QId) (s : State) : Out :=
  let s := s.advanceTo t
  match s.head q with
  | none => .next s
  | some e =>
    match s.limitOf e with
    | none => .next s
    | some d => if e.phase = .running ∧ s.pastCmd (e.acceptedAt + d) = true then .next (s.timeOut e) else .next s

end Sys2Proof.Machine
end

