-- ==== Sys2Proof/Machine/Dispatch.lean ====
section
/-! DEFINITION. One arm per row of the opcode table: the direct call of its meaning. -/
namespace Sys2Proof.Machine

/-- The effect of a command on everything but the queue. -/
def exec (i : Instr) (s : State) : Host.Outcome State Fault Refusal :=
  match i with
  | .privateWrite t addr hdr err bytes => Sys2Proof.Machine.execPrivateWrite t addr hdr err bytes s
  | .ibiRetry t acked => Sys2Proof.Machine.execIbiRetry t acked s
  | .privateRead t addr hdr n => Sys2Proof.Machine.execPrivateRead t addr hdr n s
  | .entdaa t given => Sys2Proof.Machine.execEntdaa t given s
  | .setdasa t static addr => Sys2Proof.Machine.execSetdasa t static addr s
  | .setnewda t addr new => Sys2Proof.Machine.execSetnewda t addr new s
  | .rstdaa t => Sys2Proof.Machine.execRstdaa t s
  | .getpid t addr => Sys2Proof.Machine.execGetpid t addr s
  | .getbcr t addr => Sys2Proof.Machine.execGetbcr t addr s
  | .getdcr t addr => Sys2Proof.Machine.execGetdcr t addr s
  | .getstatus t addr => Sys2Proof.Machine.execGetstatus t addr s
  | .getmwl t addr => Sys2Proof.Machine.execGetmwl t addr s
  | .setmwl t addr v => Sys2Proof.Machine.execSetmwl t addr v s
  | .getmrl t addr => Sys2Proof.Machine.execGetmrl t addr s
  | .setmrl t addr v ibi => Sys2Proof.Machine.execSetmrl t addr v ibi s
  | .enec t addr ev => Sys2Proof.Machine.execEnec t addr ev s
  | .disec t addr ev => Sys2Proof.Machine.execDisec t addr ev s
  | .rstactNoReset t c => Sys2Proof.Machine.execRstactNoReset t c s
  | .rstactTransferReset t addr => Sys2Proof.Machine.execRstactTransferReset t addr s
  | .rstactFullReset t addr => Sys2Proof.Machine.execRstactFullReset t addr s
  | .enthdr0 t => Sys2Proof.Machine.execEnthdr0 t s
  | .cmisRead t off n => Sys2Proof.Machine.execCmisRead t off n s
  | .cmisWrite t off bytes => Sys2Proof.Machine.execCmisWrite t off bytes s
  | .identify t q => Sys2Proof.Machine.execIdentify t q s
  | .getStatus t q => Sys2Proof.Machine.execGetStatus t q s
  | .abort t q => Sys2Proof.Machine.execAbort t q s
  | .echo t q => Sys2Proof.Machine.execEcho t q s
  | .setNotify t q => Sys2Proof.Machine.execSetNotify t q s
  | .apply t q => Sys2Proof.Machine.execApply t q s
  | .commit t q => Sys2Proof.Machine.execCommit t q s
  | .commitCancel t q => Sys2Proof.Machine.execCommitCancel t q s
  | .setRead t q => Sys2Proof.Machine.execSetRead t q s
  | .shadowReset t q => Sys2Proof.Machine.execShadowReset t q s
  | .sessionExpert t q => Sys2Proof.Machine.execSessionExpert t q s
  | .sessionBasic t q => Sys2Proof.Machine.execSessionBasic t q s
  | .expertRelease t q => Sys2Proof.Machine.execExpertRelease t q s
  | .limitSet t q => Sys2Proof.Machine.execLimitSet t q s
  | .limitLock t q => Sys2Proof.Machine.execLimitLock t q s
  | .limitRead t q => Sys2Proof.Machine.execLimitRead t q s
  | .ownerRead t q => Sys2Proof.Machine.execOwnerRead t q s
  | .ownerRelease t q => Sys2Proof.Machine.execOwnerRelease t q s
  | .setGrouping t q => Sys2Proof.Machine.execSetGrouping t q s
  | .lineMode t q => Sys2Proof.Machine.execLineMode t q s
  | .lineEnable t q => Sys2Proof.Machine.execLineEnable t q s
  | .lineState t q => Sys2Proof.Machine.execLineState t q s
  | .rxEq t q => Sys2Proof.Machine.execRxEq t q s
  | .rxEqExpert t q => Sys2Proof.Machine.execRxEqExpert t q s
  | .rxGain t q => Sys2Proof.Machine.execRxGain t q s
  | .rxGainExpert t q => Sys2Proof.Machine.execRxGainExpert t q s
  | .rxTiming t q => Sys2Proof.Machine.execRxTiming t q s
  | .rxTimingExpert t q => Sys2Proof.Machine.execRxTimingExpert t q s
  | .rxDecode t q => Sys2Proof.Machine.execRxDecode t q s
  | .rxDecodeExpert t q => Sys2Proof.Machine.execRxDecodeExpert t q s
  | .lockLossConfig t q => Sys2Proof.Machine.execLockLossConfig t q s
  | .txSwing t q => Sys2Proof.Machine.execTxSwing t q s
  | .txSwingExpert t q => Sys2Proof.Machine.execTxSwingExpert t q s
  | .txFfe t q => Sys2Proof.Machine.execTxFfe t q s
  | .txFfeExpert t q => Sys2Proof.Machine.execTxFfeExpert t q s
  | .txPredist t q => Sys2Proof.Machine.execTxPredist t q s
  | .txPredistExpert t q => Sys2Proof.Machine.execTxPredistExpert t q s
  | .txSkew t q => Sys2Proof.Machine.execTxSkew t q s
  | .txSkewExpert t q => Sys2Proof.Machine.execTxSkewExpert t q s
  | .txClockSource t q => Sys2Proof.Machine.execTxClockSource t q s
  | .laneCalibrate t q => Sys2Proof.Machine.execLaneCalibrate t q s
  | .laneCalibrationEnd t n m => Sys2Proof.Machine.execLaneCalibrationEnd t n m s
  | .calTableRead t q => Sys2Proof.Machine.execCalTableRead t q s
  | .rxMonitor t q => Sys2Proof.Machine.execRxMonitor t q s
  | .eyeScan t q => Sys2Proof.Machine.execEyeScan t q s
  | .eyeScanExpert t q => Sys2Proof.Machine.execEyeScanExpert t q s
  | .eyeScanEnd t done codes => Sys2Proof.Machine.execEyeScanEnd t done codes s
  | .lineCounters t q => Sys2Proof.Machine.execLineCounters t q s
  | .errorInject t q => Sys2Proof.Machine.execErrorInject t q s
  | .errorInjectExpert t q => Sys2Proof.Machine.execErrorInjectExpert t q s
  | .lineLoop t q => Sys2Proof.Machine.execLineLoop t q s
  | .hostMode t q => Sys2Proof.Machine.execHostMode t q s
  | .hostState t q => Sys2Proof.Machine.execHostState t q s
  | .hostEq t q => Sys2Proof.Machine.execHostEq t q s
  | .hostEqExpert t q => Sys2Proof.Machine.execHostEqExpert t q s
  | .hostLoop t q => Sys2Proof.Machine.execHostLoop t q s
  | .hostRef t q => Sys2Proof.Machine.execHostRef t q s
  | .portFaultMode t q => Sys2Proof.Machine.execPortFaultMode t q s
  | .hostCounters t q => Sys2Proof.Machine.execHostCounters t q s
  | .timeGet t q => Sys2Proof.Machine.execTimeGet t q s
  | .timeSet t q => Sys2Proof.Machine.execTimeSet t q s
  | .timeStep t q => Sys2Proof.Machine.execTimeStep t q s
  | .servoSource t q => Sys2Proof.Machine.execServoSource t q s
  | .servoParams t q => Sys2Proof.Machine.execServoParams t q s
  | .servoParamsExpert t q => Sys2Proof.Machine.execServoParamsExpert t q s
  | .servoStatus t q => Sys2Proof.Machine.execServoStatus t q s
  | .timerefConfig t q => Sys2Proof.Machine.execTimerefConfig t q s
  | .ppsOutConfig t q => Sys2Proof.Machine.execPpsOutConfig t q s
  | .refoutConfig t q => Sys2Proof.Machine.execRefoutConfig t q s
  | .ppsInConfig t q => Sys2Proof.Machine.execPpsInConfig t q s
  | .xferStatus t q => Sys2Proof.Machine.execXferStatus t q s
  | .xferCal t q => Sys2Proof.Machine.execXferCal t q s
  | .xferCalPhaseEnd t n => Sys2Proof.Machine.execXferCalPhaseEnd t n s
  | .xferCalExpert t q => Sys2Proof.Machine.execXferCalExpert t q s
  | .asymmetry t q => Sys2Proof.Machine.execAsymmetry t q s
  | .asymmetryExpert t q => Sys2Proof.Machine.execAsymmetryExpert t q s
  | .ptpCorrConfig t q => Sys2Proof.Machine.execPtpCorrConfig t q s
  | .ptpCorrStatus t q => Sys2Proof.Machine.execPtpCorrStatus t q s
  | .roleSet t q => Sys2Proof.Machine.execRoleSet t q s
  | .hierStatus t q => Sys2Proof.Machine.execHierStatus t q s
  | .discover t q => Sys2Proof.Machine.execDiscover t q s
  | .probeTimeout t => Sys2Proof.Machine.execProbeTimeout t s
  | .workerAssign t q => Sys2Proof.Machine.execWorkerAssign t q s
  | .workerList t q => Sys2Proof.Machine.execWorkerList t q s
  | .tunnel t q => Sys2Proof.Machine.execTunnel t q s
  | .tunnelTimeout t => Sys2Proof.Machine.execTunnelTimeout t s
  | .epochStage t q => Sys2Proof.Machine.execEpochStage t q s
  | .epochCommit t q => Sys2Proof.Machine.execEpochCommit t q s
  | .abortEpoch t q => Sys2Proof.Machine.execAbortEpoch t q s
  | .revertEpoch t q => Sys2Proof.Machine.execRevertEpoch t q s
  | .epochStatus t q => Sys2Proof.Machine.execEpochStatus t q s
  | .epochResend t id => Sys2Proof.Machine.execEpochResend t id s
  | .epochResultTimeout t id => Sys2Proof.Machine.execEpochResultTimeout t id s
  | .fwBroadcast t q => Sys2Proof.Machine.execFwBroadcast t q s
  | .rillConfig t q => Sys2Proof.Machine.execRillConfig t q s
  | .rillConfigExpert t q => Sys2Proof.Machine.execRillConfigExpert t q s
  | .acqStatus t q => Sys2Proof.Machine.execAcqStatus t q s
  | .channelSource t q => Sys2Proof.Machine.execChannelSource t q s
  | .decimatorConfig t q => Sys2Proof.Machine.execDecimatorConfig t q s
  | .decimatorConfigExpert t q => Sys2Proof.Machine.execDecimatorConfigExpert t q s
  | .filterLoad t q => Sys2Proof.Machine.execFilterLoad t q s
  | .filterLoadExpert t q => Sys2Proof.Machine.execFilterLoadExpert t q s
  | .minmaxConfig t q => Sys2Proof.Machine.execMinmaxConfig t q s
  | .triggerConfig t q => Sys2Proof.Machine.execTriggerConfig t q s
  | .triggerConfigExpert t q => Sys2Proof.Machine.execTriggerConfigExpert t q s
  | .triggerCombine t q => Sys2Proof.Machine.execTriggerCombine t q s
  | .recordConfig t q => Sys2Proof.Machine.execRecordConfig t q s
  | .arm t q => Sys2Proof.Machine.execArm t q s
  | .disarm t q => Sys2Proof.Machine.execDisarm t q s
  | .forceTrigger t q => Sys2Proof.Machine.execForceTrigger t q s
  | .recordRead t q => Sys2Proof.Machine.execRecordRead t q s
  | .spillwayConfig t q => Sys2Proof.Machine.execSpillwayConfig t q s
  | .spillwayStart t q => Sys2Proof.Machine.execSpillwayStart t q s
  | .spillwayStop t q => Sys2Proof.Machine.execSpillwayStop t q s
  | .spillwayStatus t q => Sys2Proof.Machine.execSpillwayStatus t q s
  | .gaugeSequence t q => Sys2Proof.Machine.execGaugeSequence t q s
  | .gaugeSequenceExpert t q => Sys2Proof.Machine.execGaugeSequenceExpert t q s
  | .gaugeInject t q => Sys2Proof.Machine.execGaugeInject t q s
  | .gaugeRun t q => Sys2Proof.Machine.execGaugeRun t q s
  | .gaugeRead t q => Sys2Proof.Machine.execGaugeRead t q s
  | .jetsConfig t q => Sys2Proof.Machine.execJetsConfig t q s
  | .jetsQueue t q => Sys2Proof.Machine.execJetsQueue t q s
  | .jetsEnable t q => Sys2Proof.Machine.execJetsEnable t q s
  | .pwmConfig t q => Sys2Proof.Machine.execPwmConfig t q s
  | .pwmConfigExpert t q => Sys2Proof.Machine.execPwmConfigExpert t q s
  | .timerConfig t q => Sys2Proof.Machine.execTimerConfig t q s
  | .hkCalibrate t q => Sys2Proof.Machine.execHkCalibrate t q s
  | .hkCalibrationEnd t b m => Sys2Proof.Machine.execHkCalibrationEnd t b m s
  | .hkCalibrateExpert t q => Sys2Proof.Machine.execHkCalibrateExpert t q s
  | .bistRun t q => Sys2Proof.Machine.execBistRun t q s
  | .bistResult t q => Sys2Proof.Machine.execBistResult t q s
  | .bistSchedule t q => Sys2Proof.Machine.execBistSchedule t q s
  | .bistAbort t q => Sys2Proof.Machine.execBistAbort t q s
  | .powerEnter t q => Sys2Proof.Machine.execPowerEnter t q s
  | .powerRecover t q => Sys2Proof.Machine.execPowerRecover t q s
  | .lanePower t q => Sys2Proof.Machine.execLanePower t q s
  | .wakeConfig t q => Sys2Proof.Machine.execWakeConfig t q s
  | .shedConfig t q => Sys2Proof.Machine.execShedConfig t q s
  | .shedConfigExpert t q => Sys2Proof.Machine.execShedConfigExpert t q s
  | .powerStatus t q => Sys2Proof.Machine.execPowerStatus t q s
  | .updateBegin t q => Sys2Proof.Machine.execUpdateBegin t q s
  | .updateChunk t q => Sys2Proof.Machine.execUpdateChunk t q s
  | .updateEnd t q key sigOk digestOk => Sys2Proof.Machine.execUpdateEnd t q key sigOk digestOk s
  | .updateActivate t q => Sys2Proof.Machine.execUpdateActivate t q s
  | .attest t q sig => Sys2Proof.Machine.execAttest t q sig s
  | .certRead t q => Sys2Proof.Machine.execCertRead t q s
  | .logRead t q => Sys2Proof.Machine.execLogRead t q s
  | .debugUnlock t q keyOk sigOk => Sys2Proof.Machine.execDebugUnlock t q keyOk sigOk s
  | .keyRevoke t q keyOk sigOk => Sys2Proof.Machine.execKeyRevoke t q keyOk sigOk s
  | .cmisProfile t q => Sys2Proof.Machine.execCmisProfile t q s
  | .debugPortAccess t op => Sys2Proof.Machine.execDebugPortAccess t op s
  | .commandTimeout t q => Sys2Proof.Machine.execCommandTimeout t q s
  | .snapshotValidate t id bs => Sys2Proof.Machine.execSnapshotValidate t id bs s
  | .applyTcReached t id => Sys2Proof.Machine.execApplyTcReached t id s
  | .commitValidationTimeout t id => Sys2Proof.Machine.execCommitValidationTimeout t id s
  | .blockCommit t b good => Sys2Proof.Machine.execBlockCommit t b good s
  | .blockRevert t b => Sys2Proof.Machine.execBlockRevert t b s
  | .islandClockSwitch t n => Sys2Proof.Machine.execIslandClockSwitch t n s
  | .timeBusEpochMessage t n m => Sys2Proof.Machine.execTimeBusEpochMessage t n m s
  | .gainLoopStep t n rms => Sys2Proof.Machine.execGainLoopStep t n rms s
  | .adcRotationMove t n result => Sys2Proof.Machine.execAdcRotationMove t n result s
  | .lmsUpdate t n sums h1Sum h2Sum => Sys2Proof.Machine.execLmsUpdate t n sums h1Sum h2Sum s
  | .cdrLockDeclare t r => Sys2Proof.Machine.execCdrLockDeclare t r s
  | .cdrLockLoss t r => Sys2Proof.Machine.execCdrLockLoss t r s
  | .signalQualified t r => Sys2Proof.Machine.execSignalQualified t r s
  | .lossOfSignal t r optical => Sys2Proof.Machine.execLossOfSignal t r optical s
  | .gainSettled t r => Sys2Proof.Machine.execGainSettled t r s
  | .equaliserConverged t r => Sys2Proof.Machine.execEqualiserConverged t r s
  | .markerReceive t r block rx => Sys2Proof.Machine.execMarkerReceive t r block rx s
  | .missingMarkerLockLoss t r => Sys2Proof.Machine.execMissingMarkerLockLoss t r s
  | .innerFailWindowEnd t r => Sys2Proof.Machine.execInnerFailWindowEnd t r s
  | .laneStateTimeout t r => Sys2Proof.Machine.execLaneStateTimeout t r s
  | .stageSwitch t r tx => Sys2Proof.Machine.execStageSwitch t r tx s
  | .stageClockReady t r => Sys2Proof.Machine.execStageClockReady t r s
  | .restartEnd t r => Sys2Proof.Machine.execRestartEnd t r s
  | .txStageFallback t r => Sys2Proof.Machine.execTxStageFallback t r s
  | .txMarker t r => Sys2Proof.Machine.execTxMarker t r s
  | .timeMarkerArrival t r => Sys2Proof.Machine.execTimeMarkerArrival t r s
  | .hello t r => Sys2Proof.Machine.execHello t r s
  | .stepPropose t r => Sys2Proof.Machine.execStepPropose t r s
  | .stepConfirm t r => Sys2Proof.Machine.execStepConfirm t r s
  | .tapRequest t r => Sys2Proof.Machine.execTapRequest t r s
  | .tapReply t r => Sys2Proof.Machine.execTapReply t r s
  | .pdReport t n => Sys2Proof.Machine.execPdReport t n s
  | .skewReportLo t n => Sys2Proof.Machine.execSkewReportLo t n s
  | .skewReportHi t n => Sys2Proof.Machine.execSkewReportHi t n s
  | .trafficStart t n => Sys2Proof.Machine.execTrafficStart t n s
  | .laneReportTimer t n farAdaptive errors skews => Sys2Proof.Machine.execLaneReportTimer t n farAdaptive errors skews s
  | .txTuningTimeout t n => Sys2Proof.Machine.execTxTuningTimeout t n s
  | .trafficBegin t n => Sys2Proof.Machine.execTrafficBegin t n s
  | .receiverForwardStart t n => Sys2Proof.Machine.execReceiverForwardStart t n s
  | .rillDataMarker t r => Sys2Proof.Machine.execRillDataMarker t r s
  | .txDisableAssert t => Sys2Proof.Machine.execTxDisableAssert t s
  | .txDisableRelease t => Sys2Proof.Machine.execTxDisableRelease t s
  | .residueMismatch t p => Sys2Proof.Machine.execResidueMismatch t p s
  | .eccCorrectable t array cistern => Sys2Proof.Machine.execEccCorrectable t array cistern s
  | .eccUncorrectable t place => Sys2Proof.Machine.execEccUncorrectable t place s
  | .scrubPass t => Sys2Proof.Machine.execScrubPass t s
  | .hostSignalDetect t n hostref => Sys2Proof.Machine.execHostSignalDetect t n hostref s
  | .hostTrainingComplete t n => Sys2Proof.Machine.execHostTrainingComplete t n s
  | .hostRateStep t n => Sys2Proof.Machine.execHostRateStep t n s
  | .hostRxLocked t n => Sys2Proof.Machine.execHostRxLocked t n s
  | .hostAlignComplete t n badMap skew => Sys2Proof.Machine.execHostAlignComplete t n badMap skew s
  | .hostLaneLoss t n what => Sys2Proof.Machine.execHostLaneLoss t n what s
  | .hostRecoverRestored t n => Sys2Proof.Machine.execHostRecoverRestored t n s
  | .hostLaneTimeout t n => Sys2Proof.Machine.execHostLaneTimeout t n s
  | .hostrefLost t => Sys2Proof.Machine.execHostrefLost t s
  | .matchOverrun t n toLine => Sys2Proof.Machine.execMatchOverrun t n toLine s
  | .portFaultClear t port toLine => Sys2Proof.Machine.execPortFaultClear t port toLine s
  | .ptpEventMessage t lane hl toLine frame line host errored => Sys2Proof.Machine.execPtpEventMessage t lane hl toLine frame line host errored s
  | .lanePowerExitComplete t r => Sys2Proof.Machine.execLanePowerExitComplete t r s
  | .referenceLost t timeref => Sys2Proof.Machine.execReferenceLost t timeref s
  | .referenceQualified t timeref => Sys2Proof.Machine.execReferenceQualified t timeref s
  | .servoUpdate t => Sys2Proof.Machine.execServoUpdate t s
  | .servoEmptyUpdate t => Sys2Proof.Machine.execServoEmptyUpdate t s
  | .ppsInEdge t => Sys2Proof.Machine.execPpsInEdge t s
  | .ppsWindowMissed t => Sys2Proof.Machine.execPpsWindowMissed t s
  | .timeStepApply t => Sys2Proof.Machine.execTimeStepApply t s
  | .ppsOutEdge t => Sys2Proof.Machine.execPpsOutEdge t s
  | .ppsOutTrailing t => Sys2Proof.Machine.execPpsOutTrailing t s
  | .asymEstimateRun t => Sys2Proof.Machine.execAsymEstimateRun t s
  | .rillFrameReceive t p => Sys2Proof.Machine.execRillFrameReceive t p s
  | .ack t p => Sys2Proof.Machine.execAck t p s
  | .rillCommand t p => Sys2Proof.Machine.execRillCommand t p s
  | .rillReply t p => Sys2Proof.Machine.execRillReply t p s
  | .rillEvent t p => Sys2Proof.Machine.execRillEvent t p s
  | .probe t p => Sys2Proof.Machine.execProbe t p s
  | .probeAnswer t p => Sys2Proof.Machine.execProbeAnswer t p s
  | .assign t p => Sys2Proof.Machine.execAssign t p s
  | .assignAnswer t p => Sys2Proof.Machine.execAssignAnswer t p s
  | .epStage t p => Sys2Proof.Machine.execEpStage t p s
  | .epCommit t p => Sys2Proof.Machine.execEpCommit t p s
  | .epAbort t p => Sys2Proof.Machine.execEpAbort t p s
  | .epRevert t p => Sys2Proof.Machine.execEpRevert t p s
  | .epQuery t p => Sys2Proof.Machine.execEpQuery t p s
  | .epochAnswer t p => Sys2Proof.Machine.execEpochAnswer t p s
  | .epochTcReached t id => Sys2Proof.Machine.execEpochTcReached t id s
  | .epochStagingExpiry t id => Sys2Proof.Machine.execEpochStagingExpiry t id s
  | .fwSelect t p => Sys2Proof.Machine.execFwSelect t p s
  | .fwBlock t p => Sys2Proof.Machine.execFwBlock t p s
  | .fwQuery t p => Sys2Proof.Machine.execFwQuery t p s
  | .fwEnd t p key sigOk digestOk => Sys2Proof.Machine.execFwEnd t p key sigOk digestOk s
  | .fwAnswer t p => Sys2Proof.Machine.execFwAnswer t p s
  | .undelivered t p => Sys2Proof.Machine.execUndelivered t p s
  | .rillAckTimeout t p => Sys2Proof.Machine.execRillAckTimeout t p s
  | .rillBusyResend t p => Sys2Proof.Machine.execRillBusyResend t p s
  | .rillBusyLimit t p => Sys2Proof.Machine.execRillBusyLimit t p s
  | .rillLinkDownTimeout t p => Sys2Proof.Machine.execRillLinkDownTimeout t p s
  | .triggerFiring t n samples => Sys2Proof.Machine.execTriggerFiring t n samples s
  | .triggerTimeoutFire t n => Sys2Proof.Machine.execTriggerTimeoutFire t n s
  | .triggerDecision t => Sys2Proof.Machine.execTriggerDecision t s
  | .recordComplete t data => Sys2Proof.Machine.execRecordComplete t data s
  | .rearm t => Sys2Proof.Machine.execRearm t s
  | .spillwayStartComplete t => Sys2Proof.Machine.execSpillwayStartComplete t s
  | .spillwayUnitSend t u => Sys2Proof.Machine.execSpillwayUnitSend t u s
  | .spwFaultStop t high since => Sys2Proof.Machine.execSpwFaultStop t high since s
  | .timerTick t n => Sys2Proof.Machine.execTimerTick t n s
  | .gaugeTriggerEvent t g => Sys2Proof.Machine.execGaugeTriggerEvent t g s
  | .gaugePassStart t g => Sys2Proof.Machine.execGaugePassStart t g s
  | .gaugeResult t g raw => Sys2Proof.Machine.execGaugeResult t g raw s
  | .jetsTick t j => Sys2Proof.Machine.execJetsTick t j s
  | .jetsDeglitchEnd t j => Sys2Proof.Machine.execJetsDeglitchEnd t j s
  | .jetsParkTimer t j => Sys2Proof.Machine.execJetsParkTimer t j s
  | .pwmPeriodEnd t n => Sys2Proof.Machine.execPwmPeriodEnd t n s
  | .pwmCentreEvent t n => Sys2Proof.Machine.execPwmCentreEvent t n s
  | .thermalMonitorRead t readings => Sys2Proof.Machine.execThermalMonitorRead t readings s
  | .rotationStep t => Sys2Proof.Machine.execRotationStep t s
  | .engineSwap t matches' => Sys2Proof.Machine.execEngineSwap t matches' s
  | .bistSliceEnd t id failure => Sys2Proof.Machine.execBistSliceEnd t id failure s
  | .cisternTestSchedule t bulk => Sys2Proof.Machine.execCisternTestSchedule t bulk s
  | .watchdogExpiry t => Sys2Proof.Machine.execWatchdogExpiry t s
  | .clockLoss t n => Sys2Proof.Machine.execClockLoss t n s
  | .supplyFault t rails => Sys2Proof.Machine.execSupplyFault t rails s
  | .faultRecoveryComplete t => Sys2Proof.Machine.execFaultRecoveryComplete t s
  | .supplyComparatorUpdate t vin => Sys2Proof.Machine.execSupplyComparatorUpdate t vin s
  | .shedStep t => Sys2Proof.Machine.execShedStep t s
  | .uvloFall t => Sys2Proof.Machine.execUvloFall t s
  | .powerOn t => Sys2Proof.Machine.execPowerOn t s
  | .railInWindow t r bypass => Sys2Proof.Machine.execRailInWindow t r bypass s
  | .railStartTimeout t => Sys2Proof.Machine.execRailStartTimeout t s
  | .supplyShutdown t rails => Sys2Proof.Machine.execSupplyShutdown t rails s
  | .shutdownRestart t => Sys2Proof.Machine.execShutdownRestart t s
  | .resetNAssert t => Sys2Proof.Machine.execResetNAssert t s
  | .resetRelease t saddr => Sys2Proof.Machine.execResetRelease t saddr s
  | .bootRomRun t => Sys2Proof.Machine.execBootRomRun t s
  | .bootDone t => Sys2Proof.Machine.execBootDone t s
  | .logFlashCopy t => Sys2Proof.Machine.execLogFlashCopy t s
  | .sleepRequest t => Sys2Proof.Machine.execSleepRequest t s
  | .powerStateEntry t => Sys2Proof.Machine.execPowerStateEntry t s
  | .wakeSource t src active => Sys2Proof.Machine.execWakeSource t src active s
  | .alwaysOnTimer t => Sys2Proof.Machine.execAlwaysOnTimer t s
  | .wakeStageComplete t => Sys2Proof.Machine.execWakeStageComplete t s
  | .wakeStageTimeout t rails => Sys2Proof.Machine.execWakeStageTimeout t rails s
  | .wakeRetry t => Sys2Proof.Machine.execWakeRetry t s
  | .commandReady t => Sys2Proof.Machine.execCommandReady t s
  | .recoveryWindowExpiry t => Sys2Proof.Machine.execRecoveryWindowExpiry t s
  | .hostTrainingRequest t n tap delta => Sys2Proof.Machine.execHostTrainingRequest t n tap delta s
  | .lanePowerEntryComplete t r => Sys2Proof.Machine.execLanePowerEntryComplete t r s
  | .clockRestored t n => Sys2Proof.Machine.execClockRestored t n s
  | .epochCommandDeadline t id => Sys2Proof.Machine.execEpochCommandDeadline t id s
  | .fwSelectTimeout t => Sys2Proof.Machine.execFwSelectTimeout t s
  | .lpmodeChange t level => Sys2Proof.Machine.execLpmodeChange t level s

end Sys2Proof.Machine
end

