-- ==== Sys2Proof/Machine/Step.lean ====
section
/-! DEFINITION. One step of the block: the command at the front of the queue, or, with none waiting, the passing of time. -/
namespace Sys2Proof.Machine

/-- The time that passes in a step with no command waiting: five ticks of the 1.25 GHz counter, exactly 4 ns (R262). -/
def idleTime : Instant := nsec 4

/-- One step: the front command acts on the state with the queue's rest; with an empty queue elapsed time moves on. -/
def step (s : State) : Host.Outcome State Fault Refusal :=
  match s.pending with
  | [] => .next (s.advanceTo (s.now + idleTime))
  | c :: rest => exec c { s with pending := rest }

/-- The command that a word spells, put at the front of the queue; a word that spells none leaves the state as it is. -/
def State.withFetchWord (s : State) (nbits w : Nat) : State :=
  match decodeTableWord nbits w with
  | some c => { s with pending := c :: s.pending }
  | none => s

end Sys2Proof.Machine
end

