-- ==== Sys2Proof/Safety.lean ====
section
/-! DEFINITION. What the statements say of a run: when a command stands ready at the head of its queue, what its reply is, and
what holds in every state that a run reaches. -/
namespace Sys2Proof.Machine

/-- The state in which an accepted command does its work: its entry is running, accepted now (R75). -/
def State.running (s : State) (t : Instant) (q : QId) (e : QEntry) : State :=
  (s.advanceTo t).accept q (e.accept (s.advanceTo t))

/-- The entry as accepted at an instant. -/
def State.accepted (s : State) (t : Instant) (e : QEntry) : QEntry := e.accept (s.advanceTo t)

/-- At an instant a command stands at the head of a queue, carries the opcode, can be accepted, passes checks 1 to 3 of R86 and is not
barred by recovery, and no command of a later queue has been accepted in the island cycle; `inQ1` says that Q1 takes its opcode (R75, R76, R80,
R86, R477, R491). -/
abbrev Ready (s : State) (t : Instant) (q : QId) (op : Nat) (inQ1 : Bool) (e : QEntry) : Prop :=
  (s.advanceTo t).acceptable q = some e ∧ (s.advanceTo t).inOrder q = true ∧ e.cmd.op = op ∧ precheck (s.running t q e) q (s.accepted t e) inQ1 = none ∧ s.barred op = false

/-- A reply fits its queue: in Q2 at most 1,008 bytes of payload (R346). -/
abbrev Fits (q : QId) (p : List Byte) : Prop := q = .q2 → p.length ≤ 1008

/-- The command replies with a status and a payload, its work having left `s'`; then the heads whose opcode is undefined or that a fault
discards reply (R75, R86, R441). -/
def Replied (o : Host.Outcome State Fault Refusal) (q : QId) (e : QEntry) (st : Status) (p : List Byte) (s' : State) : Prop :=
  o = .next (s'.replyTo q e st p).sweep

/-- The command goes on, its work so far having left `s'`. -/
def Waits (o : Host.Outcome State Fault Refusal) (s' : State) : Prop := o = .next s'.sweep

/-- The device takes private writes at an address: it holds it, has booted, is in RUN or STANDBY, and prepares no power state (R55,
R56, R472). -/
abbrev State.takes (s : State) (addr : Nat) : Prop :=
  s.bus.dynAddr = some addr ∧ s.bootDone = true ∧ s.sys.pstate ≤ 1 ∧ s.sys.pow.entry = none

/-- The state in which an SDR transfer acts: the time has passed and HDR-DDR is left (R57). -/
def State.atSdr (s : State) (t : Instant) : State := { s.advanceTo t with bus := { s.bus with hdr := false } }

/-- A command packet as a host writes it: header, payload, padding and CRC-32C (Table 2.5). -/
def Cmd.bytes (queue : Nat) (c : Cmd) : List Byte :=
  let body := wordsLe [pack [(0xA5, 8), (queue, 4), (0, 1), (flag c.noReply, 1), (flag c.barrier, 1), (flag c.expert, 1), (c.payload.length, 16)],
      pack [(c.op, 16), (c.tag, 16)]] ++ c.payload ++ padding c.payload.length
  body ++ leBytes 4 (crc32c body)

/-- A row answers a next state with a property. -/
def Goes (o : Host.Outcome State Fault Refusal) (p : State → Prop) : Prop := ∃ t, o = .next t ∧ p t

/-- The row of a command completes: whenever the command is ready and `pre` holds of the queue, of its entry as accepted and of the
state in which it runs, its work leaves `after`, and it replies the status with `reply` of the state before and after (R75, R77,
R86). -/
def Completes (row : Instant → QId → Instr) (op : Nat) (inQ1 : Bool) (pre : QId → QEntry → State → Prop) (st : Status)
    (reply : QId → QEntry → State → State → List Byte) (after : QId → QEntry → State → State) : Prop :=
  ∀ (s : State) (t : Instant) (q : QId) (e : QEntry), Ready s t q op inQ1 e → pre q (s.accepted t e) (s.running t q e) →
    let w := after q (s.accepted t e) (s.running t q e)
    let p := reply q (s.accepted t e) (s.running t q e) w
    Fits q p → Replied (exec (row t q) s) q (s.accepted t e) st p w

/-- The row of a command starts its work, and the reply comes later: whenever the command is ready and `pre` holds, its work so far leaves
`after` (R75). -/
def Starts (row : Instant → QId → Instr) (op : Nat) (inQ1 : Bool) (pre : QId → QEntry → State → Prop)
    (after : QId → QEntry → State → State) : Prop :=
  ∀ (s : State) (t : Instant) (q : QId) (e : QEntry), Ready s t q op inQ1 e → pre q (s.accepted t e) (s.running t q e) →
    Waits (exec (row t q) s) (after q (s.accepted t e) (s.running t q e))

/-- The row of a command that writes shadow sets: whenever the command is ready and `pre` holds, it replies the status, and the shadow sets then
are as `wrote` says of the queue, the entry as accepted, the state in which it ran and the new shadow sets (R32, R77). -/
def Writes (row : Instant → QId → Instr) (op : Nat) (pre : QId → QEntry → State → Prop) (st : Status) (wrote : QId → QEntry → State → Bank → Prop) : Prop :=
  ∀ (s : State) (t : Instant) (q : QId) (e : QEntry), Ready s t q op false e → pre q (s.accepted t e) (s.running t q e) →
    ∃ (p : List Byte) (w : State), Replied (exec (row t q) s) q (s.accepted t e) st p w ∧
      wrote q (s.accepted t e) (s.running t q e) w.shadow

/-- A row takes up the accepted frame of a port that is of its kind, clears the port's place for one, and acts on it (Table 9.2, R332,
R348).  What goes on to another device has left in RILL_FRAME_RECEIVE. -/
def Takes (row : Instant → Fin 16 → Instr) (mine : Frame → Bool) (act : Fin 16 → Frame → State → State) : Prop :=
  ∀ (s : State) (t : Instant) (p : Fin 16) (f : Frame), s.rill.links[p].accepted = some f → mine f = true →
    exec (row t p) s = .next (act p f ((s.advanceTo t).modLink p fun l => { l with accepted := none }))

/-- The device apart from what an acceptance or a reply can touch: the queues' entries and the order of their reception and acceptance, the
stream and its request for an IBI, the frames queued on the Rill links and the count of those lost, and the firmware's own commands and
notes of the replies to them. -/
def State.device (s : State) : State :=
  { s with
    q := { s.q with q0 := [], q1 := [], q2 := [], q3 := [], nextSeq := 0, last := none }
    bus := { s.bus with stream := [], ibiReq := false }
    rill := { s.rill with links := Vector.ofFn fun i => { s.rill.links[i] with queue := [] }, upDrops := 0
                          staging := s.rill.staging.map fun g => { g with status := none } }
    sys := { s.sys with fw := { s.sys.fw with configErrors := 0, q3Wait := [] } } }

/-- A row that only reports, or only writes what `keep` copies over: in whatever state, when it answers a next state, everything else of the
device is as it was but for the passing of time. -/
def LeavesBut (row : Instant → QId → Instr) (keep : State → State → State) : Prop :=
  ∀ (s s' : State) (t : Instant) (q : QId), exec (row t q) s = .next s' → s'.device = keep s'.device (s.advanceTo t).device

/-- The rows that can reset the whole device (R57, R459, R460, R462). -/
def canReset : Instr → Bool
  | .uvloFall _ | .supplyShutdown _ _ | .railStartTimeout _ | .resetNAssert _ | .rstactFullReset _ _ => true
  | _ => false

end Sys2Proof.Machine
end

