-- ==== Sys2Proof/Certificates/Slice0/Obligations.lean ====
section
/-! DEFINITION. The statements for the provers.  What their words say of a run stands in Safety. -/
open Sys2Proof Sys2Proof.Machine

/-- Each directed read CCC at the address the device holds answers the value the tables give and changes nothing else but the time; GETSTATUS clears PROTOCOL_ERROR (R57, R58, Tables 2.1 and 2.2). That the bytes come most significant first is the model's reading (log entry 17). -/
def Obligations.CccReads : Prop :=
  (∀ (s : State) (t addr : Nat), s.bus.dynAddr = some addr → s.sys.pow.held = false → exec (.getpid t addr) s = .next ((s.advanceTo t).answer (.data (leBytes 6 s.pid).reverse))) ∧
  (∀ (s : State) (t addr : Nat), s.bus.dynAddr = some addr → s.sys.pow.held = false → exec (.getbcr t addr) s = .next ((s.advanceTo t).answer (.data [0x06]))) ∧
  (∀ (s : State) (t addr : Nat), s.bus.dynAddr = some addr → s.sys.pow.held = false → exec (.getdcr t addr) s = .next ((s.advanceTo t).answer (.data [0x00]))) ∧
  (∀ (s : State) (t addr : Nat), s.bus.dynAddr = some addr → s.sys.pow.held = false → exec (.getmwl t addr) s = .next ((s.advanceTo t).answer (.data (leBytes 2 s.bus.mwl).reverse))) ∧
  (∀ (s : State) (t addr : Nat), s.bus.dynAddr = some addr → s.sys.pow.held = false → exec (.getmrl t addr) s = .next ((s.advanceTo t).answer (.data ((leBytes 2 s.bus.mrl).reverse ++ [BitVec.ofNat 8 s.bus.ibiSize])))) ∧
  (∀ (s : State) (t addr : Nat), s.bus.dynAddr = some addr → s.sys.pow.held = false → exec (.getstatus t addr) s = .next { s.advanceTo t with bus := { s.bus with last := .data (leBytes 2 (s.advanceTo t).getStatusWord).reverse, protocolError := false } }) ∧
  (∀ (s : State) (t addr : Nat), s.bus.dynAddr ≠ some addr → exec (.getstatus t addr) s = .next { s.advanceTo t with bus := { s.bus with last := .nack } })

/-- Each CCC that writes changes the one bus setting it names and leaves everything else: lengths are stored within 1,036 and 1,040, the IBI payload size within 1 to 5, RSTDAA keeps queues and replies, a transfer reset only takes the read position back, and what the device does not support is NACKed or ignored (R55, R57, R60, R63, R65). -/
def Obligations.CccWrites : Prop :=
  (∀ (s : State) (t addr new : Nat), s.bus.dynAddr = some addr → s.sys.pow.held = false → exec (.setnewda t addr new) s = .next { s.advanceTo t with bus := { s.bus with dynAddr := some new, last := .ack } }) ∧
  (∀ (s : State) (t addr v : Nat), s.bus.dynAddr = some addr → s.sys.pow.held = false → exec (.setmwl t addr v) s = .next { s.advanceTo t with bus := { s.bus with mwl := min v 1036, last := .ack } }) ∧
  (∀ (s : State) (t addr v ibi : Nat), s.bus.dynAddr = some addr → s.sys.pow.held = false → exec (.setmrl t addr v ibi) s = .next { s.advanceTo t with bus := { s.bus with mrl := min v 1040, ibiSize := clampTo 1 5 ibi, last := .ack } }) ∧
  (∀ (s : State) (t addr ev : Nat), s.bus.dynAddr = some addr → s.sys.pow.held = false → exec (.enec t (some addr) ev) s = .next { s.advanceTo t with bus := { s.bus with enint := s.bus.enint || bit ev 0, last := .ack } }) ∧
  (∀ (s : State) (t addr ev : Nat), s.bus.dynAddr = some addr → s.sys.pow.held = false → exec (.disec t (some addr) ev) s = .next { s.advanceTo t with bus := { s.bus with enint := s.bus.enint && !bit ev 0, last := .ack } }) ∧
  (∀ (s : State) (t addr : Nat), s.bus.dynAddr = some addr → s.sys.pow.held = false → exec (.rstactTransferReset t (some addr)) s = .next { s.advanceTo t with bus := { s.bus with readPos := 0, last := .ack } }) ∧
  (∀ (s : State) (t addr : Nat), s.bus.dynAddr = some addr → s.sys.pow.held = false → exec (.rstactNoReset t (.rstact (some addr) 0)) s = .next { s.advanceTo t with bus := { s.bus with last := .ack } }) ∧
  (∀ (s : State) (t a : Nat) (addr : Option Nat), a ≠ 0 → exec (.rstactNoReset t (.rstact addr a)) s = .next { s.advanceTo t with bus := { s.bus with last := .nack } }) ∧
  (∀ (s : State) (t addr : Nat), exec (.rstactNoReset t (.direct addr)) s = .next { s.advanceTo t with bus := { s.bus with last := .nack } }) ∧
  (∀ (s : State) (t : Nat), exec (.rstactNoReset t .broadcast) s = .next { s.advanceTo t with bus := { s.bus with last := .idle } }) ∧
  (∀ (s : State) (t : Nat), s.sys.pow.held = false → exec (.rstdaa t) s = .next { s.advanceTo t with bus := { s.bus with dynAddr := none, last := .ack } }) ∧
  (∀ (s : State) (t : Nat), s.sys.pow.held = false → exec (.enthdr0 t) s = .next { s.advanceTo t with bus := { s.bus with hdr := true, last := .ack } })

/-- Out of legacy mode: ENTDAA and SETDASA at the static address give the dynamic address (R54, R55, R57). The byte order is log entry 17, that SETDASA acts in legacy mode alone is log entry 18. -/
def Obligations.AddressGiven : Prop :=
  (∀ (s : State) (t a : Nat), s.bus.dynAddr = none → s.sys.pow.held = false → exec (.entdaa t (some a)) s = .next { s.advanceTo t with bus := { s.bus with dynAddr := some a, last := .data ((leBytes 6 s.pid).reverse ++ [0x06, 0x00]) } }) ∧
  (∀ (s : State) (t a : Nat), s.bus.dynAddr = none → s.sys.pow.held = false → exec (.setdasa t s.staticAddr a) s = .next { s.advanceTo t with bus := { s.bus with dynAddr := some a, last := .ack } }) ∧
  (∀ (s : State) (t b x : Nat), s.bus.dynAddr = some x → s.sys.pow.held = false → exec (.entdaa t (some b)) s = .next { s.advanceTo t with bus := { s.bus with last := .idle } }) ∧
  (∀ (s : State) (t a b x : Nat), s.bus.dynAddr = some x → exec (.setdasa t a b) s = .next { s.advanceTo t with bus := { s.bus with last := .nack } })

/-- The five checks on a packet, in their order; the first that fails decides, and a packet that passes all five is received into its queue (R70). The sweep that follows replies to heads whose opcode is undefined. -/
def Obligations.PacketChecks : Prop :=
  (∀ (s : State) (t addr : Nat) (bytes : List Byte), s.takes addr → ((bytes.take s.bus.mwl).length < 8 ∨ bits (wordAt (bytes.take s.bus.mwl) 0) 0 8 ≠ 0xA5) → 
      exec (.privateWrite t addr none false bytes) s = .next (({ s.atSdr t with bus := { (s.atSdr t).bus with pktDrops := satAdd 32 s.bus.pktDrops 1 } }).answer .ack)) ∧
  (∀ (s : State) (t addr : Nat) (bytes : List Byte), s.takes addr → 8 ≤ (bytes.take s.bus.mwl).length → bits (wordAt (bytes.take s.bus.mwl) 0) 0 8 = 0xA5 → (1024 < bits (wordAt (bytes.take s.bus.mwl) 0) 16 16 ∨ (bytes.take s.bus.mwl).length ≠ 12 + 4 * ceilDiv (bits (wordAt (bytes.take s.bus.mwl) 0) 16 16) 4 ∨ s.bus.mwl < bytes.length) → 
      exec (.privateWrite t addr none false bytes) s = .next (((s.atSdr t).reject .badLength (bits (wordAt (bytes.take s.bus.mwl) 1) 16 16) (bits (wordAt (bytes.take s.bus.mwl) 1) 0 16) (bits (wordAt (bytes.take s.bus.mwl) 0) 8 4)).answer .ack)) ∧
  (∀ (s : State) (t addr : Nat) (bytes : List Byte), s.takes addr → 8 ≤ (bytes.take s.bus.mwl).length → bits (wordAt (bytes.take s.bus.mwl) 0) 0 8 = 0xA5 → bits (wordAt (bytes.take s.bus.mwl) 0) 16 16 ≤ 1024 ∧ (bytes.take s.bus.mwl).length = 12 + 4 * ceilDiv (bits (wordAt (bytes.take s.bus.mwl) 0) 16 16) 4 ∧ bytes.length ≤ s.bus.mwl → ofLe ((bytes.take s.bus.mwl).drop ((bytes.take s.bus.mwl).length - 4)) ≠ crc32c ((bytes.take s.bus.mwl).take ((bytes.take s.bus.mwl).length - 4)) → 
      exec (.privateWrite t addr none false bytes) s = .next (((s.atSdr t).reject .badCrc (bits (wordAt (bytes.take s.bus.mwl) 1) 16 16) (bits (wordAt (bytes.take s.bus.mwl) 1) 0 16) (bits (wordAt (bytes.take s.bus.mwl) 0) 8 4)).answer .ack)) ∧
  (∀ (s : State) (t addr : Nat) (bytes : List Byte), s.takes addr → 8 ≤ (bytes.take s.bus.mwl).length → bits (wordAt (bytes.take s.bus.mwl) 0) 0 8 = 0xA5 → bits (wordAt (bytes.take s.bus.mwl) 0) 16 16 ≤ 1024 ∧ (bytes.take s.bus.mwl).length = 12 + 4 * ceilDiv (bits (wordAt (bytes.take s.bus.mwl) 0) 16 16) 4 ∧ bytes.length ≤ s.bus.mwl → ofLe ((bytes.take s.bus.mwl).drop ((bytes.take s.bus.mwl).length - 4)) = crc32c ((bytes.take s.bus.mwl).take ((bytes.take s.bus.mwl).length - 4)) → (1 < bits (wordAt (bytes.take s.bus.mwl) 0) 8 4 ∨ bit (wordAt (bytes.take s.bus.mwl) 0) 12 = true) → 
      exec (.privateWrite t addr none false bytes) s = .next (((s.atSdr t).reject .badParam (bits (wordAt (bytes.take s.bus.mwl) 1) 16 16) (bits (wordAt (bytes.take s.bus.mwl) 1) 0 16) (bits (wordAt (bytes.take s.bus.mwl) 0) 8 4)).answer .ack)) ∧
  (∀ (s : State) (t addr : Nat) (bytes : List Byte), s.takes addr → 8 ≤ (bytes.take s.bus.mwl).length → bits (wordAt (bytes.take s.bus.mwl) 0) 0 8 = 0xA5 → bits (wordAt (bytes.take s.bus.mwl) 0) 16 16 ≤ 1024 ∧ (bytes.take s.bus.mwl).length = 12 + 4 * ceilDiv (bits (wordAt (bytes.take s.bus.mwl) 0) 16 16) 4 ∧ bytes.length ≤ s.bus.mwl → ofLe ((bytes.take s.bus.mwl).drop ((bytes.take s.bus.mwl).length - 4)) = crc32c ((bytes.take s.bus.mwl).take ((bytes.take s.bus.mwl).length - 4)) → bits (wordAt (bytes.take s.bus.mwl) 0) 8 4 ≤ 1 ∧ bit (wordAt (bytes.take s.bus.mwl) 0) 12 = false → 16 ≤ (s.q.get (if bits (wordAt (bytes.take s.bus.mwl) 0) 8 4 = 0 then QId.q0 else .q1)).length → 
      exec (.privateWrite t addr none false bytes) s = .next (((s.atSdr t).reject .queueFull (bits (wordAt (bytes.take s.bus.mwl) 1) 16 16) (bits (wordAt (bytes.take s.bus.mwl) 1) 0 16) (bits (wordAt (bytes.take s.bus.mwl) 0) 8 4)).answer .ack)) ∧
  (∀ (s : State) (t addr : Nat) (bytes : List Byte), s.takes addr → 8 ≤ (bytes.take s.bus.mwl).length → bits (wordAt (bytes.take s.bus.mwl) 0) 0 8 = 0xA5 → bits (wordAt (bytes.take s.bus.mwl) 0) 16 16 ≤ 1024 ∧ (bytes.take s.bus.mwl).length = 12 + 4 * ceilDiv (bits (wordAt (bytes.take s.bus.mwl) 0) 16 16) 4 ∧ bytes.length ≤ s.bus.mwl → ofLe ((bytes.take s.bus.mwl).drop ((bytes.take s.bus.mwl).length - 4)) = crc32c ((bytes.take s.bus.mwl).take ((bytes.take s.bus.mwl).length - 4)) → bits (wordAt (bytes.take s.bus.mwl) 0) 8 4 ≤ 1 ∧ bit (wordAt (bytes.take s.bus.mwl) 0) 12 = false → (s.q.get (if bits (wordAt (bytes.take s.bus.mwl) 0) 8 4 = 0 then QId.q0 else .q1)).length < 16 → 
      exec (.privateWrite t addr none false bytes) s = .next ((((s.atSdr t).receive (if bits (wordAt (bytes.take s.bus.mwl) 0) 8 4 = 0 then QId.q0 else .q1) { op := bits (wordAt (bytes.take s.bus.mwl) 1) 0 16, expert := bit (wordAt (bytes.take s.bus.mwl) 0) 15, barrier := bit (wordAt (bytes.take s.bus.mwl) 0) 14, noReply := bit (wordAt (bytes.take s.bus.mwl) 0) 13, tag := bits (wordAt (bytes.take s.bus.mwl) 1) 16 16, payload := ((bytes.take s.bus.mwl).drop 8).take (bits (wordAt (bytes.take s.bus.mwl) 0) 16 16) } (0, 0, 0)).sweep).answer .ack))

/-- No field of a command packet is dropped or misplaced: the packet built from Table 2.5 for any command passes checks 1 to 4 and gives that command back (R68 to R70). -/
def Obligations.PacketRoundTrip : Prop :=
  ∀ (queue : Nat) (c : Cmd), queue ≤ 1 → c.op < 65536 → c.tag < 65536 → c.payload.length ≤ 1024 → checkPacket (c.bytes queue) false 1 = .good queue c

/-- A rejection carries the fields as received, no payload, and takes no queue slot (R71); the ninth is dropped and counted, and REJECT_LOSS set (R62). -/
def Obligations.RejectionPacket : Prop :=
  (∀ (s : State) (st : Status) (tag op queue : Nat), s.waiting .rejection < 8 → (∃ p : Packet, (s.reject st tag op queue).bus.stream = s.bus.stream ++ [p] ∧ p.kind.code = 2 ∧ p.status = st.code ∧ p.tag = tag ∧ p.code = op ∧
      p.queue = queue ∧ p.payload = [] ∧ p.entry = none ∧ (s.reject st tag op queue).q = s.q)) ∧
  (∀ (s : State) (st : Status) (tag op queue : Nat), 8 ≤ s.waiting .rejection → s.reject st tag op queue = { s with bus := { s.bus with rejectDrops := satAdd 32 s.bus.rejectDrops 1, rejectLoss := true } })

/-- A private read returns the stream from the read position, ending after MRL bytes or at the end of the last packet; a packet whose last byte has been read leaves, and with nothing waiting the read is NACKed (R61). -/
def Obligations.PrivateRead : Prop :=
  (∀ (s : State) (t addr n : Nat), s.bus.dynAddr = some addr → s.sys.booted = true → s.sys.pstate ≤ 1 → s.streamBytes ≠ [] → Goes (exec (.privateRead t addr none n) s) fun s' => s'.bus.last = .data (s.streamBytes.take (min n s.bus.mrl)) ∧ s'.shadow = s.shadow ∧ s'.active = s.active) ∧
  (∀ (s : State) (t addr n : Nat) (p : Packet) (rest : List Packet), s.bus.dynAddr = some addr → s.sys.booted = true → s.sys.pstate ≤ 1 → s.bus.stream = p :: rest → s.bus.readPos + n < p.bytes.length → n ≤ s.bus.mrl → 
      Goes (exec (.privateRead t addr none n) s) fun s' => s'.bus.stream = s.bus.stream ∧ s'.bus.readPos = s.bus.readPos + n ∧ s'.q = s.q) ∧
  (∀ (s : State) (t addr n : Nat) (p : Packet) (rest : List Packet), s.bus.dynAddr = some addr → s.sys.booted = true → s.sys.pstate ≤ 1 → s.bus.stream = p :: rest → s.bus.readPos < p.bytes.length → s.bus.readPos + n = p.bytes.length → n ≤ s.bus.mrl → 
      Goes (exec (.privateRead t addr none n) s) fun s' => s'.bus.stream = rest ∧ s'.bus.readPos = 0) ∧
  (∀ (s : State) (t addr n : Nat), s.sys.pstate ≤ 1 → s.streamBytes = [] → exec (.privateRead t addr none n) s = .next ((s.atSdr t).answer .nack))

/-- The IBI that falls due is presented with its mandatory byte and as many summary bytes as the payload size allows; an acknowledgement holds further stream IBIs back until the next read, a NACK leaves the request (R64, R65). -/
def Obligations.IbiAnswered : Prop :=
  (∀ (s : State) (t c : Nat), (s.advanceTo t).ibiCode = some c → exec (.ibiRetry t true) s = .next { s.advanceTo t with bus := { s.bus with last := .ibi (BitVec.ofNat 8 c :: (leBytes 4 (s.advanceTo t).summary).take (s.bus.ibiSize - 1)) true, ibiAcked := true, ibiReq := false, ibiBoot := s.bus.ibiBoot && decide (c ≠ 0x01), ibiFault := s.bus.ibiFault && decide (c ≠ 0x02) } }) ∧
  (∀ (s : State) (t c : Nat), (s.advanceTo t).ibiCode = some c → exec (.ibiRetry t false) s = .next { s.advanceTo t with bus := { s.bus with last := .ibi (BitVec.ofNat 8 c :: (leBytes 4 (s.advanceTo t).summary).take (s.bus.ibiSize - 1)) false } })

/-- The CMIS window: reads, writes and where they are refused (R508, R509). What firmware policy puts in a byte is free (log entry 21); that the window NACKs while the device is held in reset, which R509 does not say, is the model's choice (same entry). -/
def Obligations.CmisWindow : Prop :=
  (∀ (s : State) (t : Nat) (off : Fin 256) (n : Nat), s.cmisOpen = true → exec (.cmisRead t off n) s = .next (((s.advanceTo t).draw.2).answer
        (.data ((cmisRun n off.val).map fun o => (s.advanceTo t).draw.2.cmisByte o (s.advanceTo t).draw.1)))) ∧
  (∀ (n : Nat) (off : Fin 256), (cmisRun n off.val).length = n ∧ cmisNext 255 = 128) ∧
  (∀ (s : State) (off k : Nat), s.bootDone = false → s.cmisByte off k = if off = 3 then 0x04 else 0) ∧
  (∀ (s : State) (t : Nat) (off : Fin 256) (bytes : List Byte), s.cmisOpen = true → s.bootDone = true → exec (.cmisWrite t off bytes) s =
        .next ((((cmisRun 8 off.val).zip (bytes.take 8)).foldl (fun s x => s.cmisPut x.1 x.2) (s.advanceTo t)).answer (if 8 < bytes.length then .nack else .ack))) ∧
  (∀ (s : State) (off key k : Nat) (v : Byte), s.bootDone = true → s.sys.fw.cmisKey off = some key → cmisWritable key = true → key ≠ 126 → key ≠ 127 → 
      (s.cmisPut off v).cmisByte off k = v) ∧
  (∀ (s : State) (t : Nat) (off : Fin 256) (bytes : List Byte), s.cmisOpen = true → s.bootDone = false → bytes.length ≤ 8 → exec (.cmisWrite t off bytes) s = .next ((s.advanceTo t).answer .ack)) ∧
  (∀ (s : State) (t : Nat) (off : Fin 256) (n : Nat) (bytes : List Byte), s.sys.pstate = 2 ∨ s.sys.pstate = 3 ∨ s.sys.pow.held = true → exec (.cmisRead t off n) s = .next ((s.advanceTo t).answer .nack) ∧ exec (.cmisWrite t off bytes) s = .next ((s.advanceTo t).answer .nack))

/-- The system reads reply with the words of their reply tables and change nothing but the loss flags that GET_STATUS clears (R91, R100, R107, R108). -/
def Obligations.StatusReads : Prop :=
  (Completes .getStatus 0x1001 true (fun _ e _ => e.len = 4 ∧ rsvHigh (e.w 0) 2 = true) .ok
      (fun _ _ s _ => wordsLe [s.summary, pack [(s.sys.pstate, 2), (0, 6), (s.sys.lastClass, 8)],
        pack [(s.q.q0.length, 8), (s.q.q1.length, 8), (s.q.q2.length, 8), (s.q.q3.length, 8)], s.bus.pktDrops, s.bus.rejectDrops, s.bus.eventDrops])
      (fun _ e s => { s with bus := { s.bus with eventLoss := s.bus.eventLoss && !bit (e.w 0) 0, rejectLoss := s.bus.rejectLoss && !bit (e.w 0) 1 } })) ∧
  (Completes .echo 0x1003 true (fun _ _ _ => True) .ok
      (fun _ e _ _ => e.cmd.payload)
      (fun _ _ s => s)) ∧
  (Completes .limitRead 0x1032 true (fun _ e _ => e.len = 4 ∧ rsvHigh (e.w 0) 16 = true ∧ (limitScope (bits (e.w 0) 0 8)).any (fun x => decide (bits (e.w 0) 8 8 < x.1)) = true) .ok
      (fun _ e s _ => limitReply s.limits (bits (e.w 0) 0 8) (bits (e.w 0) 8 8) (bits (e.w 0) 8 8) (((limitScope (bits (e.w 0) 0 8)).map Prod.snd).getD false))
      (fun _ _ s => s)) ∧
  (Completes .ownerRead 0x1040 true (fun _ e _ => e.len = 4 ∧ rsvHigh (e.w 0) 8 = true ∧ (resourceIndex (bits (e.w 0) 0 8)).isSome = true) .ok
      (fun _ e s _ => (match resourceIndex (bits (e.w 0) 0 8) with
        | some r => wordsLe [pack [(bits (e.w 0) 0 8, 8), (s.owners[r].fn.code, 8), (s.owners[r].detail, 16)]] ++ s.owners[r].claim.bytes
        | none => []))
      (fun _ _ s => s))

/-- Each command writes the state it names and nothing else of the device (R49, R99, R106, R107). -/
def Obligations.SystemWrites : Prop :=
  (Completes .setNotify 0x1004 false (fun _ e _ => e.len = 8 ∧ rsvHigh (e.w 0) 14 = true ∧ rsvHigh (e.w 1) 3 = true) .ok
      (fun _ _ _ _ => [])
      (fun _ e s => { s with bus := { s.bus with eventEn := bits (e.w 0) 0 14, intEn := bits (e.w 1) 0 3 } })) ∧
  (Completes .sessionExpert 0x1020 false (fun _ e _ => e.len = 0) .ok
      (fun _ _ _ _ => [])
      (fun q _ s => { s with q := { s.q with expert0 := s.q.expert0 || decide (q = .q0), expert2 := s.q.expert2 || decide (q = .q2) } })) ∧
  (Completes .sessionBasic 0x1021 false (fun _ e _ => e.len = 0) .ok
      (fun _ _ _ _ => [])
      (fun q _ s => { s with q := { s.q with expert0 := s.q.expert0 && decide (q ≠ .q0), expert2 := s.q.expert2 && decide (q ≠ .q2) } })) ∧
  (Completes .limitSet 0x1030 false (fun _ e s => e.len = 20 ∧ s.limits.locked = false ∧ limitOk (bits (e.w 0) 0 8) (e.w 1) (e.w 2) (e.w 3) (e.w 4) = true ∧
        rsvHigh (e.w 0) 16 = true ∧ (limitScope (bits (e.w 0) 0 8)).any (fun x => !x.2 && decide (bits (e.w 0) 8 8 < x.1)) = true) .ok
      (fun _ e s _ => limitReply (s.limits.set (bits (e.w 0) 0 8) (bits (e.w 0) 8 8) (e.w 1) (e.w 2) (e.w 3) (e.w 4)) (bits (e.w 0) 0 8) (bits (e.w 0) 8 8) (bits (e.w 0) 8 8) false)
      (fun _ e s => { s with limits := s.limits.set (bits (e.w 0) 0 8) (bits (e.w 0) 8 8) (e.w 1) (e.w 2) (e.w 3) (e.w 4) })) ∧
  (Completes .limitSet 0x1030 false (fun _ e s => e.len = 20 ∧ s.limits.locked = false ∧ limitOk (bits (e.w 0) 0 8) (e.w 1) (e.w 2) (e.w 3) (e.w 4) = true ∧
        rsvHigh (e.w 0) 16 = true ∧ bits (e.w 0) 8 8 = 0xFF ∧ (limitScope (bits (e.w 0) 0 8)).any (fun x => !x.2) = true) .ok
      (fun _ e s _ => limitReply ((List.range (((limitScope (bits (e.w 0) 0 8)).map Prod.fst).getD 0)).foldl (fun l i => l.set (bits (e.w 0) 0 8) i (e.w 1) (e.w 2) (e.w 3) (e.w 4)) s.limits) (bits (e.w 0) 0 8) 0xFF 0 false)
      (fun _ e s => { s with limits := (List.range (((limitScope (bits (e.w 0) 0 8)).map Prod.fst).getD 0)).foldl (fun l i => l.set (bits (e.w 0) 0 8) i (e.w 1) (e.w 2) (e.w 3) (e.w 4)) s.limits })) ∧
  (Completes .setGrouping 0x1050 false (fun _ e _ => e.len = 4 ∧ rsvHigh (e.w 0) 2 = true) .ok
      (fun _ _ _ _ => [])
      (fun _ e s => { s with shadow := { s.shadow with port := updAll s.shadow.port (List.finRange 8) fun _ p => { p with grouping := bits (e.w 0) 0 2 } } }))

/-- Once locked, the limits stay so: a second lock changes nothing and a LIMIT_SET is refused (R47, R96, R107). -/
def Obligations.LimitsLock : Prop :=
  (Completes .limitLock 0x1031 false (fun _ e s => e.len = 0 ∧ s.limits.locked = false) .ok
      (fun _ _ _ _ => [])
      (fun q e s => ({ s with limits := { s.limits with locked := true, lockCause := 1 } }.event 0xE050 0
        (wordsLe [pack [(1, 8), (q.num, 4), (0, 4), (e.cmd.tag, 16)]] ++ s.stampMgmt.bytes)))) ∧
  (Completes .limitLock 0x1031 false (fun _ e s => e.len = 0 ∧ s.limits.locked = true) .ok
      (fun _ _ _ _ => [])
      (fun _ _ s => s)) ∧
  (Completes .limitSet 0x1030 false (fun _ e s => e.len = 20 ∧ s.limits.locked = true ∧ limitOk (bits (e.w 0) 0 8) (e.w 1) (e.w 2) (e.w 3) (e.w 4) = true ∧
        rsvHigh (e.w 0) 16 = true ∧ (limitScope (bits (e.w 0) 0 8)).any (fun x => !x.2 && decide (bits (e.w 0) 8 8 < x.1)) = true) .precondition
      (fun _ _ _ _ => [])
      (fun _ _ s => s))

/-- ABORT replies with the count of the commands it discarded; each of those replies DISCARDED first, in order of reception (R83, R101). -/
def Obligations.AbortDiscards : Prop :=
  Completes .abort 0x1002 true (fun _ e _ => e.len = 4 ∧ rsv (e.w 0) 1 15 = true) .ok
      (fun _ e s _ => wordsLe [pack [((s.q.q0.filter fun x => (bit (e.w 0) 0 || decide (x.cmd.tag = bits (e.w 0) 16 16)) && decide (x.seq ≠ e.seq) &&
        (decide (x.phase = .received) || (decide (x.phase = .running) && s.waitingCmd x.seq))).length, 16)]])
      (fun _ e s => (s.q.q0.filter fun x => (bit (e.w 0) 0 || decide (x.cmd.tag = bits (e.w 0) 16 16)) && decide (x.seq ≠ e.seq) &&
        (decide (x.phase = .received) || (decide (x.phase = .running) && s.waitingCmd x.seq))).foldl (fun s x => s.discard .q0 x) s)

/-- The identity and log reads reply with the words of their tables and change nothing (R490, R501, R502, R505). The certificate bytes and the boot ROM version are open (log entries 14 and 13). -/
def Obligations.IdentityReads : Prop :=
  (Completes .identify 0x1000 true (fun _ e _ => e.len = 0) .ok
      (fun _ _ s _ => (wordsLe [pack [(0x3208, 16), (flag s.sys.optionW, 4), (0, 4), (0xB0, 8)]] ++ leBytes 6 s.pid ++ leBytes 2 0 ++
        wordsLe [s.sys.fw.version, pack [(s.sys.fw.runCode, 4), (flag s.sys.fw.trial, 1), (flag s.sys.fw.recovery, 1), (flag s.limits.locked, 1),
          (flag s.sys.fw.dbgScope.isSome, 1), (s.sys.fw.cfgCode, 4), (0, 4), (s.sys.bootCount, 16)]] ++
        s.serialBytes ++ wordsLe [romVersion, s.sys.fw.cfgVersion, s.sys.bootCount]))
      (fun _ _ s => s)) ∧
  (∀ (sig : List Byte), sig.length = 96 → Completes (fun t q => .attest t q sig) 0xA010 false (fun _ e _ => e.len = 32) .ok
      (fun _ e s _ => s.attestBody e.cmd.payload ++ sig)
      (fun _ _ s => s)) ∧
  (Completes .certRead 0xA011 true (fun _ e _ => e.len = 8 ∧ rsvHigh (e.w 0) 10 = true ∧ 1 ≤ bits (e.w 0) 0 10 ∧ bits (e.w 0) 0 10 ≤ 1012 ∧ e.w 1 < certTotal) .ok
      (fun _ e _ _ => wordsLe [certTotal, e.w 1] ++ (List.range (min (bits (e.w 0) 0 10) (certTotal - e.w 1))).map fun i => Config.certByte (e.w 1 + i))
      (fun _ _ s => s)) ∧
  (Completes .logRead 0xA020 true (fun _ e _ => e.len = 8 ∧ rsv (e.w 0) 1 7 = true ∧ rsvHigh (e.w 0) 13 = true ∧ 1 ≤ bits (e.w 0) 8 5 ∧ bits (e.w 0) 8 5 ≤ 21) .ok
      (fun _ e s _ => wordsLe [(match (if bit (e.w 0) 0 then s.sys.fw.flashLog else s.sys.log).head? with | some x => x.seq | none => s.sys.logSeq), s.sys.logSeq,
          pack [((((if bit (e.w 0) 0 then s.sys.fw.flashLog else s.sys.log).filter fun x => seqFrom x.seq (e.w 1)).take (bits (e.w 0) 8 5)).length, 5), (0, 11), (min s.sys.fw.flashSkipped 0xFFFF, 16)]] ++
        (((if bit (e.w 0) 0 then s.sys.fw.flashLog else s.sys.log).filter fun x => seqFrom x.seq (e.w 1)).take (bits (e.w 0) 8 5)).flatMap LogEntry.bytes)
      (fun _ _ s => s))

/-- A line-lane command writes its parameters into the shadow sets of the lanes in LANE_MASK; every other lane keeps its set (R32, R112, R132, R140, R161, R165, R214). -/
def Obligations.LineLaneWrites : Prop :=
  (Writes .lineMode 0x2000 (fun _ e _ => e.len = 4 ∧ rsv (e.w 0) 9 3 = true ∧ rsvHigh (e.w 0) 12 = true) .ok
      (fun _ e s k => (∀ n : Fin 8, k.lineRx[n] = if n ∈ e.lanes then { s.shadow.lineRx[n] with s200 := bit (e.w 0) 8 } else s.shadow.lineRx[n]) ∧
        (∀ n : Fin 8, k.lineTx[n] = if n ∈ e.lanes then { s.shadow.lineTx[n] with s200 := bit (e.w 0) 8 } else s.shadow.lineTx[n]))) ∧
  (Writes .lineEnable 0x2001 (fun _ e _ => e.len = 4 ∧ rsvHigh (e.w 0) 24 = true) .ok
      (fun _ e s k => (∀ n : Fin 8, k.lineRx[n] = if n ∈ e.lanes then { s.shadow.lineRx[n] with rxEn := bit (e.w 0) (8 + n.val) } else s.shadow.lineRx[n]) ∧
        (∀ n : Fin 8, k.lineTx[n] = if n ∈ e.lanes then { s.shadow.lineTx[n] with txEn := bit (e.w 0) (16 + n.val) } else s.shadow.lineTx[n]))) ∧
  (Writes .rxGain 0x2011 (fun _ e _ => e.len = 4 ∧ rsvHigh (e.w 0) 16 = true ∧ 16 ≤ bits (e.w 0) 8 8 ∧ bits (e.w 0) 8 8 ≤ 80) .ok
      (fun _ e s k => ∀ n : Fin 8, k.lineRx[n] = if n ∈ e.lanes then { s.shadow.lineRx[n] with targetRms := bits (e.w 0) 8 8 } else s.shadow.lineRx[n])) ∧
  (Writes .lockLossConfig 0x2014 (fun _ e _ => e.len = 16 ∧ rsv (e.w 0) 8 8 = true ∧ rsv (e.w 1) 8 8 = true ∧ rsvHigh (e.w 3) 16 = true ∧ channelOk (bits (e.w 1) 0 8) = true ∧
        (bits (e.w 1) 0 8 = 0xFF ∨ bits (e.w 1) 16 16 ≠ 0) ∧ bits (e.w 2) 0 16 < bits (e.w 2) 16 16) .ok
      (fun _ e s k => ∀ n : Fin 8, k.lineRx[n] = if n ∈ e.lanes then { s.shadow.lineRx[n] with failThreshold := bits (e.w 0) 16 16, optChannel := bits (e.w 1) 0 8, optScale := bits (e.w 1) 16 16, losAssert := bits (e.w 2) 0 16, losDeassert := bits (e.w 2) 16 16, darkLevel := bits (e.w 3) 0 16 } else s.shadow.lineRx[n])) ∧
  (Writes .txPredist 0x2022 (fun _ e _ => e.len = 4 ∧ rsvHigh (e.w 0) 9 = true) .ok
      (fun _ e s k => ∀ n : Fin 8, k.lineTx[n] = if n ∈ e.lanes then { s.shadow.lineTx[n] with pdAdaptive := bit (e.w 0) 8 } else s.shadow.lineTx[n])) ∧
  (Writes .txClockSource 0x2024 (fun _ e _ => e.len = 4 ∧ rsvHigh (e.w 0) 12 = true) .ok
      (fun _ e s k => ∀ n : Fin 8, k.lineTx[n] = if n ∈ e.lanes then { s.shadow.lineTx[n] with clkLoop := bit (e.w 0) 8, clkLane := ⟨bits (e.w 0) 9 3, by simp only [bits]; omega⟩ } else s.shadow.lineTx[n]))

/-- An expert command writes its parameters and pins them, in the selected lanes only (R50, R112, R120, R161, R164, R204). -/
def Obligations.LineLaneExpertWrites : Prop :=
  (Writes .rxGainExpert 0x2811 (fun _ e _ => e.len = 4 ∧ bits (e.w 0) 16 7 ≤ 72 ∧ rsv (e.w 0) 8 8 = true ∧ rsvHigh (e.w 0) 23 = true) .ok
      (fun _ e s k => ∀ (n : Fin 8), (k.lineRx[n] = if n ∈ e.lanes then { s.shadow.lineRx[n] with gainCode := bits (e.w 0) 16 7 } else s.shadow.lineRx[n]) ∧
        ∀ x : Nat, k.pinned (.lineRx n) 0x2811 x = (s.shadow.pinned (.lineRx n) 0x2811 x || decide (n ∈ e.lanes ∧ x = 128)))) ∧
  (Writes .rxTimingExpert 0x2812 (fun _ e _ => e.len = 8 ∧ 2 ≤ bits (e.w 0) 16 4 ∧ 6 ≤ bits (e.w 0) 21 5 ∧ bits (e.w 0) 21 5 ≤ 24 ∧ -32 ≤ toSigned 7 (bits (e.w 1) 0 7) ∧
        toSigned 7 (bits (e.w 1) 0 7) ≤ 31 ∧ rsv (e.w 0) 8 8 = true ∧ rsv (e.w 0) 20 1 = true ∧ rsvHigh (e.w 0) 26 = true ∧ rsvHigh (e.w 1) 7 = true ∧ e.lanes ≠ []) .ok
      (fun _ e s k => ∀ (n : Fin 8), (k.lineRx[n] = if n ∈ e.lanes then { s.shadow.lineRx[n] with kpShift := bits (e.w 0) 16 4, kiShift := bits (e.w 0) 21 5, phase := toSigned 7 (bits (e.w 1) 0 7) } else s.shadow.lineRx[n]) ∧
        ∀ x : Nat, k.pinned (.lineRx n) 0x2812 x = (s.shadow.pinned (.lineRx n) 0x2812 x || decide (n ∈ e.lanes ∧ (x = 128 ∨ x = 129 ∨ x = 130))))) ∧
  (Writes .rxDecodeExpert 0x2813 (fun _ e _ => e.len = 4 ∧ bits (e.w 0) 16 3 ≤ 6 ∧ 1 ≤ bits (e.w 0) 24 8 ∧ rsv (e.w 0) 8 8 = true ∧ rsv (e.w 0) 19 5 = true) .ok
      (fun _ e s k => ∀ (n : Fin 8), (k.lineRx[n] = if n ∈ e.lanes then { s.shadow.lineRx[n] with depth := bits (e.w 0) 16 3, llrScale := bits (e.w 0) 24 8 } else s.shadow.lineRx[n]) ∧
        ∀ x : Nat, k.pinned (.lineRx n) 0x2813 x = (s.shadow.pinned (.lineRx n) 0x2813 x || decide (n ∈ e.lanes ∧ (x = 128 ∨ x = 129))))) ∧
  (Writes .txSkewExpert 0x2823 (fun _ e _ => e.len = 4 ∧ -4096 ≤ toSigned 14 (bits (e.w 0) 16 14) ∧ toSigned 14 (bits (e.w 0) 16 14) ≤ 4096 ∧ rsv (e.w 0) 8 8 = true ∧ rsvHigh (e.w 0) 30 = true ∧ e.lanes ≠ []) .ok
      (fun _ e s k => ∀ (n : Fin 8), (k.lineTx[n] = if n ∈ e.lanes then { s.shadow.lineTx[n] with skew := toSigned 14 (bits (e.w 0) 16 14) } else s.shadow.lineTx[n]) ∧
        ∀ x : Nat, k.pinned (.lineTx n) 0x2823 x = (s.shadow.pinned (.lineTx n) 0x2823 x || decide (n ∈ e.lanes ∧ x = 128)))) ∧
  (Writes .txPredistExpert 0x2822 (fun _ e _ => e.len = 68 ∧ rsvHigh (e.w 0) 8 = true ∧ ∀ j : Fin 64, -64 ≤ toSigned 8 (fieldAt e.cmd.payload (4 + j.val) 1) ∧ toSigned 8 (fieldAt e.cmd.payload (4 + j.val) 1) ≤ 63) .ok
      (fun _ e s k => ∀ (n : Fin 8), (k.lineTx[n] = if n ∈ e.lanes then { s.shadow.lineTx[n] with pd := Vector.ofFn fun j => toSigned 8 (fieldAt e.cmd.payload (4 + j.val) 1) } else s.shadow.lineTx[n]) ∧
        ∀ x : Nat, k.pinned (.lineTx n) 0x2822 x = (s.shadow.pinned (.lineTx n) 0x2822 x || decide (n ∈ e.lanes ∧ (x = 0)))))

/-- A basic command leaves a pinned parameter unchanged and writes the rest (R50, R120, R156, R164, R204). Which gains belong to a class and a stage the manual leaves to firmware (log entry 125). -/
def Obligations.LineLaneBasicPinned : Prop :=
  (Writes .rxTiming 0x2012 (fun _ e _ => e.len = 4 ∧ bits (e.w 0) 8 2 ≤ 2 ∧ rsv (e.w 0) 10 6 = true ∧ rsv (e.w 0) 20 1 = true ∧ rsvHigh (e.w 0) 26 = true ∧ e.lanes ≠ []) .ok
      (fun _ e s k => ∀ n : Fin 8, k.lineRx[n] = if n ∈ e.lanes then { s.shadow.lineRx[n] with bwClass := bits (e.w 0) 8 2, kpShift := if s.shadow.pinned (.lineRx n) 0x2812 128 then s.shadow.lineRx[n].kpShift else (loopGains (bits (e.w 0) 8 2) s.lanes[n].acq.stage).1, kiShift := if s.shadow.pinned (.lineRx n) 0x2812 129 then s.shadow.lineRx[n].kiShift else (loopGains (bits (e.w 0) 8 2) s.lanes[n].acq.stage).2 } else s.shadow.lineRx[n])) ∧
  (Writes .rxDecode 0x2013 (fun _ e _ => e.len = 4 ∧ rsv (e.w 0) 9 7 = true ∧ rsv (e.w 0) 19 5 = true) .ok
      (fun _ e s k => ∀ n : Fin 8, k.lineRx[n] = if n ∈ e.lanes then { s.shadow.lineRx[n] with hard := bit (e.w 0) 8, depth := if s.shadow.pinned (.lineRx n) 0x2813 128 then s.shadow.lineRx[n].depth else if bit (e.w 0) 8 then 0 else 6 } else s.shadow.lineRx[n])) ∧
  (Writes .txSwing 0x2020 (fun _ e s => e.len = 4 ∧ 300 ≤ bits (e.w 0) 8 10 ∧ bits (e.w 0) 8 10 ≤ 900 ∧ rsvHigh (e.w 0) 18 = true ∧ e.lanes ≠ [] ∧ (e.lanes.any fun n => decide (maxFs s.limits.txSwing[n] < roundDivN (bits (e.w 0) 8 10 * 16) 15) && !s.shadow.pinned (.lineTx n) 0x2820 128) = false) .ok
      (fun _ e s k => ∀ n : Fin 8, k.lineTx[n] = if n ∈ e.lanes ∧ s.shadow.pinned (.lineTx n) 0x2820 128 = false then { s.shadow.lineTx[n] with fsCode := min (roundDivN (bits (e.w 0) 8 10 * 16) 15) (maxFs s.limits.txSwing[n]) } else s.shadow.lineTx[n])) ∧
  (Writes .txSwing 0x2020 (fun _ e s => e.len = 4 ∧ 300 ≤ bits (e.w 0) 8 10 ∧ bits (e.w 0) 8 10 ≤ 900 ∧ rsvHigh (e.w 0) 18 = true ∧ e.lanes ≠ [] ∧ (e.lanes.any fun n => decide (maxFs s.limits.txSwing[n] < roundDivN (bits (e.w 0) 8 10 * 16) 15) && !s.shadow.pinned (.lineTx n) 0x2820 128) = true) .limitClamped
      (fun _ e s k => ∀ n : Fin 8, k.lineTx[n] = if n ∈ e.lanes ∧ s.shadow.pinned (.lineTx n) 0x2820 128 = false then { s.shadow.lineTx[n] with fsCode := min (roundDivN (bits (e.w 0) 8 10 * 16) 15) (maxFs s.limits.txSwing[n]) } else s.shadow.lineTx[n])) ∧
  (Writes .txSkew 0x2023 (fun _ e _ => e.len = 4 ∧ rsv (e.w 0) 9 7 = true ∧ rsvHigh (e.w 0) 16 = true ∧ e.lanes ≠ [] ∧ bit (e.w 0) 8 = false) .ok
      (fun _ e s k => ∀ n : Fin 8, k.lineTx[n] = if n ∈ e.lanes then { s.shadow.lineTx[n] with skewAlign := false, skew := if s.shadow.pinned (.lineTx n) 0x2823 128 then s.shadow.lineTx[n].skew else 0 } else s.shadow.lineTx[n])) ∧
  (Writes .txSkew 0x2023 (fun _ e _ => e.len = 4 ∧ rsv (e.w 0) 9 7 = true ∧ rsvHigh (e.w 0) 16 = true ∧ e.lanes ≠ [] ∧ bit (e.w 0) 8 = true) .ok
      (fun _ e s k => ∀ n : Fin 8, k.lineTx[n] = if n ∈ e.lanes then { s.shadow.lineTx[n] with skewAlign := true } else s.shadow.lineTx[n]))

/-- Each command writes its parameters in every selected lane, an expert one pinning them and a basic one leaving pinned ones (R50, R124, R156 to R158, R217, R247). Log entry 40: the target responses that firmware chooses. -/
def Obligations.LineTapsAndTests : Prop :=
  (Completes .rxEqExpert 0x2810 false (fun _ e _ => e.len = 216 ∧ 4 ≤ bits (e.w 0) 16 6 ∧ bits (e.w 0) 16 6 ≤ 47 ∧ 6 ≤ bits (e.w 1) 0 5 ∧ bits (e.w 1) 0 5 ≤ 24 ∧
        (bits (e.w 1) 8 5 = 0 ∨ (12 ≤ bits (e.w 1) 8 5 ∧ bits (e.w 1) 8 5 ≤ 30)) ∧ rsv (e.w 0) 8 8 = true ∧ rsv (e.w 0) 22 10 = true ∧ rsv (e.w 1) 5 3 = true ∧
        rsv (e.w 1) 13 3 = true ∧ rsvHigh (e.w 1) 26 = true ∧ rsv (e.w 2) 10 6 = true ∧ rsvHigh (e.w 2) 17 = true ∧
        ((List.range 96).all fun j => rsv (fieldAt e.cmd.payload (24 + 2 * j) 2) 12 4) = true ∧ e.lanes ≠ []) .ok
      (fun _ e _ w => w.shadow.lineRx[e.lanes.headD 0].eqWords (idxMask [e.lanes.headD 0]))
      (fun _ e s => s.forEach e.lanes fun n s =>
        ((((((s.rxExpert n 0x2810 128 fun p => { p with cursor := bits (e.w 0) 16 6 }).rxExpert n 0x2810 129 fun p => { p with mu := bits (e.w 1) 0 5 }).rxExpert
          n 0x2810 130 fun p => { p with leak := bits (e.w 1) 8 5 }).rxExpert n 0x2810 131 fun p => { p with h1 := toSigned 10 (bits (e.w 1) 16 10) }).rxExpert
          n 0x2810 132 fun p => { p with h2 := toSigned 10 (bits (e.w 2) 0 10) }).rxExpert n 0x2810 133 fun p => { p with targetAdapt := bit (e.w 2) 16 }).forEach
          (maskIdx 96 (fieldAt e.cmd.payload 12 12)) fun j s =>
            s.rxExpert n 0x2810 j.val fun p => { p with taps := p.taps.set j (toSigned 12 (fieldAt e.cmd.payload (24 + 2 * j.val) 2)) })) ∧
  (Completes .txSwingExpert 0x2820 false (fun _ e s => e.len = 4 ∧ 320 ≤ bits (e.w 0) 18 10 ∧ bits (e.w 0) 18 10 ≤ 960 ∧ rsv (e.w 0) 8 10 = true ∧ rsvHigh (e.w 0) 28 = true ∧ e.lanes ≠ [] ∧ (e.lanes.any fun n => decide (maxFs s.limits.txSwing[n] < bits (e.w 0) 18 10)) = false) .ok
      (fun _ e _ w => swingReply w.shadow.lineTx[e.lanes.headD 0].fsCode)
      (fun _ e s => s.forEach e.lanes fun n s => s.txExpert n 0x2820 128 fun p => { p with fsCode := min (bits (e.w 0) 18 10) (maxFs s.limits.txSwing[n]) })) ∧
  (Completes .txSwingExpert 0x2820 false (fun _ e s => e.len = 4 ∧ 320 ≤ bits (e.w 0) 18 10 ∧ bits (e.w 0) 18 10 ≤ 960 ∧ rsv (e.w 0) 8 10 = true ∧ rsvHigh (e.w 0) 28 = true ∧ e.lanes ≠ [] ∧ (e.lanes.any fun n => decide (maxFs s.limits.txSwing[n] < bits (e.w 0) 18 10)) = true) .limitClamped
      (fun _ e _ w => swingReply w.shadow.lineTx[e.lanes.headD 0].fsCode)
      (fun _ e s => s.forEach e.lanes fun n s => s.txExpert n 0x2820 128 fun p => { p with fsCode := min (bits (e.w 0) 18 10) (maxFs s.limits.txSwing[n]) })) ∧
  (Completes .txFfe 0x2021 false (fun _ e s => e.len = 4 ∧ rsvHigh (e.w 0) 11 = true ∧ e.lanes ≠ [] ∧ (e.lanes.all fun n => tapsValid ((s.forEach e.lanes fun n s =>
          (s.modShadow (Bank.tx n fun x => { x with preset := bits (e.w 0) 8 3 })).forEach (List.finRange 7) fun j s =>
            s.txBasic n 0x2821 j.val fun x => { x with taps := x.taps.set j (presetTaps (bits (e.w 0) 8 3))[j] }).shadow.lineTx[n].taps)) = true) .ok
      (fun _ e _ w => tapsReply w.shadow.lineTx[e.lanes.headD 0].taps)
      (fun _ e s => s.forEach e.lanes fun n s => 
        (s.modShadow (Bank.tx n fun x => { x with preset := bits (e.w 0) 8 3 })).forEach (List.finRange 7) fun j s =>
          s.txBasic n 0x2821 j.val fun x => { x with taps := x.taps.set j (presetTaps (bits (e.w 0) 8 3))[j] })) ∧
  (Completes .txFfeExpert 0x2821 false (fun _ e _ => e.len = 20 ∧ rsv (e.w 0) 8 24 = true ∧ ((List.range 8).all fun j => rsv (fieldAt e.cmd.payload (4 + 2 * j) 2) 10 6) = true ∧ rsvHigh (e.w 4) 16 = true ∧
        tapsValid (ffeTapsOf e.cmd.payload) = true ∧ e.lanes ≠ []) .ok
      (fun _ e _ w => tapsReply w.shadow.lineTx[e.lanes.headD 0].taps)
      (fun _ e s => s.forEach e.lanes fun n s => 
        s.forEach (List.finRange 7) fun j s => s.txExpert n 0x2821 j.val fun x => { x with taps := x.taps.set j (ffeTapsOf e.cmd.payload)[j] })) ∧
  (Completes .errorInject 0x2051 false (fun _ e _ => e.len = 16 ∧ bits (e.w 0) 8 3 ≤ 5 ∧ rsvHigh (e.w 0) 15 = true ∧ rsv (e.w 2) 11 5 = true ∧ rsvHigh (e.w 3) 5 = true) .ok
      (fun _ _ _ _ => [])
      (fun _ e s => s.forEach e.lanes fun n s => 
        ((s.txBasic n 0x2851 128 fun x => { x with injKind := if bits (e.w 0) 8 3 = 0 then 0 else 1 }).txBasic n 0x2851 129 fun x => { x with injPoint := false }).txBasic
          n 0x2851 130 fun x => { x with injRate := injectRate (bits (e.w 0) 8 3) })) ∧
  (Completes .errorInjectExpert 0x2851 false (fun _ e _ => e.len = 16 ∧ bits (e.w 0) 11 3 ≤ 4 ∧ rsv (e.w 0) 8 3 = true ∧ rsvHigh (e.w 0) 15 = true ∧ rsv (e.w 2) 11 5 = true ∧ rsvHigh (e.w 3) 5 = true ∧
        (bits (e.w 0) 11 3 = 3 → 1 ≤ bits (e.w 2) 0 11 ∧ bits (e.w 2) 0 11 ≤ 1024 ∧ 1 ≤ bits (e.w 2) 16 16) ∧ (bits (e.w 0) 11 3 = 4 → 1 ≤ bits (e.w 3) 0 5 ∧ bits (e.w 3) 0 5 ≤ 16)) .ok
      (fun _ _ _ _ => [])
      (fun _ e s => s.forEach e.lanes fun n s => 
        ((((((s.txExpert n 0x2851 128 fun x => { x with injKind := bits (e.w 0) 11 3 }).txExpert n 0x2851 129 fun x => { x with injPoint := bit (e.w 0) 14 }).txExpert
          n 0x2851 130 fun x => { x with injRate := e.w 1 }).txExpert n 0x2851 131 fun x => { x with injBurst := bits (e.w 2) 0 11 }).txExpert
          n 0x2851 132 fun x => { x with injInterval := bits (e.w 2) 16 16 }).txExpert n 0x2851 133 fun x => { x with injMarkers := bits (e.w 3) 0 5 }).mark (.lineTx n) 0x2051)) ∧
  (Completes .lineLoop 0x2060 false (fun _ e _ => e.len = 4 ∧ bits (e.w 0) 0 3 < 8 ∧ rsv (e.w 0) 3 5 = true ∧ rsvHigh (e.w 0) 10 = true) .ok
      (fun _ _ _ _ => [])
      (fun _ e s => (match idx? 8 (bits (e.w 0) 0 3) with
        | some n => ((((s.modShadow (Bank.rx n fun p => { p with loop := bits (e.w 0) 8 2 })).modShadow (Bank.tx n fun p => { p with loop := bits (e.w 0) 8 2 })).mark
            (.lineRx n) 0x2060).mark (.lineTx n) 0x2060)
        | none => s))) ∧
  (Completes .rxEq 0x2010 false (fun _ e _ => e.len = 4 ∧ bits (e.w 0) 8 3 ≤ 5 ∧ (bits (e.w 0) 16 6 = 0 ∨ (4 ≤ bits (e.w 0) 16 6 ∧ bits (e.w 0) 16 6 ≤ 47)) ∧ bits (e.w 0) 24 2 ≤ 2 ∧ rsv (e.w 0) 11 5 = true ∧
        rsv (e.w 0) 22 2 = true ∧ rsvHigh (e.w 0) 26 = true ∧ e.lanes ≠ []) .ok
      (fun _ e _ w => w.shadow.lineRx[e.lanes.headD 0].eqWords (idxMask [e.lanes.headD 0]))
      (fun _ e s => s.draw.2.forEach e.lanes fun n s1 =>
        ((((s1.modShadow (Bank.rx n fun p => { p with target := bits (e.w 0) 8 3, adapt := bits (e.w 0) 24 2 })).rxBasic n 0x2810 128 fun p => { p with cursor := bits (e.w 0) 16 6 }).rxBasic
          n 0x2810 129 fun p => { p with mu := if bits (e.w 0) 24 2 = 1 then 16 else 10 }).rxBasic n 0x2810 131 fun p => { p with h1 := (targetResponse (bits (e.w 0) 8 3) s.draw.1).1 }).rxBasic
          n 0x2810 132 fun p => { p with h2 := (targetResponse (bits (e.w 0) 8 3) s.draw.1).2 }))

/-- The lane reads reply with the records of the lanes named; only what their rules clear is changed (R133, R148, R149, R215, R216; free readings: log entry 6). -/
def Obligations.LaneReads : Prop :=
  (Completes .lineState 0x2002 true (fun _ e _ => e.len = 4 ∧ rsvHigh (e.w 0) 8 = true) .ok
      (fun _ e s _ => wordsLe (e.lanes.flatMap s.lineStateWords))
      (fun _ _ s => s)) ∧
  (Completes .rxMonitor 0x2040 true (fun _ e _ => e.len = 4 ∧ bits (e.w 0) 0 3 < 8 ∧ rsvHigh (e.w 0) 3 = true) .ok
      (fun _ e s _ => (match idx? 8 (bits (e.w 0) 0 3) with
        | some n =>
          wordsLe [pack [((match s.monitor n with | g :: _ => min (optPower s.active.lineRx[n] g / 10) 0xFFFE | [] => 0xFFFF), 16), (s.lanes[n].eq.snr (decide (s.lanes[n].acq.stage = .a)) s.free, 16)],
            pack [(s.lanes[n].eq.freqOffset, 16), (s.lanes[n].eq.gain, 7), (flag (s.lanes[n].eq.gainAtLimit && !s.active.pinned (.lineRx n) 0x2811 128), 1), (s.lanes[n].eq.engine, 4), (s.lanes[n].acq.state.code, 4)],
            pack [(s.lanes[n].cal.parked, 8), (flag s.lanes[n].cal.retired, 1), (0, 7), (if s.lanes[n].acq.lastExit = 0 then 0 else Config.reading 3 s.free, 16)]] ++
          leBytes 6 s.lanes[n].cnt.bits ++ leBytes 6 s.lanes[n].cnt.preErrors ++ leBytes 6 s.lanes[n].cnt.postErrors ++ leBytes 2 0 ++
          (List.range 64).flatMap (fun i => leBytes 2 (s.lanes[n].eq.levelBin i))
        | none => []))
      (fun _ e s => (match idx? 8 (bits (e.w 0) 0 3) with
        | some n => { s with free := s.free + 1, lanes := upd s.lanes n fun l => { l with cnt := { l.cnt with bits := 0, preErrors := 0, postErrors := 0 } } }
        | none => s))) ∧
  (Completes .lineCounters 0x2050 true (fun _ e _ => e.len = 4 ∧ rsvHigh (e.w 0) 19 = true ∧ (bits (e.w 0) 16 2 = 0 → maskIdx 8 (bits (e.w 0) 8 8) = []) ∧
        16 + 48 * e.lanes.length + (maskIdx 8 (bits (e.w 0) 8 8)).length * (4 + 96 * (if bits (e.w 0) 16 2 = 3 then 2 else 1)) ≤ 1024) .ok
      (fun _ e s _ => s.stampMgmt.bytes ++ e.lanes.flatMap s.laneRecord ++ (maskIdx 8 (bits (e.w 0) 8 8)).flatMap fun n =>
        wordsLe [n.val] ++ (if bit (bits (e.w 0) 16 2) 0 then s.ports[n].rxCnt.part else []) ++ (if bit (bits (e.w 0) 16 2) 1 then s.ports[n].txCnt.part else []))
      (fun _ e s => (if bit (e.w 0) 18 then
          (s.forEach e.lanes fun n s => s.modLane (.line n) fun l => { l with cnt := l.cnt.cleared }).forEach (maskIdx 8 (bits (e.w 0) 8 8)) fun n s =>
            s.modPort n fun p => { p with rxCnt := if bit (bits (e.w 0) 16 2) 0 then {} else p.rxCnt, txCnt := if bit (bits (e.w 0) 16 2) 1 then {} else p.txCnt }
        else s)))

/-- The events of a bring-up (R118, R125, R127, R130, R139, R159, R167, R168, R192, R196, R197, R223): each condition makes its move, with the exit code, the stage and the effects of entering that toState gives. How the taps are carried to a new stage is firmware's (log entry 43); the units of the loop are log entry 125; that a framer aligns as it changes stage is log entry 133. -/
def Obligations.LaneBringUp : Prop :=
  (∀ (s : State) (t : Nat) (n : Fin 8) (h : Bool), (s.advanceTo t).lanes[n].acq.state = .dark → (s.advanceTo t).opticalBelow n (s.advanceTo t).active.lineRx[n].losDeassert = false → (s.advanceTo t).laneRuns (.line n) = true → 
      exec (.signalQualified t (.line n, h)) s = .next (((s.advanceTo t).modLane (.line n) fun l => { l with acq := { l.acq with sigDetect := true } }).toState (.line n) .signal ((s.advanceTo t).firstStage (.line n)) 0x01)) ∧
  (∀ (s : State) (t : Nat) (n : Fin 16) (h : Bool), (s.advanceTo t).relays[n].acq.state = .dark → (s.advanceTo t).laneRuns (.relay n) = true → 
      exec (.signalQualified t (.relay n, h)) s = .next ((((s.advanceTo t).modLane (.relay n) fun l => { l with acq := { l.acq with sigDetect := true } }).hostrefBack n h).toState (.relay n) .signal ((s.advanceTo t).firstStage (.relay n)) 0x01)) ∧
  (∀ (s : State) (t : Nat) (n : Fin 8), (s.advanceTo t).lanes[n].acq.state = .signal → 16 ≤ (s.advanceTo t).lanes[n].acq.gainQuiet → 
      exec (.gainSettled t (.line n)) s = .next (((s.advanceTo t).modLane (.line n) fun l => { l with eq := (s.advanceTo t).startEq n l.eq }).toState (.line n) .cdrLock (s.advanceTo t).lanes[n].acq.stage 0x01)) ∧
  (∀ (s : State) (t : Nat) (n : Fin 16), (s.advanceTo t).relays[n].acq.state = .signal → exec (.gainSettled t (.relay n)) s = .next ((s.advanceTo t).toState (.relay n) .cdrLock (s.advanceTo t).relays[n].acq.stage 0x01)) ∧
  (∀ (s : State) (t : Nat) (r : LaneRef) (cs : List (Int × Nat)), ((s.advanceTo t).lane r).receiving = true → ((s.advanceTo t).lane r).acq.state ≠ .dark → ((s.advanceTo t).lane r).eq.locks ((s.advanceTo t).gainsInForce r).1 ((s.advanceTo t).gainsInForce r).2 cs = true → 
      exec (.cdrLockDeclare t (r, cs)) s = .next ((((((s.advanceTo t).trackClock r cs).modLane r fun l => { l with acq := { l.acq with cdrLock := true } }).followClock r).tryRestored r).tryFrameLock r)) ∧
  (∀ (s : State) (t : Nat) (r : LaneRef) (cs : List (Int × Nat)), ((s.advanceTo t).lane r).receiving = true → ((s.advanceTo t).lane r).acq.state ≠ .dark → ((s.advanceTo t).lane r).eq.locks ((s.advanceTo t).gainsInForce r).1 ((s.advanceTo t).gainsInForce r).2 cs = false → 
      exec (.cdrLockDeclare t (r, cs)) s = .next ((s.advanceTo t).trackClock r cs)) ∧
  (∀ (s : State) (t : Nat) (r : LaneRef), ((s.advanceTo t).lane r).acq.state = .cdrLock → ((s.advanceTo t).lane r).acq.cdrLock = true → 
      exec (.equaliserConverged t r) s = .next (((s.advanceTo t).modLane r fun l => { l with acq := { l.acq with converged := true } }).toState r .frameLock ((s.advanceTo t).lane r).acq.stage 0x01)) ∧
  (∀ (s : State) (t : Nat) (r : LaneRef), ((s.advanceTo t).lane r).acq.state = .cdrLock → ((s.advanceTo t).lane r).acq.cdrLock = false → 
      exec (.equaliserConverged t r) s = .next ((s.advanceTo t).modLane r fun l => { l with acq := { l.acq with converged := true } })) ∧
  (∀ (s : State) (t : Nat) (r : LaneRef) (g : StepNeg), ((s.advanceTo t).lane r).tx.step = some g → ((s.advanceTo t).lane r).acq.state = .step → g.agreed = true → g.txDone = false → ((s.advanceTo t).lane r).tx.count = g.txAt → ((s.advanceTo t).lane r).tx.markAt = some (s.advanceTo t).now → 
      exec (.stageSwitch t r true) s = .next (((s.advanceTo t).modLane r fun l => { l with tx := { l.tx with stage := g.target, step := some { g with txDone := true } } }).alignTx r)) ∧
  (∀ (s : State) (t : Nat) (r : LaneRef) (g : StepNeg), ((s.advanceTo t).lane r).tx.step = some g → ((s.advanceTo t).lane r).acq.state = .step → g.agreed = true → g.rxDone = false → g.rxAt = some (nextCount ((s.advanceTo t).lane r).rx.count) → ((s.advanceTo t).lane r).rx.markAt = some (s.advanceTo t).now → 
      exec (.stageSwitch t r false) s = .next ((s.advanceTo t).modLane r fun l => { l with tx := { l.tx with step := some { g with rxDone := true } } })) ∧
  (∀ (s : State) (t : Nat) (n : Fin 8) (g : StepNeg), (s.advanceTo t).lanes[n].tx.step = some g → (s.advanceTo t).lanes[n].acq.state = .step → g.txDone = true → g.rxDone = true → 
      exec (.stageClockReady t (.line n)) s = .next ((((s.advanceTo t).carryTaps n).modLane (.line n) fun l => { l with acq := { l.acq with cdrLock := false } }).toState (.line n) .cdrLock g.target 0x01)) ∧
  (∀ (s : State) (t : Nat) (n : Fin 16) (g : StepNeg), (s.advanceTo t).relays[n].tx.step = some g → (s.advanceTo t).relays[n].acq.state = .step → g.txDone = true → g.rxDone = true → 
      exec (.stageClockReady t (.relay n)) s = .next (((s.advanceTo t).modLane (.relay n) fun l => { l with acq := { l.acq with cdrLock := false } }).toState (.relay n) .cdrLock g.target 0x01)) ∧
  (∀ (s : State) (t : Nat) (r : LaneRef), ((s.advanceTo t).lane r).tx.restart = 1 → ((s.advanceTo t).lane r).tx.markAt = some (s.advanceTo t).now → 
      exec (.restartEnd t r) s = .next (((s.advanceTo t).modLane r fun l => { l with tx := { l.tx with restart := 0, stage := (s.advanceTo t).firstStage r, fallback := false, traffic := false, st := none } }).alignTx r)) ∧
  (∀ (s : State) (t : Nat) (r : LaneRef), ((s.advanceTo t).lane r).tx.fallback = true → ((s.advanceTo t).lane r).tx.restart = 0 → ((s.advanceTo t).lane r).tx.markAt = some (s.advanceTo t).now → 
      exec (.txStageFallback t r) s = .next (((s.advanceTo t).modLane r fun l => { l with tx := { l.tx with restart := 0, stage := (s.advanceTo t).firstStage r, fallback := false, traffic := false, st := none } }).alignTx r)) ∧
  (∀ (s : State) (t : Nat) (n : Fin 8) (c : Nat), (s.advanceTo t).lanes[n].tx.tuneSince = some c → (s.advanceTo t).lanes[n].acq.state = .negotiate → (s.advanceTo t).lanes[n].acq.stage = .c → (s.advanceTo t).pastLane (.line n) .c (c + msec 400) = true → 
      exec (.txTuningTimeout t n) s = .next (((s.advanceTo t).modLane (.line n) fun l => { l with tx := { l.tx with tuneSince := none, tuneDone := true, tuned := true } }).tryLocked (.line n))) ∧
  (∀ (s : State) (t : Nat) (n : Fin 8), (s.advanceTo t).lanes[n].tx.st = some (s.advanceTo t).lanes[n].tx.count → (s.advanceTo t).lanes[n].tx.stage = .c → 
      exec (.trafficBegin t n) s = .next ((s.advanceTo t).modLane (.line n) fun l => { l with tx := { l.tx with traffic := true, st := none } })) ∧
  (∀ (s : State) (t : Nat) (n : Fin 8), (s.advanceTo t).lanes[n].acq.state = .locked → (s.advanceTo t).lanes[n].rx.forwarding = false → ((s.advanceTo t).lanes[n].acq.stage = .s200 ∨ (nextCount (s.advanceTo t).lanes[n].rx.count % 5 = 0 ∧ (s.advanceTo t).lanes[n].rx.farSt.any (fun st => (s.advanceTo t).lanes[n].rx.begun || (s.advanceTo t).lanes[n].rx.stReached || begunBy st (nextCount (s.advanceTo t).lanes[n].rx.count)) = true)) → 
      exec (.receiverForwardStart t n) s = .next (((((s.advanceTo t).modLane (.line n) fun l => { l with rx := { l.rx with forwarding := true, begun := true, buf := [] } }).forEach
        [leadOf (s.advanceTo t).grouping n, n] fun m s => s.modPort m fun p => { p with overHost := false, sentAt := s.now, heldHost := [] }).regroupClear (leadOf (s.advanceTo t).grouping n)).judgePorts))

/-- The moves of a lane downward, each on its condition (R118, R127, R128, R135 to R139, R144, R167, R244). Which LAST_EXIT a loss of CDR lock carries is not stated and is a free value (log entry 44); the loss rule of S200 is the standard's (log entry 16). -/
def Obligations.LaneLosses : Prop :=
  (∀ (s : State) (t : Nat) (r : LaneRef), ((s.advanceTo t).lane r).acq.state ≠ .dark → ((s.advanceTo t).lane r).acq.state ≠ .disabled → ((s.advanceTo t).lane r).acq.state ≠ .still → ((s.advanceTo t).lane r).acq.state ≠ .calibrating → 
      exec (.lossOfSignal t r false) s = .next ((((s.advanceTo t).modLane r fun l => { l with acq := { l.acq with sigDetect := false } }).toState r .dark ((s.advanceTo t).firstStage r) 0x03).followClock r)) ∧
  (∀ (s : State) (t : Nat) (r : LaneRef), ((s.advanceTo t).lane r).acq.state = .dark ∨ ((s.advanceTo t).lane r).acq.state = .disabled ∨ ((s.advanceTo t).lane r).acq.state = .still ∨ ((s.advanceTo t).lane r).acq.state = .calibrating → 
      exec (.lossOfSignal t r false) s = .next ((s.advanceTo t).modLane r fun l => { l with acq := { l.acq with sigDetect := false } })) ∧
  (∀ (s : State) (t : Nat) (n : Fin 8), (s.advanceTo t).opticalBelow n (s.advanceTo t).active.lineRx[n].losAssert = true → exec (.lossOfSignal t (.line n) true) s = exec (.lossOfSignal t (.line n) false) s) ∧
  (∀ (s : State) (t : Nat) (r : LaneRef) (cs : List (Int × Nat)), ((s.advanceTo t).lane r).acq.state = .cdrLock → ((s.advanceTo t).lane r).acq.cdrLock = true → cdrLost cs = true → 
      exec (.cdrLockLoss t (r, cs)) s = .next (((((s.advanceTo t).trackClock r cs).draw.2.modLane r fun l => { l with acq := { l.acq with cdrLock := false, relocked := false } }).toState r .signal
        ((s.advanceTo t).firstStage r) (Config.policy 0x5118 ((s.advanceTo t).trackClock r cs).draw.1 % 256)).followClock r)) ∧
  (∀ (s : State) (t : Nat) (r : LaneRef) (cs : List (Int × Nat)), ((s.advanceTo t).lane r).acq.state ≠ .cdrLock → ((s.advanceTo t).lane r).receiving = true → ((s.advanceTo t).lane r).acq.cdrLock = true → cdrLost cs = true → 
      exec (.cdrLockLoss t (r, cs)) s = .next (((((s.advanceTo t).trackClock r cs).draw.2.modLane r fun l => { l with acq := { l.acq with cdrLock := false, relocked := false } })).followClock r)) ∧
  (∀ (s : State) (t : Nat) (r : LaneRef), (if (s.advanceTo t).isS200 r then max 1 Config.s200LossMarkers else 8) ≤ ((s.advanceTo t).lane r).rx.missing → ((s.advanceTo t).lane r).acq.state = .locked → 
      exec (.missingMarkerLockLoss t r) s = .next ((s.advanceTo t).lockLoss r 0x04)) ∧
  (∀ (s : State) (t : Nat) (r : LaneRef), (if (s.advanceTo t).isS200 r then max 1 Config.s200LossMarkers else 8) ≤ ((s.advanceTo t).lane r).rx.missing → ((s.advanceTo t).lane r).acq.state = .negotiate ∨ ((s.advanceTo t).lane r).acq.state = .step → 
      exec (.missingMarkerLockLoss t r) s = .next ((s.advanceTo t).toState r .cdrLock ((s.advanceTo t).lane r).acq.stage 0x04)) ∧
  (∀ (s : State) (t : Nat) (r : LaneRef) (k : Nat), (s.advanceTo t).counting r = true → (s.advanceTo t).windowFails r = some k → ((s.advanceTo t).lane r).acq.state = .locked → 
      exec (.innerFailWindowEnd t r) s =
        (let bad := decide ((s.advanceTo t).failLimit r ≠ 0 ∧ (s.advanceTo t).failLimit r ≤ k)
         let s1 := (s.advanceTo t).modLane r fun l => { l with acq := { l.acq with innerOk := !bad, winOk := !bad, winFails := 0, winFrames := 0 } }
         .next (if bad then s1.lockLoss r 0x05 else s1))) ∧
  (∀ (s : State) (t : Nat) (r : LaneRef) (k : Nat), (s.advanceTo t).counting r = true → (s.advanceTo t).windowFails r = some k → ((s.advanceTo t).lane r).acq.state ≠ .locked → 
      exec (.innerFailWindowEnd t r) s =
        (let bad := decide ((s.advanceTo t).failLimit r ≠ 0 ∧ (s.advanceTo t).failLimit r ≤ k)
         let s1 := (s.advanceTo t).modLane r fun l => { l with acq := { l.acq with innerOk := !bad, winOk := !bad, winFails := 0, winFrames := 0 } }
         .next (if ((s.advanceTo t).lane r).acq.state = .negotiate then s1.tryLocked r else s1.tryRestored r))) ∧
  (∀ (s : State) (r : LaneRef) (x : Nat), s.lockLoss r x = (let s1 := s.toState r .retrain (s.lane r).acq.stage x
        if s1.coeffsValid r then s1 else (s1.modLane r fun l => { l with tx := { l.tx with restart := 65 } }).toState r .signal (s1.firstStage r) 0x0A)) ∧
  (∀ (s : State) (t : Nat) (r : LaneRef) (d : Nat) (st : LaneState), stateTimeout r ((s.advanceTo t).lane r).acq.state ((s.advanceTo t).lane r).acq.stage = some (d, st) → (s.advanceTo t).pastLane r ((s.advanceTo t).lane r).acq.stage (((s.advanceTo t).lane r).acq.timer + d) = true → ((s.advanceTo t).lane r).acq.holding = false → ((s.advanceTo t).lane r).acq.state ≠ .retrain → 
      exec (.laneStateTimeout t r) s = .next (((s.advanceTo t).modLane r fun l => { l with acq := { l.acq with retries := min (l.acq.retries + 1) 255 } }).toState r st
        (if st = .cdrLock then ((s.advanceTo t).lane r).acq.stage else (s.advanceTo t).firstStage r) 0x02)) ∧
  (∀ (s : State) (t : Nat) (r : LaneRef), ((s.advanceTo t).lane r).acq.state = .retrain → (s.advanceTo t).pastLane r ((s.advanceTo t).lane r).acq.stage (((s.advanceTo t).lane r).acq.timer + msec 2) = true → ((s.advanceTo t).lane r).acq.holding = false → 
      exec (.laneStateTimeout t r) s = .next (((s.advanceTo t).modLane r fun l => { l with acq := { l.acq with retries := min (l.acq.retries + 1) 255 } }).restartLane r 0x02))

/-- What the adaptive loops, the calibrations and the reports of a line lane do on their events (R111, R114, R115, R122, R145, R146, R150, R161, R171, R173, R176, R194). MU_SHIFT in RETRAIN is log entry 135; the retired report is log entry 134; a second scan of a lane is log entry 130; the gain loop's dead band is log entry 41. -/
def Obligations.LaneAdapts : Prop :=
  (∀ (s : State) (t : Nat) (n : Fin 8) (rms : Nat), (s.advanceTo t).lanes[n].receiving = true → (s.advanceTo t).atMarker (.line n) = true → (s.advanceTo t).lanes[n].acq.gainAt ≠ some (s.advanceTo t).now → (s.advanceTo t).active.pinned (.lineRx n) 0x2811 128 = false → rmsLow (s.advanceTo t).active.lineRx[n].targetRms rms = true → (s.advanceTo t).lanes[n].eq.gain < 72 → 
      exec (.gainLoopStep t n rms) s = .next ((s.advanceTo t).modLane (.line n) fun l =>
        { l with acq := { l.acq with gainQuiet := 0, gainAt := some (s.advanceTo t).now }, eq := { (s.advanceTo t).lanes[n].eq with gain := (s.advanceTo t).lanes[n].eq.gain + 1, gainAtLimit := false } })) ∧
  (∀ (s : State) (t : Nat) (n : Fin 8) (rms : Nat), (s.advanceTo t).lanes[n].receiving = true → (s.advanceTo t).atMarker (.line n) = true → (s.advanceTo t).lanes[n].acq.gainAt ≠ some (s.advanceTo t).now → (s.advanceTo t).active.pinned (.lineRx n) 0x2811 128 = false → rmsLow (s.advanceTo t).active.lineRx[n].targetRms rms = true → 72 ≤ (s.advanceTo t).lanes[n].eq.gain → 
      exec (.gainLoopStep t n rms) s = .next ((s.advanceTo t).modLane (.line n) fun l =>
        { l with acq := { l.acq with gainQuiet := 0, gainAt := some (s.advanceTo t).now }, eq := { (s.advanceTo t).lanes[n].eq with gainAtLimit := true } })) ∧
  (∀ (s : State) (t : Nat) (n : Fin 8) (rms : Nat), (s.advanceTo t).lanes[n].receiving = true → (s.advanceTo t).atMarker (.line n) = true → (s.advanceTo t).lanes[n].acq.gainAt ≠ some (s.advanceTo t).now → (s.advanceTo t).active.pinned (.lineRx n) 0x2811 128 = false → rmsLow (s.advanceTo t).active.lineRx[n].targetRms rms = false → rmsHigh (s.advanceTo t).active.lineRx[n].targetRms rms = true → 0 < (s.advanceTo t).lanes[n].eq.gain → 
      exec (.gainLoopStep t n rms) s = .next ((s.advanceTo t).modLane (.line n) fun l =>
        { l with acq := { l.acq with gainQuiet := 0, gainAt := some (s.advanceTo t).now }, eq := { (s.advanceTo t).lanes[n].eq with gain := (s.advanceTo t).lanes[n].eq.gain - 1, gainAtLimit := false } })) ∧
  (∀ (s : State) (t : Nat) (n : Fin 8) (rms : Nat), (s.advanceTo t).lanes[n].receiving = true → (s.advanceTo t).atMarker (.line n) = true → (s.advanceTo t).lanes[n].acq.gainAt ≠ some (s.advanceTo t).now → (s.advanceTo t).active.pinned (.lineRx n) 0x2811 128 = false → rmsLow (s.advanceTo t).active.lineRx[n].targetRms rms = false → rmsHigh (s.advanceTo t).active.lineRx[n].targetRms rms = true → (s.advanceTo t).lanes[n].eq.gain = 0 → 
      exec (.gainLoopStep t n rms) s = .next ((s.advanceTo t).modLane (.line n) fun l =>
        { l with acq := { l.acq with gainQuiet := 0, gainAt := some (s.advanceTo t).now }, eq := { (s.advanceTo t).lanes[n].eq with gainAtLimit := true } })) ∧
  (∀ (s : State) (t : Nat) (n : Fin 8) (rms : Nat), (s.advanceTo t).lanes[n].receiving = true → (s.advanceTo t).atMarker (.line n) = true → (s.advanceTo t).lanes[n].acq.gainAt ≠ some (s.advanceTo t).now → (s.advanceTo t).active.pinned (.lineRx n) 0x2811 128 = false → rmsLow (s.advanceTo t).active.lineRx[n].targetRms rms = false → rmsHigh (s.advanceTo t).active.lineRx[n].targetRms rms = false → 
      exec (.gainLoopStep t n rms) s = .next ((s.advanceTo t).modLane (.line n) fun l =>
        { l with acq := { l.acq with gainQuiet := (s.advanceTo t).lanes[n].acq.gainQuiet + 1, gainAt := some (s.advanceTo t).now }, eq := { (s.advanceTo t).lanes[n].eq with gainAtLimit := false } })) ∧
  (∀ (s : State) (t : Nat) (n : Fin 8) (rms : Nat), (s.advanceTo t).lanes[n].receiving = true → (s.advanceTo t).atMarker (.line n) = true → (s.advanceTo t).lanes[n].acq.gainAt ≠ some (s.advanceTo t).now → (s.advanceTo t).active.pinned (.lineRx n) 0x2811 128 = true → 
      exec (.gainLoopStep t n rms) s = .next ((s.advanceTo t).modLane (.line n) fun l =>
        { l with acq := { l.acq with gainQuiet := if rmsLow (s.advanceTo t).active.lineRx[n].targetRms rms || rmsHigh (s.advanceTo t).active.lineRx[n].targetRms rms then 0 else (s.advanceTo t).lanes[n].acq.gainQuiet + 1, gainAt := some (s.advanceTo t).now }, eq := { (s.advanceTo t).lanes[n].eq with gainAtLimit := false } })) ∧
  (∀ (s : State) (t : Nat) (n : Fin 8) (x : Int × Int × Int), (s.advanceTo t).lanes[n].receiving = true → (s.advanceTo t).lanes[n].cal.retired = false → (s.advanceTo t).scanning n = false → (s.advanceTo t).lanes[n].cal.movedAt + msec 8 ≤ (s.advanceTo t).now → (s.advanceTo t).atMarker (.line n) = true → parkedOk x = true → 
      exec (.adcRotationMove t n x) s = .next ((s.advanceTo t).modLane (.line n) fun l => { l with cal := { l.cal.take x with parked := (nextParked (s.advanceTo t).lanes[n].cal.parked (s.advanceTo t).lanes[n].cal.ascending).1, ascending := (nextParked (s.advanceTo t).lanes[n].cal.parked (s.advanceTo t).lanes[n].cal.ascending).2, rejections := 0, movedAt := (s.advanceTo t).now } })) ∧
  (∀ (s : State) (t : Nat) (n : Fin 8) (x : Int × Int × Int), (s.advanceTo t).lanes[n].receiving = true → (s.advanceTo t).lanes[n].cal.retired = false → (s.advanceTo t).scanning n = false → (s.advanceTo t).lanes[n].cal.movedAt + msec 8 ≤ (s.advanceTo t).now → (s.advanceTo t).atMarker (.line n) = true → parkedOk x = false → 
      exec (.adcRotationMove t n x) s = .next (((s.advanceTo t).modLane (.line n) fun l => { l with cal := { (s.advanceTo t).lanes[n].cal.reject with movedAt := (s.advanceTo t).now } }).logEntry 0x0301 0
        (flag (s.advanceTo t).lanes[n].cal.reject.retired) (Block.lineRx n).id [pack [(n.val, 8), ((s.advanceTo t).lanes[n].cal.parked, 8), (flag (s.advanceTo t).lanes[n].cal.reject.retired, 1)]])) ∧
  (∀ (s : State) (t : Nat) (n : Fin 8) (sums : List Int) (a b : Int), ((s.advanceTo t).lanes[n].acq.state = .cdrLock ∨ (s.advanceTo t).lanes[n].acq.state = .frameLock ∨ (s.advanceTo t).lanes[n].acq.state = .negotiate ∨ (s.advanceTo t).lanes[n].acq.state = .step ∨ (s.advanceTo t).lanes[n].acq.state = .locked ∨ (s.advanceTo t).lanes[n].acq.state = .retrain) → (s.advanceTo t).active.lineRx[n].adapt ≠ 2 → 
      exec (.lmsUpdate t n sums a b) s = .next ((s.advanceTo t).modLane (.line n) fun l => { l with eq := { l.eq with taps := vmap (s.advanceTo t).lanes[n].eq.taps fun j w => if (s.advanceTo t).active.pinned (.lineRx n) 0x2810 j.val then w else if j.val = (s.advanceTo t).lanes[n].eq.cursor then keepSign w (lmsStep ((s.advanceTo t).muInForce n) (s.advanceTo t).active.lineRx[n].leak 2048 2047 w (sums.getD j.val 0)) else lmsStep ((s.advanceTo t).muInForce n) (s.advanceTo t).active.lineRx[n].leak 2048 2047 w (sums.getD j.val 0), h1 := if (s.advanceTo t).active.lineRx[n].targetAdapt && !(s.advanceTo t).active.pinned (.lineRx n) 0x2810 131 then lmsStep ((s.advanceTo t).muInForce n) (s.advanceTo t).active.lineRx[n].leak 512 511 (s.advanceTo t).lanes[n].eq.h1 a else (s.advanceTo t).lanes[n].eq.h1, h2 := if (s.advanceTo t).active.lineRx[n].targetAdapt && !(s.advanceTo t).active.pinned (.lineRx n) 0x2810 132 then lmsStep ((s.advanceTo t).muInForce n) (s.advanceTo t).active.lineRx[n].leak 512 511 (s.advanceTo t).lanes[n].eq.h2 b else (s.advanceTo t).lanes[n].eq.h2 } })) ∧
  (Starts .laneCalibrate 0x2030 false (fun _ e s => e.len = 4 ∧ bits (e.w 0) 0 3 < 8 ∧ rsv (e.w 0) 3 5 = true ∧ rsvHigh (e.w 0) 16 = true ∧ calKinds.contains (bits (e.w 0) 8 8) = true ∧ (idx? 8 (bits (e.w 0) 0 3)).all (fun n => s.calReady n (bits (e.w 0) 8 8)) = true)
      (fun q e s => (match idx? 8 (bits (e.w 0) 0 3) with
        | some n =>
          let s2 := (s.modLane (.line n) fun l => { l with acq := { l.acq with calFrom := s.lanes[n].acq.state, calKind := bits (e.w 0) 8 8 } }).toState (.line n) .calibrating s.lanes[n].acq.stage 0x07
          if bits (e.w 0) 8 8 ≥ 0x10 then s2.setSquelch (.line n) fun q => { q with calibration := true } else s2
        | none => s))) ∧
  (∀ (s : State) (t : Nat) (n : Fin 8) (m : CalMeasure), (s.advanceTo t).lanes[n].acq.state = .calibrating → (s.advanceTo t).lanes[n].acq.since + usec 1800 ≤ (s.advanceTo t).now → calBad (s.advanceTo t).lanes[n].acq.calKind m = none → ((s.advanceTo t).calEntry n).all (fun x => (s.advanceTo t).inOrder x.1) = true → 
      exec (.laneCalibrationEnd t n m) s = .next ((((s.advanceTo t).applyCal n (s.advanceTo t).lanes[n].acq.calKind m).leaveCalibrating n).completeCal n .ok
        (wordsLe [pack [(0, 8), (0xFF, 8), (((s.advanceTo t).now - (s.advanceTo t).lanes[n].acq.since) / usec 1, 16)], pack [(ofSigned 16 ((s.advanceTo t).laneTemp (.line n)), 16)]]))) ∧
  (∀ (s : State) (t : Nat) (n : Fin 8) (m : CalMeasure) (i : Nat), (s.advanceTo t).lanes[n].acq.state = .calibrating → (s.advanceTo t).lanes[n].acq.since + usec 1800 ≤ (s.advanceTo t).now → calBad (s.advanceTo t).lanes[n].acq.calKind m = some i → ((s.advanceTo t).calEntry n).all (fun x => (s.advanceTo t).inOrder x.1) = true → 
      exec (.laneCalibrationEnd t n m) s = .next ((((s.advanceTo t).logEntry 0x0302 0 1 (Block.lineRx n).id [pack [(0x2030, 16), ((s.advanceTo t).lanes[n].acq.calKind, 8), (n.val, 8)]]).leaveCalibrating n).completeCal n .ok
        (wordsLe [pack [(1, 8), (min i 0xFF, 8), (((s.advanceTo t).now - (s.advanceTo t).lanes[n].acq.since) / usec 1, 16)], pack [(ofSigned 16 ((s.advanceTo t).laneTemp (.line n)), 16)]]))) ∧
  (Starts .eyeScan 0x2041 false (fun _ e s => e.len = 8 ∧ bits (e.w 0) 0 3 < 8 ∧ rsv (e.w 0) 3 5 = true ∧ rsv (e.w 0) 15 1 = true ∧ rsv (e.w 0) 20 4 = true ∧ rsvHigh (e.w 0) 29 = true ∧ rsvHigh (e.w 1) 16 = true ∧ (idx? 8 (bits (e.w 0) 0 3)).all (fun n => decide (s.lanes[n].acq.state = .locked ∧ s.lanes[n].cal.retired = false) && !s.scanning n) = true)
      (fun _ e s => (match idx? 8 (bits (e.w 0) 0 3) with
        | some n => { s with scans := s.scans ++ [{ seq := e.seq, lane := n, phases := 32, step := 2, depth := 20, limit := 10, startAt := s.now }] }
        | none => s))) ∧
  (Starts .eyeScanExpert 0x2841 false (fun _ e s => e.len = 8 ∧ bits (e.w 0) 0 3 < 8 ∧ rsv (e.w 0) 3 5 = true ∧ rsv (e.w 0) 15 1 = true ∧ rsv (e.w 0) 20 4 = true ∧ rsvHigh (e.w 0) 29 = true ∧ rsvHigh (e.w 1) 16 = true ∧
        1 ≤ bits (e.w 0) 8 7 ∧ bits (e.w 0) 8 7 ≤ 64 ∧ 1 ≤ bits (e.w 0) 16 4 ∧ bits (e.w 0) 16 4 ≤ 8 ∧ bits (e.w 0) 8 7 * bits (e.w 0) 16 4 ≤ 64 ∧ 16 ≤ bits (e.w 0) 24 5 ∧ bits (e.w 0) 24 5 ≤ 28 ∧ 1 ≤ bits (e.w 1) 0 16 ∧
        (idx? 8 (bits (e.w 0) 0 3)).all (fun n => scanFits s.active.lineRx[n].s200 (bits (e.w 0) 8 7) (bits (e.w 0) 24 5) && decide (s.lanes[n].acq.state = .locked ∧ s.lanes[n].cal.retired = false) && !s.scanning n) = true)
      (fun _ e s => (match idx? 8 (bits (e.w 0) 0 3) with
        | some n => { s with scans := s.scans ++ [{ seq := e.seq, lane := n, phases := bits (e.w 0) 8 7, step := bits (e.w 0) 16 4, depth := bits (e.w 0) 24 5, limit := bits (e.w 1) 0 16, startAt := s.now }] }
        | none => s))) ∧
  (∀ (s : State) (t : Nat) (n : Fin 8) (x : EyeScan) (errors : List Nat), (s.advanceTo t).scans.find? (fun y => decide (y.lane = n)) = some x → x.stopAt = none → x.startAt + scanTime (if (s.advanceTo t).isS200 (.line n) then .s200 else .c) x.phases x.depth ≤ (s.advanceTo t).now → 
      exec (.eyeScanEnd t n errors) s = .next ({ (s.advanceTo t) with scans := (s.advanceTo t).scans.filter fun y => decide (y.seq ≠ x.seq) }.complete x.seq .ok (scanReply x x.phases errors))) ∧
  (∀ (s : State) (t : Nat) (n : Fin 8) (x : EyeScan) (c : Nat) (errors : List Nat), (s.advanceTo t).scans.find? (fun y => decide (y.lane = n)) = some x → x.stopAt = some c → exec (.eyeScanEnd t n errors) s = .next ({ (s.advanceTo t) with scans := (s.advanceTo t).scans.filter fun y => decide (y.seq ≠ x.seq) }.complete x.seq .precondition (scanReply x (x.phasesIn (if (s.advanceTo t).isS200 (.line n) then .s200 else .c) (c - x.startAt)) errors))) ∧
  (∀ (s : State) (t : Nat) (n : Fin 8) (far : Bool) (errors skews : List Int), ((s.advanceTo t).pdReports n = true ∨ (s.advanceTo t).skewReports n = true) → (s.advanceTo t).lanes[n].tx.reportAt + secs 1 ≤ (s.advanceTo t).now → 
      exec (.laneReportTimer t n far errors skews) s =
        (let pd := if far ∧ (s.advanceTo t).pdReports n then (List.range 10).foldl (fun tx i => LaneTx.send tx 6 (pdBody errors i)) (s.advanceTo t).lanes[n].tx else (s.advanceTo t).lanes[n].tx
         let tx := if (s.advanceTo t).skewReports n then (pd.send 7 ((s.advanceTo t).skewBody n skews 0)).send 8 ((s.advanceTo t).skewBody n skews 4) else pd
         .next ((s.advanceTo t).modLane (.line n) fun l => { l with tx := { tx with reportAt := (s.advanceTo t).now } }))) ∧
  (∀ (s : State) (t : Nat), exec (.txDisableAssert t) s = .next ({ s.advanceTo t with sys := { s.sys with txDisable := true } }.forEach lineRefs
        fun r s => s.setSquelch r fun q => { q with txDisable := true })) ∧
  (∀ (s : State) (t : Nat), exec (.txDisableRelease t) s = .next ({ s.advanceTo t with sys := { s.sys with txDisable := false } }.forEach lineRefs
        fun r s => s.setSquelch r fun q => { q with txDisable := false }))

/-- What each lane-control message does when it is delivered (R157, R159, R161, R164, R192, R193, R196, R197, R302). How a predistortion entry moves, and whether tuning goes on, is firmware's choice, a free value (log entries 48, 49); the re-alignment of skew is the model's reading (log entries 47, 133); a request that comes after tuning is log entry 132. -/
def Obligations.MessagesAct : Prop :=
  (∀ (s : State) (t : Nat) (r : LaneRef) (i : Inbox), (s.advanceTo t).message r 1 = some i → exec (.hello t r) s = .next (let s1 := (((s.advanceTo t).taken r).modLane r fun l => { l with rx := { l.rx with peer := some (ctlBody i.payload) } }).judgeRill
        if s1.mayStep r = true ∧ (s1.lane r).tx.step = none ∧ (s.advanceTo t).sys.serial ≤ ctlBody i.payload then s1.propose r else s1)) ∧
  (∀ (s : State) (t : Nat) (r : LaneRef) (i : Inbox), (s.advanceTo t).message r 2 = some i → ((s.advanceTo t).taken r).mayStep r = true → bits (ctlBody i.payload) 62 2 = (((s.advanceTo t).taken r).lane r).acq.stage.up.code → (((s.advanceTo t).taken r).lane r).rx.peer ≠ some ((s.advanceTo t).taken r).sys.serial → 
      exec (.stepPropose t r) s = .next (let l := ((s.advanceTo t).taken r).lane r
        let sc := (l.tx.count + countAhead (bits (ctlBody i.payload) 48 13) i.count) % 8000
        let up := l.acq.stage.up
        let tx := l.tx.send 3 (pack [(0, 32), (sc, 13), (0, 3), (bits (ctlBody i.payload) 48 13, 13), (0, 1), (up.code, 2)])
        ((s.advanceTo t).taken r).modLane r fun l => { l with tx := { tx with step := some { proposer := false, target := up, txAt := sc, rxAt := some (bits (ctlBody i.payload) 48 13), agreed := false, txDone := false, rxDone := false, msgSeq := tx.msgSeq } } })) ∧
  (∀ (s : State) (t : Nat) (r : LaneRef) (i : Inbox) (g : StepNeg), (s.advanceTo t).message r 2 = some i → ((s.advanceTo t).taken r).mayStep r = true → bits (ctlBody i.payload) 62 2 = (((s.advanceTo t).taken r).lane r).acq.stage.up.code → (((s.advanceTo t).taken r).lane r).rx.peer = some ((s.advanceTo t).taken r).sys.serial → (((s.advanceTo t).taken r).lane r).tx.step = some g → g.proposer = true → g.txAt = bits (ctlBody i.payload) 48 13 → 
      exec (.stepPropose t r) s = .next (((s.advanceTo t).taken r).agree r { g with rxAt := some (bits (ctlBody i.payload) 48 13) })) ∧
  (∀ (s : State) (t : Nat) (r : LaneRef) (i : Inbox) (g : StepNeg), (s.advanceTo t).message r 3 = some i → (((s.advanceTo t).taken r).lane r).tx.step = some g → ((s.advanceTo t).taken r).mayStep r = true → g.proposer = true → g.agreed = false → bits (ctlBody i.payload) 62 2 = g.target.code → bits (ctlBody i.payload) 48 13 = g.txAt → 
      exec (.stepConfirm t r) s = .next (if 16 ≤ countAhead g.txAt (((s.advanceTo t).taken r).lane r).tx.count ∧ countAhead g.txAt (((s.advanceTo t).taken r).lane r).tx.count < 4000 then ((s.advanceTo t).taken r).agree r { g with rxAt := some (bits (ctlBody i.payload) 32 13) } else ((s.advanceTo t).taken r).propose r)) ∧
  (∀ (s : State) (t : Nat) (r : LaneRef) (i : Inbox), (s.advanceTo t).message r 4 = some i → (((s.advanceTo t).taken r).lane r).acq.state = .negotiate → (((s.advanceTo t).taken r).lane r).acq.stage = .c → (((s.advanceTo t).taken r).declinesTaps r || (((s.advanceTo t).taken r).lane r).tx.tuned) = true → 
      exec (.tapRequest t r) s = .next (((s.advanceTo t).taken r).modLane r fun l => { l with tx := l.tx.send 5 (pack [(0, 54), (2, 2), (bits (ctlBody i.payload) 56 8, 8)]) })) ∧
  (∀ (s : State) (t : Nat) (n : Fin 8) (i : Inbox), (s.advanceTo t).message (.line n) 4 = some i → ((s.advanceTo t).taken (.line n)).lanes[n].acq.state = .negotiate → ((s.advanceTo t).taken (.line n)).lanes[n].acq.stage = .c → (((s.advanceTo t).taken (.line n)).declinesTaps (.line n) || ((s.advanceTo t).taken (.line n)).lanes[n].tx.tuned) = false → 
      exec (.tapRequest t (.line n)) s = .next
        (if bits (ctlBody i.payload) 53 3 < 7 ∧ tapsValid (requestedTaps ((s.advanceTo t).taken (.line n)).shadow.lineTx[n].taps (ctlBody i.payload)) = true then
          ((((s.advanceTo t).taken (.line n)).modShadow (Bank.tx n fun p => { p with taps := requestedTaps ((s.advanceTo t).taken (.line n)).shadow.lineTx[n].taps (ctlBody i.payload) })).q3Apply [.lineTx n]).modLane (.line n) fun l => { l with tx := l.tx.send 5 (pack [(0, 54), (0, 2), (bits (ctlBody i.payload) 56 8, 8)]) }
        else ((s.advanceTo t).taken (.line n)).modLane (.line n) fun l => { l with tx := l.tx.send 5 (pack [(0, 54), (1, 2), (bits (ctlBody i.payload) 56 8, 8)]) })) ∧
  (∀ (s : State) (t : Nat) (r : LaneRef) (i : Inbox), (s.advanceTo t).message r 5 = some i → (((s.advanceTo t).taken r).lane r).acq.state = .negotiate → (((s.advanceTo t).taken r).lane r).acq.stage = .c → (((s.advanceTo t).taken r).lane r).tx.tuneDone = false → 
      exec (.tapReply t r) s = .next (let c := ((s.advanceTo t).taken r).draw.1
        if bits (ctlBody i.payload) 54 2 = 2 ∨ Config.policy 0x5907 c % 2 = 0 then
          (((s.advanceTo t).taken r).draw.2.modLane r fun l => { l with tx := { l.tx with tuneDone := true } }).tryLocked r
        else ((s.advanceTo t).taken r).draw.2.modLane r fun l => { l with tx := l.tx.send 4 (tapRequest ((bits (ctlBody i.payload) 56 8 + 1) % 256) c) })) ∧
  (∀ (s : State) (t : Nat) (n : Fin 8) (i : Inbox), (s.advanceTo t).message (.line n) 6 = some i → ((s.advanceTo t).taken (.line n)).lanes[n].acq.state = .locked → ((s.advanceTo t).taken (.line n)).active.lineTx[n].pdAdaptive = true → ((s.advanceTo t).taken (.line n)).active.lineTx[n].s200 = false → ((s.advanceTo t).taken (.line n)).active.pinned (.lineTx n) 0x2822 0 = false → ((s.advanceTo t).taken (.line n)).shadow.pinned (.lineTx n) 0x2822 0 = false → 
      exec (.pdReport t n) s = .next ((((s.advanceTo t).taken (.line n)).draw.2.modShadow (Bank.tx n fun p => { p with pd := vmap p.pd fun j x => if bits (ctlBody i.payload) 58 6 ≤ j.val ∧ j.val < bits (ctlBody i.payload) 58 6 + 7 then pdUpdate j.val ((s.advanceTo t).taken (.line n)).draw.1 x else x })).q3Apply [.lineTx n])) ∧
  (∀ (s : State) (t : Nat) (n : Fin 8) (i : Inbox), (s.advanceTo t).message (.line n) 7 = some i → exec (.skewReportLo t n) s = .next (((s.advanceTo t).taken (.line n)).skewReport n 0 (ctlBody i.payload))) ∧
  (∀ (s : State) (t : Nat) (n : Fin 8) (i : Inbox), (s.advanceTo t).message (.line n) 8 = some i → exec (.skewReportHi t n) s = .next (((s.advanceTo t).taken (.line n)).skewReport n 4 (ctlBody i.payload))) ∧
  (∀ (s : State) (t : Nat) (n : Fin 8) (i : Inbox), (s.advanceTo t).message (.line n) 9 = some i → exec (.trafficStart t n) s = .next (((s.advanceTo t).taken (.line n)).modLane (.line n) fun l => { l with rx := { l.rx with farSt := some (bits (ctlBody i.payload) 48 13), stReached := begunBy (bits (ctlBody i.payload) 48 13) (nextCount l.rx.count) } }))

/-- What a received marker and a sent marker do (R34, R135, R178, R179, R186, R187, R189, R191, R195, R295, R301, R327). -/
def Obligations.MarkersPass : Prop :=
  (∀ (s : State) (t : Nat) (r : LaneRef) (b : Nat) (x : RxFrame), ((s.advanceTo t).lane r).seesMarkers = true → (s.advanceTo t).judge r b x.found = .missing → 
      exec (.markerReceive t r b x) s = .next (let s0 := (s.advanceTo t).reachMarker r (nextCount ((s.advanceTo t).lane r).rx.count) b x
        let s1 := s0.modLane r fun l => { l with acq := { l.acq with found := 0 }, rx := { l.rx with missing := l.rx.missing + 1, count := (nextCount ((s.advanceTo t).lane r).rx.count), laneIdGood := 0 }, cnt := { l.cnt with markersMissing := satAdd 32 l.cnt.markersMissing (flag ((s.advanceTo t).countsMarkers r)) } }
        if markerType (nextCount ((s.advanceTo t).lane r).rx.count) = .data then s1.breakFrame r else s1)) ∧
  (∀ (s : State) (t : Nat) (r : LaneRef) (b : Nat) (x : RxFrame), ((s.advanceTo t).lane r).seesMarkers = true → (s.advanceTo t).judge r b x.found = .corrupt → 
      exec (.markerReceive t r b x) s = .next (let s0 := (s.advanceTo t).reachMarker r (nextCount ((s.advanceTo t).lane r).rx.count) b x
        let s1 := s0.modLane r fun l => { l with acq := { l.acq with found := l.acq.found + 1 }, rx := { l.rx with missing := 0, count := (nextCount ((s.advanceTo t).lane r).rx.count), seen := true, laneIdGood := 0 }, cnt := { l.cnt with markerCrc := satAdd 32 l.cnt.markerCrc (flag (!(s.advanceTo t).isS200 r && (s.advanceTo t).countsMarkers r)) } }
        let s2 := if markerType (nextCount ((s.advanceTo t).lane r).rx.count) = .time ∧ (s.advanceTo t).isS200 r = false then s1.keepArrival r ⟨(nextCount ((s.advanceTo t).lane r).rx.count) / 16, s0.arrivalStamp r x.pos, (s.advanceTo t).now, (s.advanceTo t).tb.steps⟩ else s1
        (if markerType (nextCount ((s.advanceTo t).lane r).rx.count) = .data then s2.breakFrame r else s2).foundMarker r)) ∧
  (∀ (s : State) (t : Nat) (r : LaneRef) (b : Nat) (x : RxFrame), ((s.advanceTo t).lane r).seesMarkers = true → (s.advanceTo t).judge r b x.found = .good → markerType (markerCount b) ≠ .control → 
      exec (.markerReceive t r b x) s = .next (let s0 := (s.advanceTo t).reachMarker r (markerCount b) b x
        (((s0.takeGood r b x.pos).modLane r fun l => { l with acq := { l.acq with found := l.acq.found + 1 } }).foundMarker r).judgePorts)) ∧
  (∀ (s : State) (t : Nat) (r : LaneRef) (b : Nat) (x : RxFrame), ((s.advanceTo t).lane r).seesMarkers = true → (s.advanceTo t).judge r b x.found = .good → markerType (markerCount b) = .control → bit (markerPayload b) 81 = true → 
      exec (.markerReceive t r b x) s = .next (let s0 := (s.advanceTo t).reachMarker r (markerCount b) b x
        ((s0.takeGood r b x.pos).modLane r fun l => { l with acq := { l.acq with found := l.acq.found + 1 } }).toState r .signal ((s.advanceTo t).firstStage r) 0x06)) ∧
  (∀ (s : State) (t : Nat) (r : LaneRef) (b : Nat) (x : RxFrame), ((s.advanceTo t).lane r).seesMarkers = true → (s.advanceTo t).judge r b x.found = .good → markerType (markerCount b) = .control → bit (markerPayload b) 81 = false → 
      exec (.markerReceive t r b x) s = .next (let s0 := (s.advanceTo t).reachMarker r (markerCount b) b x
        let s2 := ((s0.takeGood r b x.pos).modLane r fun l => { l with acq := { l.acq with found := l.acq.found + 1 } }).foundMarker r
        ((match (s2.lane r).tx.step with
          | some g => if g.agreed = true ∧ s2.mayStep r = true then s2.toState r .step (s2.lane r).acq.stage 0x01 else s2
          | none => s2).tryLocked r).judgePorts.judgeRill)) ∧
  (∀ (s : State) (t : Nat) (r : LaneRef) (b : Nat) (x : RxFrame), ((s.advanceTo t).lane r).seesMarkers = false → exec (.markerReceive t r b x) s = .next (s.advanceTo t)) ∧
  (∀ (s : State) (t : Nat) (r : LaneRef) (x : TxFrame), (s.advanceTo t).sendsNow r = true → exec (.txMarker t (r, x)) s = .next ((let rs := (s.advanceTo t).senders r
        let s1 := ((s.advanceTo t).forEach rs fun y s => s.takePairs y x.host).forEach ((s.advanceTo t).leadsOf rs) fun n s => s.patchLine n
        s1.forEach rs fun y s => s.sendSuperframe y x.pos).judgeRill)) ∧
  (∀ (s : State) (t : Nat) (r : LaneRef) (x : TxFrame), (s.advanceTo t).sendsNow r = false → exec (.txMarker t (r, x)) s = .next (s.advanceTo t)) ∧
  (∀ (s : State) (r : LaneRef) (k : Nat), s.sendsNow r = true → s.farLoop r = false → (s.lane r).tx.stage ≠ .s200 → s.sendSuperframe r k = (let p := s.markerPayloadOut r k
        ((p.2.sendFrame r ((s.lane r).tx.markerOut r.laneId p.1)).checkStep r).endSuperframe r)) ∧
  (∀ (s : State) (r : LaneRef) (k : Nat), s.sendsNow r = true → s.farLoop r = true → s.sendSuperframe r k = (s.sendLooped r).endSuperframe r) ∧
  (∀ (s : State) (r : LaneRef) (k : Nat), s.sendsNow r = true → s.farLoop r = false → (s.lane r).tx.stage = .s200 → s.sendSuperframe r k = (s.sendFrame r (Config.s200Marker r.within)).endSuperframe r) ∧
  (∀ (s : State) (r : LaneRef), ((s.endSuperframe r).lane r).tx.count = nextCount (s.lane r).tx.count ∧ ((s.endSuperframe r).lane r).tx.markAt = some s.now ∧
        ((s.endSuperframe r).lane r).tx.skewApplied = slewStep (s.lane r).tx.skewApplied (s.lane r).tx.skewTarget) ∧
  (∀ (s : State) (t : Nat) (r : LaneRef) (i : Inbox), ((s.advanceTo t).lane r).rx.inbox = some i → markerType i.count = .data → exec (.rillDataMarker t r) s = .next (let s1 := (s.advanceTo t).taken r
        match s1.portOf r with | some p => s1.modLink p fun l => l.takeData r.within i.payload | none => s1)) ∧
  (∀ (s : State) (t : Nat) (r : LaneRef) (i : Inbox), ((s.advanceTo t).lane r).rx.inbox = some i → markerType i.count = .time → exec (.timeMarkerArrival t r) s = .next (let dep := (s.advanceTo t).departureOf r i
        let s1 := ((((s.advanceTo t).taken r).takeTp r i dep).takeSample r dep).takeAsym r ((i.count / 16 + 499) % 500) dep
        ((s1.asymCounted r).keepArrival r ⟨i.count / 16, i.arrival, i.at', i.step⟩).countMarker r)) ∧
  (∀ (s : State) (r : LaneRef) (i : Inbox) (a : MarkerStamp), bit i.payload 33 = true → (s.lane r).time.lastArrival = some a → a.q = (i.count / 16 + 499) % 500 → a.stamp.valid = true → 
      s.departureOf r i = some (completeTime (bits i.payload 80 16) (bits i.payload 50 30) (bits i.payload 34 16) a.stamp.time, a)) ∧
  (∀ (s : State) (r : LaneRef) (d : Int) (a : MarkerStamp) (sum : Int), s.roundTrip r = some sum → s.eligible r = true → a.step = s.tb.steps → s.takeSample r (some (d, a)) = s.modLane r fun l => { l with time := { l.time with samples := sampleOf a.stamp.time d l.time.rxFibre l.time.farTxFibre sum l.time.asymLatched :: l.time.samples } })

/-- Tables and status are read, a loop measurement begins only where R306 allows it and goes through its phases, fixed delays and asymmetries are pinned, and a run of the asymmetry estimate ends as R311 and R312 say. -/
def Obligations.TransferCommands : Prop :=
  (∀ (n : Fin 8), Completes .calTableRead 0x2031 true (fun _ e s => e.len = 4 ∧ rsv (e.w 0) 3 5 = true ∧ rsvHigh (e.w 0) 16 = true ∧ (s.calTable n (bits (e.w 0) 8 8)).isSome = true ∧ idx? 8 (bits (e.w 0) 0 3) = some n) .ok
      (fun _ e s _ => (s.calTable n (bits (e.w 0) 8 8)).getD [])
      (fun _ e s => if bits (e.w 0) 8 8 = 0x12 then s.modLane (.line n) fun l => { l with tx := { l.tx with txClip := 0 } } else s)) ∧
  (Completes .xferStatus 0x4030 true (fun _ e _ => e.len = 4 ∧ rsvHigh (e.w 0) 12 = true) .ok
      (fun _ e s _ => wordsLe [pack [(s.tb.lanesIn, 4), (flag s.tb.combValid, 1), (flag s.tb.upstreamValid, 1)]] ++ offset64 s.tb.combined ++ s.tb.updateStamp.bytes ++
        (if bit (e.w 0) 8 = true then [LaneRef.relay (hostLow ⟨bits (e.w 0) 9 3, Nat.mod_lt _ (by decide)⟩), .relay (hostHigh ⟨bits (e.w 0) 9 3, Nat.mod_lt _ (by decide)⟩)] else e.lanes.map LaneRef.line).flatMap s.xferRecord)
      (fun _ _ s => s)) ∧
  (∀ (n : Fin 8), Starts .xferCal 0x4031 false (fun _ e s => idx? 8 (bits (e.w 0) 0 3) = some n ∧ e.len = 4 ∧ rsvHigh (e.w 0) 3 = true ∧ s.owners[lineLoopRes n].fn = .none ∧ s.active.lineTx[n].s200 = false ∧ s.active.lineRx[n].s200 = false ∧ s.active.lineTx[n].txEn = true ∧
        s.active.lineRx[n].rxEn = true ∧ s.active.lineRx[n].loop = 0 ∧ s.intPinned n = false ∧ s.lanes[n].acq.power = .l0)
      (fun _ _ s => ((s.claim (lineLoopRes n) .stampCal n.val).modLane (.line n) fun l => { l with tx := { l.tx with squelch := { l.tx.squelch with calibration := true }, driving := false }, time := { l.time with xfer := some .claim, loopMeas := 0, loopSum := 0, loopCnt := 0 } }).judgePorts)) ∧
  (∀ (n : Fin 8), Completes .xferCalExpert 0x4831 false (fun _ e _ => idx? 8 (bits (e.w 0) 0 3) = some n ∧ e.len = 20 ∧ rsv (e.w 0) 3 5 = true ∧ rsvHigh (e.w 0) 10 = true ∧
        -131072 ≤ toSigned 32 (e.w 1) ∧ toSigned 32 (e.w 1) ≤ 131072 ∧ -131072 ≤ toSigned 32 (e.w 2) ∧ toSigned 32 (e.w 2) ≤ 131072 ∧ e.w 3 ≤ 6553600 ∧ e.w 4 ≤ 6553600) .ok
      (fun _ _ s _ => wordsLe ([0, 0] ++ s.delayEntries n))
      (fun _ e s => let s1 := if bit (e.w 0) 8 = true then (s.rxExpert n 0x4831 128 fun p => { p with txInt := toSigned 32 (e.w 1) }).rxExpert n 0x4831 129 fun p => { p with rxInt := toSigned 32 (e.w 2) } else s
        if bit (e.w 0) 9 = true then (s1.rxExpert n 0x4831 130 fun p => { p with txMod := e.w 3 }).rxExpert n 0x4831 131 fun p => { p with rxMod := e.w 4 } else s1)) ∧
  (Completes .asymmetry 0x4032 false (fun _ e _ => e.len = 36 ∧ rsvHigh (e.w 0) 10 = true) .ok
      (fun _ _ s _ => wordsLe s.asymEntries)
      (fun _ e s => s.forEach e.lanes fun n s => s.modShadow (Bank.rx n fun p => { p with asymEnable := bit (e.w 0) 8, asymOrder := bit (e.w 0) 9, wlIn := bits (e.w (1 + n.val)) 0 16, wlOut := bits (e.w (1 + n.val)) 16 16 }))) ∧
  (∀ (n : Fin 8), Completes .asymmetryExpert 0x4832 false (fun _ e _ => e.len = 8 ∧ rsvHigh (e.w 0) 5 = true ∧ -65536000 ≤ toSigned 32 (e.w 1) ∧ toSigned 32 (e.w 1) ≤ 65536000 ∧ bit (e.w 0) 4 = false ∧ idx? 8 (bits (e.w 0) 0 4) = some n) .ok
      (fun _ _ _ _ => [])
      (fun _ e s => s.rxExpert n 0x4832 128 fun p => { p with asym := toSigned 32 (e.w 1) })) ∧
  (∀ (h : Fin 16), Completes .asymmetryExpert 0x4832 false (fun _ e _ => e.len = 8 ∧ rsvHigh (e.w 0) 5 = true ∧ -65536000 ≤ toSigned 32 (e.w 1) ∧ toSigned 32 (e.w 1) ≤ 65536000 ∧ bit (e.w 0) 4 = true ∧ idx? 16 (bits (e.w 0) 0 4) = some h) .ok
      (fun _ _ _ _ => [])
      (fun _ e s => s.writeExpert (.host h) 0x4832 128 fun b => { b with host := upd b.host h fun p => { p with asym := toSigned 32 (e.w 1) } })) ∧
  (∀ (s : State) (t : Nat) (n : Fin 8), (s.advanceTo t).lanes[n].time.xfer = some .claim → (s.advanceTo t).lanes[n].acq.state ≠ .still → 
      exec (.xferCalPhaseEnd t n) s = .next (((s.advanceTo t).modLane (.line n) fun l => { l with time := { l.time with xfer := some .bringUp } }).toState (.line n) .dark .a 0x07)) ∧
  (∀ (s : State) (t : Nat) (n : Fin 8), (s.advanceTo t).lanes[n].time.xfer = some .claim → (s.advanceTo t).lanes[n].acq.state = .still → 
      exec (.xferCalPhaseEnd t n) s = .next ((s.advanceTo t))) ∧
  (∀ (s : State) (t : Nat) (n : Fin 8), (s.advanceTo t).lanes[n].time.xfer = some .bringUp → (s.advanceTo t).lanes[n].acq.state = .locked → (s.advanceTo t).lanes[n].acq.stage = .c → 
      exec (.xferCalPhaseEnd t n) s = .next ((s.advanceTo t).modLane (.line n) fun l => { l with time := { l.time with xfer := some .measure } })) ∧
  (∀ (s : State) (t : Nat) (n : Fin 8), (s.advanceTo t).lanes[n].time.xfer = some .measure → (s.advanceTo t).lanes[n].time.loopCnt = 65536 → 
      exec (.xferCalPhaseEnd t n) s = .next (((s.advanceTo t).modLane (.line n) fun l => { l with time := { l.time with xfer := some .release } }).modLane (.line n) fun l => { l with time := { l.time with loopMeas := (roundDiv l.time.loopSum 65536).toNat, loopTemp := (s.advanceTo t).laneTemp (.line n) } })) ∧
  (∀ (s : State) (t : Nat) (n : Fin 8), (s.advanceTo t).lanes[n].time.xfer = some .measure → (s.advanceTo t).lanes[n].time.loopCnt ≠ 65536 → 
      exec (.xferCalPhaseEnd t n) s = .next ((s.advanceTo t))) ∧
  (∀ (s : State) (t : Nat) (n : Fin 8), (s.advanceTo t).lanes[n].time.xfer = some .release → loopOk (s.advanceTo t).lanes[n].time (s.advanceTo t).lanes[n].time.loopMeas (s.advanceTo t).lanes[n].time.loopTemp = true → 
      exec (.xferCalPhaseEnd t n) s = .next (let m := (s.advanceTo t).lanes[n].time.loopMeas
        let s2 := (s.advanceTo t).modLane (.line n) fun l => { l with time := { l.time with loopDelay := m, calTemp := l.time.loopTemp, calStamp := (s.advanceTo t).fnow, calValid := true, lastRejected := false } }
        (s2.endXfer n).completeXfer n .ok (wordsLe ([0, m] ++ (s2.endXfer n).delayEntries n)))) ∧
  (∀ (s : State) (t : Nat) (n : Fin 8), (s.advanceTo t).lanes[n].time.xfer = some .release → loopOk (s.advanceTo t).lanes[n].time (s.advanceTo t).lanes[n].time.loopMeas (s.advanceTo t).lanes[n].time.loopTemp = false → 
      exec (.xferCalPhaseEnd t n) s = .next (let s2 := ((s.advanceTo t).modLane (.line n) fun l => { l with time := { l.time with lastRejected := true } }).logEntry 0x0302 0 1 (Block.lineRx n).id [pack [(0x4031, 16), (0, 8), (n.val, 8)]]
        (s2.endXfer n).completeXfer n .ok (wordsLe ([1, (s.advanceTo t).lanes[n].time.loopMeas] ++ (s2.endXfer n).delayEntries n)))) ∧
  (∀ (s : State) (n : Fin 8), s.lanes[n].acq.state ≠ .disabled → s.lanes[n].acq.state ≠ .still → s.endXfer n = (s.releaseXfer n).toState (.line n) .dark .a 0x07) ∧
  (∀ (s : State) (n : Fin 8), (s.lanes[n].acq.state = .disabled ∨ s.lanes[n].acq.state = .still) → s.endXfer n = s.releaseXfer n) ∧
  (∀ (s : State) (t : Nat), 2 ^ 18 ≤ s.tb.asymMarkers → Goes (exec (.asymEstimateRun t) s) fun s' => s'.tb.asymMarkers = 0 ∧
        ((∀ n : Fin 8, s.active.lineRx[n].asymEnable = false) → s'.tb.asymReason = 1) ∧
        (s'.tb.asymReason ≠ 0 → ∀ n : Fin 8, s'.lanes[n].time.asym = s.lanes[n].time.asym) ∧
        ∀ n : Fin 8, s'.lanes[n].time.asymSum = 0 ∧ s'.lanes[n].time.asymCnt = 0)

/-- Power-on, the rails, a supply shutdown, its restart, and resets of every domain (R287, R459 to R462). -/
def Obligations.RailsAndReset : Prop :=
  (∀ (s : State) (t : Nat), exec (.uvloFall t) s = .next ((s.advanceTo t).fullReset.modPow fun p => { p with powered := false, railOk := Vector.replicate 8 false, railAt := Vector.replicate 8 (max s.now t), starting := none, bypassTaken := false, shutdowns := [], isOff := false, stuckOff := false, shutRails := [], vin := 0, vinPrev := none })) ∧
  (∀ (s : State) (t : Nat), s.sys.pow.powered = false → exec (.powerOn t) s = .next ((s.advanceTo t).modPow fun p => { p with powered := true, held := true, starting := some (0, max s.now t + usec 100) })) ∧
  (∀ (s : State) (t : Nat) (r : Fin 8) (b : Bool) (k a : Nat), s.sys.pow.powered = true → s.sys.pow.isOff = false → s.sys.pow.railOk[r] = false → s.sys.pow.starting = some (k, a) → railOrder[k]? = some r → a ≤ max s.now t → 
      exec (.railInWindow t r b) s = .next ((s.advanceTo t).modPow fun p =>
        let p1 := if r = 6 ∧ p.bypassTaken = false then { p with bypass := b, bypassTaken := true } else p
        { p1 with railOk := p1.railOk.set r true, railAt := p1.railAt.set r (max s.now t), starting := p1.nextStart (k + 1) (max s.now t) })) ∧
  (∀ (s : State) (t : Nat) (r : Fin 8) (b : Bool), s.sys.pow.powered = true → s.sys.pow.isOff = false → s.sys.pow.railOk[r] = false → s.sys.pow.starting = none → 
      exec (.railInWindow t r b) s = .next ((s.advanceTo t).modPow fun p => { p with railOk := p.railOk.set r true, railAt := p.railAt.set r (max s.now t) })) ∧
  (∀ (s : State) (t : Nat) (r : Fin 8) (b : Bool) (k a : Nat), s.sys.pow.powered = true → s.sys.pow.isOff = false → s.sys.pow.railOk[r] = false → s.sys.pow.starting = some (k, a) → ¬ (railOrder[k]? = some r ∧ a ≤ max s.now t) → s.sys.pow.makes r = false → 
      exec (.railInWindow t r b) s = .next ((s.advanceTo t).modPow fun p => { p with railOk := p.railOk.set r true, railAt := p.railAt.set r (max s.now t) })) ∧
  (∀ (s : State) (t rails : Nat), s.sys.pow.powered = true → s.sys.pow.isOff = false → exec (.supplyShutdown t rails) s = .next ((s.advanceTo t).shutdown (rails % 256))) ∧
  (∀ (s : State) (t k a : Nat), s.sys.pow.starting = some (k, a) → (s.advanceTo t).past 1310720 1 (a + msec 2) = true → exec (.railStartTimeout t) s = .next ((s.advanceTo t).shutdown (idxMask ((List.finRange 8).filter fun r => !s.sys.pow.railOk[r])))) ∧
  (∀ (s : State) (t : Nat), s.sys.pow.isOff = true → s.sys.pow.stuckOff = false → s.sys.pow.shutdowns.headD 0 + msec 10 ≤ max s.now t → 
      exec (.shutdownRestart t) s = .next ((s.advanceTo t).modPow fun p => { p with isOff := false, starting := p.nextStart 0 (max s.now t) })) ∧
  (∀ (s : State) (t : Nat), s.sys.pow.powered = true → s.sys.pow.stuckOff = false → exec (.resetNAssert t) s = .next ((s.advanceTo t).fullReset.modPow fun p => { p with resetN := false })) ∧
  (∀ (s : State) (t : Nat), s.sys.pow.powered = true → s.sys.pow.stuckOff = true → exec (.resetNAssert t) s = .next (((s.advanceTo t).fullReset.modPow fun p => { p with resetN := false }).modPow
        fun p => { p with isOff := false, stuckOff := false, shutdowns := [], starting := p.nextStart 0 (max s.now t) })) ∧
  (∀ (s : State) (t : Nat), s.sys.pow.powered = false → exec (.resetNAssert t) s = .next ((s.advanceTo t).modPow fun p => { p with resetN := false })) ∧
  (∀ (s : State), s.fullReset.q = State.reset.q ∧ s.fullReset.shadow = State.reset.shadow ∧ s.fullReset.active = State.reset.active ∧ s.fullReset.previous = State.reset.previous ∧ s.fullReset.commits = [] ∧
        s.fullReset.bus = State.reset.bus ∧ s.fullReset.limits = State.reset.limits ∧ s.fullReset.owners = State.reset.owners ∧ s.fullReset.tb = State.reset.tb ∧ s.fullReset.rill = State.reset.rill ∧
        s.fullReset.hosts = State.reset.hosts ∧ s.fullReset.ports = State.reset.ports ∧ s.fullReset.hk = State.reset.hk ∧
        s.fullReset.sys.fw.slots = s.sys.fw.slots ∧ s.fullReset.sys.fw.keys = s.sys.fw.keys ∧ s.fullReset.sys.fw.flashLog = s.sys.fw.flashLog) ∧
  (∀ (s : State) (t : Nat) (addr : Option Nat), (s.advanceTo t).reached addr = false → exec (.rstactFullReset t addr) s = .next ((s.advanceTo t).answer .nack)) ∧
  (∀ (s : State) (t : Nat) (addr : Option Nat), (s.advanceTo t).reached addr = true → exec (.rstactFullReset t addr) s = .next ((s.advanceTo t).fullReset.answer .ack)) ∧
  (∀ (s : State) (t : Nat) (b : Bool), s.sys.pow.held = true → s.sys.pow.powered = true → s.sys.pow.isOff = false → (∀ x : Fin 8, s.sys.pow.railOk[x] = true ∧ s.sys.pow.railAt[x] + msec 1 ≤ max s.now t) → 
      exec (.resetRelease t b) s = .next (((s.advanceTo t).modSys fun y => { y with saddrSel := b, pow := { y.pow with held := false, resetN := true } }).modFw fun f => { f with romDue := some .reset })) ∧
  (∀ (s : State) (t : Nat), s.sys.pow.held = false → s.sys.pow.powered = true → s.sys.pstate ≤ 1 → s.tb.running = false → (s.advanceTo t).absentIsland 43 = false → 
      exec (.islandClockSwitch t 43) s = .next (((s.advanceTo t).modSys fun y => { y with islands := y.islands.set 43 true }).modTb fun b => { b with running := true, counter := 0, startAt := max s.now t, past := [] })) ∧
  (∀ (s : State) (t : Nat) (n : Fin 8), s.sys.pow.held = false → s.sys.pow.powered = true → s.sys.pstate ≤ 1 → s.lanes[n].acq.power ≠ .l2 → 
      exec (.islandClockSwitch t ⟨n.val, by omega⟩) s = .next ((((s.advanceTo t).modSys fun y => { y with islands := y.islands.set n.val true }).modLane (.line n) fun l => { l with tx := { l.tx with clocked := true } }).alignTx (.line n))) ∧
  (∀ (s : State) (t : Nat) (k : Fin 16), s.sys.pow.held = false → s.sys.pow.powered = true → s.sys.pstate ≤ 1 → s.active.host[k].relay = true → s.active.host[k].enable = true → s.hosts[k].power ≠ .l2 → 
      exec (.islandClockSwitch t ⟨17 + k.val, by omega⟩) s = .next ((((s.advanceTo t).modSys fun y => { y with islands := y.islands.set (17 + k.val) true }).modLane (.relay k) fun l => { l with tx := { l.tx with clocked := true } }).alignTx (.relay k))) ∧
  (∀ (s : State) (t : Nat) (n : Fin 64), s.sys.pow.held = false → s.sys.pow.powered = true → s.sys.pstate ≤ 1 → (s.advanceTo t).absentIsland n = false → n ≠ 43 → 8 ≤ n.val → n.val < 17 ∨ 33 ≤ n.val → 
      exec (.islandClockSwitch t n) s = .next ((s.advanceTo t).modSys fun y => { y with islands := y.islands.set n true })) ∧
  (∀ (s : State) (t : Nat) (n : Fin 64), (s.advanceTo t).absentIsland n = true → exec (.islandClockSwitch t n) s = .next (s.advanceTo t))

/-- Supply-sag shedding and its configuration (R464 to R469, R480). The thresholds of the basic SHED_CONFIG and the readings of POWER_STATUS are free values (log entries 40 and 6). -/
def Obligations.Shedding : Prop :=
  (∀ (s : State) (t mv : Nat), s.sys.pow.held = false → s.sys.pow.powered = true → s.sys.pstate ≤ 1 → s.sys.pow.vinPrev = none → 
      exec (.supplyComparatorUpdate t mv) s = .next (((s.advanceTo t).boundary .sluice).modPow fun p => { p with vin := mv, vinPrev := some mv })) ∧
  (∀ (s : State) (t mv prev : Nat), s.sys.pow.held = false → s.sys.pow.powered = true → s.sys.pstate ≤ 1 → s.sys.pow.vinPrev = some prev → (let s1 := ((s.advanceTo t).boundary .sluice).modPow fun p => { p with vin := mv, vinPrev := some mv };
        s1.sys.shedStage < s1.active.sluice.deepest prev mv) → 
      exec (.supplyComparatorUpdate t mv) s = .next (let s1 := ((s.advanceTo t).boundary .sluice).modPow fun p => { p with vin := mv, vinPrev := some mv }
        let n := s1.active.sluice.deepest prev mv
        ((s1.forEach ((List.range 7).filter fun i => decide (s1.sys.shedStage < i ∧ i ≤ n)) fun i s => s.shedStage i).setStage n).shedEvent true)) ∧
  (∀ (s : State) (t mv prev k : Nat), s.sys.pow.held = false → s.sys.pow.powered = true → s.sys.pstate ≤ 1 → s.sys.pow.vinPrev = some prev → (let s1 := ((s.advanceTo t).boundary .sluice).modPow fun p => { p with vin := mv, vinPrev := some mv };
        s1.active.sluice.deepest prev mv ≤ s1.sys.shedStage ∧ 0 < s1.sys.shedStage ∧ s1.sys.pow.shedAt + msec 1 ≤ s1.now ∧ s1.active.sluice.restores s1.sys.shedStage prev mv = true ∧ s1.sys.pow.step = none) → 
      exec (.supplyComparatorUpdate t mv) s = .next (let s1 := ((s.advanceTo t).boundary .sluice).modPow fun p => { p with vin := mv, vinPrev := some mv }
        (restoreTo (s1.sys.shedStage - 1) s1).shedEvent false)) ∧
  (∀ (s : State) (t mv prev k : Nat), s.sys.pow.held = false → s.sys.pow.powered = true → s.sys.pstate ≤ 1 → s.sys.pow.vinPrev = some prev → (let s1 := ((s.advanceTo t).boundary .sluice).modPow fun p => { p with vin := mv, vinPrev := some mv };
        s1.active.sluice.deepest prev mv ≤ s1.sys.shedStage ∧ 0 < s1.sys.shedStage ∧ s1.sys.pow.shedAt + msec 1 ≤ s1.now ∧ s1.active.sluice.restores s1.sys.shedStage prev mv = true ∧ s1.sys.pow.step = some 0) → 
      exec (.supplyComparatorUpdate t mv) s = .next (let s1 := ((s.advanceTo t).boundary .sluice).modPow fun p => { p with vin := mv, vinPrev := some mv }
        (restoreTo 5 (s1.undoStep 0)).shedEvent false)) ∧
  (∀ (s : State) (t mv prev k : Nat), s.sys.pow.held = false → s.sys.pow.powered = true → s.sys.pstate ≤ 1 → s.sys.pow.vinPrev = some prev → (let s1 := ((s.advanceTo t).boundary .sluice).modPow fun p => { p with vin := mv, vinPrev := some mv };
        s1.active.sluice.deepest prev mv ≤ s1.sys.shedStage ∧ 0 < s1.sys.shedStage ∧ s1.sys.pow.shedAt + msec 1 ≤ s1.now ∧ s1.active.sluice.restores s1.sys.shedStage prev mv = true ∧ s1.sys.pow.step = some (k + 1)) → 
      exec (.supplyComparatorUpdate t mv) s = .next (let s1 := ((s.advanceTo t).boundary .sluice).modPow fun p => { p with vin := mv, vinPrev := some mv }
        ((s1.undoStep (k + 1)).setStage 6).shedEvent false)) ∧
  (∀ (s : State) (t k : Nat), s.sys.pow.step = some k → s.sys.shedStage = 6 → k < 8 → s.sys.pow.shedAt + usec 100 ≤ max s.now t → s.sys.pow.vin < s.active.sluice.level 6 → 
      exec (.shedStep t) s = .next ((((s.advanceTo t).takeStep (k + 1)).setStage 6).shedEvent true)) ∧
  (Completes .shedConfig 0x9010 false (fun _ e _ => e.len = 4 ∧ 300 ≤ e.w 0 ∧ e.w 0 ≤ 4200) .ok
      (fun _ _ _ w => wordsLe w.shadow.sluice.words)
      (fun _ e s => (s.modShadow fun k => { k with sluice := { k.sluice with vnom := e.w 0 } }).forEach (List.finRange 6) fun i s =>
        (s.writeBasic .sluice 0x9810 (128 + i.val) fun k => { k with sluice := { k.sluice with shed := k.sluice.shed.set i (policyShed (e.w 0))[i] } }).writeBasic .sluice 0x9810 (134 + i.val)
          fun k => { k with sluice := { k.sluice with hyst := k.sluice.hyst.set i (clampTo 5 100 (Config.policy (0x106 + i.val) (e.w 0))) } })) ∧
  (Completes .shedConfigExpert 0x9810 false (fun _ e _ => e.len = 24 ∧ e.w 0 = 0 ∧ rsvHigh (e.w 5) 16 = true ∧ shedOk ((List.range 6).map fun i => fieldAt e.cmd.payload (4 + 2 * i) 2) = true ∧
        ∀ i : Fin 6, 5 ≤ fieldAt e.cmd.payload (16 + i.val) 1 ∧ fieldAt e.cmd.payload (16 + i.val) 1 ≤ 100) .ok
      (fun _ _ _ w => wordsLe w.shadow.sluice.words)
      (fun _ e s => s.forEach (List.finRange 6) fun i s =>
        (s.writeExpert .sluice 0x9810 (128 + i.val) fun k => { k with sluice := { k.sluice with shed := k.sluice.shed.set i (fieldAt e.cmd.payload (4 + 2 * i.val) 2) } }).writeExpert .sluice 0x9810 (134 + i.val)
          fun k => { k with sluice := { k.sluice with hyst := k.sluice.hyst.set i (fieldAt e.cmd.payload (16 + i.val) 1) } })) ∧
  (Completes .powerStatus 0x9011 true (fun _ e _ => e.len = 0) .ok
      (fun _ _ s _ => wordsLe [pack [(s.sys.pstate, 2), (s.sys.shedStage, 3), (s.sys.pow.step.getD 0xF, 4), (flag s.sys.pow.bypass, 1), (flag s.sys.wakeFail, 1), (s.sys.pow.lastSources, 4)], s.sys.pow.vin,
        pack [(idxMask ((List.finRange 8).filter fun n => s.lanes[n].acq.shed), 8), (idxMask ((List.finRange 16).filter fun n => s.hosts[n].shed), 16), (idxMask ((List.finRange 8).filter fun r => s.sys.pow.railOk[r]), 8)],
        readingPair 0 s.free, readingPair 2 s.free, readingPair 4 s.free, readingPair 6 s.free, Config.reading 0x208 s.free])
      (fun _ _ s => s.draw.2))

/-- The device power states: entry, wake sources, wake stages, failures and recovery (R470 to R479). -/
def Obligations.PowerStates : Prop :=
  (Completes .wakeConfig 0x9003 false (fun _ e _ => e.len = 8 ∧ rsvHigh (e.w 0) 1 = true) .ok
      (fun _ _ _ _ => [])
      (fun _ e s => s.modPow fun p => { p with wakeEdge := bit (e.w 0) 0, timerMs := e.w 1 })) ∧
  (Starts .powerEnter 0x9000 true (fun _ e s => e.len = 4 ∧ bits (e.w 0) 0 2 = 1 ∧ rsv (e.w 0) 2 6 = true ∧ rsvHigh (e.w 0) 12 = true ∧ s.enterRefused e.seq 1 (bits (e.w 0) 8 4) = false)
      (fun q e s => (s.modPow fun p => { p with mask := bits (e.w 0) 8 4 - bits (e.w 0) 8 4 % 2, entry := some { queue := q, seq := e.seq, target := 1, at' := s.now, replied := false } }).prepare true)) ∧
  (Completes .powerEnter 0x9000 true (fun _ e s => e.len = 4 ∧ 2 ≤ bits (e.w 0) 0 2 ∧ rsv (e.w 0) 2 6 = true ∧ rsvHigh (e.w 0) 12 = true ∧ s.enterRefused e.seq (bits (e.w 0) 0 2) (bits (e.w 0) 8 4) = false) .ok
      (fun _ _ _ _ => [])
      (fun q e s => (s.modPow fun p => { p with mask := bits (e.w 0) 8 4, entry := some { queue := q, seq := e.seq, target := bits (e.w 0) 0 2, at' := s.now, replied := true } }).prepare (decide (q ≠ .q2)))) ∧
  (Completes .powerEnter 0x9000 true (fun _ e s => e.len = 4 ∧ bits (e.w 0) 0 2 ≠ 0 ∧ rsv (e.w 0) 2 6 = true ∧ rsvHigh (e.w 0) 12 = true ∧ s.enterRefused e.seq (bits (e.w 0) 0 2) (bits (e.w 0) 8 4) = true) .precondition
      (fun _ _ _ _ => [])
      (fun _ _ s => s)) ∧
  (∀ (s : State) (t : Nat) (e : PowerEntry), s.sys.pow.entry = some e → e.request = none → e.target = 1 → e.replied = false → ((s.advanceTo t).forEach allLanes fun r x => x.sendPower .l2 r).prepared = true → 
      exec (.sleepRequest t) s = .next ((((s.advanceTo t).forEach allLanes fun r x => x.sendPower .l2 r).modPow fun p => { p with entry := some { e with request := some (max s.now t), replied := true } }).complete e.seq .ok [])) ∧
  (∀ (s : State) (t : Nat) (e : PowerEntry), s.sys.pow.entry = some e → e.request = none → 2 ≤ e.target → e.replied = true → ((s.advanceTo t).queueOf e.seq).isNone = true ∨ (s.advanceTo t).pastMgmt (e.at' + msec 1) = true → ((s.advanceTo t).forEach allLanes fun r x => x.sendPower .l2 r).prepared = true → 
      exec (.sleepRequest t) s = .next (((s.advanceTo t).forEach allLanes fun r x => x.sendPower .l2 r).modPow fun p => { p with entry := some { e with request := some (max s.now t), replied := true } })) ∧
  (∀ (s : State) (t : Nat) (e : PowerEntry) (r : Nat), s.sys.pow.entry = some e → e.request = some r → r + nsec 160 ≤ max s.now t → exec (.powerStateEntry t) s = .next (let s1 := ((s.advanceTo t).endTests (s.sys.bist.runs.map TestRun.id) 5).modPow fun p => { p with entry := none }
        let s2 := match e.target with
          | 1 => (s1.islandsOff offInStandby).modSys fun y => { y with pstate := 1 }
          | 2 => s1.toSleep
          | _ => s1.toDeep
        let s3 := s2.modPow fun p => { p with timerFrom := if bit p.mask 3 then some (max s.now t) else none, timerUp := false }
        if bit s3.sys.pow.mask 1 = true ∧ s3.sys.pow.levels ≠ 0 then s3.activity 1 else s3)) ∧
  (∀ (s : State) (t : Nat), s.bus.dynAddr.isSome = true → exec (.wakeSource t 0 true) s = .next ((s.advanceTo t).activity 0)) ∧
  (∀ (s : State) (t : Nat), s.sys.pow.wakeEdge = false → exec (.wakeSource t 1 true) s = .next (((s.advanceTo t).modPow fun p => { p with wakeN := false }).activity 1)) ∧
  (∀ (s : State) (t : Nat), s.sys.pow.wakeEdge = true → s.sys.pow.wakeN = true → exec (.wakeSource t 1 true) s = .next (((s.advanceTo t).modPow fun p => { p with wakeN := false }).activity 1)) ∧
  (∀ (s : State) (t : Nat), exec (.wakeSource t 1 false) s = .next ((s.advanceTo t).modPow fun p => { p with wakeN := true })) ∧
  (∀ (s : State) (t : Nat), exec (.wakeSource t 2 true) s = .next ((s.advanceTo t).activity 2)) ∧
  (∀ (s : State) (t : Nat) (a : Bool), s.sys.pow.timerUp = true → exec (.wakeSource t 3 a) s = .next ((s.advanceTo t).activity 3)) ∧
  (∀ (s : State) (src : Nat), s.sys.pow.entry = none → s.sys.pow.wake = none → s.sys.pow.retryOf = none → s.sys.pow.stuck = false → bit s.sys.pow.mask src = true → s.sys.pstate = 2 ∨ s.sys.pstate = 3 → 
      s.activity src = s.modPow fun p => { p with wake := some { origin := s.sys.pstate, sources := p.sources (2 ^ src), stage := 1, stageAt := s.now, retry := 0, recovery := false, cancelled := false } }) ∧
  (∀ (s : State) (src : Nat), s.sys.pow.entry = none → s.sys.pow.wake = none → s.sys.pow.retryOf = none → s.sys.pow.stuck = false → bit s.sys.pow.mask src = true → s.sys.pstate = 1 → 
      s.activity src = s.modPow fun p => { p with wake := some { origin := 1, sources := p.sources (2 ^ src), stage := 4, stageAt := s.now, retry := 0, recovery := false, cancelled := false } }) ∧
  (∀ (s : State) (t a : Nat), s.sys.pow.timerFrom = some a → 1000 * a + 999 * msec s.sys.pow.timerMs ≤ 1000 * max s.now t → 
      exec (.alwaysOnTimer t) s = .next (((s.advanceTo t).modPow fun p => { p with timerFrom := none, timerUp := true }).activity 3)) ∧
  (∀ (s : State) (t : Nat) (w : Wake), s.sys.pow.wake = some w → 1 ≤ w.stage → w.stage ≤ 3 → ¬ (w.stage = 3 ∧ w.origin = 3) → exec (.wakeStageComplete t) s = .next ((s.advanceTo t).modPow fun p => { p with wake := some { w with stage := w.stage + 1, stageAt := max s.now t } })) ∧
  (∀ (s : State) (t : Nat) (w : Wake), s.sys.pow.wake = some w → w.stage = 3 → w.origin = 3 → exec (.wakeStageComplete t) s = .next ((((s.advanceTo t).modPow fun p => { p with wake := some { w with stage := 4, stageAt := max s.now t } }).modSys fun y => { y with pstate := 4 }).modFw
        fun f => { f with romDue := some .deep })) ∧
  (∀ (s : State) (t x : Nat) (w : Wake), s.sys.pow.wake = some w → 1 ≤ w.stage → w.stage ≤ 3 → (s.advanceTo t).pastAlwaysOn (w.stageAt + msec 2) = true → 
      exec (.wakeStageTimeout t x) s = .next (((s.advanceTo t).modSys fun y => { y with wakeFail := true }).modPow fun p => { p with failures := (p.failures ++ [({ stage := w.stage, retry := w.retry, origin := w.origin, rails := if w.stage = 1 then x % 256 else 0 } : WakeFailure)]).take 4, wake := none, retryOf := if w.recovery = true then none else some (max s.now t, w) })) ∧
  (∀ (s : State) (t a : Nat) (w : Wake), s.sys.pow.retryOf = some (a, w) → a + msec 10 ≤ max s.now t → exec (.wakeRetry t) s = .next (if 3 ≤ w.retry then (s.advanceTo t).getStuck else
        (s.advanceTo t).modPow fun p => { p with retryOf := none, wake := some { w with stage := 1, stageAt := max s.now t, retry := w.retry + 1 } })) ∧
  (∀ (s : State) (t : Nat) (w : Wake), s.sys.pow.wake = some w → w.stage = 4 → w.origin ≠ 3 ∨ w.cancelled = true ∨ s.sys.booted = true → 
      exec (.commandReady t) s = .next (let s1 := (s.advanceTo t).modSys fun y => { y with pstate := 0, islands := if w.origin = 1 ∧ w.cancelled = false then vmap y.islands fun i b => b || (offInStandby i.val && !(s.advanceTo t).absentIsland i) else y.islands, pow := { y.pow with wake := if y.pow.restricted.isSome = true then some { w with stage := 5 } else none, timerFrom := none, timerUp := false, failures := [] } }
        let s2 := s1.lanesBack.forEach s.sys.pow.failures fun f s => s.wakeFailEvent f
        let s3 := if s.sys.pow.restricted.isSome = true then s2 else s2.wakeEvent w
        (s3.forEach (s3.q.all.filter fun e => decide (e.phase = .running ∧ e.cmd.op = 0x9001)) fun e s => s.complete e.seq .ok []).sweep)) ∧
  (Completes .powerRecover 0x9001 true (fun _ e s => e.len = 0 ∧ s.sys.pow.restricted = none ∧ s.sys.pstate ≠ 1) .ok
      (fun _ _ _ _ => [])
      (fun _ _ s => s.modSys fun y => { y with wakeFail := false, pow := { y.pow with failures := [], restricted := none } })) ∧
  (Starts .powerRecover 0x9001 true (fun _ e s => e.len = 0 ∧ s.sys.pow.restricted = none ∧ s.sys.pstate = 1)
      (fun _ _ s => let s1 := s.modSys fun y => { y with wakeFail := false, pow := { y.pow with failures := [], restricted := none } }
        if s.sys.pow.wake.isSome = true then s1 else s1.startWake 1 (s.sys.pow.sources 0) 4 false false)) ∧
  (Completes .powerRecover 0x9001 true (fun _ e s => e.len = 0 ∧ s.sys.pow.restricted ≠ none) .ok
      (fun _ _ _ _ => [])
      (fun _ _ s => let s1 := s.modSys fun y => { y with wakeFail := false, pow := { y.pow with failures := [], restricted := none } }
        match s.sys.pow.wake with | some w => if w.stage = 5 then (s1.modPow fun p => { p with wake := none }).wakeEvent w else s1 | none => s1)) ∧
  (∀ (s : State) (t a : Nat), s.sys.pow.restricted = some a → (s.advanceTo t).pastMgmt (a + secs 1) = true → exec (.recoveryWindowExpiry t) s = .next (s.advanceTo t).toDeep.getStuck)

/-- The commands of the time base (R265, R274 to R276, R278, R280, R281, R284, R285, R321, R322). The settings that the basic SERVO_PARAMS chooses are free values (log entry 40). -/
def Obligations.TimeCommands : Prop :=
  (Completes .timeGet 0x4000 true (fun _ e _ => e.len = 0) .ok
      (fun _ _ s _ => timeWords s.stampMgmt.time ++ wordsLe [pack [(flag s.tb.timeValid, 1), (s.tb.state.code, 2), (s.active.servo.source.code, 2)]])
      (fun _ _ s => s)) ∧
  (∀ (f : Nat), Starts .timeSet 0x4001 false (fun _ e _ => e.len = 16 ∧ e.time 0 = some f ∧ rsvHigh (e.w 3) 1 = true ∧ bit (e.w 3) 0 = false)
      (fun _ e s => s.modTb fun b => b.hostStep e.seq (s.limitStep ((f : Int) - s.fnow)).1 (s.limitStep ((f : Int) - s.fnow)).2)) ∧
  (Starts .timeSet 0x4001 false (fun _ e s => e.len = 16 ∧ (e.time 0).isSome = true ∧ rsvHigh (e.w 3) 1 = true ∧ bit (e.w 3) 0 = true ∧ s.active.servo.ppsIn = true)
      (fun _ _ s => s)) ∧
  (Completes .timeSet 0x4001 false (fun _ e s => e.len = 16 ∧ (e.time 0).isSome = true ∧ rsvHigh (e.w 3) 1 = true ∧ bit (e.w 3) 0 = true ∧ s.active.servo.ppsIn = false) .precondition
      (fun _ _ _ _ => [])
      (fun _ _ s => s)) ∧
  (∀ (x : Int), Starts .timeStep 0x4801 false (fun _ e _ => e.len = 12 ∧ e.step = some x)
      (fun _ e s => s.modTb fun b => b.hostStep e.seq x false)) ∧
  (Completes .servoSource 0x4010 false (fun q e s => e.len = 4 ∧ rsv (e.w 0) 2 6 = true ∧ rsvHigh (e.w 0) 20 = true ∧ bits (e.w 0) 0 2 ≠ 3 ∧ (bits (e.w 0) 0 2 = 1 → (bits (e.w 0) 8 8 ≠ 0 ↔ bit (e.w 0) 19 = false)) ∧
        (s.active.rill.role = .worker → s.active.rill.timeFollow = true → q = .q3)) .ok
      (fun _ _ _ _ => [])
      (fun _ e s => (s.modShadow (Bank.srv fun p => { p with source := if bits (e.w 0) 0 2 = 0 then .free else if bits (e.w 0) 0 2 = 1 then .line else .pps, laneMask := bits (e.w 0) 8 8, relayPort := ⟨bits (e.w 0) 16 3, Nat.mod_lt _ (by decide)⟩, relay := bit (e.w 0) 19 })).mark .servo 0x4010)) ∧
  (Completes .servoParams 0x4011 false (fun _ e _ => e.len = 4 ∧ bits (e.w 0) 0 3 ≤ 3 ∧ rsv (e.w 0) 3 5 = true ∧ rsv (e.w 0) 13 3 = true ∧ rsvHigh (e.w 0) 20 = true) .ok
      (fun _ _ _ w => servoReply w.shadow.servo)
      (fun _ e s => let v := servoPolicy (bits (e.w 0) 0 3) s.free s.limits.maxStep
        (((s.draw.2.modShadow (Bank.srv fun p => { p with refType := bits (e.w 0) 0 3 })).writeBasic .servo 0x4811 128 (Bank.srv fun p => { p with k := v.1 })).writeBasic .servo 0x4811 129
          (Bank.srv fun p => { p with kp := v.2.1, ki := v.2.2.1 })).writeBasic .servo 0x4811 130 (Bank.srv fun p => { p with stepThreshold := v.2.2.2.1, lockWindow := v.2.2.2.2 }))) ∧
  (Completes .servoParamsExpert 0x4811 false (fun _ e s => e.len = 28 ∧ rsv (e.w 0) 0 8 = true ∧ rsv (e.w 0) 13 3 = true ∧ rsvHigh (e.w 0) 20 = true ∧ rsvHigh (e.w 1) 24 = true ∧ rsvHigh (e.w 2) 24 = true ∧
        (bit (bits (e.w 0) 16 4) 0 = true → 4 ≤ bits (e.w 0) 8 5 ∧ bits (e.w 0) 8 5 ≤ 16) ∧ (bit (bits (e.w 0) 16 4) 1 = true → e.w 1 ≠ 0) ∧
        (bit (bits (e.w 0) 16 4) 2 = true → 1 ≤ e.w 3 ∧ e.w 3 ≤ 1000000000 ∧ 1 ≤ e.w 4 ∧ e.w 4 ≤ 1000000) ∧ (bit (bits (e.w 0) 16 4) 3 = true → (toSigned 64 (fieldAt e.cmd.payload 20 8)).natAbs ≤ rateBound) ∧
        ¬ (bit (bits (e.w 0) 16 4) 2 = true ∧ s.limits.maxStep < e.w 3)) .ok
      (fun _ _ _ w => servoReply w.shadow.servo)
      (fun _ e s => let m := bits (e.w 0) 16 4
        let s1 := if bit m 0 then s.writeExpert .servo 0x4811 128 (Bank.srv fun p => { p with k := bits (e.w 0) 8 5 }) else s
        let s2 := if bit m 1 then s1.writeExpert .servo 0x4811 129 (Bank.srv fun p => { p with kp := e.w 1, ki := e.w 2 }) else s1
        let s3 := if bit m 2 then s2.writeExpert .servo 0x4811 130 (Bank.srv fun p => { p with stepThreshold := min (e.w 3) s.limits.maxStep, lockWindow := e.w 4 }) else s2
        if bit m 3 then (s3.writeExpert .servo 0x4811 131 (Bank.srv fun p => { p with rateWord := toSigned 64 (fieldAt e.cmd.payload 20 8) })).mark .servo 0x4811 else s3)) ∧
  (Completes .servoParamsExpert 0x4811 false (fun _ e s => e.len = 28 ∧ rsv (e.w 0) 0 8 = true ∧ rsv (e.w 0) 13 3 = true ∧ rsvHigh (e.w 0) 20 = true ∧ rsvHigh (e.w 1) 24 = true ∧ rsvHigh (e.w 2) 24 = true ∧
        (bit (bits (e.w 0) 16 4) 0 = true → 4 ≤ bits (e.w 0) 8 5 ∧ bits (e.w 0) 8 5 ≤ 16) ∧ (bit (bits (e.w 0) 16 4) 1 = true → e.w 1 ≠ 0) ∧
        (bit (bits (e.w 0) 16 4) 2 = true → 1 ≤ e.w 3 ∧ e.w 3 ≤ 1000000000 ∧ 1 ≤ e.w 4 ∧ e.w 4 ≤ 1000000) ∧ (bit (bits (e.w 0) 16 4) 3 = true → (toSigned 64 (fieldAt e.cmd.payload 20 8)).natAbs ≤ rateBound) ∧
        (bit (bits (e.w 0) 16 4) 2 = true ∧ s.limits.maxStep < e.w 3)) .limitClamped
      (fun _ _ _ w => servoReply w.shadow.servo)
      (fun _ e s => let m := bits (e.w 0) 16 4
        let s1 := if bit m 0 then s.writeExpert .servo 0x4811 128 (Bank.srv fun p => { p with k := bits (e.w 0) 8 5 }) else s
        let s2 := if bit m 1 then s1.writeExpert .servo 0x4811 129 (Bank.srv fun p => { p with kp := e.w 1, ki := e.w 2 }) else s1
        let s3 := if bit m 2 then s2.writeExpert .servo 0x4811 130 (Bank.srv fun p => { p with stepThreshold := min (e.w 3) s.limits.maxStep, lockWindow := e.w 4 }) else s2
        if bit m 3 then (s3.writeExpert .servo 0x4811 131 (Bank.srv fun p => { p with rateWord := toSigned 64 (fieldAt e.cmd.payload 20 8) })).mark .servo 0x4811 else s3)) ∧
  (Completes .servoStatus 0x4012 true (fun _ e _ => e.len = 0) .ok
      (fun _ _ s _ => wordsLe [pack [(s.tb.state.code, 2), (s.active.servo.source.code, 2), (s.tb.clk.code, 2), (flag s.tb.timeValid, 1), (flag s.tb.stepBlocked, 1), (flag s.tb.rateLimited, 1), (flag s.tb.timerefOk, 1), (flag s.tb.refclkOk, 1),
          (flag (s.tb.refAligned && s.active.pps.refEnable), 1), (0, 4), (s.tb.lastCause, 8), (s.active.servo.k, 5)]] ++ offset64 s.tb.offset ++ leBytes 8 (ofSigned 64 s.tb.f) ++ leBytes 8 (ofSigned 64 s.holdRate) ++
        wordsLe [s.tb.updates, min ((s.now - s.tb.since) / msec 1) 0xFFFFFFFF] ++ timeWords s.tb.stateStamp)
      (fun _ _ s => s)) ∧
  (Completes .timerefConfig 0x4020 false (fun _ e _ => e.len = 4 ∧ rsvHigh (e.w 0) 2 = true) .ok
      (fun _ _ _ _ => [])
      (fun _ e s => s.modShadow (Bank.srv fun p => { p with timeref := bit (e.w 0) 0, timeref100 := bit (e.w 0) 1 }))) ∧
  (Completes .ppsInConfig 0x4023 false (fun _ e _ => e.len = 8 ∧ rsvHigh (e.w 0) 2 = true) .ok
      (fun _ _ _ _ => [])
      (fun _ e s => s.modShadow (Bank.srv fun p => { p with ppsIn := bit (e.w 0) 0, ppsFalling := bit (e.w 0) 1, cableDelay := toSigned 32 (e.w 1) }))) ∧
  (Completes .ppsOutConfig 0x4021 false (fun _ e _ => e.len = 16 ∧ rsv (e.w 0) 4 4 = true ∧ rsvHigh (e.w 0) 16 = true ∧ bits (e.w 0) 2 2 ≠ 3 ∧ 10 ≤ e.w 1 ∧ e.w 1 ≤ 50000000 ∧ -((msec 500 : Nat) : Int) ≤ toSigned 64 (fieldAt e.cmd.payload 8 8) ∧
        toSigned 64 (fieldAt e.cmd.payload 8 8) < ((msec 500 : Nat) : Int)) .ok
      (fun _ _ _ _ => [])
      (fun _ e s => s.modShadow fun k => { k with pps := { k.pps with enable := bit (e.w 0) 0, falling := bit (e.w 0) 1, gate := bits (e.w 0) 2 2, evtMask := bits (e.w 0) 8 8, width := e.w 1, offset := toSigned 64 (fieldAt e.cmd.payload 8 8) } })) ∧
  (Completes .refoutConfig 0x4022 false (fun _ e _ => e.len = 4 ∧ rsvHigh (e.w 0) 3 = true) .ok
      (fun _ _ s _ => wordsLe [flag (s.tb.refAligned && s.active.pps.refEnable)])
      (fun _ e s => let s1 := s.modShadow fun k => { k with pps := { k.pps with refEnable := bit (e.w 0) 0, ref100 := bit (e.w 0) 1 } }
        if bit (e.w 0) 2 = true then s1.mark .ppsOut 0x4022 else s1.unmark .ppsOut 0x4022)) ∧
  (∀ (n : Fin 8), Completes .ptpCorrConfig 0x4040 false (fun _ e s => idx? 8 (bits (e.w 0) 0 3) = some n ∧ e.len = 12 ∧ leadOf s.grouping n = n ∧ rsvHigh (e.w 0) 9 = true ∧ -1000000 ≤ toSigned 32 (e.w 1) ∧ toSigned 32 (e.w 1) ≤ 1000000 ∧
        -1000000 ≤ toSigned 32 (e.w 2) ∧ toSigned 32 (e.w 2) ≤ 1000000) .ok
      (fun _ _ _ _ => [])
      (fun _ e s => s.modShadow fun k => { k with port := upd k.port n fun x => { x with ptp := { toLine := bit (e.w 0) 3, toHost := bit (e.w 0) 4, eth := bit (e.w 0) 5, udp4 := bit (e.w 0) 6, udp6 := bit (e.w 0) 7, vlan := bit (e.w 0) 8, hostToPin := toSigned 32 (e.w 1), pinToHost := toSigned 32 (e.w 2) } } })) ∧
  (∀ (n : Fin 8), Completes .ptpCorrStatus 0x4041 true (fun _ e _ => idx? 8 (bits (e.w 0) 0 3) = some n ∧ e.len = 4 ∧ rsvHigh (e.w 0) 4 = true) .ok
      (fun _ _ s _ => wordsLe [n.val] ++ s.ports[n].ptpLine.record ++ s.ports[n].ptpHost.record)
      (fun _ e s => if bit (e.w 0) 3 = true then s.modPort n fun x => { x with ptpLine := { resLast := x.ptpLine.resLast }, ptpHost := { resLast := x.ptpHost.resLast } } else s))

/-- What happens at the events of the time base and of the PTP unit (R26, R95, R266, R268, R269, R279, R281 to R283, R317 to R320, R532). -/
def Obligations.TimeEvents : Prop :=
  (∀ (s : State) (t : Nat), (s.advanceTo t).atEpoch = true → s.tb.pending.step = none → s.tb.pending.hosts = [] → exec (.timeStepApply t) s = .next ((((s.advanceTo t).modTb fun b => { (if s.tb.pending.rate.isSome = true then b.keepPast (s.advanceTo t).now else b) with pending := {}, f := s.tb.pending.rate.getD b.f }).stampChange s.tb.pending.events).forEach (s.tb.pending.events.filter fun e => s.tb.pending.step.isNone || !ofStep e) fun e s => s.servoEvent e.1 e.2.1 e.2.2 0)) ∧
  (∀ (s : State) (t : Nat) (x : Int), (s.advanceTo t).atEpoch = true → s.tb.pending.step = some x → s.tb.pending.hosts = [] → exec (.timeStepApply t) s = .next (let s3 := (((((s.advanceTo t).modTb fun b => { (if s.tb.pending.rate.isSome = true then b.keepPast (s.advanceTo t).now else b) with pending := {}, f := s.tb.pending.rate.getD b.f }).stepTime x).logStep x 0).stampChange s.tb.pending.events).forEach (s.tb.pending.events.filter fun e => s.tb.pending.step.isNone || !ofStep e) fun e s => s.servoEvent e.1 e.2.1 e.2.2 0
        (s3.modTb fun b => { b with timeValid := b.timeValid || s.tb.pending.setsValid }).servoEvent (((s.tb.pending.events.find? ofStep).map Prod.fst).getD s3.tb.state) s3.tb.state 0x06 x)) ∧
  (∀ (s : State) (t : Nat), (s.advanceTo t).atEpoch = true → s.tb.pending.hosts ≠ [] → exec (.timeStepApply t) s = .next (let xs := (s.advanceTo t).waitingSteps
        let s3 := (((((s.advanceTo t).modTb fun b => { (if s.tb.pending.rate.isSome = true then b.keepPast (s.advanceTo t).now else b) with pending := {}, f := s.tb.pending.rate.getD b.f }).stepTime (xs.map Prod.fst).sum).forEach xs fun x s => s.logStep x.1 x.2).stampChange s.tb.pending.events).forEach (s.tb.pending.events.filter fun e => s.tb.pending.step.isNone || !ofStep e) fun e s => s.servoEvent e.1 e.2.1 e.2.2 0
        let s4 := match s.tb.pending.step with
          | some y => (s3.modTb fun b => { b with timeValid := b.timeValid || s.tb.pending.setsValid }).servoEvent (((s.tb.pending.events.find? ofStep).map Prod.fst).getD s3.tb.state) s3.tb.state 0x06 y
          | none => s3
        s4.forEach s.tb.pending.hosts fun h s => s.hostStepped h)) ∧
  (∀ (s : State) (h : Nat × Int × Bool), s.hostStepped h = (let s1 := s.modTb fun b => { b with stepBlocked := false, timeValid := true }
        let s2 := (if s.tb.state = .locked then s1.servoTo .acquire 0x08 else s1).modTb fun b => { b with pending := { b.pending with events := [] } }
        (s2.servoEvent s.tb.state s2.tb.state 0x08 h.2.1).complete h.1 (if h.2.2 = true then .limitClamped else .ok) (stepWords h.2.1))) ∧
  (∀ (s : State) (t : Nat), s.active.servo.source = .line → 2 ^ s.active.servo.k ≤ s.tb.markers → exec (.servoUpdate t) s = .next ((s.advanceTo t).servoUpdate State.lineUpdate)) ∧
  (∀ (s : State) (t : Nat), s.active.servo.source = .line → (s.advanceTo t).emptyDue = true → exec (.servoEmptyUpdate t) s = .next ((s.advanceTo t).servoUpdate fun s => s.endInterval.1.servoEmpty)) ∧
  (∀ (s : State) (t : Nat), (s.advanceTo t).ppsJudged = true → (s.advanceTo t).ppsAccepts (s.advanceTo t).ppsStamp = false → 
      exec (.ppsInEdge t) s = .next ((s.advanceTo t).modTb fun b => { b with ppsRejects := satAdd 32 b.ppsRejects 1 })) ∧
  (∀ (s : State) (t : Nat), (s.advanceTo t).ppsJudged = true → (s.advanceTo t).ppsAccepts (s.advanceTo t).ppsStamp = true → 
      exec (.ppsInEdge t) s = .next (let f := (s.advanceTo t).ppsStamp
        let s1 := (s.advanceTo t).modTb fun b => { b with ppsLast := some f, ppsBase := some f }
        let s2 := s1.forEach s1.edgeTakers fun e s => s.modTb fun b => b.hostStep e.seq (s.limitStep (((e.time 0).getD 0 : Int) - f)).1 (s.limitStep (((e.time 0).getD 0 : Int) - f)).2
        if s.active.servo.source = .pps then s2.servoUpdate fun s => s.servoOffset (ppsOffset f s.active.servo.cableDelay) false else s2)) ∧
  (∀ (s : State) (t b : Nat), s.tb.ppsBase = some b → (s.advanceTo t).ppsJudged = true → s.tb.state ≠ .holdover → (s.advanceTo t).pastTick (b + msec 1100) = true → 
      exec (.ppsWindowMissed t) s = .next (let s1 := (s.advanceTo t).modTb fun x => { x with ppsBase := some (b + secs 1) }
        if s.active.servo.source = .pps then s1.servoUpdate State.servoEmpty else s1)) ∧
  (∀ (s : State) (t : Nat), (s.advanceTo t).ppsJustSet = false → s.active.pps.enable = true → s.tb.running = true → (s.advanceTo t).atPpsInstant = true → gateOpen s.active.pps.gate s.tb.state = true → s.tb.ppsOut = false → s.tb.ppsTrailAt = none → 
      exec (.ppsOutEdge t) s = .next ((s.advanceTo t).modTb fun b => { b with ppsOut := true, ppsEdgeAt := max s.now t, ppsWidth := s.active.pps.width * nsec 10, ppsFalling := s.active.pps.falling, ppsMask := s.active.pps.evtMask })) ∧
  (∀ (s : State) (t : Nat), s.tb.ppsOut = true → s.tb.ppsEdgeAt + s.tb.ppsWidth ≤ max s.now t → exec (.ppsOutTrailing t) s = .next ((s.advanceTo t).modTb fun b => { b with ppsOut := false, ppsTrailAt := some (max s.now t) })) ∧
  (∀ (s : State) (t : Nat) (n : Fin 64) (tick : Nat) (edge : Int), (s.advanceTo t).atEpoch = true → (s.advanceTo t).applySteps.atEpoch = true → stampingIsland n = true → (s.advanceTo t).applySteps.onIslandClock n = true → (s.advanceTo t).applySteps.replicas[n].error = false → (s.advanceTo t).applySteps.replicas[n].hears (s.advanceTo t).applySteps.ticks tick = true → 
      exec (.timeBusEpochMessage t n (tick, edge)) s = .next { (s.advanceTo t).applySteps with replicas := (s.advanceTo t).applySteps.replicas.set n ((s.advanceTo t).applySteps.heardBy (s.advanceTo t).applySteps.replicas[n] tick edge) }) ∧
  (∀ (s : State) (t : Nat) (n : Fin 64) (tick : Nat) (edge : Int), (s.advanceTo t).atEpoch = true → (s.advanceTo t).applySteps.atEpoch = true → stampingIsland n = true → (s.advanceTo t).applySteps.onIslandClock n = true → (s.advanceTo t).applySteps.replicas[n].error = true → (s.advanceTo t).applySteps.replicas[n].hears (s.advanceTo t).applySteps.ticks tick = true → 
      exec (.timeBusEpochMessage t n (tick, edge)) s = .next ({ (s.advanceTo t).applySteps with replicas := (s.advanceTo t).applySteps.replicas.set n ((s.advanceTo t).applySteps.heardBy (s.advanceTo t).applySteps.replicas[n] tick edge) }.event 0xE021 0
        (wordsLe [pack [(n.val, 8), (0, 8), ((s.advanceTo t).applySteps.replicas[n].mismatches, 16)]] ++ (Stamp.mk (s.advanceTo t).applySteps.fnow true).bytes))) ∧
  (∀ (s : State) (t : Nat) (n : Fin 64) (tick : Nat) (edge : Int), (s.advanceTo t).atEpoch = true → (s.advanceTo t).applySteps.atEpoch = true → stampingIsland n = true → (s.advanceTo t).applySteps.onIslandClock n = true → (s.advanceTo t).applySteps.replicas[n].error = false → (s.advanceTo t).applySteps.replicas[n].hears (s.advanceTo t).applySteps.ticks tick = false → 
      exec (.timeBusEpochMessage t n (tick, edge)) s = .next ({ (s.advanceTo t).applySteps with replicas := (s.advanceTo t).applySteps.replicas.set n { (s.advanceTo t).applySteps.replicas[n] with error := true, mismatches := satAdd 16 (s.advanceTo t).applySteps.replicas[n].mismatches 1, heard := some ((tick : Int) - (s.advanceTo t).applySteps.ticks) } }.logEntry 0x0202 0 1 0xFFFF [n.val])) ∧
  (∀ (s : State) (t : Nat) (n : Fin 64) (tick : Nat) (edge : Int), (s.advanceTo t).atEpoch = true → (s.advanceTo t).applySteps.atEpoch = true → stampingIsland n = true → (s.advanceTo t).applySteps.onIslandClock n = true → (s.advanceTo t).applySteps.replicas[n].error = true → (s.advanceTo t).applySteps.replicas[n].hears (s.advanceTo t).applySteps.ticks tick = false → 
      exec (.timeBusEpochMessage t n (tick, edge)) s = .next { (s.advanceTo t).applySteps with replicas := (s.advanceTo t).applySteps.replicas.set n { (s.advanceTo t).applySteps.replicas[n] with error := true, mismatches := satAdd 16 (s.advanceTo t).applySteps.replicas[n].mismatches 1, heard := some ((tick : Int) - (s.advanceTo t).applySteps.ticks) } }) ∧
  (∀ (s : State) (t : Nat) (n : Fin 8) (m : Fin 16) (up : Bool) (f : List Byte) (a b : Crossing) (x : Bool) (h : Nat) (u : Option (Nat × Bool)), (if up = true then s.ports[leadOf s.grouping n].toLine.faulted else s.ports[leadOf s.grouping n].toHost.faulted) = false → (if up = true then s.active.port[leadOf s.grouping n].ptp.toLine else s.active.port[leadOf s.grouping n].ptp.toHost) = true → leadOf s.grouping (relayPort m) = leadOf s.grouping n → recognised s.active.port[leadOf s.grouping n].ptp f = some (h, u) → x = false → (((s.advanceTo t).lineTag n up a).valid && ((s.advanceTo t).hostTag m b).valid) = true → 0 ≤ residence up ((s.advanceTo t).lineTag n up a).time ((s.advanceTo t).hostTag m b).time (s.txFibre (.line n)) (s.rxFibre (.line n)) (psUnits s.active.port[leadOf s.grouping n].ptp.hostToPin) (psUnits s.active.port[leadOf s.grouping n].ptp.pinToHost) → residence up ((s.advanceTo t).lineTag n up a).time ((s.advanceTo t).hostTag m b).time (s.txFibre (.line n)) (s.rxFibre (.line n)) (psUnits s.active.port[leadOf s.grouping n].ptp.hostToPin) (psUnits s.active.port[leadOf s.grouping n].ptp.pinToHost) ≤ 327680000 → 
      exec (.ptpEventMessage t n m up f a b x) s = .next ((s.advanceTo t).modPort (leadOf s.grouping n) fun p =>
        let r := residence up ((s.advanceTo t).lineTag n up a).time ((s.advanceTo t).hostTag m b).time (s.txFibre (.line n)) (s.rxFibre (.line n)) (psUnits s.active.port[leadOf s.grouping n].ptp.hostToPin) (psUnits s.active.port[leadOf s.grouping n].ptp.pinToHost)
        let v := correct (correctionField f h) r
        let c := if up = true then s.ports[leadOf s.grouping n].ptpLine else s.ports[leadOf s.grouping n].ptpHost
        let y := { c with corrected := satAdd 48 c.corrected 1, saturated := satAdd 32 c.saturated (flag v.2), resLast := r.toNat, resMin := min c.resMin r.toNat, resMax := max c.resMax r.toNat }
        let o := rewrite f h u v.1
        let x := (frameBlocks f, frameBlocks o)
        let p := if o = f then p else if up = true then { p with patchLine := p.patchLine ++ [x] } else { p with patchHost := p.patchHost ++ [x] }
        if up = true then { p with ptpFrame := o, ptpLine := y } else { p with ptpFrame := o, ptpHost := y })) ∧
  (∀ (s : State) (t : Nat) (n : Fin 8) (m : Fin 16) (up : Bool) (f : List Byte) (a b : Crossing) (x : Bool) (h : Nat) (u : Option (Nat × Bool)), (if up = true then s.ports[leadOf s.grouping n].toLine.faulted else s.ports[leadOf s.grouping n].toHost.faulted) = false → (if up = true then s.active.port[leadOf s.grouping n].ptp.toLine else s.active.port[leadOf s.grouping n].ptp.toHost) = true → leadOf s.grouping (relayPort m) = leadOf s.grouping n → recognised s.active.port[leadOf s.grouping n].ptp f = some (h, u) → (x || decide (residence up ((s.advanceTo t).lineTag n up a).time ((s.advanceTo t).hostTag m b).time (s.txFibre (.line n)) (s.rxFibre (.line n)) (psUnits s.active.port[leadOf s.grouping n].ptp.hostToPin) (psUnits s.active.port[leadOf s.grouping n].ptp.pinToHost) < 0 ∨ 327680000 < residence up ((s.advanceTo t).lineTag n up a).time ((s.advanceTo t).hostTag m b).time (s.txFibre (.line n)) (s.rxFibre (.line n)) (psUnits s.active.port[leadOf s.grouping n].ptp.hostToPin) (psUnits s.active.port[leadOf s.grouping n].ptp.pinToHost)) || !(((s.advanceTo t).lineTag n up a).valid && ((s.advanceTo t).hostTag m b).valid)) = true → 
      exec (.ptpEventMessage t n m up f a b x) s = .next ((s.advanceTo t).modPort (leadOf s.grouping n) fun p =>
        let r := residence up ((s.advanceTo t).lineTag n up a).time ((s.advanceTo t).hostTag m b).time (s.txFibre (.line n)) (s.rxFibre (.line n)) (psUnits s.active.port[leadOf s.grouping n].ptp.hostToPin) (psUnits s.active.port[leadOf s.grouping n].ptp.pinToHost)
        let c := if up = true then s.ports[leadOf s.grouping n].ptpLine else s.ports[leadOf s.grouping n].ptpHost
        let y := { c with skipErrored := satAdd 32 c.skipErrored (flag x), skipRange := satAdd 32 c.skipRange (flag (decide (r < 0 ∨ 327680000 < r))), skipTag := satAdd 32 c.skipTag (flag (!(((s.advanceTo t).lineTag n up a).valid && ((s.advanceTo t).hostTag m b).valid))) }
        if up = true then { p with ptpFrame := f, ptpLine := y } else { p with ptpFrame := f, ptpHost := y })) ∧
  (∀ (s : State) (t : Nat) (n : Fin 8) (m : Fin 16) (up : Bool) (f : List Byte) (a b : Crossing) (x : Bool), recognised s.active.port[leadOf s.grouping n].ptp f = none → exec (.ptpEventMessage t n m up f a b x) s = .next (s.advanceTo t))

/-- The life of a commit (R36 to R42, R47, R89), and the end of a port fault (R254, R256). -/
def Obligations.SetsCommit : Prop :=
  (∀ (bs : List Block), Starts .apply 0x1010 false (fun _ e s => s.blocksAt e.cmd.payload 4 (bits (e.w 0) 0 16) = some bs ∧ e.len = 4 + 2 * bits (e.w 0) 0 16 ∧ 1 ≤ bits (e.w 0) 0 16 ∧ bits (e.w 0) 0 16 ≤ 128 ∧ rsvHigh (e.w 0) 16 = true ∧ s.commitRefused bs = none)
      (fun q e s => (s.lockFor bs 2 q e.cmd.tag).openCommit .apply q e bs (s.fnow + usec 8))) ∧
  (∀ (bs : List Block), Completes .apply 0x1010 false (fun _ e s => s.blocksAt e.cmd.payload 4 (bits (e.w 0) 0 16) = some bs ∧ e.len = 4 + 2 * bits (e.w 0) 0 16 ∧ 1 ≤ bits (e.w 0) 0 16 ∧ bits (e.w 0) 0 16 ≤ 128 ∧ rsvHigh (e.w 0) 16 = true ∧ s.namedPending bs = true) .resourceBusy
      (fun _ _ _ _ => [])
      (fun _ _ s => s)) ∧
  (∀ (bs : List Block), Completes .apply 0x1010 false (fun _ e s => s.blocksAt e.cmd.payload 4 (bits (e.w 0) 0 16) = some bs ∧ e.len = 4 + 2 * bits (e.w 0) 0 16 ∧ 1 ≤ bits (e.w 0) 0 16 ∧ bits (e.w 0) 0 16 ≤ 128 ∧ rsvHigh (e.w 0) 16 = true ∧ s.namedPending bs = false ∧ bs.any Block.acquires = true ∧ s.acquiring = true) .precondition
      (fun _ _ _ _ => [])
      (fun _ _ s => s)) ∧
  (∀ (bs : List Block) (tc : FTime), Completes .commit 0x1011 false (fun _ e s => e.time 0 = some tc ∧ s.blocksAt e.cmd.payload 16 (bits (e.w 3) 0 16) = some bs ∧ e.len = 16 + 2 * bits (e.w 3) 0 16 ∧ 1 ≤ bits (e.w 3) 0 16 ∧ bits (e.w 3) 0 16 ≤ 128 ∧ rsvHigh (e.w 3) 16 = true ∧
        tc ≤ s.fnow + secs 86400 ∧ (s.commits.filter Commit.pendingTimed).length < 4 ∧ s.namedPending bs = true) .resourceBusy
      (fun _ _ _ _ => [])
      (fun _ _ s => s)) ∧
  (∀ (bs : List Block) (tc : FTime), Completes .commit 0x1011 false (fun _ e s => e.time 0 = some tc ∧ s.blocksAt e.cmd.payload 16 (bits (e.w 3) 0 16) = some bs ∧ e.len = 16 + 2 * bits (e.w 3) 0 16 ∧ 1 ≤ bits (e.w 3) 0 16 ∧ bits (e.w 3) 0 16 ≤ 128 ∧ rsvHigh (e.w 3) 16 = true ∧
        tc ≤ s.fnow + secs 86400 ∧ (s.commits.filter Commit.pendingTimed).length < 4 ∧ s.namedPending bs = false ∧ bs.any Block.acquires = true ∧ s.acquiring = true) .precondition
      (fun _ _ _ _ => [])
      (fun _ _ s => s)) ∧
  (∀ (bs : List Block) (tc : FTime), Completes .commit 0x1011 false (fun _ e s => e.time 0 = some tc ∧ s.blocksAt e.cmd.payload 16 (bits (e.w 3) 0 16) = some bs ∧ e.len = 16 + 2 * bits (e.w 3) 0 16 ∧ 1 ≤ bits (e.w 3) 0 16 ∧ bits (e.w 3) 0 16 ≤ 128 ∧ rsvHigh (e.w 3) 16 = true ∧
        tc ≤ s.fnow + secs 86400 ∧ 4 ≤ (s.commits.filter Commit.pendingTimed).length) .resourceBusy
      (fun _ _ _ _ => [])
      (fun _ _ s => s)) ∧
  (∀ (bs : List Block) (tc : FTime), Completes .commit 0x1011 false (fun _ e s => e.time 0 = some tc ∧ s.blocksAt e.cmd.payload 16 (bits (e.w 3) 0 16) = some bs ∧ e.len = 16 + 2 * bits (e.w 3) 0 16 ∧ 1 ≤ bits (e.w 3) 0 16 ∧ bits (e.w 3) 0 16 ≤ 128 ∧ rsvHigh (e.w 3) 16 = true ∧
        tc < s.fnow + usec 8 ∧ tc ≤ s.fnow + secs 86400 ∧ (s.commits.filter Commit.pendingTimed).length < 4 ∧ s.commitRefused bs = none) .precondition
      (fun _ _ _ _ => [])
      (fun _ _ s => s)) ∧
  (∀ (bs : List Block) (tc : FTime), Starts .commit 0x1011 false (fun _ e s => e.time 0 = some tc ∧ s.blocksAt e.cmd.payload 16 (bits (e.w 3) 0 16) = some bs ∧ e.len = 16 + 2 * bits (e.w 3) 0 16 ∧ 1 ≤ bits (e.w 3) 0 16 ∧ bits (e.w 3) 0 16 ≤ 128 ∧ rsvHigh (e.w 3) 16 = true ∧
        s.fnow + usec 8 ≤ tc ∧ tc ≤ s.fnow + secs 86400 ∧ (s.commits.filter Commit.pendingTimed).length < 4 ∧ s.commitRefused bs = none)
      (fun q e s => (s.lockFor bs 3 q e.cmd.tag).openCommit .commit q e bs tc)) ∧
  (∀ (c : Commit), Completes .commitCancel 0x1012 true (fun _ e s => e.len = 4 ∧ bits (e.w 0) 16 2 ≠ 1 ∧ rsvHigh (e.w 0) 18 = true ∧ (s.commits.find? fun x => decide (x.kind = .commit) && x.pendingTimed && decide (x.tag = bits (e.w 0) 0 16 ∧ x.queue.num = bits (e.w 0) 16 2)) = some c ∧ s.beforeTc c = true ∧ c.settled = true) .ok
      (fun _ _ _ _ => [])
      (fun _ _ s => (s.dropCommit c.id).commitDone c .discarded none)) ∧
  (∀ (c : Commit), Completes .commitCancel 0x1012 true (fun _ e s => e.len = 4 ∧ bits (e.w 0) 16 2 ≠ 1 ∧ rsvHigh (e.w 0) 18 = true ∧ (s.commits.find? fun x => decide (x.kind = .commit) && x.pendingTimed && decide (x.tag = bits (e.w 0) 0 16 ∧ x.queue.num = bits (e.w 0) 16 2)) = some c ∧ s.beforeTc c = true ∧ c.settled = false) .ok
      (fun _ _ _ _ => [])
      (fun _ _ s => s.modCommit c.id fun c => { c with cancelled := true })) ∧
  (∀ (c : Commit), Completes .commitCancel 0x1012 true (fun _ e s => e.len = 4 ∧ bits (e.w 0) 16 2 ≠ 1 ∧ rsvHigh (e.w 0) 18 = true ∧ (s.commits.find? fun x => decide (x.kind = .commit) && x.pendingTimed && decide (x.tag = bits (e.w 0) 0 16 ∧ x.queue.num = bits (e.w 0) 16 2)) = some c ∧ s.beforeTc c = false) .precondition
      (fun _ _ _ _ => [])
      (fun _ _ s => s)) ∧
  (Completes .commitCancel 0x1012 true (fun _ e s => e.len = 4 ∧ bits (e.w 0) 16 2 ≠ 1 ∧ rsvHigh (e.w 0) 18 = true ∧
        ∀ c ∈ s.commits, ¬ (c.kind = .commit ∧ c.pendingTimed = true ∧ c.tag = bits (e.w 0) 0 16 ∧ c.queue.num = bits (e.w 0) 16 2)) .precondition
      (fun _ _ _ _ => [])
      (fun _ _ s => s)) ∧
  (∀ (s : State) (t i : Nat) (bs : List Block) (c : Commit) (x : Status) (b : Block), s.commitOf i = some c → (s.advanceTo t).beforeTc c = true → (c.blocks.any fun k => bs.contains k.block && !k.validated) = true → (s.advanceTo t).firstFailure c bs = some (x, b) → 
      exec (.snapshotValidate t i bs) s = .next ((s.advanceTo t).failBefore c x (some b))) ∧
  (∀ (s : State) (t i : Nat) (bs : List Block) (c : Commit), s.commitOf i = some c → (s.advanceTo t).beforeTc c = true → (c.blocks.any fun k => bs.contains k.block && !k.validated) = true → (s.advanceTo t).firstFailure c bs = none → 
      exec (.snapshotValidate t i bs) s = .next (((s.advanceTo t).modCommit i fun c => { c with blocks := c.blocks.map fun k => if bs.contains k.block then { k with validated := true } else k }).settleCommit i)) ∧
  (∀ (s : State) (t i : Nat) (c : Commit) (y : CommitBlock), s.commitOf i = some c → (c.blocks.find? fun k => !k.validated) = some y → c.kind = .apply → (s.advanceTo t).beforeTc c = false → 
      exec (.applyTcReached t i) s = .next ((s.advanceTo t).failBefore c .precondition (some y.block))) ∧
  (∀ (s : State) (t i : Nat) (c : Commit), s.commitOf i = some c → c.kind = .commit → c.settled = false → (s.advanceTo t).pastCmd (c.at' + msec 1) = true → 
      exec (.commitValidationTimeout t i) s = .next ((s.advanceTo t).failBefore c .timeout none)) ∧
  (∀ (s : State) (t : Nat) (b : Block) (g : Bool), (s.advanceTo t).atBoundary b = true → g = true ∨ ((s.advanceTo t).commits.filter ((s.advanceTo t).due b)) = [] → 
      exec (.blockCommit t b g) s = .next ((if b = .ppsOut then (s.advanceTo t).ppsEdge else s.advanceTo t).boundary b)) ∧
  (∀ (s : State) (t : Nat) (b : Block) (c : Commit), (s.advanceTo t).atBoundary b = true → ((s.advanceTo t).commits.filter ((s.advanceTo t).due b)).getLast? = some c → 
      exec (.blockCommit t b false) s = .next ((s.advanceTo t).failCommit c.id b)) ∧
  (∀ (s : State) (t : Nat) (b : Block), (s.advanceTo t).atBoundary b = true → exec (.blockRevert t b) s = .next ((s.advanceTo t).revertBlock b).finishAll) ∧
  (∀ (s : State) (t : Nat) (p : Fin 8) (up : Bool), leadOf s.grouping p = p → (s.advanceTo t).mayClear p up = true → exec (.portFaultClear t p up) s = .next (((s.advanceTo t).modPort p fun x =>
        if up = true then { x with toLine := { faulted := false, causes := 0, clearSince := none } } else { x with toHost := { faulted := false, causes := 0, clearSince := none } }).portEvent
          p up false (if up = true then s.ports[p].toLine else s.ports[p].toHost).causes)) ∧
  (∀ (s : State) (t : Nat) (p : Fin 8) (up : Bool), (s.advanceTo t).mayClear p up = false → exec (.portFaultClear t p up) s = .next (s.advanceTo t))

/-- Reading, reloading and releasing sets, and releasing owned resources (R51, R103 to R105, R108). -/
def Obligations.SetsReadAndReleased : Prop :=
  (∀ (b : Block), Completes .setRead 0x1013 true (fun _ e s => s.blocksAt e.cmd.payload 0 1 = some [b] ∧ e.len = 8 ∧ bits (e.w 0) 16 2 ≠ 3 ∧ bits (bits (e.w 0) 0 16) 0 8 ≠ 0xFF ∧ e.w 1 % 4 = 0 ∧ e.w 1 < (s.image (if bits (e.w 0) 16 2 = 0 then s.shadow else if bits (e.w 0) 16 2 = 1 then s.activeClamped else s.previous) b).length ∧ rsvHigh (e.w 0) 18 = true) .ok
      (fun _ e s _ => let k := (if bits (e.w 0) 16 2 = 0 then s.shadow else if bits (e.w 0) 16 2 = 1 then s.activeClamped else s.previous)
        let m := s.meta b
        wordsLe [pack [(bits (e.w 0) 0 16, 16), (bits (e.w 0) 16 2, 2), (flag (decide (bits (e.w 0) 16 2 ≠ 2) || m.previousValid), 1)], pack [(s.pinCount k b, 16), (m.pinnedSkips, 16)], (s.image k b).length, e.w 1] ++
          (if bits (e.w 0) 16 2 = 0 then ⟨0, false⟩ else if bits (e.w 0) 16 2 = 1 then m.activeStamp else m.previousStamp : Stamp).bytes ++ ((s.image k b).drop (e.w 1)).take 976)
      (fun _ _ s => s)) ∧
  (∀ (bs : List Block), Completes .shadowReset 0x1014 false (fun _ e s => s.blocksAt e.cmd.payload 0 1 = some bs ∧ e.len = 4 ∧ rsvHigh (e.w 0) 16 = true) .ok
      (fun _ _ _ _ => [])
      (fun _ _ s => s.forEach bs fun b s => s.modShadow (Bank.copy b s.active))) ∧
  (∀ (bs : List Block), Completes .expertRelease 0x1022 false (fun _ e s => s.blocksAt e.cmd.payload 0 1 = some bs ∧ e.len = 24 ∧ rsvHigh (e.w 0) 18 = true ∧ rsvHigh (e.w 1) 16 = true ∧ (bit (e.w 0) 16 = true ∨ ∀ b ∈ bs, bits (e.w 1) 0 16 ∈ expertOps b)) .ok
      (fun _ e s _ => wordsLe [pack [(min (bs.foldl (fun (a : State × Nat) b => ((a.1.releaseBlock ({ all := bit (e.w 0) 16, op := bits (e.w 1) 0 16, scalars := bit (e.w 0) 17, mask := fieldAt e.cmd.payload 8 16 } : Selection) b).1, a.2 + (a.1.releaseBlock ({ all := bit (e.w 0) 16, op := bits (e.w 1) 0 16, scalars := bit (e.w 0) 17, mask := fieldAt e.cmd.payload 8 16 } : Selection) b).2)) (s, 0)).2 65535, 16)]])
      (fun _ e s => (bs.foldl (fun (a : State × Nat) b => ((a.1.releaseBlock ({ all := bit (e.w 0) 16, op := bits (e.w 1) 0 16, scalars := bit (e.w 0) 17, mask := fieldAt e.cmd.payload 8 16 } : Selection) b).1, a.2 + (a.1.releaseBlock ({ all := bit (e.w 0) 16, op := bits (e.w 1) 0 16, scalars := bit (e.w 0) 17, mask := fieldAt e.cmd.payload 8 16 } : Selection) b).2)) (s, 0)).1)) ∧
  (∀ (r : Fin 41), Completes .ownerRelease 0x1041 false (fun _ e s => resourceIndex (bits (e.w 0) 0 8) = some r ∧ e.len = 4 ∧ rsvHigh (e.w 0) 8 = true ∧ s.resourceUsed r = false) .ok
      (fun _ _ _ _ => [])
      (fun _ _ s => { s with owners := s.owners.set r {} })) ∧
  (∀ (r : Fin 41), Completes .ownerRelease 0x1041 false (fun _ e s => resourceIndex (bits (e.w 0) 0 8) = some r ∧ e.len = 4 ∧ rsvHigh (e.w 0) 8 = true ∧ s.resourceUsed r = true) .precondition
      (fun _ _ _ _ => [])
      (fun _ _ s => s))

/-- The commands of the host lanes (R220, R224 to R227, R233, R247, R257, R259). Adapted values in force are free values (log entry 6). -/
def Obligations.HostCommands : Prop :=
  (Completes .hostMode 0x3000 false (fun _ e _ => e.len = 4 ∧ bits (e.w 0) 16 2 ≤ 2 ∧ rsvHigh (e.w 0) 20 = true) .ok
      (fun _ _ _ _ => [])
      (fun _ e s => s.forEach e.hosts fun n s => s.modShadow (Bank.hl n fun p => { p with target := bits (e.w 0) 16 2, relay := bit (e.w 0) 18, enable := bit (e.w 0) 19 }))) ∧
  (Completes .hostState 0x3001 true (fun _ e _ => e.len = 4 ∧ rsvHigh (e.w 0) 16 = true) .ok
      (fun _ e s _ => wordsLe (e.hosts.flatMap s.hostStateWords))
      (fun _ _ s => s)) ∧
  (Completes .hostEq 0x3010 false (fun _ e _ => e.len = 4 ∧ bits (e.w 0) 16 2 ≤ 2 ∧ rsvHigh (e.w 0) 18 = true ∧ e.hosts ≠ []) .ok
      (fun _ e s _ => s.hostEqInForce (e.hosts.headD 0) s.free)
      (fun _ e s => s.draw.2.forEach e.hosts fun n s => s.modShadow (Bank.hl n fun p => { p with adapt := bits (e.w 0) 16 2 }))) ∧
  (Completes .hostEqExpert 0x3810 false (fun _ e _ => e.len = 48 ∧ rsvHigh (e.w 0) 16 = true ∧ rsv (e.w 2) 8 8 = true ∧ rsv (e.w 2) 21 3 = true ∧ rsvHigh (e.w 2) 27 = true ∧ rsv (e.w 3) 10 6 = true ∧ rsvHigh (e.w 3) 20 = true ∧
        ((List.range 16).all fun j => rsv (fieldAt e.cmd.payload (16 + 2 * j) 2) 10 6) = true ∧
        (bit (bits (e.w 3) 16 4) 0 = true → hostTapsValid (Vector.ofFn fun j => toSigned 8 (fieldAt e.cmd.payload (4 + j.val) 1)) = true) ∧ e.hosts ≠ []) .ok
      (fun _ e s _ => s.hostEqInForce (e.hosts.headD 0) s.free)
      (fun _ e s => s.draw.2.forEach e.hosts fun n s =>
        let s := if bit (bits (e.w 3) 16 4) 0 = true then s.forEach (List.finRange 5) fun j s => s.writeExpert (.host n) 0x3810 (128 + j.val) (Bank.hl n fun x => { x with taps := x.taps.set j (toSigned 8 (fieldAt e.cmd.payload (4 + j.val) 1)) }) else s
        let s := if bit (bits (e.w 3) 16 4) 1 = true then (s.writeExpert (.host n) 0x3810 133 (Bank.hl n fun x => { x with ctlePeak := bits (e.w 2) 16 5 })).writeExpert (.host n) 0x3810 134 (Bank.hl n fun x => { x with ctleDc := bits (e.w 2) 24 3 }) else s
        let s := if bit (bits (e.w 3) 16 4) 2 = true then s.writeExpert (.host n) 0x3810 135 (Bank.hl n fun x => { x with dfe := toSigned 10 (bits (e.w 3) 0 10) }) else s
        if bit (bits (e.w 3) 16 4) 3 = true then s.forEach (List.finRange 16) fun j s => s.writeExpert (.host n) 0x3810 j.val (Bank.hl n fun x => { x with rxFfe := x.rxFfe.set j (toSigned 10 (fieldAt e.cmd.payload (16 + 2 * j.val) 2)) }) else s)) ∧
  (∀ (n : Fin 16), Completes .hostLoop 0x3020 false (fun _ e _ => idx? 16 (bits (e.w 0) 0 4) = some n ∧ e.len = 4 ∧ rsv (e.w 0) 4 4 = true ∧ rsvHigh (e.w 0) 10 = true) .ok
      (fun _ _ _ _ => [])
      (fun _ e s => (s.modShadow (Bank.hl n fun p => { p with loop := bits (e.w 0) 8 2 })).mark (.host n) 0x3020)) ∧
  (Completes .hostRef 0x3030 false (fun _ e _ => e.len = 4 ∧ rsvHigh (e.w 0) 1 = true) .ok
      (fun _ _ _ _ => [])
      (fun _ e s => s.forEach (List.finRange 16) fun n s => s.modShadow (Bank.hl n fun p => { p with hostref := bit (e.w 0) 0 }))) ∧
  (∀ (n : Fin 8), Completes .portFaultMode 0x3040 false (fun _ e s => idx? 8 (bits (e.w 0) 0 3) = some n ∧ e.len = 4 ∧ leadOf s.grouping n = n ∧ rsv (e.w 0) 3 5 = true ∧ rsv (e.w 0) 9 7 = true) .ok
      (fun _ _ _ _ => [])
      (fun _ e s => s.modShadow fun k => { k with port := upd k.port n fun x => { x with squelchMode := bit (e.w 0) 8, clearHold := bits (e.w 0) 16 16 } })) ∧
  (Completes .hostCounters 0x3050 true (fun _ e _ => e.len = 4 ∧ rsvHigh (e.w 0) 25 = true) .ok
      (fun _ e s _ => let x := (s.forEach e.hosts fun n s => s.hostTested n); x.stampMgmt.bytes ++ e.hosts.flatMap x.hostRecord ++ (maskIdx 8 (bits (e.w 0) 16 8)).flatMap x.matchRecord)
      (fun _ e s => let x := (s.forEach e.hosts fun n s => s.hostTested n)
        if bit (e.w 0) 24 = true then
        (x.forEach e.hosts fun n s => { s.modHost n fun h => { h with trainings := 0, recovers := 0, markerLosses := 0, bitsChecked := 0, prbsErrors := 0 } with relays := upd s.relays n fun l => { l with cnt := { l.cnt with recovers := 0, markersMissing := 0, prbsBits := 0, prbsErrors := 0 } } }).forEach
          (maskIdx 8 (bits (e.w 0) 16 8)) fun n s => s.modPort n fun p => { p with insLine := 0, delLine := 0, insHost := 0, delHost := 0, matchOverruns := 0, portFaults := 0 }
      else x))

/-- The states of a host lane in AUI mode and the events of its receiver (R223, R225, R228 to R230, R236, R238, R241). -/
def Obligations.HostLanesMove : Prop :=
  (∀ (s : State) (t : Nat) (n : Fin 16) (hr : Bool), s.hosts[n].state = .dark → s.isRelay n = false → s.onIslandClock (LaneRef.relay n).island = true → 
      exec (.hostSignalDetect t n hr) s = .next ((((s.advanceTo t).modHost n fun h => { h with sigDetect := true }).hostrefBack n hr).hostTo n .train 0 0x01)) ∧
  (∀ (s : State) (t : Nat) (n : Fin 16), s.hosts[n].state = .train → s.isRelay n = false → exec (.hostTrainingComplete t n) s = .next (if s.hosts[n].rate < s.active.host[n].target then
        ((s.advanceTo t).hostTo n .step s.hosts[n].rate 0x01).modHost n fun h => { h with stepSince := some (max s.now t) }
      else (s.advanceTo t).hostTo n (if s.active.host[n].target = 2 then .align else .test) s.hosts[n].rate 0x01)) ∧
  (∀ (s : State) (t : Nat) (n : Fin 16) (c : Nat), s.hosts[n].stepSince = some c → s.hosts[n].state = .step → c + usec 100 ≤ max s.now t → (s.advanceTo t).hostBoundary n = true → 
      exec (.hostRateStep t n) s = .next (((s.advanceTo t).modHost n fun h => { h with txRate := h.rate + 1, stepSince := none }).alignHost n)) ∧
  (∀ (s : State) (t : Nat) (n : Fin 16), s.hosts[n].state = .step → s.hosts[n].txRate = s.hosts[n].rate + 1 → exec (.hostRxLocked t n) s = .next ((s.advanceTo t).hostTo n .train (s.hosts[n].rate + 1) 0x01)) ∧
  (∀ (s : State) (t : Nat) (n : Fin 16) (bad : Bool) (skew : Nat), s.hosts[n].state = .align ∨ s.hosts[n].state = .active → s.isRelay n = false → exec (.hostAlignComplete t n bad skew) s = .next (let s1 := (s.advanceTo t).modPort (relayPort n) fun p => { p with laneMap := bad, hostDeskew := decide (250 < skew) }
        ((if s.hosts[n].state = .align ∧ bad = false ∧ skew ≤ 250 then s1.hostTo n .active s.hosts[n].rate 0x01 else s1).hostAlign (leadOf s.grouping (relayPort n))).judgePorts)) ∧
  (∀ (s : State) (t : Nat) (n : Fin 16) (what : HostLoss), s.hosts[n].state = .active → s.isRelay n = false → exec (.hostLaneLoss t n what) s = .next ((((s.advanceTo t).modHost n fun h => { h with sigDetect := h.sigDetect && decide (what ≠ .signal), quietQualified := false, markerLosses := if what = .marker then satAdd 32 h.markerLosses 1 else h.markerLosses }).modPort (leadOf s.grouping (relayPort n)) fun p => { p with hostAligned := false }).hostTo n .recover s.hosts[n].rate what.exit)) ∧
  (∀ (s : State) (t : Nat) (n : Fin 16), s.hosts[n].state = .train ∨ s.hosts[n].state = .step ∨ s.hosts[n].state = .align ∨ s.hosts[n].state = .test → s.isRelay n = false → 
      exec (.hostLaneLoss t n .signal) s = .next (((s.advanceTo t).modHost n fun h => { h with sigDetect := false, quietQualified := false }).hostTo n .dark 0 0x03)) ∧
  (∀ (s : State) (t : Nat) (n : Fin 16), s.hosts[n].state = .recover → exec (.hostRecoverRestored t n) s = .next ((((s.advanceTo t).hostTo n .active s.hosts[n].rate 0x01).hostAlign (leadOf s.grouping (relayPort n))).judgePorts)) ∧
  (∀ (s : State) (t : Nat) (n : Fin 16) (d : Nat), hostTimeout s.hosts[n].state s.hosts[n].rate = some d → (s.advanceTo t).pastHost n (s.hosts[n].since + d) = true → 
      exec (.hostLaneTimeout t n) s = .next (((s.advanceTo t).modHost n fun h => { h with retries := min (h.retries + 1) 255 }).hostTo n .dark 0 0x02)) ∧
  (∀ (s : State) (t : Nat) (n : Fin 16) (tap : Fin 5) (d : Int), s.hosts[n].state = .train → exec (.hostTrainingRequest t n tap d) s = .next ({ s.advanceTo t with free := s.free + 1 }.modHost n fun h =>
        let taps := s.hosts[n].taps.set tap (s.hosts[n].taps[tap] + d)
        let ok := hostTapsValid taps && !s.active.pinned (.host n) 0x3810 (128 + tap.val) && decide (s.active.host[n].adapt = 0)
        { h with taps := if ok = true then taps else h.taps, updated := ok, ask := hostAsk s.free })) ∧
  (∀ (s : State) (t : Nat) (n : Fin 16) (tap : Fin 5) (d : Int), s.hosts[n].state ≠ .train → exec (.hostTrainingRequest t n tap d) s = .next (s.advanceTo t)) ∧
  (∀ (s : State) (t : Nat), s.active.host[(0 : Fin 16)].hostref = true → exec (.hostrefLost t) s = .next (let s1 := (s.advanceTo t).forEach ((List.finRange 16).filter fun n => s.active.host[n].enable) fun n s => s.modHost n fun h => { h with onRefclk := true }
        State.logEntry { s1 with tb := { s1.tb with hostrefLost := true } } 0x0303 0 1 0xFFFF [])) ∧
  (∀ (s : State) (t : Nat) (n : Fin 8) (up : Bool), exec (.matchOverrun t n up) s = .next ((((((s.advanceTo t).markMatch n up).modPort n fun p => { p with matchOverruns := satAdd 32 p.matchOverruns 1, overLine := up, overHost := !up }).judgePorts).modPort n fun p => { p with overLine := false, overHost := false }).judgePorts))

/-- What each frame type does where it arrives, and where an accepted frame goes (R328, R329, R332, R336, R339, R342, R346 to R351). The meaning of a row at its destination is the named function. -/
def Obligations.RillFramesTaken : Prop :=
  (Takes .rillCommand (ofType 1) (fun _ => takeCommand)) ∧
  (Takes .rillReply (ofType 2) (fun _ => takeReply)) ∧
  (Takes .rillEvent (ofType 3) (fun _ => takeEvent)) ∧
  (Takes .probe (ofType 4) (fun p f s => s.answerFrame f 5 (s.probeBody p.val))) ∧
  (Takes .probeAnswer (ofType 5) (fun _ => takeProbeAnswer)) ∧
  (Takes .assign (ofType 6) takeAssign) ∧
  (Takes .assignAnswer (ofType 7) (fun _ => takeAssignAnswer)) ∧
  (∀ (s : State) (t : Nat) (p : Fin 16) (f : Frame), s.rill.staging = none → s.rill.links[p].accepted = some f → ofOp 8 1 f = true → exec (.epStage t p) s = .next (takeStage f ((s.advanceTo t).modLink p fun l => { l with accepted := none }))) ∧
  (∀ (s : State) (t : Nat) (p : Fin 16) (g : Staging) (n : Nat), s.rill.staging = some g → g.status = some n → exec (.epStage t p) s = .next (((s.advanceTo t).modRill fun r => { r with staging := none }).stageNow g.frame n)) ∧
  (Takes .epCommit (ofOp 8 2) (fun _ => takeEpCommit)) ∧
  (Takes .epAbort (ofOp 8 3) (fun _ => takeEpAbort)) ∧
  (Takes .epRevert (ofOp 8 4) (fun _ => takeEpRevert)) ∧
  (Takes .epQuery (ofOp 8 5) (fun _ f s => s.answerCurrent f (bits (wordAt f.body 0) 16 16) 5)) ∧
  (Takes .epochAnswer (ofType 9) (fun _ => takeEpochAnswer)) ∧
  (Takes .fwSelect (ofOp 0xA 1) (fun _ => takeSelect)) ∧
  (Takes .fwBlock (ofOp 0xA 2) (fun _ => takeBlock)) ∧
  (Takes .fwQuery (ofOp 0xA 3) (fun _ => takeQuery)) ∧
  (∀ (key : Option (Fin 4)) (good same : Bool), Takes (fun t p => .fwEnd t p key good same) (ofOp 0xA 4) fun _ => takeEnd key good same) ∧
  (Takes .fwAnswer (ofType 0xB) (fun _ => takeFwAnswer)) ∧
  (Takes .undelivered (ofType 0xC) (fun _ f s => s.lost f.xtag)) ∧
  (∀ (s : State) (p : Fin 16) (f f2 : Frame) (outs : List (Fin 16)), s.judgeFrame p f = .keep f2 outs → ((outs.isEmpty || (f2.bcast && !f2.up)) = false ∨ s.rill.links[p].accepted = none) → outs.all (fun o => decide (s.rill.links[o].queue.length < 16)) = true → 
      s.acceptFrame p f = (let ok := s.modLink p fun l => { l.acks ((f.lseq + 1) % 256) false with rxSeq := (f.lseq + 1) % 256 }
        let s1 := (if f.ftype = 7 ∧ f.hopPtr = f.hops ∧ bits (wordAt f.body 0) 0 16 = 0 then ok.modRill fun r => { r with children := r.children ||| 2 ^ p.val } else ok).forEach outs fun o s => s.forward f2 o
        if ((outs.isEmpty || (f2.bcast && !f2.up)) && f2.listed) = true then s1.modLink p fun l => { l with accepted := some { f2 with slot := none } } else s1)) ∧
  (∀ (s : State) (p : Fin 16) (f f2 : Frame) (outs : List (Fin 16)), s.judgeFrame p f = .keep f2 outs → (((outs.isEmpty || (f2.bcast && !f2.up)) = true ∧ s.rill.links[p].accepted ≠ none) ∨ outs.all (fun o => decide (s.rill.links[o].queue.length < 16)) = false) → 
      s.acceptFrame p f = s.modLink p fun l => l.acks f.lseq true) ∧
  (∀ (s : State) (p : Fin 16) (f f2 : Frame), s.judgeFrame p f = .drop f2 → s.acceptFrame p f = (let ok := s.modLink p fun l => { l.acks ((f.lseq + 1) % 256) false with rxSeq := (f.lseq + 1) % 256 }
        ok.dropUp f2)) ∧
  (∀ (s : State) (p : Fin 16) (f f2 : Frame) (reason : Nat), s.judgeFrame p f = .undelivered f2 reason → s.acceptFrame p f = (let ok := s.modLink p fun l => { l.acks ((f.lseq + 1) % 256) false with rxSeq := (f.lseq + 1) % 256 }
        ok.undeliver f2 reason)) ∧
  (∀ (s : State) (p : Fin 16) (f : Frame), s.judgeFrame p f = .silent → s.acceptFrame p f = s.modLink p fun l => { l.acks ((f.lseq + 1) % 256) false with rxSeq := (f.lseq + 1) % 256 })

/-- Delivery hop by hop (R332 to R337). -/
def Obligations.RillDelivers : Prop :=
  (∀ (s : State) (t : Nat) (p : Fin 16) (bs : List Byte), s.rill.links[p].rxFrame = some bs → s.active.rill.enable = false ∨ s.sys.fw.recovery = true → 
      exec (.rillFrameReceive t p) s = .next ((s.advanceTo t).modLink p fun l => { l with rxFrame := none })) ∧
  (∀ (s : State) (t : Nat) (p : Fin 16) (bs : List Byte), s.rill.links[p].rxFrame = some bs → s.active.rill.enable = true → s.sys.fw.recovery = false → bs.length < 8 ∨ 1040 < bs.length ∨ bs.length % 4 ≠ 0 ∨ crcGood bs = false → 
      exec (.rillFrameReceive t p) s = .next (((s.advanceTo t).modLink p fun l => { l with rxFrame := none }).modRill fun r => { r with crcDrops := satAdd 32 r.crcDrops 1 })) ∧
  (∀ (s : State) (t : Nat) (p : Fin 16) (bs : List Byte), s.rill.links[p].rxFrame = some bs → s.active.rill.enable = true → s.sys.fw.recovery = false → 8 ≤ bs.length → bs.length ≤ 1040 → bs.length % 4 = 0 → crcGood bs = true → (Frame.ofBytes bs).ftype = 0 → 
      exec (.rillFrameReceive t p) s = .next (if bs.length = 8 then ((s.advanceTo t).modLink p fun l => { l with rxFrame := none }).modLink p fun l => { l with ackIn := some ((Frame.ofBytes bs).lseq, bit (wordAt bs 0) 16) }
        else ((s.advanceTo t).modLink p fun l => { l with rxFrame := none }).modRill fun r => { r with formatDrops := satAdd 32 r.formatDrops 1 })) ∧
  (∀ (s : State) (t : Nat) (p : Fin 16) (bs : List Byte), s.rill.links[p].rxFrame = some bs → s.active.rill.enable = true → s.sys.fw.recovery = false → 8 ≤ bs.length → bs.length ≤ 1040 → bs.length % 4 = 0 → crcGood bs = true → (Frame.ofBytes bs).ftype ≠ 0 → (Frame.ofBytes bs).resync = false → (Frame.ofBytes bs).lseq ≠ s.rill.links[p].rxSeq → 
      exec (.rillFrameReceive t p) s = .next (((s.advanceTo t).modLink p fun l => { l with rxFrame := none }).modLink p fun l => { l with ack := some (l.lastAck.getD (l.rxSeq, false)) })) ∧
  (∀ (s : State) (t : Nat) (p : Fin 16) (bs : List Byte), s.rill.links[p].rxFrame = some bs → s.active.rill.enable = true → s.sys.fw.recovery = false → 8 ≤ bs.length → bs.length ≤ 1040 → bs.length % 4 = 0 → crcGood bs = true → (Frame.ofBytes bs).ftype ≠ 0 → (Frame.ofBytes bs).resync = true ∨ (Frame.ofBytes bs).lseq = s.rill.links[p].rxSeq → (Frame.ofBytes bs).badFormat bs.length = true → 
      exec (.rillFrameReceive t p) s = .next ((((s.advanceTo t).modLink p fun l => { l with rxFrame := none }).modLink p fun l => { l with rxSeq := ((Frame.ofBytes bs).lseq + 1) % 256, ack := some (((Frame.ofBytes bs).lseq + 1) % 256, false), lastAck := some (((Frame.ofBytes bs).lseq + 1) % 256, false) }).modRill fun r =>
        { r with formatDrops := satAdd 32 r.formatDrops 1 })) ∧
  (∀ (s : State) (t : Nat) (p : Fin 16) (bs : List Byte), s.rill.links[p].rxFrame = some bs → s.active.rill.enable = true → s.sys.fw.recovery = false → 8 ≤ bs.length → bs.length ≤ 1040 → bs.length % 4 = 0 → crcGood bs = true → (Frame.ofBytes bs).ftype ≠ 0 → (Frame.ofBytes bs).resync = true ∨ (Frame.ofBytes bs).lseq = s.rill.links[p].rxSeq → (Frame.ofBytes bs).badFormat bs.length = false → 
      exec (.rillFrameReceive t p) s = .next (((s.advanceTo t).modLink p fun l => { l with rxFrame := none }).acceptFrame p (Frame.ofBytes bs))) ∧
  (∀ (s : State) (t : Nat) (p : Fin 16) (seq : Nat) (busy : Bool), s.rill.links[p].ackIn = some (seq, busy) → exec (.ack t p) s = .next ((((s.advanceTo t).modLink p fun l =>
        let l1 : Link := { l with ackIn := none }.drop (s.rill.links[p].acked seq); if busy = true ∧ l1.window ≠ [] then l1.held (max s.now t) else l1).forEach
        (s.rill.links[p].window.take (s.rill.links[p].acked seq)) fun x s => s.freeSlot x.1).drainOutbox)) ∧
  (∀ (s : State) (t : Nat) (p : Fin 16) (f : Frame) (left : Nat), s.rill.links[p].window.head? = some (f, left) → s.rill.links[p].lane ≠ none → s.rill.links[p].ackIn = none → s.rill.links[p].sendIdx ≠ 0 → s.rill.links[p].resend = false → s.rill.links[p].busyAt = none → (s.advanceTo t).pastCore (left + (s.advanceTo t).ackTime p) = true → s.active.rill.maxRetries ≤ s.rill.links[p].retries → 
      exec (.rillAckTimeout t p) s = .next ((s.advanceTo t).settleLink p 2)) ∧
  (∀ (s : State) (t : Nat) (p : Fin 16) (f : Frame) (left : Nat), s.rill.links[p].window.head? = some (f, left) → s.rill.links[p].lane ≠ none → s.rill.links[p].ackIn = none → s.rill.links[p].sendIdx ≠ 0 → s.rill.links[p].resend = false → s.rill.links[p].busyAt = none → (s.advanceTo t).pastCore (left + (s.advanceTo t).ackTime p) = true → s.rill.links[p].retries < s.active.rill.maxRetries → 
      exec (.rillAckTimeout t p) s = .next (((s.advanceTo t).modRill fun r => { r with retries := satAdd 32 r.retries 1 }).modLink p fun l => { l with retries := l.retries + 1 }.again)) ∧
  (∀ (s : State) (t : Nat) (p : Fin 16) (a : Nat), s.rill.links[p].busyAt = some a → a + usec 20 ≤ max s.now t → exec (.rillBusyResend t p) s = .next ((s.advanceTo t).modLink p fun l => { l with busyAt := none })) ∧
  (∀ (s : State) (t : Nat) (p : Fin 16) (a : Nat), s.rill.links[p].ackIn = none → s.rill.links[p].busySince = some a → (s.advanceTo t).pastCore (a + msec 10) = true → 
      exec (.rillBusyLimit t p) s = .next ((s.advanceTo t).settleLink p 3)) ∧
  (∀ (s : State) (t : Nat) (p : Fin 16), s.rill.links[p].lane = none → (s.advanceTo t).pastCore (s.rill.links[p].downSince + msec 10) = true → 
      exec (.rillLinkDownTimeout t p) s = .next ((s.advanceTo t).settleLink p 1))

/-- The hierarchy commands and the manager's timers (R323, R337, R340, R342 to R344, R346). -/
def Obligations.RillCommands : Prop :=
  (Completes .roleSet 0x5000 false (fun _ e s => e.len = 4 ∧ bits (e.w 0) 0 2 ≠ 3 ∧ rsvHigh (e.w 0) 4 = true ∧ (s.sys.optionW && decide (bits (e.w 0) 0 2 = 2)) = false) .ok
      (fun _ _ _ _ => [])
      (fun _ e s => s.modShadow fun k => { k with rill := { k.rill with role := if bits (e.w 0) 0 2 = 0 then .standalone else if bits (e.w 0) 0 2 = 1 then .worker else .manager, timeFollow := bit (e.w 0) 2, forwardEvents := bit (e.w 0) 3 } })) ∧
  (Completes .hierStatus 0x5001 true (fun _ e _ => e.len = 0) .ok
      (fun _ _ s _ => wordsLe [pack [(s.active.rill.role.code, 2), (flag s.active.rill.timeFollow, 1), (flag s.active.rill.forwardEvents, 1), (flag s.rill.workerId.isSome, 1), (s.rill.upHops, 3),
          (s.rill.upPort.getD 0, 4), (0, 4), (s.rill.workerId.getD 0, 12)], s.rill.upRoute % 2 ^ 24] ++
        leBytes 8 (pack ((List.finRange 16).map fun p => (s.rillLane p, 4))) ++
        wordsLe [s.rill.retries, s.rill.undelivered, s.rill.upDrops, s.rill.crcDrops, s.rill.formatDrops, s.rill.lateReplies])
      (fun _ _ s => s)) ∧
  (Completes .rillConfig 0x5050 false (fun _ e _ => e.len = 4 ∧ rsv (e.w 0) 1 7 = true ∧ rsvHigh (e.w 0) 19 = true) .ok
      (fun _ _ _ _ => [])
      (fun _ e s => s.modShadow fun k => { k with rill := { k.rill with enable := bit (e.w 0) 0 } })) ∧
  (Completes .rillConfigExpert 0x5850 false (fun _ e _ => e.len = 8 ∧ rsv (e.w 0) 1 7 = true ∧ rsvHigh (e.w 0) 19 = true ∧ rsvHigh (e.w 1) 16 = true ∧ bits (e.w 0) 16 3 ≤ 4 ∧ 20 ≤ bits (e.w 1) 0 16 ∧
        bits (e.w 1) 0 16 ≤ 1000) .ok
      (fun _ _ _ _ => [])
      (fun _ e s => let s0 := s.modShadow fun k => { k with rill := { k.rill with enable := bit (e.w 0) 0 } }
        let s1 := s0.writeExpert .rill 0x5850 128 fun k => { k with rill := { k.rill with prefLanes := bits (e.w 0) 8 8 } }
        let s2 := s1.writeExpert .rill 0x5850 129 fun k => { k with rill := { k.rill with maxRetries := bits (e.w 0) 16 3 } }
        s2.writeExpert .rill 0x5850 130 fun k => { k with rill := { k.rill with ackAllow := bits (e.w 1) 0 16 } })) ∧
  (Starts .discover 0x5010 false (fun _ e s => e.len = 4 ∧ 1 ≤ bits (e.w 0) 0 3 ∧ bits (e.w 0) 0 3 ≤ 6 ∧ rsvHigh (e.w 0) 4 = true ∧ s.rill.discovery = none ∧ s.isManager = true)
      (fun _ e s => (s.modRill fun r => { r with table := r.table.map fun w => { w with present := false }, discovery := some { seq := e.seq, maxHops := bits (e.w 0) 0 3, autoAssign := bit (e.w 0) 3, depth := 1, frontier := s.linkPorts.map fun p => (p.val, 1, s.peerOf p), next := [], outstanding := [], assigning := [], fresh := 0, assigned := 0, unreachable := 0, loops := 0, tableFull := false, deeper := false } }).discoverOn 8)) ∧
  (∀ (c : Fin 16), Starts .workerAssign 0x5011 false (fun _ e s => e.len = 8 ∧ rsv (e.w 0) 12 4 = true ∧ rsvHigh (e.w 0) 19 = true ∧ rsvHigh (e.w 1) 24 = true ∧ 1 ≤ bits (e.w 0) 16 3 ∧ bits (e.w 0) 16 3 ≤ 6 ∧
        (s.rill.table.any fun w => decide (w.id = some (bits (e.w 0) 0 12) ∧ some w.serial ≠ s.serialOf (bits (e.w 0) 16 3) (bits (e.w 1) 0 24))) = false ∧ s.isManager = true ∧
        s.canonical (hopPort (bits (e.w 1) 0 24) 1) = some c)
      (fun _ e s => (s.nextXtag.2.enqueueOwn c { ftype := 6, hops := bits (e.w 0) 16 3, hopPtr := 0, up := false, route := bits (e.w 1) 0 24, wid := bits (e.w 0) 0 12, xtag := s.rill.xtag }).modRill fun r =>
        { r with waits := r.waits ++ [⟨e.seq, s.rill.xtag, s.now + msec 100, some (bits (e.w 0) 0 12, bits (e.w 0) 16 3, bits (e.w 1) 0 24)⟩] })) ∧
  (Completes .workerAssign 0x5011 false (fun _ e s => e.len = 8 ∧ rsv (e.w 0) 12 4 = true ∧ rsvHigh (e.w 0) 19 = true ∧ rsvHigh (e.w 1) 24 = true ∧ 1 ≤ bits (e.w 0) 16 3 ∧ bits (e.w 0) 16 3 ≤ 6 ∧
        (s.rill.table.any fun w => decide (w.id = some (bits (e.w 0) 0 12) ∧ some w.serial ≠ s.serialOf (bits (e.w 0) 16 3) (bits (e.w 1) 0 24))) = false ∧ s.isManager = true ∧
        s.canonical (hopPort (bits (e.w 1) 0 24) 1) = none) .unreachable
      (fun _ _ _ _ => [])
      (fun _ _ s => s.nextXtag.2)) ∧
  (Completes .workerList 0x5012 true (fun _ e _ => e.len = 4 ∧ rsvHigh (e.w 0) 12 = true) .ok
      (fun _ e s _ => wordsLe [pack [(s.rill.table.length, 13), (0, 3), (((s.rill.table.drop (bits (e.w 0) 0 12)).take 63).length, 16)]] ++
        ((s.rill.table.drop (bits (e.w 0) 0 12)).take 63).flatMap WorkerEntry.bytes)
      (fun _ _ s => s)) ∧
  (∀ (hops route wid : Nat) (check : Bool) (c : Fin 16), Starts .tunnel 0x5020 false (fun _ e s => 20 ≤ e.len ∧ e.len ≤ 1024 ∧ e.len % 4 = 0 ∧ 1 ≤ bits (e.w 0) 16 16 ∧ bits (e.w 0) 16 16 ≤ 60000 ∧ rsvHigh (e.w 1) 24 = true ∧ innerGood (e.cmd.payload.drop 8) = true ∧
        (bit (e.w 0) 12 = true → 1 ≤ bits (e.w 0) 13 3 ∧ bits (e.w 0) 13 3 ≤ 6) ∧ s.isManager = true ∧ s.tunnelTo e = some (hops, route, wid, check) ∧ s.canonical (hopPort route 1) = some c)
      (fun _ e s => (s.nextXtag.2.enqueueOwn c { ftype := 1, hops := hops, hopPtr := 0, up := false, route := route, wid := wid, idValid := check, xtag := s.rill.xtag, body := e.cmd.payload.drop 8 }).modRill fun r =>
        { r with waits := r.waits ++ [⟨e.seq, s.rill.xtag, s.now + msec (bits (e.w 0) 16 16), none⟩] })) ∧
  (Completes .discover 0x5010 false (fun _ e s => e.len = 4 ∧ 1 ≤ bits (e.w 0) 0 3 ∧ bits (e.w 0) 0 3 ≤ 6 ∧ rsvHigh (e.w 0) 4 = true ∧ s.rill.discovery ≠ none) .resourceBusy
      (fun _ _ _ _ => [])
      (fun _ _ s => s)) ∧
  (Completes .discover 0x5010 false (fun _ e s => e.len = 4 ∧ 1 ≤ bits (e.w 0) 0 3 ∧ bits (e.w 0) 0 3 ≤ 6 ∧ rsvHigh (e.w 0) 4 = true ∧ s.rill.discovery = none ∧ s.isManager = false) .precondition
      (fun _ _ _ _ => [])
      (fun _ _ s => s)) ∧
  (Completes .workerAssign 0x5011 false (fun _ e s => e.len = 8 ∧ rsv (e.w 0) 12 4 = true ∧ rsvHigh (e.w 0) 19 = true ∧ rsvHigh (e.w 1) 24 = true ∧ 1 ≤ bits (e.w 0) 16 3 ∧ bits (e.w 0) 16 3 ≤ 6 ∧
        (s.rill.table.any fun w => decide (w.id = some (bits (e.w 0) 0 12) ∧ some w.serial ≠ s.serialOf (bits (e.w 0) 16 3) (bits (e.w 1) 0 24))) = true) .resourceBusy
      (fun _ _ _ _ => [])
      (fun _ _ s => s)) ∧
  (Completes .workerAssign 0x5011 false (fun _ e s => e.len = 8 ∧ rsv (e.w 0) 12 4 = true ∧ rsvHigh (e.w 0) 19 = true ∧ rsvHigh (e.w 1) 24 = true ∧ 1 ≤ bits (e.w 0) 16 3 ∧ bits (e.w 0) 16 3 ≤ 6 ∧
        (s.rill.table.any fun w => decide (w.id = some (bits (e.w 0) 0 12) ∧ some w.serial ≠ s.serialOf (bits (e.w 0) 16 3) (bits (e.w 1) 0 24))) = false ∧ s.isManager = false) .precondition
      (fun _ _ _ _ => [])
      (fun _ _ s => s)) ∧
  (Completes .tunnel 0x5020 false (fun _ e s => 20 ≤ e.len ∧ e.len ≤ 1024 ∧ e.len % 4 = 0 ∧ 1 ≤ bits (e.w 0) 16 16 ∧ bits (e.w 0) 16 16 ≤ 60000 ∧ rsvHigh (e.w 1) 24 = true ∧ innerGood (e.cmd.payload.drop 8) = true ∧
        (bit (e.w 0) 12 = true → 1 ≤ bits (e.w 0) 13 3 ∧ bits (e.w 0) 13 3 ≤ 6) ∧ s.isManager = false) .precondition
      (fun _ _ _ _ => [])
      (fun _ _ s => s)) ∧
  (Completes .tunnel 0x5020 false (fun _ e s => 20 ≤ e.len ∧ e.len ≤ 1024 ∧ e.len % 4 = 0 ∧ 1 ≤ bits (e.w 0) 16 16 ∧ bits (e.w 0) 16 16 ≤ 60000 ∧ rsvHigh (e.w 1) 24 = true ∧ innerGood (e.cmd.payload.drop 8) = true ∧
        (bit (e.w 0) 12 = true → 1 ≤ bits (e.w 0) 13 3 ∧ bits (e.w 0) 13 3 ≤ 6) ∧ s.isManager = true ∧ s.tunnelTo e = none) .unreachable
      (fun _ _ _ _ => [])
      (fun _ _ s => s)) ∧
  (∀ (hops route wid : Nat) (check : Bool), Completes .tunnel 0x5020 false (fun _ e s => 20 ≤ e.len ∧ e.len ≤ 1024 ∧ e.len % 4 = 0 ∧ 1 ≤ bits (e.w 0) 16 16 ∧ bits (e.w 0) 16 16 ≤ 60000 ∧ rsvHigh (e.w 1) 24 = true ∧ innerGood (e.cmd.payload.drop 8) = true ∧
        (bit (e.w 0) 12 = true → 1 ≤ bits (e.w 0) 13 3 ∧ bits (e.w 0) 13 3 ≤ 6) ∧ s.isManager = true ∧ s.tunnelTo e = some (hops, route, wid, check) ∧ s.canonical (hopPort route 1) = none) .unreachable
      (fun _ _ _ _ => [])
      (fun _ _ s => s.nextXtag.2)) ∧
  (∀ (s : State) (t : Nat), exec (.tunnelTimeout t) s = .next (let late := s.rill.waits.filter fun w => decide (w.assign = none) && (s.advanceTo t).pastMgmt w.deadline
        ((s.advanceTo t).modRill fun r => { r with waits := r.waits.filter fun w => !late.contains w }).forEach late fun w s => s.complete w.seq .timeout [])) ∧
  (∀ (s : State) (t : Nat), exec (.probeTimeout t) s = .next (((s.advanceTo t).modDisc fun d => { d with outstanding := d.outstanding.filter (fun o => !(s.advanceTo t).pastMgmt (o.sentAt + msec 10)), unreachable := d.unreachable + (d.outstanding.filter fun o => (s.advanceTo t).pastMgmt (o.sentAt + msec 10)).length, assigning := d.assigning.filter fun a => !(s.advanceTo t).pastMgmt (a.2.2.2 + msec 100) }).discoverOn 8))

/-- Epochs at the manager (R350, R352, R353) and a worker's own events (R351). -/
def Obligations.EpochCommands : Prop :=
  (∀ (kept : List EpochRecord), Starts .epochStage 0x5030 false (fun _ e s => e.len = e.stagePacket + 4 * ceilDiv (bits (e.w 1) 0 16) 4 ∧ 1 ≤ bits (e.w 0) 0 16 ∧ 1 ≤ bits (e.w 0) 16 16 ∧ bits (e.w 0) 16 16 ≤ 128 ∧
        (bits (e.w 1) 0 16 = 0 ∨ (12 ≤ bits (e.w 1) 0 16 ∧ bits (e.w 1) 0 16 ≤ 512)) ∧ rsvHigh (e.w 1) 16 = true ∧ blockIdsOk e.cmd.payload 8 (bits (e.w 0) 16 16) = true ∧
        setOk e.cmd.payload e.stageSet = true ∧ s.stageRoom (bits (e.w 0) 0 16) = some kept ∧ s.isManager = true)
      (fun _ e s => let r : EpochRecord := { id := bits (e.w 0) 0 16, outcomes := (s.setIds e.cmd.payload e.stageSet).map fun w => (w, 0xD), cmds := [(e.seq, 1, s.now, 0)] }
        let body := epochBody 1 (bits (e.w 0) 0 16) 0 (wordsLe [pack [(bits (e.w 0) 16 16, 16), (bits (e.w 1) 0 16, 16)]] ++
          (e.cmd.payload.drop 8).take (4 * ceilDiv (bits (e.w 0) 16 16) 2) ++ e.cmd.payload.drop e.stagePacket)
        ((s.modRill fun x => { x with epochs := kept ++ [r.begin 1 s.now] }).forEach (s.setIds e.cmd.payload e.stageSet) fun w s => s.sendEpoch (bits (e.w 0) 0 16) 1 w body).epochOn (bits (e.w 0) 0 16))) ∧
  (∀ (tc : FTime) (r : EpochRecord), Starts .epochCommit 0x5031 false (fun _ e s => e.time 1 = some tc ∧ e.len = 16 ∧ rsvHigh (e.w 0) 16 = true ∧ tc ≤ s.fnow + secs 86400 ∧ s.isManager = true ∧ s.epoch (bits (e.w 0) 0 16) = some r ∧ s.fnow + msec 1 ≤ tc ∧ r.awaited 2 ≠ [])
      (fun _ e s => (s.modEpoch (bits (e.w 0) 0 16) fun x => { x.begin 2 s.now with time := some tc, tag := e.cmd.tag, owe := true, cmds := x.cmds ++ [(e.seq, 2, s.now, 0)] }).castEpoch (bits (e.w 0) 0 16) 2 tc)) ∧
  (∀ (r : EpochRecord), Starts .abortEpoch 0x5032 true (fun _ e s => e.len = 4 ∧ rsvHigh (e.w 0) 16 = true ∧ s.isManager = true ∧ s.epoch (bits (e.w 0) 0 16) = some r)
      (fun _ e s => ((s.modEpoch (bits (e.w 0) 0 16) fun x => { x.begin 3 s.now with cmds := x.cmds ++ [(e.seq, 3, s.now, 0)] }).castEpoch (bits (e.w 0) 0 16) 3 0).epochOn (bits (e.w 0) 0 16))) ∧
  (∀ (t2 : FTime) (r : EpochRecord), Starts .revertEpoch 0x5033 false (fun _ e s => e.time 1 = some t2 ∧ e.len = 16 ∧ rsvHigh (e.w 0) 16 = true ∧ s.isManager = true ∧ s.epoch (bits (e.w 0) 0 16) = some r ∧ r.time ≠ none ∧ s.tAhead r = false ∧ s.fnow + msec 1 ≤ t2)
      (fun _ e s => ((s.modEpoch (bits (e.w 0) 0 16) fun x => { x.begin 4 s.now with time2 := some t2, tagRevert := e.cmd.tag, oweRevert := true, cmds := x.cmds ++ [(e.seq, 4, s.now, 0)] }).castEpoch
        (bits (e.w 0) 0 16) 4 t2).epochOn (bits (e.w 0) 0 16))) ∧
  (∀ (r : EpochRecord), Completes .epochStatus 0x5034 true (fun _ e s => e.len = 4 ∧ rsvHigh (e.w 0) 29 = true ∧ s.isManager = true ∧ s.epoch (bits (e.w 0) 0 16) = some r ∧ bit (e.w 0) 28 = false) .ok
      (fun _ e _ _ => r.reply 5 (bits (e.w 0) 16 12))
      (fun _ _ s => s)) ∧
  (∀ (r : EpochRecord), Starts .epochStatus 0x5034 true (fun _ e s => e.len = 4 ∧ rsvHigh (e.w 0) 29 = true ∧ s.isManager = true ∧ s.epoch (bits (e.w 0) 0 16) = some r ∧ bit (e.w 0) 28 = true)
      (fun _ e s => ((s.modEpoch (bits (e.w 0) 0 16) fun _ => { r.begin 5 s.now with cmds := r.cmds ++ [(e.seq, 5, s.now, bits (e.w 0) 16 12)] }).forEach ((r.begin 5 s.now).awaited 5) fun w s =>
        s.sendEpoch (bits (e.w 0) 0 16) 5 w (epochBody 5 (bits (e.w 0) 0 16) 0 (wordsLe [0]))).epochOn (bits (e.w 0) 0 16))) ∧
  (∀ (s : State) (t : Nat) (id : Nat) (r : EpochRecord), s.epoch id = some r → exec (.epochResend t id) s = .next (let due := r.sent.filter fun x => decide ((x.1 = 2 ∨ x.1 = 3 ∨ x.1 = 4) ∧ x.2.2 < 2 ∧ x.2.1 + msec (5 * (x.2.2 + 1)) ≤ max s.now t)
        let s1 := (s.advanceTo t).modEpoch id fun y => { y with sent := y.sent.map fun x => if due.contains x then (x.1, x.2.1, x.2.2 + 1) else x }
        (s1.forEach due fun x s => s.forEach (r.silent x.1) fun w s => s.sendEpoch id x.1 w (epochBody x.1 id (r.timeOf x.1) (wordsLe [0]))).epochOn id)) ∧
  (∀ (s : State) (t : Nat) (id : Nat) (r : EpochRecord), s.epoch id = some r → exec (.epochCommandDeadline t id) s = .next (let due := r.cmds.filter ((s.advanceTo t).epochDeadline r)
        ((s.advanceTo t).modEpoch id fun x => { x with cmds := x.cmds.filter fun c => !due.contains c }).forEach due fun c s => s.complete c.1 .ok (r.reply c.2.1 c.2.2.2))) ∧
  (∀ (s : State) (t : Nat) (id : Nat) (r : EpochRecord), s.epoch id = some r → exec (.epochResultTimeout t id) s = .next (let late := fun (x : Option FTime) => match x with | some f => (s.advanceTo t).pastTime (f + msec 100) | none => false
        let s1 := if r.owe = true ∧ late r.time = true then (s.advanceTo t).epochResult r false else s.advanceTo t
        if r.oweRevert = true ∧ late r.time2 = true then s1.epochResult r true else s1)) ∧
  (∀ (s : State) (t : Nat) (id : Nat) (w : WorkerEpoch) (c : Commit), s.workerEpoch id = some w → w.commit.bind s.commitOf = some c → (s.advanceTo t).beforeTc c = false → 
      exec (.epochTcReached t id) s = .next ((s.advanceTo t).forEach c.names fun b s => if s.atBoundary b = true then (if b = .ppsOut then s.ppsEdge else s).boundary b else s)) ∧
  (∀ (s : State) (t : Nat) (id : Nat) (w : WorkerEpoch), s.workerEpoch id = some w → w.outcome = 1 → (s.advanceTo t).pastMgmt (w.readyAt + secs 10) = true → 
      exec (.epochStagingExpiry t id) s = .next (((s.advanceTo t).unstage id).epochCame id 1 0xC 0xFFFF ⟨0, false⟩ [])) ∧
  (∀ (i : Fin 2), Starts .fwBroadcast 0x5040 false (fun _ e s => e.len = 4 + setLen (bits (fieldAt e.cmd.payload 4 4) 0 2) ∧ rsvHigh (e.w 0) 1 = true ∧ setOk e.cmd.payload 4 = true ∧ bits (e.w 0) 0 1 = i.val ∧ (s.imageBytes (fwSlot i)).length ≤ 4194304 ∧
        s.rill.fw = none ∧ s.isManager = true ∧ s.sys.fw.slots[fwSlot i].verified = true)
      (fun _ e s => ((s.modRill fun r => { r with fw := some { seq := e.seq, slot := i, bytes := s.imageBytes (fwSlot i), selecting := (s.setIds e.cmd.payload 4).map fun w => (w, s.now) } }).forEach (s.setIds e.cmd.payload 4) fun w u =>
        u.sendFw 1 w (fwBody 1 (s.imageBytes (fwSlot i)).length 0 [])).fwOn 8)) ∧
  (∀ (s : State) (t : Nat) (b : FwBroadcast), s.rill.fw = some b → exec (.fwSelectTimeout t) s = .next (((s.advanceTo t).forEach (b.selecting.filter fun x => (s.advanceTo t).pastMgmt (x.2 + msec 100)) fun x s => s.fwOver x.1 5 false).fwOn 8)) ∧
  (∀ (s : State) (t : Nat) (q : QId) (e : QEntry) (d : Nat), (s.advanceTo t).head q = some e → (s.advanceTo t).limitOf e = some d → e.phase = .running → (s.advanceTo t).pastCmd (e.acceptedAt + d) = true → 
      exec (.commandTimeout t q) s = .next ((s.advanceTo t).timeOut e)) ∧
  (∀ (s : State) (e : QEntry), e.cmd.op ≠ 0x1011 → e.cmd.op ≠ 0x5011 → s.timeOut e = (s.abandonRun e).complete e.seq .timeout []) ∧
  (Completes .epochStage 0x5030 false (fun _ e s => e.len = e.stagePacket + 4 * ceilDiv (bits (e.w 1) 0 16) 4 ∧ 1 ≤ bits (e.w 0) 0 16 ∧ 1 ≤ bits (e.w 0) 16 16 ∧ bits (e.w 0) 16 16 ≤ 128 ∧
        (bits (e.w 1) 0 16 = 0 ∨ (12 ≤ bits (e.w 1) 0 16 ∧ bits (e.w 1) 0 16 ≤ 512)) ∧ rsvHigh (e.w 1) 16 = true ∧ blockIdsOk e.cmd.payload 8 (bits (e.w 0) 16 16) = true ∧
        setOk e.cmd.payload e.stageSet = true ∧ s.stageRoom (bits (e.w 0) 0 16) = none ∧ s.isManager = true) .resourceBusy
      (fun _ _ _ _ => [])
      (fun _ _ s => s)) ∧
  (Completes .epochStage 0x5030 false (fun _ e s => e.len = e.stagePacket + 4 * ceilDiv (bits (e.w 1) 0 16) 4 ∧ 1 ≤ bits (e.w 0) 0 16 ∧ 1 ≤ bits (e.w 0) 16 16 ∧ bits (e.w 0) 16 16 ≤ 128 ∧
        (bits (e.w 1) 0 16 = 0 ∨ (12 ≤ bits (e.w 1) 0 16 ∧ bits (e.w 1) 0 16 ≤ 512)) ∧ rsvHigh (e.w 1) 16 = true ∧ blockIdsOk e.cmd.payload 8 (bits (e.w 0) 16 16) = true ∧
        setOk e.cmd.payload e.stageSet = true ∧ s.isManager = false) .precondition
      (fun _ _ _ _ => [])
      (fun _ _ s => s)) ∧
  (∀ (tc : FTime), Completes .epochCommit 0x5031 false (fun _ e s => e.time 1 = some tc ∧ e.len = 16 ∧ rsvHigh (e.w 0) 16 = true ∧ tc ≤ s.fnow + secs 86400 ∧ (s.isManager = false ∨ s.epoch (bits (e.w 0) 0 16) = none ∨ tc < s.fnow + msec 1)) .precondition
      (fun _ _ _ _ => [])
      (fun _ _ s => s)) ∧
  (∀ (tc : FTime) (r : EpochRecord), Completes .epochCommit 0x5031 false (fun _ e s => e.time 1 = some tc ∧ e.len = 16 ∧ rsvHigh (e.w 0) 16 = true ∧ tc ≤ s.fnow + secs 86400 ∧ s.isManager = true ∧ s.epoch (bits (e.w 0) 0 16) = some r ∧ s.fnow + msec 1 ≤ tc ∧ r.awaited 2 = []) .notReady
      (fun _ _ _ _ => [])
      (fun _ _ s => s)) ∧
  (Completes .abortEpoch 0x5032 true (fun _ e s => e.len = 4 ∧ rsvHigh (e.w 0) 16 = true ∧ (s.isManager = false ∨ s.epoch (bits (e.w 0) 0 16) = none)) .precondition
      (fun _ _ _ _ => [])
      (fun _ _ s => s)) ∧
  (∀ (t2 : FTime), Completes .revertEpoch 0x5033 false (fun _ e s => e.time 1 = some t2 ∧ e.len = 16 ∧ rsvHigh (e.w 0) 16 = true ∧ (s.isManager = false ∨ s.epoch (bits (e.w 0) 0 16) = none)) .precondition
      (fun _ _ _ _ => [])
      (fun _ _ s => s)) ∧
  (∀ (t2 : FTime) (r : EpochRecord), Completes .revertEpoch 0x5033 false (fun _ e s => e.time 1 = some t2 ∧ e.len = 16 ∧ rsvHigh (e.w 0) 16 = true ∧ s.epoch (bits (e.w 0) 0 16) = some r ∧ (r.time = none ∨ s.tAhead r = true ∨ t2 < s.fnow + msec 1)) .precondition
      (fun _ _ _ _ => [])
      (fun _ _ s => s)) ∧
  (Completes .epochStatus 0x5034 true (fun _ e s => e.len = 4 ∧ rsvHigh (e.w 0) 29 = true ∧ (s.isManager = false ∨ s.epoch (bits (e.w 0) 0 16) = none)) .precondition
      (fun _ _ _ _ => [])
      (fun _ _ s => s)) ∧
  (∀ (i : Fin 2), Completes .fwBroadcast 0x5040 false (fun _ e s => e.len = 4 + setLen (bits (fieldAt e.cmd.payload 4 4) 0 2) ∧ rsvHigh (e.w 0) 1 = true ∧ setOk e.cmd.payload 4 = true ∧ bits (e.w 0) 0 1 = i.val ∧ (s.imageBytes (fwSlot i)).length ≤ 4194304 ∧ s.rill.fw ≠ none) .resourceBusy
      (fun _ _ _ _ => [])
      (fun _ _ s => s)) ∧
  (∀ (i : Fin 2), Completes .fwBroadcast 0x5040 false (fun _ e s => e.len = 4 + setLen (bits (fieldAt e.cmd.payload 4 4) 0 2) ∧ rsvHigh (e.w 0) 1 = true ∧ setOk e.cmd.payload 4 = true ∧ bits (e.w 0) 0 1 = i.val ∧ (s.imageBytes (fwSlot i)).length ≤ 4194304 ∧ s.rill.fw = none ∧ (s.isManager = false ∨ s.sys.fw.slots[fwSlot i].verified = false)) .precondition
      (fun _ _ _ _ => [])
      (fun _ _ s => s))

/-- The settings of acquisition (R357, R359, R363 to R367, R371, R374). -/
def Obligations.AcquisitionSettings : Prop :=
  (Completes .channelSource 0x6010 false (fun _ e s => e.len = 4 ∧ rsv (e.w 0) 3 5 = true ∧ rsv (e.w 0) 21 3 = true ∧ sourceOk (bits (e.w 0) 8 8) = true ∧ (bits (e.w 0) 16 4 < 4 ∨ bits (e.w 0) 16 4 = 0xF) ∧ (bit (e.w 0) 20 && s.sys.optionW) = false ∧ gaugeSelOk (bits (e.w 0) 24 8) = true) .ok
      (fun _ _ _ _ => [])
      (fun _ e s => s.modShadow (Bank.chan e.chan fun p => { p with source := bits (e.w 0) 8 8, decim := bits (e.w 0) 16 4, stream := bit (e.w 0) 20, gaugeCh := bits (e.w 0) 24 8 }))) ∧
  (Completes .decimatorConfig 0x6011 false (fun _ e s => e.len = 12 ∧ rsv (e.w 0) 2 6 = true ∧ rsvHigh (e.w 0) 16 = true ∧ e.w 2 = 0 ∧ decimable (bits (e.w 0) 8 8) = true ∧ outRateOk (s.sourceRate (bits (e.w 0) 8 8)) (e.w 1) = true) .ok
      (fun _ e s w => wordsLe [w.shadow.decim[e.four].stages, w.shadow.decim[e.four].step] ++ leBytes 8
        (let r := s.sourceRate (bits (e.w 0) 8 8) / ((2 ^ w.shadow.decim[e.four].stages : Nat) : Rat) * 2147483648 / (w.shadow.decim[e.four].step : Rat); r.num.toNat / r.den))
      (fun _ e s => ((s.modShadow (Bank.dec e.four fun p => { p with source := bits (e.w 0) 8 8, outRate := e.w 1 })).writeBasic (.decim e.four) 0x6811 128 (Bank.dec e.four fun p =>
        { p with stages := (chooseStages (s.sourceRate (bits (e.w 0) 8 8)) (e.w 1)).1 })).writeBasic (.decim e.four) 0x6811 129 (Bank.dec e.four fun p => { p with step := (chooseStages (s.sourceRate (bits (e.w 0) 8 8)) (e.w 1)).2 }))) ∧
  (Completes .decimatorConfigExpert 0x6811 false (fun _ e _ => e.len = 12 ∧ rsv (e.w 0) 2 14 = true ∧ rsvHigh (e.w 0) 20 = true ∧ bits (e.w 0) 16 4 ≤ 12 ∧ e.w 1 = 0 ∧ 0x80000000 ≤ e.w 2) .ok
      (fun _ e _ _ => wordsLe [bits (e.w 0) 16 4, e.w 2] ++ leBytes 8 0)
      (fun _ e s => (s.writeExpert (.decim e.four) 0x6811 128 (Bank.dec e.four fun p => { p with stages := bits (e.w 0) 16 4 })).writeExpert (.decim e.four) 0x6811 129 (Bank.dec e.four fun p => { p with step := e.w 2 }))) ∧
  (Completes .filterLoad 0x6012 false (fun _ e s => e.len = 4 ∧ rsv (e.w 0) 2 22 = true ∧ rsvHigh (e.w 0) 27 = true ∧ bits (e.w 0) 24 3 ≤ 2 ∧ s.decimRunning e.four = false) .ok
      (fun _ _ _ _ => [])
      (fun _ e s => if s.acq.banks[e.four].pinned = true then s.modMeta (.decim e.four) fun m => { m with pinnedSkips := satAdd 16 m.pinnedSkips 1 } else s.modBank e.four fun _ => { preset := bits (e.w 0) 24 3 })) ∧
  (Completes .filterLoad 0x6012 false (fun _ e s => e.len = 4 ∧ rsv (e.w 0) 2 22 = true ∧ rsvHigh (e.w 0) 27 = true ∧ bits (e.w 0) 24 3 ≤ 2 ∧ s.decimRunning e.four = true) .filterRunning
      (fun _ _ _ _ => [])
      (fun _ _ s => s)) ∧
  (Completes .filterLoadExpert 0x6812 false (fun _ e s => e.len = 4 + 4 * bits (e.w 0) 16 8 ∧ rsv (e.w 0) 2 2 = true ∧ rsvHigh (e.w 0) 24 = true ∧ bits (e.w 0) 4 12 < 3072 ∧ 1 ≤ bits (e.w 0) 16 8 ∧ bits (e.w 0) 4 12 + bits (e.w 0) 16 8 ≤ 3072 ∧
        ((List.range (bits (e.w 0) 16 8)).all fun i => rsvHigh (e.w (1 + i)) 18) = true ∧ s.decimRunning e.four = false) .ok
      (fun _ _ _ _ => [])
      (fun _ e s => s.modBank e.four fun b => { b with written := b.written.filter (fun x => decide (x.1 < bits (e.w 0) 4 12 ∨ bits (e.w 0) 4 12 + bits (e.w 0) 16 8 ≤ x.1)) ++ (List.range (bits (e.w 0) 16 8)).map fun i => (bits (e.w 0) 4 12 + i, toSigned 18 (e.w (1 + i))), pinned := true })) ∧
  (Completes .minmaxConfig 0x6013 false (fun _ e _ => e.len = 8 ∧ rsv (e.w 0) 3 5 = true ∧ rsvHigh (e.w 0) 9 = true ∧ rsvHigh (e.w 1) 25 = true ∧ 2 ≤ bits (e.w 1) 0 25 ∧ bits (e.w 1) 0 25 ≤ 16777216) .ok
      (fun _ _ _ _ => [])
      (fun _ e s => s.modShadow (Bank.chan e.chan fun p => { p with minmax := bit (e.w 0) 8, interval := bits (e.w 1) 0 25 }))) ∧
  (∀ (h : Nat), Completes .triggerConfig 0x6020 false (fun _ e s => e.len = 28 ∧ trigWordsOk s e = true ∧ h = (if s.shadow.pinned .weir 0x6820 (128 + 2 * e.four.val) = true then s.shadow.weir.units[e.four].hyst else basicHyst s.shadow (bits (e.w 0) 8 8)) ∧
        trigOk (trigOf e { s.shadow.weir.units[e.four] with hyst := h }) = true) .ok
      (fun _ _ _ _ => [])
      (fun _ e s => ((s.modShadow (Bank.trig e.four (trigOf e))).writeBasic .weir 0x6820 (128 + 2 * e.four.val) (Bank.trig e.four fun p => { p with hyst := h })).writeBasic .weir 0x6820 (129 + 2 * e.four.val)
        (Bank.trig e.four fun p => { p with interp := true }))) ∧
  (Completes .triggerConfigExpert 0x6820 false (fun _ e s => e.len = 28 ∧ trigWordsOk s e = true ∧ trigOk (trigOf e { s.shadow.weir.units[e.four] with hyst := bits (e.w 2) 0 16 }) = true) .ok
      (fun _ _ _ _ => [])
      (fun _ e s => ((s.modShadow (Bank.trig e.four (trigOf e))).writeExpert .weir 0x6820 (128 + 2 * e.four.val) (Bank.trig e.four fun p => { p with hyst := bits (e.w 2) 0 16 })).writeExpert .weir 0x6820
        (129 + 2 * e.four.val) (Bank.trig e.four fun p => { p with interp := bit (e.w 0) 22 }))) ∧
  (Completes .triggerCombine 0x6021 false (fun _ e s => e.len = 12 ∧ rsv (e.w 0) 1 3 = true ∧ rsvHigh (e.w 0) 17 = true ∧ rsvHigh (e.w 1) 20 = true ∧ rsvHigh (e.w 2) 16 = true ∧ 1 ≤ bits (e.w 1) 0 20 ∧ bits (e.w 1) 0 20 ≤ 1000000 ∧
        (s.sys.optionW && decide (bits (e.w 0) 6 2 ≠ 0)) = false) .ok
      (fun _ _ _ _ => [])
      (fun _ e s => s.modShadow fun k => { k with weir := { k.weir with and' := bit (e.w 0) 0, unitMask := bits (e.w 0) 4 4, evtMask := bits (e.w 0) 8 8, overwrite := bit (e.w 0) 16, window := bits (e.w 1) 0 20, recordLimit := bits (e.w 2) 0 16 } })) ∧
  (Completes .recordConfig 0x6022 false (fun _ e _ => e.len = 12 ∧ rsv (e.w 0) 3 5 = true ∧ rsvHigh (e.w 0) 9 = true ∧ rsvHigh (e.w 1) 28 = true ∧ rsvHigh (e.w 2) 28 = true ∧ 1 ≤ e.w 2) .ok
      (fun _ _ _ _ => [])
      (fun _ e s => s.modShadow (Bank.chan e.chan fun p => { p with burst := bit (e.w 0) 8, pre := bits (e.w 1) 0 28, post := bits (e.w 2) 0 28 })))

/-- Trigger units, decisions and records (R368 to R387). -/
def Obligations.RecordsTaken : Prop :=
  (Completes .arm 0x6030 false (fun _ e s => e.len = 0 ∧ s.armBusy s.shadow = none ∧ s.armFault s.shadow = none ∧ (s.loads s.shadow).1 ≤ 256000000000 ∧ (s.loads s.shadow).2.1 ≤ 64000000000 ∧ (s.loads s.shadow).2.2 ≤ 25000000000) .ok
      (fun _ _ s w => s.armReply s.shadow 0 0xFF w.acq.armStamp)
      (fun _ _ s => (s.endTests [0x30, 0x31] 2).armNow)) ∧
  (∀ (i : Nat), Completes .arm 0x6030 false (fun _ e s => e.len = 0 ∧ s.armBusy s.shadow = some i) .resourceBusy
      (fun _ _ s _ => s.armReply s.shadow 0x20 i ⟨0, false⟩)
      (fun _ _ s => s)) ∧
  (∀ (k i : Nat), Completes .arm 0x6030 false (fun _ e s => e.len = 0 ∧ s.armBusy s.shadow = none ∧ s.armFault s.shadow = some (k, i)) .precondition
      (fun _ _ s _ => s.armReply s.shadow k i ⟨0, false⟩)
      (fun _ _ s => s)) ∧
  (∀ (k : Nat), Completes .arm 0x6030 false (fun _ e s => e.len = 0 ∧ s.armBusy s.shadow = none ∧ s.armFault s.shadow = none ∧ (k = 1 ∧ 256000000000 < (s.loads s.shadow).1 ∨ k = 2 ∧ (s.loads s.shadow).1 ≤ 256000000000 ∧ 64000000000 < (s.loads s.shadow).2.1 ∨ k = 3 ∧ (s.loads s.shadow).1 ≤ 256000000000 ∧ (s.loads s.shadow).2.1 ≤ 64000000000 ∧ 25000000000 < (s.loads s.shadow).2.2)) .bandwidth
      (fun _ _ s _ => s.armReply s.shadow k 0xFF ⟨0, false⟩)
      (fun _ _ s => s)) ∧
  (Completes .disarm 0x6031 false (fun _ e s => e.len = 0 ∧ s.isArmed = false) .ok
      (fun _ _ _ _ => [])
      (fun _ _ s => s)) ∧
  (Starts .disarm 0x6031 false (fun _ e s => e.len = 0 ∧ s.isArmed = true)
      (fun _ e s => s.disarm 1 [e.seq])) ∧
  (Starts .forceTrigger 0x6032 false (fun _ e s => e.len = 0 ∧ s.isArmed = true)
      (fun _ e s => s.modAcq fun a => { a with firings := a.firings ++ [{ unit := 0, stamp := s.stampWeir, decided := false, forced := some e.seq }] })) ∧
  (Completes .forceTrigger 0x6032 false (fun _ e s => e.len = 0 ∧ s.isArmed = false) .precondition
      (fun _ _ _ _ => [])
      (fun _ _ s => s)) ∧
  (Completes .recordRead 0x6033 false (fun _ e s => e.len = 12 ∧ rsvHigh (e.w 0) 17 = true ∧ 1 ≤ e.w 2 ∧ e.w 2 ≤ 1008 ∧ (s.acq.records.find? fun x => decide (x.index = bits (e.w 0) 0 16)) = none) .precondition
      (fun _ _ _ _ => [])
      (fun _ _ s => s)) ∧
  (∀ (r : Record), Completes .recordRead 0x6033 false (fun _ e s => e.len = 12 ∧ rsvHigh (e.w 0) 17 = true ∧ 1 ≤ e.w 2 ∧ e.w 2 ≤ 1008 ∧ (s.acq.records.find? fun x => decide (x.index = bits (e.w 0) 0 16)) = some r ∧ r.image.length ≤ e.w 1) .badParam
      (fun _ _ _ _ => [])
      (fun _ _ s => s)) ∧
  (∀ (r : Record), Completes .recordRead 0x6033 false (fun _ e s => e.len = 12 ∧ rsvHigh (e.w 0) 17 = true ∧ 1 ≤ e.w 2 ∧ e.w 2 ≤ 1008 ∧ (s.acq.records.find? fun x => decide (x.index = bits (e.w 0) 0 16)) = some r ∧ e.w 1 < r.image.length) .ok
      (fun _ e _ _ => wordsLe [bits (e.w 0) 0 16, e.w 1] ++ (r.image.drop (e.w 1)).take (e.w 2) ++ List.replicate (e.w 2 - ((r.image.drop (e.w 1)).take (e.w 2)).length) 0)
      (fun _ e s => if bit (e.w 0) 16 = true then s.modAcq fun a => { a with records := a.records.filter fun x => decide (x.index ≠ bits (e.w 0) 0 16), spw := if a.records.head?.map Record.index = some (bits (e.w 0) 0 16) then { a.spw with offset := 0 } else a.spw } else s)) ∧
  (Completes .acqStatus 0x6000 true (fun _ e _ => e.len = 0) .ok
      (fun _ _ s _ => wordsLe ([pack [(s.acq.state.code, 2), (0, 6), (s.acq.lastDisarm, 8), (s.acq.nslots, 9), (s.acq.saturated, 4)],
        pack [(s.acq.nextIndex, 16), (s.acq.records.length, 16)], (s.acq.records.head?.map Record.index).getD 0, s.acq.missedTotal] ++
        s.acq.units.toList.map TrigUnit.firings ++ [s.acq.eccCorrected, s.acq.eccUncorrectable]) ++ s.acq.armStamp.bytes)
      (fun _ _ s => s)) ∧
  (∀ (s : State) (t : Nat) (n : Fin 4) (xs : List SrcSample), (s.advanceTo t).isArmed = true → (s.advanceTo t).active.weir.units[n].cond ≠ 0 → (s.advanceTo t).onIslandClock 49 = true → 
      exec (.triggerFiring t n xs) s = .next (let p := (s.advanceTo t).active.weir.units[n]
        let src := (underlying (s.advanceTo t).active p.src).1
        let ys := (s.advanceTo t).watched n xs
        (((s.advanceTo t).saturate src xs).forEach (ys.drop (s.advanceTo t).acq.units[n].fed) fun x u =>
          let r := u.acq.units[n].feed u.active.weir.units[n] (p.interp && !noInterp src) u.acq.armStamp.time x.1 x.2.1
          let u1 := u.modAcq fun a => { a with units := a.units.set n r.1 }
          match r.2 with
          | some f => u1.fire n ⟨f, x.2.2⟩
          | none => u1).modAcq fun a => { a with units := upd a.units n fun u => { u with fed := ys.length } })) ∧
  (∀ (s : State) (t : Nat) (n : Fin 4) (tr : FTime), (s.advanceTo t).isArmed = true → (s.advanceTo t).active.weir.units[n].cond = 4 → (s.advanceTo t).acq.units[n].rise = some tr → (tr + (s.advanceTo t).active.weir.units[n].t1) / 65536 < (s.advanceTo t).fnow / 65536 → (s.advanceTo t).carries (underlying (s.advanceTo t).active (s.advanceTo t).active.weir.units[n].src).1 = true → 
      exec (.triggerTimeoutFire t n) s = .next (((s.advanceTo t).modAcq fun a => { a with units := upd a.units n fun u => { u with rise := none } }).fire n ⟨tr + (s.advanceTo t).active.weir.units[n].t1, (s.advanceTo t).stampWeir.valid⟩)) ∧
  (∀ (s : State) (t : Nat) (n : Fin 4) (tr : FTime), (s.advanceTo t).isArmed = true → (s.advanceTo t).active.weir.units[n].cond = 4 → (s.advanceTo t).acq.units[n].rise = some tr → (tr + (s.advanceTo t).active.weir.units[n].t1) / 65536 < (s.advanceTo t).fnow / 65536 → (s.advanceTo t).carries (underlying (s.advanceTo t).active (s.advanceTo t).active.weir.units[n].src).1 = false → 
      exec (.triggerTimeoutFire t n) s = .next (((s.advanceTo t).modAcq fun a => { a with units := upd a.units n fun u => { u with rise := none } }))) ∧
  (∀ (s : State) (t : Nat) (f : Firing) (js : List Firing), earliest s.acq.firings = some f → s.isArmed = true → f.stamp.time + nsec s.active.weir.delay ≤ (s.advanceTo t).fnow → f.forced = none → (s.advanceTo t).joins f = some js → 
      exec (.triggerDecision t) s = .next (let cause := idxMask (js.map Firing.unit)
        let primary := ((maskIdx 4 cause).head?.map Fin.val).getD 0
        let stamp := ((js.filter fun g => decide (g.unit.val = primary)).head?.map Firing.stamp).getD f.stamp
        (((s.advanceTo t).modAcq fun a => { a with firings := a.firings.filter fun g => !js.contains g }).recordTrigger stamp cause primary false).1)) ∧
  (∀ (s : State) (t : Nat) (f : Firing), earliest s.acq.firings = some f → s.isArmed = true → f.stamp.time + nsec s.active.weir.delay ≤ (s.advanceTo t).fnow → f.forced = none → (s.advanceTo t).joins f = none → 
      exec (.triggerDecision t) s = .next ((s.advanceTo t).modAcq fun a => { a with firings := (a.firings.filter fun g => decide (f.stamp.time ≤ g.stamp.time + nsec s.active.weir.window)).map fun g => if g = f then { g with decided := true } else g })) ∧
  (∀ (s : State) (t : Nat) (f : Firing) (c : Nat), earliest s.acq.firings = some f → s.isArmed = true → f.stamp.time + nsec s.active.weir.delay ≤ (s.advanceTo t).fnow → f.forced = some c → 
      exec (.triggerDecision t) s = .next (let r := ((s.advanceTo t).modAcq fun a => { a with firings := a.firings.filter fun g => decide (g ≠ f) }).recordTrigger f.stamp 0 0 true
        r.1.complete c .ok (timeWords f.stamp.time ++ wordsLe [pack [(flag f.stamp.valid, 1), (flag r.2, 1)]]))) ∧
  (∀ (s : State) (t : Nat) (data : List Captured) (r : Record), ((s.advanceTo t).forEach data fun x u => u.saturate u.active.channel[x.channel].source x.samples).acq.cur = some r → ((s.advanceTo t).forEach data fun x u => u.saturate u.active.channel[x.channel].source x.samples).acq.disarming = none → ((recordChans ((s.advanceTo t).forEach data fun x u => u.saturate u.active.channel[x.channel].source x.samples).active).map (((s.advanceTo t).forEach data fun x u => u.saturate u.active.channel[x.channel].source x.samples).segment r.stamp.time data)).any (fun g => decide (g.postWritten < ((s.advanceTo t).forEach data fun x u => u.saturate u.active.channel[x.channel].source x.samples).active.channel[g.channel].post)) = false → (((s.advanceTo t).forEach data fun x u => u.saturate u.active.channel[x.channel].source x.samples).active.weir.recordLimit = 0 ∨ ((s.advanceTo t).forEach data fun x u => u.saturate u.active.channel[x.channel].source x.samples).acq.taken + 1 < ((s.advanceTo t).forEach data fun x u => u.saturate u.active.channel[x.channel].source x.samples).active.weir.recordLimit) → 
      exec (.recordComplete t data) s = .next (let s0 := ((s.advanceTo t).forEach data fun x u => u.saturate u.active.channel[x.channel].source x.samples)
        let mine := (recordChans s0.active).map (s0.segment r.stamp.time data)
        let r1 := { r with truncated := mine.any fun g => decide (g.postWritten < s0.active.channel[g.channel].post), segs := mine.map s0.describe, shortPre := mine.any fun g => decide (g.preValid < s0.active.channel[g.channel].pre) }
        let s1 := s0.modAcq fun a => { a with state := .rearm, cur := none, records := a.records ++ [r1], taken := a.taken + 1, lastPost := s0.stampWeir.time }
        let s2 := s1.event 0xE030 0 (wordsLe [pack [(r1.index, 16), (r1.cause, 4), (r1.primary, 2), (flag r1.forced, 1), (flag r1.shortPre, 1)]] ++ timeWords r1.stamp.time ++ wordsLe [flag r1.stamp.valid])
        s2)) ∧
  (∀ (s : State) (t : Nat) (data : List Captured) (r : Record), ((s.advanceTo t).forEach data fun x u => u.saturate u.active.channel[x.channel].source x.samples).acq.cur = some r → ((s.advanceTo t).forEach data fun x u => u.saturate u.active.channel[x.channel].source x.samples).acq.disarming = none → ((recordChans ((s.advanceTo t).forEach data fun x u => u.saturate u.active.channel[x.channel].source x.samples).active).map (((s.advanceTo t).forEach data fun x u => u.saturate u.active.channel[x.channel].source x.samples).segment r.stamp.time data)).any (fun g => decide (g.postWritten < ((s.advanceTo t).forEach data fun x u => u.saturate u.active.channel[x.channel].source x.samples).active.channel[g.channel].post)) = false → ((s.advanceTo t).forEach data fun x u => u.saturate u.active.channel[x.channel].source x.samples).active.weir.recordLimit ≠ 0 → ((s.advanceTo t).forEach data fun x u => u.saturate u.active.channel[x.channel].source x.samples).active.weir.recordLimit ≤ ((s.advanceTo t).forEach data fun x u => u.saturate u.active.channel[x.channel].source x.samples).acq.taken + 1 → 
      exec (.recordComplete t data) s = .next (let s0 := ((s.advanceTo t).forEach data fun x u => u.saturate u.active.channel[x.channel].source x.samples)
        let mine := (recordChans s0.active).map (s0.segment r.stamp.time data)
        let r1 := { r with truncated := mine.any fun g => decide (g.postWritten < s0.active.channel[g.channel].post), segs := mine.map s0.describe, shortPre := mine.any fun g => decide (g.preValid < s0.active.channel[g.channel].pre) }
        let s1 := s0.modAcq fun a => { a with state := .rearm, cur := none, records := a.records ++ [r1], taken := a.taken + 1, lastPost := s0.stampWeir.time }
        let s2 := s1.event 0xE030 0 (wordsLe [pack [(r1.index, 16), (r1.cause, 4), (r1.primary, 2), (flag r1.forced, 1), (flag r1.shortPre, 1)]] ++ timeWords r1.stamp.time ++ wordsLe [flag r1.stamp.valid])
        s2.disarmNow 2 [])) ∧
  (∀ (s : State) (t : Nat) (data : List Captured) (r : Record) (d : Nat × List Nat), ((s.advanceTo t).forEach data fun x u => u.saturate u.active.channel[x.channel].source x.samples).acq.cur = some r → ((s.advanceTo t).forEach data fun x u => u.saturate u.active.channel[x.channel].source x.samples).acq.disarming = some d → 
      exec (.recordComplete t data) s = .next (let s0 := ((s.advanceTo t).forEach data fun x u => u.saturate u.active.channel[x.channel].source x.samples)
        let mine := (recordChans s0.active).map (s0.segment r.stamp.time data)
        let r1 := { r with truncated := mine.any fun g => decide (g.postWritten < s0.active.channel[g.channel].post), segs := mine.map s0.describe, shortPre := mine.any fun g => decide (g.preValid < s0.active.channel[g.channel].pre) }
        let s1 := s0.modAcq fun a => { a with state := .rearm, cur := none, records := a.records ++ [r1], taken := a.taken + 1, lastPost := s0.stampWeir.time }
        let s2 := s1.event 0xE030 0 (wordsLe [pack [(r1.index, 16), (r1.cause, 4), (r1.primary, 2), (flag r1.forced, 1), (flag r1.shortPre, 1)]] ++ timeWords r1.stamp.time ++ wordsLe [flag r1.stamp.valid])
        s2.disarmNow d.1 d.2)) ∧
  (∀ (s : State) (src : Nat) (xs : List SrcSample), s.saturate src xs = if s.acq.state = .disarmed then s else { s with acq := { s.acq with saturated := s.acq.saturated ||| s.saturations src xs } }) ∧
  (∀ (s : State) (t : Nat), s.acq.state = .rearm → (s.acq.records.any fun r => decide (r.slot = s.acq.nextIndex % max s.acq.nslots 1)) = false ∨ s.active.weir.overwrite = true → 
      exec (.rearm t) s = .next (let slot := s.acq.nextIndex % max s.acq.nslots 1
        ((s.advanceTo t).overwrite ((s.acq.records.filter fun r => decide (r.slot = slot)).map Record.index)).modAcq fun a => { a with state := .armed, records := a.records.filter fun r => decide (r.slot ≠ slot), slotFrom := (s.advanceTo t).stampWeir.time, slotAt := max s.now t, dead := min (((s.advanceTo t).stampWeir.time - a.lastPost) / 65536) 0xFFFFFFFF }))

/-- The record port (R388 to R395). -/
def Obligations.SpillwayPort : Prop :=
  (Completes .spillwayConfig 0x6040 false (fun _ e s => s.sys.optionW = false ∧ e.len = 8 ∧ rsvHigh (e.w 0) 29 = true ∧ rsvHigh (e.w 1) 31 = true ∧ 1 ≤ bits (e.w 1) 0 30 ∧ bits (e.w 1) 0 30 ≤ 2 ^ 29 ∧ bits (e.w 0) 0 29 + bits (e.w 1) 0 30 ≤ 2 ^ 29) .ok
      (fun _ _ _ _ => [])
      (fun _ e s => s.modShadow fun k => { k with spillway := { base := bits (e.w 0) 0 29, size := bits (e.w 1) 0 30, noWrap := bit (e.w 1) 30 } })) ∧
  (Starts .spillwayStart 0x6041 false (fun _ e s => s.sys.optionW = false ∧ e.len = 4 ∧ rsv (e.w 0) 2 6 = true ∧ rsvHigh (e.w 0) 9 = true ∧ s.acq.spw.state = .off ∧ s.shadow.spillway.size ≠ 0 ∧ s.acq.spw.fault = false ∧ s.sys.shedStage = 0 ∧
        ((bits (e.w 0) 0 2 = 1 ∧ (s.loads s.shadow).2.2 ≤ 25000000000) ∨ (bits (e.w 0) 0 2 = 2 ∧ s.isArmed = false)))
      (fun _ e s => (s.commitShadow .spillway s.stampWeir).draw.2.modSpw fun w =>
        let a := if bit (e.w 0) 8 = true then s.shadow.spillway.base else s.shadow.spillway.wrap w.next
        { w with state := .starting, next := a, start := a, seq := 0, wraps := 0, wrapped := false, id := (w.id + 1) % 2 ^ 32, startAt := s.now, toDrain := decide (bits (e.w 0) 0 2 = 2), startCmd := e.seq, offset := 0, slots := 0, scramblers := Vector.ofFn fun l => Config.reading (0x6041 + l.val) (s.commitShadow .spillway s.stampWeir).draw.1 % 2 ^ 58 })) ∧
  (Completes .spillwayStart 0x6041 false (fun _ e s => s.sys.optionW = false ∧ e.len = 4 ∧ rsv (e.w 0) 2 6 = true ∧ rsvHigh (e.w 0) 9 = true ∧ (bits (e.w 0) 0 2 = 1 ∨ bits (e.w 0) 0 2 = 2) ∧
        (s.acq.spw.state ≠ .off ∨ s.shadow.spillway.size = 0 ∨ s.acq.spw.fault = true ∨ 1 ≤ s.sys.shedStage ∨ (bits (e.w 0) 0 2 = 2 ∧ s.isArmed = true))) .precondition
      (fun _ _ _ _ => [])
      (fun _ _ s => s)) ∧
  (Completes .spillwayStop 0x6042 false (fun _ e s => s.sys.optionW = false ∧ e.len = 0 ∧ s.acq.spw.state = .off) .ok
      (fun _ _ s _ => leBytes 8 (s.acq.spw.next * 4096) ++ wordsLe [s.acq.spw.seq])
      (fun _ _ s => s)) ∧
  (Starts .spillwayStop 0x6042 false (fun _ e s => s.sys.optionW = false ∧ e.len = 0 ∧ s.acq.spw.state = .starting)
      (fun _ e s => (s.modSpw fun w => { w with stopCmds := w.stopCmds ++ [e.seq] }).spwOff 1)) ∧
  (Starts .spillwayStop 0x6042 false (fun _ e s => s.sys.optionW = false ∧ e.len = 0 ∧ s.acq.spw.state ≠ .off ∧ s.acq.spw.state ≠ .starting)
      (fun _ e s => s.modSpw fun w => { w with state := .stopping, stopCmds := w.stopCmds ++ [e.seq] })) ∧
  (Completes .spillwayStatus 0x6043 true (fun _ e s => s.sys.optionW = false ∧ e.len = 0) .ok
      (fun _ _ s _ => wordsLe [pack [(s.acq.spw.state.code, 3), (flag s.acq.spw.fault, 1), (0, 4), (s.acq.spw.cause, 8)]] ++ leBytes 8 (s.acq.spw.next * 4096) ++
        wordsLe [s.acq.spw.seq, s.acq.spw.wraps, (s.acq.records.head?.map Record.index).getD 0, s.acq.spw.id])
      (fun _ _ s => s)) ∧
  (Completes .spillwayConfig 0x6040 false (fun _ e s => s.sys.optionW = true ∧ e.len = 8) .badParam
      (fun _ _ _ _ => [])
      (fun _ _ s => s)) ∧
  (Completes .spillwayStart 0x6041 false (fun _ e s => s.sys.optionW = true ∧ e.len = 4) .badParam
      (fun _ _ _ _ => [])
      (fun _ _ s => s)) ∧
  (Completes .spillwayStop 0x6042 false (fun _ e s => s.sys.optionW = true ∧ e.len = 0) .badParam
      (fun _ _ _ _ => [])
      (fun _ _ s => s)) ∧
  (Completes .spillwayStatus 0x6043 true (fun _ e s => s.sys.optionW = true ∧ e.len = 0) .badParam
      (fun _ _ _ _ => [])
      (fun _ _ s => s)) ∧
  (Completes .spillwayStart 0x6041 false (fun _ e s => s.sys.optionW = false ∧ e.len = 4 ∧ rsv (e.w 0) 2 6 = true ∧ rsvHigh (e.w 0) 9 = true ∧ bits (e.w 0) 0 2 = 1 ∧ s.acq.spw.state = .off ∧ s.shadow.spillway.size ≠ 0 ∧ s.acq.spw.fault = false ∧ s.sys.shedStage = 0 ∧
        25000000000 < (s.loads s.shadow).2.2) .bandwidth
      (fun _ _ _ _ => [])
      (fun _ _ s => s)) ∧
  (∀ (s : State) (t : Nat), s.acq.spw.state = .starting → s.acq.spw.startAt + usec 100 ≤ max s.now t → exec (.spillwayStartComplete t) s = .next ((((s.advanceTo t).modSpw fun w => { w with state := if w.toDrain = true then .drain else .stream }).complete s.acq.spw.startCmd .ok
        (wordsLe [s.acq.spw.id, if s.acq.spw.toDrain = true then s.acq.records.length else ceilDiv ((s.advanceTo t).loads s.shadow).2.2 1000] ++ leBytes 8 (s.acq.spw.start * 4096))).ringFull)) ∧
  (∀ (s : State) (t : Nat) (u : Captured), (s.acq.spw.state = .stream ∨ (s.acq.spw.state = .stopping ∧ s.acq.spw.toDrain = false)) → (s.advanceTo t).unitReady u = true → (s.advanceTo t).onIslandClock 41 = true → (s.advanceTo t).onIslandClock 42 = true → 
      exec (.spillwayUnitSend t (some u)) s = .next ((s.advanceTo t).sendStream u)) ∧
  (∀ (s : State) (t : Nat) (u : Option Captured), s.acq.spw.state = .drain → s.onIslandClock 41 = true → s.onIslandClock 42 = true → exec (.spillwayUnitSend t u) s = .next ((s.advanceTo t).sendDrain)) ∧
  (∀ (s : State) (t : Nat), s.acq.spw.state = .stopping → s.onIslandClock 41 = true → s.onIslandClock 42 = true → exec (.spillwayUnitSend t none) s = .next ((s.advanceTo t).sendEnd.spwOff 1)) ∧
  (∀ (s : State) (t : Nat) (high : Bool) (since : Nat), s.sys.optionW = false → exec (.spwFaultStop t high since) s = .next (let s1 := (s.advanceTo t).modSpw fun w => { w with fault := high }; if high = true ∧ since + usec 1 ≤ max s.now t ∧ s.acq.spw.state ≠ .off then s1.spwOff 3 else s1)) ∧
  (∀ (s : State) (t : Nat) (high : Bool) (since : Nat), s.sys.optionW = true → exec (.spwFaultStop t high since) s = .next (s.advanceTo t))

/-- The commands of housekeeping analog (R402, R403, R406, R407, R411 to R413, R418, R422, R423). -/
def Obligations.HousekeepingSettings : Prop :=
  (Completes .gaugeSequence 0x7000 false (fun _ e _ => e.len = 20 ∧ rsv (e.w 0) 2 6 = true ∧ rsvHigh (e.w 0) 13 = true ∧ 1 ≤ bits (e.w 0) 8 5 ∧ bits (e.w 0) 8 5 ≤ 16 ∧ ((List.range 16).all fun i => if i < bits (e.w 0) 8 5 then gaugeChannelOk (fieldAt e.cmd.payload (4 + i) 1) else fieldAt e.cmd.payload (4 + i) 1 == 0) = true) .ok
      (fun _ _ _ _ => [])
      (fun _ e s => s.writeBasic (.gauge e.conv) 0x7800 0 (Bank.gau e.conv fun p => { p with count := bits (e.w 0) 8 5, entries := sequenceOf (bits (e.w 0) 8 5) fun i => { channel := fieldAt e.cmd.payload (4 + i) 1 } }))) ∧
  (Completes .gaugeSequenceExpert 0x7800 false (fun _ e _ => e.len = 68 ∧ rsv (e.w 0) 2 6 = true ∧ rsvHigh (e.w 0) 13 = true ∧ 1 ≤ bits (e.w 0) 8 5 ∧ bits (e.w 0) 8 5 ≤ 16 ∧ ((List.range 16).all fun i => if i < bits (e.w 0) 8 5 then gaugeEntryOk (e.w (1 + i)) else e.w (1 + i) == 0) = true) .ok
      (fun _ _ _ _ => [])
      (fun _ e s => s.writeExpert (.gauge e.conv) 0x7800 0 (Bank.gau e.conv fun p => { p with count := bits (e.w 0) 8 5, entries := sequenceOf (bits (e.w 0) 8 5) fun i => gaugeEntryOf (e.w (1 + i)) }))) ∧
  (Completes .gaugeInject 0x7001 false (fun _ e s => e.len = 20 ∧ rsvHigh (e.w 0) 5 = true ∧ 1 ≤ bits (e.w 0) 2 3 ∧ bits (e.w 0) 2 3 ≤ 4 ∧
        ((List.range 4).all fun i => if i < bits (e.w 0) 2 3 then gaugeEntryOk (e.w (1 + i)) && !bit (e.w (1 + i)) 10 else e.w (1 + i) == 0) = true ∧ s.hk.gauge[e.conv].injected.length + bits (e.w 0) 2 3 ≤ 4) .ok
      (fun _ _ _ _ => [])
      (fun _ e s => let s1 := (s.afterSlice e.conv).2.modConv e.conv fun c => { c with injected := c.injected ++ (List.range (bits (e.w 0) 2 3)).map fun i => gaugeEntryOf (e.w (1 + i)) }
        if s.hk.gauge[e.conv].cur = none ∧ s.hk.gauge[e.conv].calRun = none then s1.converterNext e.conv (s.afterSlice e.conv).1 else s1)) ∧
  (Completes .gaugeRun 0x7002 false (fun _ e _ => e.len = 4 ∧ rsv (e.w 0) 3 5 = true ∧ gaugeTrigOk (bits (e.w 0) 8 8) = true) .ok
      (fun _ _ _ _ => [])
      (fun _ e s => s.modShadow (Bank.gau e.conv fun p => { p with run := bit (e.w 0) 2, trig := bits (e.w 0) 8 8, delay := bits (e.w 0) 16 16 }))) ∧
  (Completes .gaugeRead 0x7003 true (fun _ e _ => e.len = 4 ∧ rsv (e.w 0) 2 6 = true ∧ rsvHigh (e.w 0) 14 = true ∧ 1 ≤ bits (e.w 0) 8 6) .ok
      (fun _ e s _ => wordsLe [pack [(e.conv.val, 2), (0, 6), ((s.hk.gauge[e.conv].fifo.take (bits (e.w 0) 8 6)).length, 6), (0, 2),
          (s.hk.gauge[e.conv].fifo.length - (s.hk.gauge[e.conv].fifo.take (bits (e.w 0) 8 6)).length, 7)], pack [(s.hk.gauge[e.conv].overflows, 16), (s.hk.gauge[e.conv].overruns, 16)]] ++
        (s.hk.gauge[e.conv].fifo.take (bits (e.w 0) 8 6)).flatMap GaugeResult.bytes)
      (fun _ e s => s.modConv e.conv fun c => { c with fifo := c.fifo.drop (bits (e.w 0) 8 6), overflows := 0, overruns := 0 })) ∧
  (∀ (j : Fin 24), Completes .jetsConfig 0x7010 false (fun _ e _ => idx? 24 (bits (e.w 0) 0 5) = some j ∧ e.len = 4 ∧ rsv (e.w 0) 5 3 = true ∧ rsv (e.w 0) 11 1 = true ∧ rsvHigh (e.w 0) 14 = true ∧ bits (e.w 0) 12 2 ≠ 3) .ok
      (fun _ _ _ _ => [])
      (fun _ e s => s.modShadow (Bank.jet j fun p => { p with range := bits (e.w 0) 8 2, ref := bit (e.w 0) 10, parkLevel := bits (e.w 0) 12 2 }))) ∧
  (∀ (j : Fin 24) (old codes put : List Nat) (clamped : Nat), Completes .jetsQueue 0x7011 false (fun _ e s => idx? 24 (bits (e.w 0) 0 5) = some j ∧ e.len = 4 + 2 * bits (e.w 0) 16 7 ∧ rsv (e.w 0) 5 3 = true ∧ rsv (e.w 0) 9 7 = true ∧ rsvHigh (e.w 0) 23 = true ∧ bits (e.w 0) 16 7 ≤ 64 ∧
        old = (if bit (e.w 0) 8 = true then [] else s.hk.jets[j].queue) ∧ old.length + bits (e.w 0) 16 7 ≤ 64 ∧ codes = (List.range (bits (e.w 0) 16 7)).map (fun i => fieldAt e.cmd.payload (4 + 2 * i) 2) ∧
        put = codes.map (clampTo s.limits.jetsMin[j] s.limits.jetsMax[j]) ∧ clamped = ((codes.zip put).filter fun x => decide (x.1 ≠ x.2)).length ∧ clamped = 0) .ok
      (fun _ e _ _ => wordsLe [pack [(old.length + bits (e.w 0) 16 7, 7), (0, 9), (clamped, 7)]] ++ put.flatMap (leBytes 2))
      (fun _ _ s => s.modJets j fun c => { c with queue := old ++ put })) ∧
  (∀ (j : Fin 24) (old codes put : List Nat) (clamped : Nat), Completes .jetsQueue 0x7011 false (fun _ e s => idx? 24 (bits (e.w 0) 0 5) = some j ∧ e.len = 4 + 2 * bits (e.w 0) 16 7 ∧ rsv (e.w 0) 5 3 = true ∧ rsv (e.w 0) 9 7 = true ∧ rsvHigh (e.w 0) 23 = true ∧ bits (e.w 0) 16 7 ≤ 64 ∧
        old = (if bit (e.w 0) 8 = true then [] else s.hk.jets[j].queue) ∧ old.length + bits (e.w 0) 16 7 ≤ 64 ∧ codes = (List.range (bits (e.w 0) 16 7)).map (fun i => fieldAt e.cmd.payload (4 + 2 * i) 2) ∧
        put = codes.map (clampTo s.limits.jetsMin[j] s.limits.jetsMax[j]) ∧ clamped = ((codes.zip put).filter fun x => decide (x.1 ≠ x.2)).length ∧ clamped ≠ 0) .limitClamped
      (fun _ e _ _ => wordsLe [pack [(old.length + bits (e.w 0) 16 7, 7), (0, 9), (clamped, 7)]] ++ put.flatMap (leBytes 2))
      (fun _ _ s => s.modJets j fun c => { c with queue := old ++ put })) ∧
  (∀ (tm : Fin 4), Completes .jetsEnable 0x7012 false (fun _ e _ => e.len = 12 ∧ rsvHigh (e.w 0) 24 = true ∧ rsvHigh (e.w 1) 24 = true ∧ rsv (e.w 2) 2 14 = true ∧ rsvHigh (e.w 2) 26 = true ∧ 1 ≤ bits (e.w 2) 16 10 ∧ bits (e.w 2) 16 10 ≤ 1000 ∧ bits (e.w 2) 0 2 = tm.val) .ok
      (fun _ _ _ _ => [])
      (fun _ e s => s.forEach (maskIdx 24 (e.w 0)) fun j s => s.modShadow (Bank.jet j fun p => { p with enable := bit (e.w 1) j.val, timer := tm, div := bits (e.w 2) 16 10 }))) ∧
  (Completes .pwmConfig 0x7020 false (fun _ e s => e.len = 24 ∧ pwmHeadOk e = true ∧ rsvHigh (e.w 1) 26 = true ∧ rsvHigh (e.w 2) 17 = true ∧ 1526 ≤ bits (e.w 1) 0 26 ∧ bits (e.w 1) 0 26 ≤ 50000000 ∧ bits (e.w 2) 0 17 ≤ 65536 ∧ (let x := ((s.modShadow (Bank.pw e.unit fun p => { pwmHead e p with freq := bits (e.w 1) 0 26, duty := bits (e.w 2) 0 17 })).writeBasic (.pwm e.unit) 0x7820 128 (Bank.pw e.unit fun p => { p with period := roundDivN 100000000 (bits (e.w 1) 0 26) })).writeBasic (.pwm e.unit) 0x7820 129 (Bank.pw e.unit fun p => { p with psrc := 0 });
        let y := ((x).writeBasic (.pwm e.unit) 0x7820 130 (Bank.pw e.unit fun p => { p with rise := 0 })).writeBasic (.pwm e.unit) 0x7820 131 (Bank.pw e.unit fun p => { p with fall := if bits (e.w 2) 0 17 = 65536 then 0xFFFF else roundDivN (bits (e.w 2) 0 17 * x.shadow.pwm[e.unit].periodIn s.active.timer) 65536 });
        (y.pwmClamp e.unit).2 = false)) .ok
      (fun _ e _ w => w.pwmReply e.unit)
      (fun _ e s => let x := ((s.modShadow (Bank.pw e.unit fun p => { pwmHead e p with freq := bits (e.w 1) 0 26, duty := bits (e.w 2) 0 17 })).writeBasic (.pwm e.unit) 0x7820 128 (Bank.pw e.unit fun p => { p with period := roundDivN 100000000 (bits (e.w 1) 0 26) })).writeBasic (.pwm e.unit) 0x7820 129 (Bank.pw e.unit fun p => { p with psrc := 0 });
        let y := ((x).writeBasic (.pwm e.unit) 0x7820 130 (Bank.pw e.unit fun p => { p with rise := 0 })).writeBasic (.pwm e.unit) 0x7820 131 (Bank.pw e.unit fun p => { p with fall := if bits (e.w 2) 0 17 = 65536 then 0xFFFF else roundDivN (bits (e.w 2) 0 17 * x.shadow.pwm[e.unit].periodIn s.active.timer) 65536 });
        (y.pwmClamp e.unit).1)) ∧
  (Completes .pwmConfig 0x7020 false (fun _ e s => e.len = 24 ∧ pwmHeadOk e = true ∧ rsvHigh (e.w 1) 26 = true ∧ rsvHigh (e.w 2) 17 = true ∧ 1526 ≤ bits (e.w 1) 0 26 ∧ bits (e.w 1) 0 26 ≤ 50000000 ∧ bits (e.w 2) 0 17 ≤ 65536 ∧ (let x := ((s.modShadow (Bank.pw e.unit fun p => { pwmHead e p with freq := bits (e.w 1) 0 26, duty := bits (e.w 2) 0 17 })).writeBasic (.pwm e.unit) 0x7820 128 (Bank.pw e.unit fun p => { p with period := roundDivN 100000000 (bits (e.w 1) 0 26) })).writeBasic (.pwm e.unit) 0x7820 129 (Bank.pw e.unit fun p => { p with psrc := 0 });
        let y := ((x).writeBasic (.pwm e.unit) 0x7820 130 (Bank.pw e.unit fun p => { p with rise := 0 })).writeBasic (.pwm e.unit) 0x7820 131 (Bank.pw e.unit fun p => { p with fall := if bits (e.w 2) 0 17 = 65536 then 0xFFFF else roundDivN (bits (e.w 2) 0 17 * x.shadow.pwm[e.unit].periodIn s.active.timer) 65536 });
        (y.pwmClamp e.unit).2 = true)) .limitClamped
      (fun _ e _ w => w.pwmReply e.unit)
      (fun _ e s => let x := ((s.modShadow (Bank.pw e.unit fun p => { pwmHead e p with freq := bits (e.w 1) 0 26, duty := bits (e.w 2) 0 17 })).writeBasic (.pwm e.unit) 0x7820 128 (Bank.pw e.unit fun p => { p with period := roundDivN 100000000 (bits (e.w 1) 0 26) })).writeBasic (.pwm e.unit) 0x7820 129 (Bank.pw e.unit fun p => { p with psrc := 0 });
        let y := ((x).writeBasic (.pwm e.unit) 0x7820 130 (Bank.pw e.unit fun p => { p with rise := 0 })).writeBasic (.pwm e.unit) 0x7820 131 (Bank.pw e.unit fun p => { p with fall := if bits (e.w 2) 0 17 = 65536 then 0xFFFF else roundDivN (bits (e.w 2) 0 17 * x.shadow.pwm[e.unit].periodIn s.active.timer) 65536 });
        (y.pwmClamp e.unit).1)) ∧
  (Completes .pwmConfigExpert 0x7820 false (fun _ e s => e.len = 24 ∧ pwmHeadOk e = true ∧ e.w 1 = 0 ∧ e.w 2 = 0 ∧ 2 ≤ bits (e.w 3) 0 16 ∧ bits (e.w 3) 16 3 ≤ 4 ∧
        (bits (e.w 3) 16 3 ≠ 0 ∨ (bits (e.w 4) 0 16 < bits (e.w 3) 0 16 ∧ (bits (e.w 4) 16 16 < bits (e.w 3) 0 16 ∨ bits (e.w 4) 16 16 = 0xFFFF))) ∧ (let y := (((((s.modShadow (Bank.pw e.unit (pwmHead e))).writeExpert (.pwm e.unit) 0x7820 128 (Bank.pw e.unit fun p => { p with period := bits (e.w 3) 0 16 })).writeExpert (.pwm e.unit) 0x7820 129 (Bank.pw e.unit fun p => { p with psrc := bits (e.w 3) 16 3 })).writeExpert (.pwm e.unit) 0x7820 130 (Bank.pw e.unit fun p => { p with rise := bits (e.w 4) 0 16 })).writeExpert (.pwm e.unit) 0x7820 131 (Bank.pw e.unit fun p => { p with fall := bits (e.w 4) 16 16 })).writeExpert (.pwm e.unit) 0x7820 132 (Bank.pw e.unit fun p => { p with dead := bits (e.w 5) 0 10 });
        (y.pwmClamp e.unit).2 = false)) .ok
      (fun _ e _ w => w.pwmReply e.unit)
      (fun _ e s => let y := (((((s.modShadow (Bank.pw e.unit (pwmHead e))).writeExpert (.pwm e.unit) 0x7820 128 (Bank.pw e.unit fun p => { p with period := bits (e.w 3) 0 16 })).writeExpert (.pwm e.unit) 0x7820 129 (Bank.pw e.unit fun p => { p with psrc := bits (e.w 3) 16 3 })).writeExpert (.pwm e.unit) 0x7820 130 (Bank.pw e.unit fun p => { p with rise := bits (e.w 4) 0 16 })).writeExpert (.pwm e.unit) 0x7820 131 (Bank.pw e.unit fun p => { p with fall := bits (e.w 4) 16 16 })).writeExpert (.pwm e.unit) 0x7820 132 (Bank.pw e.unit fun p => { p with dead := bits (e.w 5) 0 10 });
        (y.pwmClamp e.unit).1)) ∧
  (Completes .pwmConfigExpert 0x7820 false (fun _ e s => e.len = 24 ∧ pwmHeadOk e = true ∧ e.w 1 = 0 ∧ e.w 2 = 0 ∧ 2 ≤ bits (e.w 3) 0 16 ∧ bits (e.w 3) 16 3 ≤ 4 ∧
        (bits (e.w 3) 16 3 ≠ 0 ∨ (bits (e.w 4) 0 16 < bits (e.w 3) 0 16 ∧ (bits (e.w 4) 16 16 < bits (e.w 3) 0 16 ∨ bits (e.w 4) 16 16 = 0xFFFF))) ∧ (let y := (((((s.modShadow (Bank.pw e.unit (pwmHead e))).writeExpert (.pwm e.unit) 0x7820 128 (Bank.pw e.unit fun p => { p with period := bits (e.w 3) 0 16 })).writeExpert (.pwm e.unit) 0x7820 129 (Bank.pw e.unit fun p => { p with psrc := bits (e.w 3) 16 3 })).writeExpert (.pwm e.unit) 0x7820 130 (Bank.pw e.unit fun p => { p with rise := bits (e.w 4) 0 16 })).writeExpert (.pwm e.unit) 0x7820 131 (Bank.pw e.unit fun p => { p with fall := bits (e.w 4) 16 16 })).writeExpert (.pwm e.unit) 0x7820 132 (Bank.pw e.unit fun p => { p with dead := bits (e.w 5) 0 10 });
        (y.pwmClamp e.unit).2 = true)) .limitClamped
      (fun _ e _ w => w.pwmReply e.unit)
      (fun _ e s => let y := (((((s.modShadow (Bank.pw e.unit (pwmHead e))).writeExpert (.pwm e.unit) 0x7820 128 (Bank.pw e.unit fun p => { p with period := bits (e.w 3) 0 16 })).writeExpert (.pwm e.unit) 0x7820 129 (Bank.pw e.unit fun p => { p with psrc := bits (e.w 3) 16 3 })).writeExpert (.pwm e.unit) 0x7820 130 (Bank.pw e.unit fun p => { p with rise := bits (e.w 4) 0 16 })).writeExpert (.pwm e.unit) 0x7820 131 (Bank.pw e.unit fun p => { p with fall := bits (e.w 4) 16 16 })).writeExpert (.pwm e.unit) 0x7820 132 (Bank.pw e.unit fun p => { p with dead := bits (e.w 5) 0 10 });
        (y.pwmClamp e.unit).1)) ∧
  (Completes .timerConfig 0x7021 false (fun _ e _ => e.len = 8 ∧ rsvHigh (e.w 0) 4 = true ∧ 2 ≤ e.w 1 ∧ (bit (e.w 0) 3 = true → 100000000 % e.w 1 = 0)) .ok
      (fun _ _ _ _ => [])
      (fun _ e s => s.modShadow (Bank.tim e.conv fun x => { x with enable := bit (e.w 0) 2, align := bit (e.w 0) 3, period := e.w 1 })))

/-- What housekeeping analog does by its own running (R400 to R428). -/
def Obligations.HousekeepingRuns : Prop :=
  (∀ (s : State) (t : Nat) (n : Fin 4) (a : Instant), (s.advanceTo t).tickAt n = some a → exec (.timerTick t n) s = .next ((((s.advanceTo t).tickUsers n a).modTimer n fun u => { u with start := a, ticked := true }).boundary (.timer n))) ∧
  (∀ (s : State) (t : Nat) (g : Fin 4) (a : Instant) (rest : List Instant), s.hk.gauge[g].trigs = a :: rest → s.active.gauge[g].run = true → (s.advanceTo t).nothingToRun g = false → s.hk.gauge[g].pass = none → s.hk.gauge[g].startAt = none → 
      exec (.gaugeTriggerEvent t g) s = .next (((s.advanceTo t).modConv g fun c => { c with trigs := rest }).modConv g fun c => { c with startAt := some (a + tenNs s.active.gauge[g].delay) })) ∧
  (∀ (s : State) (t : Nat) (g : Fin 4) (a : Instant) (rest : List Instant), s.hk.gauge[g].trigs = a :: rest → s.active.gauge[g].run = true → (s.advanceTo t).nothingToRun g = false → s.hk.gauge[g].overrun a = true → 
      exec (.gaugeTriggerEvent t g) s = .next (((s.advanceTo t).modConv g fun c => { c with trigs := rest }).modConv g fun c => { c with overruns := satAdd 16 c.overruns 1 })) ∧
  (∀ (s : State) (t : Nat) (g : Fin 4) (a b : Instant) (rest : List Instant), s.hk.gauge[g].trigs = a :: rest → s.active.gauge[g].run = true → (s.advanceTo t).nothingToRun g = false → s.hk.gauge[g].overrun a = false → s.hk.gauge[g].startAt = some b → 
      exec (.gaugeTriggerEvent t g) s = .next ((s.advanceTo t).modConv g fun c => { c with trigs := rest })) ∧
  (∀ (s : State) (t : Nat) (g : Fin 4) (a : Instant) (rest : List Instant), s.hk.gauge[g].trigs = a :: rest → s.active.gauge[g].run = false ∨ (s.advanceTo t).nothingToRun g = true → 
      exec (.gaugeTriggerEvent t g) s = .next ((s.advanceTo t).modConv g fun c => { c with trigs := rest })) ∧
  (∀ (s : State) (t : Nat) (g : Fin 4) (a : Instant), s.hk.gauge[g].startAt = some a → a ≤ max s.now t → s.hk.gauge[g].cur = none → s.hk.gauge[g].pass = none → s.hk.gauge[g].calRun = none → s.hk.gauge[g].injected = [] → s.sys.pstate ≤ 1 → 
      exec (.gaugePassStart t g) s = .next (((s.advanceTo t).modConv g fun c => { c with startAt := none, pass := some { next := 0, late := decide (a < c.freeAt), shed := false }, cal := c.cal.take (s.advanceTo t).dt11 }).converterNext g (max a s.hk.gauge[g].freeAt))) ∧
  (∀ (s : State) (t : Nat) (g : Fin 4) (raw : Int) (more : List (Fin 4 × Int)) (v : GaugeCur), s.hk.gauge[g].cur = some v → v.boundary ≤ max s.now t → exec (.gaugeResult t g (raw, more)) s = .next (let r := (v.entry.channel, ((s.advanceTo t).gaugeValueOf g v raw).1)
        let s1 := ((s.advanceTo t).gaugeResult g v raw).converterNext g v.boundary
        let x := (if s.hk.gauge[g].pass ≠ none ∧ s1.hk.gauge[g].pass = none then s1.passEnd g v.boundary else s1).gaugeEnds more
        x.1.forEach (List.finRange 8) fun n s => s.judgeInterlock (r :: x.2) n)) ∧
  (∀ (s : State) (t : Nat) (j : Fin 24), s.hk.jets[j].tickDue = true → exec (.jetsTick t j) s = .next (let s1 := ((s.advanceTo t).modJets j fun c => { c with tickDue := false, cal := c.cal.take (s.advanceTo t).dt11 }).boundary (.jets j)
        if s1.parked j = true then s1 else s1.modJets j fun c => c.play s1.limits.jetsMin[j] s1.limits.jetsMax[j] s1.now)) ∧
  (∀ (s : State) (t : Nat) (j : Fin 24) (x : Nat) (a : Instant), s.hk.jets[j].hold = some (x, a) → a + nsec 300 ≤ max s.now t → exec (.jetsDeglitchEnd t j) s = .next ((s.advanceTo t).modJets j fun c => { c with hold := none })) ∧
  (∀ (s : State) (t : Nat) (j : Fin 24) (a : Instant), s.hk.jets[j].rangePark = some a → a + usec 20 ≤ max s.now t → exec (.jetsParkTimer t j) s = .next ((s.advanceTo t).modJets j fun c => { c with rangePark := none })) ∧
  (∀ (s : State) (t : Nat) (n : Fin 8) (a : Instant), (s.advanceTo t).periodEnd n = some a → exec (.pwmPeriodEnd t n) s = .next (let s1 := (s.advanceTo t).boundary (.pwm n); if s1.active.pwm[n].enable = true then s1.startPeriod n a else s1.modPwm n fun _ => {})) ∧
  (∀ (s : State) (t : Nat) (n : Fin 8), s.hk.pwm[n].running = true → s.hk.pwm[n].centre = true → (s.advanceTo t).centreAt n ≤ max s.now t → 
      exec (.pwmCentreEvent t n) s = .next (((s.advanceTo t).modPwm n fun u => { u with centre := false }).trigger (0x20 + n.val) ((s.advanceTo t).centreAt n))) ∧
  (∀ (k : Fin 5) (g : Fin 4), Completes .hkCalibrateExpert 0x7830 false (fun _ e _ => idx? 5 (bits (e.w 0) 16 3) = some k ∧ e.len = 20 ∧ rsvHigh (e.w 0) 19 = true ∧ bits (e.w 0) 0 8 = 0x81 ∧ idx? 4 (bits (e.w 0) 8 8) = some g) .ok
      (fun _ _ _ _ => wordsLe [pack [(0, 8), (0xFF, 8), (0, 16)]])
      (fun _ e s => (s.modConv g fun c => { c with cal := c.cal.write k (Vector.ofFn fun i : Fin 4 => calOfWord (e.w (1 + i.val))) }).refreshGauge)) ∧
  (∀ (k : Fin 5) (j : Fin 24), Completes .hkCalibrateExpert 0x7830 false (fun _ e _ => idx? 5 (bits (e.w 0) 16 3) = some k ∧ e.len = 20 ∧ rsvHigh (e.w 0) 19 = true ∧ bits (e.w 0) 0 8 = 0x82 ∧ idx? 24 (bits (e.w 0) 8 8) = some j) .ok
      (fun _ _ _ _ => wordsLe [pack [(0, 8), (0xFF, 8), (0, 16)]])
      (fun _ e s => s.modJets j fun c => { c with cal := c.cal.write k (Vector.ofFn fun i : Fin 4 => calOfWord (e.w (1 + i.val))) })) ∧
  (∀ (g : Fin 4), Starts .hkCalibrate 0x7030 false (fun _ e s => e.len = 4 ∧ rsvHigh (e.w 0) 16 = true ∧ bits (e.w 0) 0 8 = 1 ∧ idx? 4 (bits (e.w 0) 8 8) = some g ∧ s.active.gauge[g].run = false ∧ s.hk.gauge[g].pass = none ∧ s.hk.gauge[g].calRun = none)
      (fun _ e s => (s.afterSlice g).2.modConv g fun c => { c with calRun := some { seq := e.seq, kind := 1, start := if c.cur = none then some (s.afterSlice g).1 else none, temp := s.dt11 } })) ∧
  (∀ (j : Fin 24), Starts .hkCalibrate 0x7030 false (fun _ e s => e.len = 4 ∧ rsvHigh (e.w 0) 16 = true ∧ (bits (e.w 0) 0 8 = 2 ∨ bits (e.w 0) 0 8 = 3) ∧ idx? 24 (bits (e.w 0) 8 8) = some j ∧ s.hk.jets[j].queue = [] ∧ s.hk.jets[j].calRun = none)
      (fun _ e s => (s.modJets j fun c => { c with calRun := some { seq := e.seq, kind := bits (e.w 0) 0 8, start := some s.now, temp := s.dt11 } }).parkJets)) ∧
  (∀ (g : Fin 4), Completes .hkCalibrate 0x7030 false (fun _ e s => e.len = 4 ∧ rsvHigh (e.w 0) 16 = true ∧ bits (e.w 0) 0 8 = 1 ∧ idx? 4 (bits (e.w 0) 8 8) = some g ∧ (s.active.gauge[g].run = true ∨ s.hk.gauge[g].pass ≠ none ∨ s.hk.gauge[g].calRun ≠ none)) .precondition
      (fun _ _ _ _ => [])
      (fun _ _ s => s)) ∧
  (∀ (j : Fin 24), Completes .hkCalibrate 0x7030 false (fun _ e s => e.len = 4 ∧ rsvHigh (e.w 0) 16 = true ∧ (bits (e.w 0) 0 8 = 2 ∨ bits (e.w 0) 0 8 = 3) ∧ idx? 24 (bits (e.w 0) 8 8) = some j ∧ (s.hk.jets[j].queue ≠ [] ∨ s.hk.jets[j].calRun ≠ none)) .precondition
      (fun _ _ _ _ => [])
      (fun _ _ s => s)) ∧
  (∀ (s : State) (t : Nat) (g : Fin 4) (m : List (Int × Int)) (k : HkCal) (a : Instant), s.hk.gauge[g].calRun = some k → k.start = some a → a + usec (hkMicros k.kind) ≤ max s.now t → 
      exec (.hkCalibrationEnd t (.gauge g) m) s = .next (let x := s.hk.gauge[g].cal.judge k.kind 0 k.temp m
        ((((s.advanceTo t).modConv g fun c => { c with calRun := none, freeAt := max s.now t, idleAt := max s.now t, cal := x.2 }).converterNext g (max s.now t)).refreshGauge).hkDone k g.val 0 (.gauge g) s.hk.gauge[g].cal.pinCount x.1 m)) ∧
  (∀ (s : State) (t : Nat) (j : Fin 24) (m : List (Int × Int)) (k : HkCal) (a : Instant), s.hk.jets[j].calRun = some k → k.start = some a → a + usec (hkMicros k.kind) ≤ max s.now t → 
      exec (.hkCalibrationEnd t (.jets j) m) s = .next (let x := s.hk.jets[j].cal.judge k.kind s.active.jets[j].range k.temp m
        ((s.advanceTo t).modJets j fun c => { c with calRun := none, cal := x.2 }).hkDone k j.val s.active.jets[j].range (.jets j) s.hk.jets[j].cal.pinCount x.1 m))

/-- Self-test and the rotating spare (R430, R449 to R455). -/
def Obligations.SelfTestsRun : Prop :=
  (Starts .bistRun 0x8000 true (fun _ e s => e.len = 4 ∧ testOk (bits (e.w 0) 0 8) = true ∧ rsvHigh (e.w 0) 8 = true ∧ s.testRun (bits (e.w 0) 0 8) = none ∧ s.sys.pstate = 0 ∧ s.testAllowed (bits (e.w 0) 0 8) = true ∧ ((testEngine (bits (e.w 0) 0 8)).map s.engineRun = none ∨ (testEngine (bits (e.w 0) 0 8)).map s.engineRun = some .now))
      (fun _ e s => (if testEngine (bits (e.w 0) 0 8) = s.sys.bist.spare ∧ s.sys.bist.spare.isSome = true then s.dropPeriodic else s).startTest (bits (e.w 0) 0 8) (some (e.seq, e.cmd.tag)) false none)) ∧
  (∀ (n : Fin 8) (x : Fin 9), Starts .bistRun 0x8000 true (fun _ e s => e.len = 4 ∧ testOk (bits (e.w 0) 0 8) = true ∧ rsvHigh (e.w 0) 8 = true ∧ s.testRun (bits (e.w 0) 0 8) = none ∧ s.sys.pstate = 0 ∧ s.testAllowed (bits (e.w 0) 0 8) = true ∧ (testEngine (bits (e.w 0) 0 8)).map s.engineRun = some (.takeOver n x) ∧ (s.sys.bist.takeover.any fun k => decide (k.kind ≠ .periodic)) = false)
      (fun _ e s => s.freeSpare x |>.modBist fun b => { b with takeover := some { lane := n, kind := .onDemand e.seq e.cmd.tag, start := s.now } })) ∧
  (∀ (r : TestRun), Completes .bistRun 0x8000 true (fun _ e s => e.len = 4 ∧ testOk (bits (e.w 0) 0 8) = true ∧ rsvHigh (e.w 0) 8 = true ∧ s.testRun (bits (e.w 0) 0 8) = some r ∧ r.cmd ≠ none) .resourceBusy
      (fun _ _ _ _ => [])
      (fun _ _ s => s)) ∧
  (∀ (r : TestRun), Starts .bistRun 0x8000 true (fun _ e s => e.len = 4 ∧ testOk (bits (e.w 0) 0 8) = true ∧ rsvHigh (e.w 0) 8 = true ∧ s.testRun (bits (e.w 0) 0 8) = some r ∧ r.cmd = none)
      (fun _ e s => s.modRun (bits (e.w 0) 0 8) fun r => { r with cmd := some (e.seq, e.cmd.tag) })) ∧
  (Completes .bistRun 0x8000 true (fun _ e s => e.len = 4 ∧ testOk (bits (e.w 0) 0 8) = true ∧ rsvHigh (e.w 0) 8 = true ∧ s.testRun (bits (e.w 0) 0 8) = none ∧ (s.sys.pstate ≠ 0 ∨ s.testAllowed (bits (e.w 0) 0 8) = false)) .precondition
      (fun _ _ _ _ => [])
      (fun _ _ s => s)) ∧
  (Completes .bistResult 0x8001 true (fun _ e _ => e.len = 4 ∧ bits (e.w 0) 0 8 = 0 ∧ rsvHigh (e.w 0) 8 = true) .ok
      (fun _ _ s _ => wordsLe s.integrityWords ++ s.sys.integ.lastStamp.bytes)
      (fun _ _ s => s)) ∧
  (Completes .bistResult 0x8001 true (fun _ e _ => e.len = 4 ∧ testOk (bits (e.w 0) 0 8) = true ∧ rsvHigh (e.w 0) 8 = true ∧ bits (e.w 0) 0 8 ≠ 0) .ok
      (fun _ e s _ => (((s.sys.bist.records.find? fun x => decide (x.1 = bits (e.w 0) 0 8)).map Prod.snd).getD {}).bytes (bits (e.w 0) 0 8))
      (fun _ _ s => s)) ∧
  (Completes .bistSchedule 0x8002 false (fun _ e _ => e.len = 4 ∧ rsvHigh (e.w 0) 1 = true) .ok
      (fun _ _ _ _ => [])
      (fun _ e s => if bit (e.w 0) 0 = true then s.modBist fun b => { b with enable := true } else (s.modBist fun b => { b with enable := false }).dropPeriodic)) ∧
  (Starts .bistAbort 0x8003 true (fun _ e s => e.len = 4 ∧ testOk (bits (e.w 0) 0 8) = true ∧ rsvHigh (e.w 0) 8 = true ∧ s.testRun (bits (e.w 0) 0 8) ≠ none)
      (fun _ e s => s.modRun (bits (e.w 0) 0 8) fun r => { r with stop := 1, aborts := r.aborts ++ [e.seq] })) ∧
  (Completes .bistAbort 0x8003 true (fun _ e s => e.len = 4 ∧ testOk (bits (e.w 0) 0 8) = true ∧ rsvHigh (e.w 0) 8 = true ∧ s.testRun (bits (e.w 0) 0 8) = none) .precondition
      (fun _ _ _ _ => [])
      (fun _ _ s => s)) ∧
  (∀ (s : State) (t : Nat) (bulk : Bool), s.testing = true → (s.advanceTo t).cisternFree bulk = true → s.sys.bist.cisternAt[(if bulk then 1 else 0 : Fin 2)] + secs 10 ≤ max s.now t → 
      exec (.cisternTestSchedule t bulk) s = .next (((s.advanceTo t).modBist fun b => { b with cisternAt := b.cisternAt.set (if bulk then 1 else 0 : Fin 2) (max s.now t) }).startPeriodic (if bulk = true then 0x31 else 0x30))) ∧
  (∀ (s : State) (t : Nat) (e : Fin 9) (n : Fin 8), s.sys.bist.due = [] → s.sys.bist.spare = some e → s.testing = true → s.sys.bist.stepAt + msec 250 ≤ max s.now t → s.sys.bist.takeover = none → s.testRun (0x10 + e.val) = none → s.nextRotation = some n → 
      exec (.rotationStep t) s = .next (((s.advanceTo t).modBist fun b => { b with stepAt := max s.now t }).modBist fun b => { b with lastLane := some n, takeover := some { lane := n, kind := .periodic, start := max s.now t } })) ∧
  (∀ (s : State) (t : Nat) (e : Fin 9), s.sys.bist.due = [] → s.sys.bist.spare = some e → s.testing = true → s.sys.bist.stepAt + msec 250 ≤ max s.now t → s.sys.bist.takeover = none → s.testRun (0x10 + e.val) = none → s.nextRotation = none → 
      exec (.rotationStep t) s = .next (((s.advanceTo t).modBist fun b => { b with stepAt := max s.now t }).startPeriodic (0x10 + e.val))) ∧
  (∀ (s : State) (t : Nat) (k : Takeover) (e old : Fin 9) (same : Bool), s.sys.bist.takeover = some k → s.sys.bist.spare = some e → s.lanes[k.lane].acq.state = .locked → k.start + usec 12 ≤ max s.now t → s.lanes[k.lane].rx.markAt = some (max s.now t) → k.kind ≠ .periodic ∨ same = true → idx? 9 s.lanes[k.lane].eq.engine = some old → s.testRun (0x10 + e.val) = none → 
      exec (.engineSwap t same) s = .next (((s.advanceTo t).swapEngine k e old same).serveDue)) ∧
  (∀ (s : State) (t : Nat) (k : Takeover) (e : Fin 9), s.sys.bist.takeover = some k → s.sys.bist.spare = some e → s.lanes[k.lane].acq.state = .locked → k.start + usec 12 ≤ max s.now t → s.lanes[k.lane].rx.markAt = some (max s.now t) → k.kind = .periodic → s.testRun (0x10 + e.val) = none → 
      exec (.engineSwap t false) s = .next (((s.advanceTo t).modBist fun b => { b with takeover := none }).startTest (0x10 + e.val) none true (some k.lane))) ∧
  (∀ (s : State) (t id : Nat) (failure : Option Nat) (r : TestRun), s.testRun id = some r → (s.advanceTo t).sliceRan r = true → r.slices + 1 < testSlices id → (s.advanceTo t).sliceStop r = 0 → 
      exec (.bistSliceEnd t id failure) s = .next ((s.advanceTo t).modRun id fun r => { r with slices := r.slices + 1, sliceAt := max s.now t, fail := r.fail.orElse fun _ => failure })) ∧
  (∀ (s : State) (t id : Nat) (failure : Option Nat) (r : TestRun), s.testRun id = some r → (s.advanceTo t).sliceRan r = true → testSlices id ≤ r.slices + 1 → 
      exec (.bistSliceEnd t id failure) s = .next ((((s.advanceTo t).modRun id fun r => { r with slices := r.slices + 1, sliceAt := max s.now t, fail := r.fail.orElse fun _ => failure }).endTest id (if r.stop = 1 then 1 else 0)).serveDue)) ∧
  (∀ (s : State) (t id : Nat) (failure : Option Nat) (r : TestRun), s.testRun id = some r → (s.advanceTo t).sliceRan r = true → r.slices + 1 < testSlices id → (s.advanceTo t).sliceStop r ≠ 0 → 
      exec (.bistSliceEnd t id failure) s = .next ((((s.advanceTo t).modRun id fun r => { r with slices := r.slices + 1, sliceAt := max s.now t, fail := r.fail.orElse fun _ => failure }).endTest id ((s.advanceTo t).sliceStop r)).serveDue)) ∧
  (∀ (s : State) (t id : Nat) (failure : Option Nat) (r : TestRun), s.testRun id = some r → (s.advanceTo t).sliceRan r = false → (s.advanceTo t).sliceStop r ≠ 0 → 
      exec (.bistSliceEnd t id failure) s = .next ((s.advanceTo t).endTest id ((s.advanceTo t).sliceStop r)).serveDue)

/-- Lane power states (R249 to R252, R453, R472). That an entry in preparation only stores the state commanded is a reading (log entry 56). -/
def Obligations.LanePowerChanges : Prop :=
  (∀ (tg : LanePower), Completes .lanePower 0x9002 true (fun _ e s => e.len = 4 ∧ bits (e.w 0) 24 2 ≤ 2 ∧ rsvHigh (e.w 0) 26 = true ∧ ((powerLanes (e.w 0)).any s.isShed) = false ∧ tg = (match bits (e.w 0) 24 2 with | 0 => LanePower.l0 | 1 => .l1 | _ => .l2) ∧ s.sys.pstate = 0 ∧ s.sys.pow.entry = none ∧ (let s1 := s.forEach (powerLanes (e.w 0)) fun r s => (s.commandPower r tg).sendPower tg r; s1.powerDone (powerLanes (e.w 0))) = true) .ok
      (fun _ _ _ _ => [])
      (fun _ e s => s.forEach (powerLanes (e.w 0)) fun r s => (s.commandPower r tg).sendPower tg r)) ∧
  (∀ (tg : LanePower), Starts .lanePower 0x9002 true (fun _ e s => e.len = 4 ∧ bits (e.w 0) 24 2 ≤ 2 ∧ rsvHigh (e.w 0) 26 = true ∧ ((powerLanes (e.w 0)).any s.isShed) = false ∧ tg = (match bits (e.w 0) 24 2 with | 0 => LanePower.l0 | 1 => .l1 | _ => .l2) ∧ s.sys.pstate = 0 ∧ s.sys.pow.entry = none ∧ (let s1 := s.forEach (powerLanes (e.w 0)) fun r s => (s.commandPower r tg).sendPower tg r; s1.powerDone (powerLanes (e.w 0))) = false)
      (fun _ e s => s.forEach (powerLanes (e.w 0)) fun r s => (s.commandPower r tg).sendPower tg r)) ∧
  (∀ (tg : LanePower), Completes .lanePower 0x9002 true (fun _ e s => e.len = 4 ∧ bits (e.w 0) 24 2 ≤ 2 ∧ rsvHigh (e.w 0) 26 = true ∧ ((powerLanes (e.w 0)).any s.isShed) = false ∧ tg = (match bits (e.w 0) 24 2 with | 0 => LanePower.l0 | 1 => .l1 | _ => .l2) ∧ (s.sys.pstate ≠ 0 ∨ s.sys.pow.entry ≠ none)) .ok
      (fun _ _ _ _ => [])
      (fun _ e s => s.forEach (powerLanes (e.w 0)) fun r s => s.commandPower r tg)) ∧
  (Completes .lanePower 0x9002 true (fun _ e s => e.len = 4 ∧ bits (e.w 0) 24 2 ≤ 2 ∧ rsvHigh (e.w 0) 26 = true ∧ ((powerLanes (e.w 0)).any s.isShed) = true) .precondition
      (fun _ _ _ _ => [])
      (fun _ _ s => s)) ∧
  (∀ (s : State) (t : Nat) (r : LaneRef), ((s.powerOf r).2.1 = .l1 ∧ (s.powerOf r).1 = .l0 ∧ (s.powerOf r).2.2 + usec 1 ≤ max s.now t) ∨ ((s.powerOf r).2.1 = .l2 ∧ (s.powerOf r).1 ≠ .l2 ∧ (s.powerOf r).2.2 + usec 10 ≤ max s.now t) → 
      exec (.lanePowerEntryComplete t r) s = .next (((if (s.powerOf r).2.1 = .l2 then (s.advanceTo t).leaveXfer r else s.advanceTo t).setPower r (s.powerOf r).2.1 (s.powerOf r).2.1).powerReplies)) ∧
  (∀ (s : State) (t : Nat) (r : LaneRef), ((s.powerOf r).2.1 = .l0 ∧ (s.powerOf r).1 ≠ .l0) ∨ ((s.powerOf r).2.1 = .l1 ∧ (s.powerOf r).1 = .l2) → (s.powerOf r).1 ≠ .l2 ∨ s.engineTested r = false → 
      exec (.lanePowerExitComplete t r) s = .next ((((s.advanceTo t).leavePower r).setPower r (s.powerOf r).2.1 (s.powerOf r).2.1).powerReplies))

/-- Updating and booting (R486 to R496, R500). The outcomes of hashes and signatures are operands of the rows (log entry 15). -/
def Obligations.BootAndUpdate : Prop :=
  (Completes .updateBegin 0xA000 false (fun _ e s => e.len = 8 ∧ rsvHigh (e.w 0) 2 = true ∧ 512 ≤ e.w 1 ∧ e.w 1 ≤ (if isConfigSlot (slotOf (e.w 0)) = true then 65536 else 4194304) ∧ s.sys.fw.inUse (slotOf (e.w 0)) = false ∧ s.sys.fw.reception = none) .ok
      (fun _ _ _ _ => [])
      (fun _ e s => s.modFw fun f => f.open' (slotOf (e.w 0)) (e.w 1) false)) ∧
  (∀ (i : Fin 4) (n : Nat), Completes .updateChunk 0xA001 false (fun _ e s => e.len = 8 + bits (e.w 0) 0 11 ∧ 1 ≤ bits (e.w 0) 0 11 ∧ bits (e.w 0) 0 11 ≤ 1016 ∧ rsvHigh (e.w 0) 11 = true ∧ s.sys.fw.reception = some (i, n, false) ∧ e.w 1 + bits (e.w 0) 0 11 ≤ n ∧
        s.sys.fw.slots[i].agrees (offsets (e.w 1) (e.cmd.payload.drop 8)) = true) .ok
      (fun _ _ _ _ => [])
      (fun _ e s => s.modFw fun f => f.modSlot i fun x => { x with data := mergeBytes x.data (offsets (e.w 1) (e.cmd.payload.drop 8)) })) ∧
  (∀ (key : Option (Fin 4)) (sigOk digestOk : Bool) (i : Fin 4) (n : Nat), Completes (fun t q => .updateEnd t q key sigOk digestOk) 0xA002 false (fun _ e s => e.len = 0 ∧ s.sys.fw.reception = some (i, n, false) ∧ n ≤ s.sys.fw.slots[i].data.length ∧ (s.closeReception i n key sigOk digestOk).1 = none) .ok
      (fun _ _ s _ => wordsLe [(s.closeReception i n key sigOk digestOk).2.1.version] ++ leBytes 8 (s.closeReception i n key sigOk digestOk).2.1.rollback ++
        wordsLe [pack [(((s.closeReception i n key sigOk digestOk).2.1.keySlot.map Fin.val).getD 0xF, 4), (0, 4), (if (s.closeReception i n key sigOk digestOk).2.1.config = true then 2 else 1, 8)]])
      (fun _ _ s => (s.closeReception i n key sigOk digestOk).2.2)) ∧
  (∀ (key : Option (Fin 4)) (sigOk digestOk : Bool) (i : Fin 4) (n : Nat), Completes (fun t q => .updateEnd t q key sigOk digestOk) 0xA002 false (fun _ e s => e.len = 0 ∧ s.sys.fw.reception = some (i, n, false) ∧ n ≤ s.sys.fw.slots[i].data.length ∧ (s.closeReception i n key sigOk digestOk).1 = some .authFailed) .authFailed
      (fun _ _ _ _ => [])
      (fun _ _ s => (s.closeReception i n key sigOk digestOk).2.2)) ∧
  (∀ (s : State) (t : Nat) (q : QId) (e : QEntry) (key : Option (Fin 4)) (sigOk digestOk : Bool) (i : Fin 4) (n : Nat) (st : Status), Ready s t q 0xA002 false e → (s.accepted t e).len = 0 → s.sys.fw.reception = some (i, n, false) → n ≤ s.sys.fw.slots[i].data.length → ((s.running t q e).closeReception i n key sigOk digestOk).1 = some st → 
      Replied (exec (.updateEnd t q key sigOk digestOk) s) q (s.accepted t e) st [] ((s.running t q e).closeReception i n key sigOk digestOk).2.2) ∧
  (∀ (s : State) (t : Nat) (q : QId) (e : QEntry) (i : Fin 4) (x : Image), Ready s t q 0xA003 false e → (s.accepted t e).len = 4 → rsv ((s.accepted t e).w 0) 2 6 = true → rsvHigh ((s.accepted t e).w 0) 9 = true → slotOf ((s.accepted t e).w 0) = i → s.sys.fw.slots[i].image = some x → s.sys.fw.slots[i].verified = true → s.sys.fw.verifyImage s.sys.optionW i x = none → bit ((s.accepted t e).w 0) 8 = false → 
      Replied (exec (.updateActivate t q) s) q (s.accepted t e) .ok [] (let s := (s.running t q e); (s.modFw fun f => f.activate i).logEntry 0x0503 0 0 0xFFFF [pack [(i.val, 2), (0, 6), (flag false, 1)]])) ∧
  (∀ (s : State) (t : Nat) (q : QId) (e : QEntry) (i : Fin 4) (x : Image), Ready s t q 0xA003 false e → (s.accepted t e).len = 4 → rsv ((s.accepted t e).w 0) 2 6 = true → rsvHigh ((s.accepted t e).w 0) 9 = true → slotOf ((s.accepted t e).w 0) = i → s.sys.fw.slots[i].image = some x → s.sys.fw.slots[i].verified = true → s.sys.fw.verifyImage s.sys.optionW i x = none → bit ((s.accepted t e).w 0) 8 = true → isConfigSlot i = false → ((s.running t q e).q.q0 ++ (s.running t q e).q.q2).any (fun y => decide (y.phase ≠ .replied ∧ y.seq ≠ (s.accepted t e).seq)) = false → 
      exec (.updateActivate t q) s = .next ((let a := s.accepted t e; let s := (s.running t q e); (((s.modFw fun f => f.activate i).logEntry 0x0503 0 0 0xFFFF [pack [(i.val, 2), (0, 6), (flag true, 1)]]).replyTo q a .ok [])).sweep.restartNow)) ∧
  (∀ (s : State) (t : Nat) (kind : BootKind), s.sys.fw.romDue = some kind → s.sys.pow.held = false → s.sys.pow.powered = true → exec (.bootRomRun t) s = .next (let f := s.sys.fw.bootRom s.sys.optionW
        let s1 : State := { s.advanceTo t with q := { (s.advanceTo t).q with q3 := (s.advanceTo t).q.q3.filter fun e => !e.local' }, sys := { s.sys with booted := false, pstate := if kind = .restart then s.sys.pstate else 4, bootCount := f.record.count, log := [], logSeq := match s.sys.fw.flashLog.getLast? with | some e => (e.seq + 1) % 2 ^ 32 | none => 0, fw := { f with romDue := none, boot := some (kind, max s.now t), fromDeep := decide (kind = .deep), q3Wait := f.q3Wait.filter fun c => !c.2 } } }
        let s2 := (s1.forEach s.sys.pow.shutRails fun r s => s.logEntry 0x0403 0 2 0xFFFF [r]).modPow fun p => { p with shutRails := [] }
        (if kind = .restart ∨ f.recovery = true then s2 else match f.config with | some x => s2.queueConfig x | none => s2).sweep)) ∧
  (∀ (s : State) (t : Nat) (kind : BootKind) (a : Instant), s.sys.fw.boot = some (kind, a) → s.sys.recovering = false → s.sys.fw.halted = false → (s.q.q3.any fun e => e.local') = false → 
      ∃ s', exec (.bootDone t) s = .next s' ∧ s'.sys.booted = true ∧ s'.sys.pstate = (if kind = .restart then s.sys.pstate else 0) ∧ s'.sys.fw.boot = none ∧ s'.sys.fw.trial = (s.sys.fw.trial && s.sys.fw.running.isNone) ∧
        s'.bus.ibiBoot = (s.bus.ibiBoot || s.bus.enint))

/-- Identity, keys, the log and the debug port (R497 to R509). What the debug port reads where nothing was written is free (log entry 107). -/
def Obligations.IdentityKeysAndDebug : Prop :=
  (∀ (sig : List Byte), Completes (fun t q => .attest t q sig) 0xA010 false (fun _ e _ => e.len = 32) .ok
      (fun _ e s _ => s.attestBody e.cmd.payload ++ fitTo 96 sig)
      (fun _ _ s => s)) ∧
  (∀ (keyOk sigOk : Bool) (target key : Fin 4), Completes (fun t q => .keyRevoke t q keyOk sigOk) 0xA040 false (fun _ e s => idx? 4 (bits (e.w 0) 8 8) = some target ∧ idx? 4 (bits (e.w 0) 16 8) = some key ∧ e.len = 204 ∧ bits (e.w 0) 0 8 = 1 ∧ rsvHigh (e.w 0) 24 = true ∧ s.sys.fw.keyLive key = true ∧ fieldAt e.cmd.payload 4 8 = s.sys.serial ∧ keyOk = true ∧ sigOk = true ∧ s.sys.fw.keyLive target = true ∧ 1 < ((List.finRange 4).filter s.sys.fw.keyLive).length ∧ s.sys.fw.running.bind Image.keySlot ≠ some target) .ok
      (fun _ _ _ _ => [])
      (fun _ _ s => (s.modFw fun f => { f with revoked := f.revoked.set target true, slots := vmap f.slots fun _ x => if x.image.bind Image.keySlot = some target then { x with verified := false } else x }).logEntry 0x0505 0 2 0xFFFF
        [pack [(target.val, 4), (key.val, 4)]])) ∧
  (∀ (keyOk sigOk : Bool) (target key : Fin 4), Completes (fun t q => .keyRevoke t q keyOk sigOk) 0xA040 false (fun _ e s => idx? 4 (bits (e.w 0) 8 8) = some target ∧ idx? 4 (bits (e.w 0) 16 8) = some key ∧ e.len = 204 ∧ bits (e.w 0) 0 8 = 1 ∧ rsvHigh (e.w 0) 24 = true ∧ s.sys.fw.keyLive key = true ∧ fieldAt e.cmd.payload 4 8 = s.sys.serial ∧ keyOk = true ∧ sigOk = false) .authFailed
      (fun _ _ _ _ => [])
      (fun _ _ s => s.logAuth 0xA040 3)) ∧
  (∀ (keyOk sigOk : Bool) (target key : Fin 4), Completes (fun t q => .keyRevoke t q keyOk sigOk) 0xA040 false (fun _ e s => idx? 4 (bits (e.w 0) 8 8) = some target ∧ idx? 4 (bits (e.w 0) 16 8) = some key ∧ e.len = 204 ∧ bits (e.w 0) 0 8 = 1 ∧ rsvHigh (e.w 0) 24 = true ∧ (s.sys.fw.keyLive key = false ∨ keyOk = false)) .authFailed
      (fun _ _ _ _ => [])
      (fun _ _ s => s.logAuth 0xA040 2)) ∧
  (∀ (keyOk sigOk : Bool) (target key : Fin 4), Completes (fun t q => .keyRevoke t q keyOk sigOk) 0xA040 false (fun _ e s => idx? 4 (bits (e.w 0) 8 8) = some target ∧ idx? 4 (bits (e.w 0) 16 8) = some key ∧ e.len = 204 ∧ bits (e.w 0) 0 8 = 1 ∧ rsvHigh (e.w 0) 24 = true ∧ s.sys.fw.keyLive key = true ∧ keyOk = true ∧ fieldAt e.cmd.payload 4 8 ≠ s.sys.serial) .authFailed
      (fun _ _ _ _ => [])
      (fun _ _ s => s.logAuth 0xA040 0)) ∧
  (∀ (keyOk sigOk : Bool) (target key : Fin 4), Completes (fun t q => .keyRevoke t q keyOk sigOk) 0xA040 false (fun _ e s => idx? 4 (bits (e.w 0) 8 8) = some target ∧ idx? 4 (bits (e.w 0) 16 8) = some key ∧ e.len = 204 ∧ bits (e.w 0) 0 8 = 1 ∧ rsvHigh (e.w 0) 24 = true ∧ s.sys.fw.keyLive key = true ∧ fieldAt e.cmd.payload 4 8 = s.sys.serial ∧ keyOk = true ∧ sigOk = true ∧ (s.sys.fw.keyLive target = false ∨ ((List.finRange 4).filter s.sys.fw.keyLive).length ≤ 1 ∨ s.sys.fw.running.bind Image.keySlot = some target)) .precondition
      (fun _ _ _ _ => [])
      (fun _ _ s => s)) ∧
  (∀ (keyOk sigOk : Bool) (key : Fin 4), Completes (fun t q => .debugUnlock t q keyOk sigOk) 0xA030 false (fun _ e s => idx? 4 (bits (e.w 0) 16 8) = some key ∧ e.len = 208 ∧ bits (e.w 0) 0 8 = 1 ∧ rsv (e.w 0) 12 4 = true ∧ rsvHigh (e.w 0) 24 = true ∧ fieldAt e.cmd.payload 4 8 = s.sys.serial ∧ e.w 3 = s.sys.bootCount ∧ s.sys.bootCount ≠ 0xFFFFFFFF ∧ s.sys.fw.keyLive key = true ∧ keyOk = true ∧ sigOk = true) .ok
      (fun _ _ _ _ => [])
      (fun _ e s => (s.modFw fun f => { f with dbgScope := some (bits (e.w 0) 8 4) }).logEntry 0x0506 0 2 0xFFFF [pack [(bits (e.w 0) 8 4, 4), (key.val, 4)]])) ∧
  (∀ (keyOk sigOk : Bool) (key : Fin 4), Completes (fun t q => .debugUnlock t q keyOk sigOk) 0xA030 false (fun _ e s => idx? 4 (bits (e.w 0) 16 8) = some key ∧ e.len = 208 ∧ bits (e.w 0) 0 8 = 1 ∧ rsv (e.w 0) 12 4 = true ∧ rsvHigh (e.w 0) 24 = true ∧ (fieldAt e.cmd.payload 4 8 ≠ s.sys.serial ∨ e.w 3 ≠ s.sys.bootCount ∨ s.sys.bootCount = 0xFFFFFFFF)) .authFailed
      (fun _ _ _ _ => [])
      (fun _ _ s => s.logAuth 0xA030 0)) ∧
  (∀ (keyOk sigOk : Bool) (key : Fin 4), Completes (fun t q => .debugUnlock t q keyOk sigOk) 0xA030 false (fun _ e s => idx? 4 (bits (e.w 0) 16 8) = some key ∧ e.len = 208 ∧ bits (e.w 0) 0 8 = 1 ∧ rsv (e.w 0) 12 4 = true ∧ rsvHigh (e.w 0) 24 = true ∧ fieldAt e.cmd.payload 4 8 = s.sys.serial ∧ e.w 3 = s.sys.bootCount ∧ s.sys.bootCount ≠ 0xFFFFFFFF ∧ (s.sys.fw.keyLive key = false ∨ keyOk = false)) .authFailed
      (fun _ _ _ _ => [])
      (fun _ _ s => s.logAuth 0xA030 2)) ∧
  (∀ (keyOk sigOk : Bool) (key : Fin 4), Completes (fun t q => .debugUnlock t q keyOk sigOk) 0xA030 false (fun _ e s => idx? 4 (bits (e.w 0) 16 8) = some key ∧ e.len = 208 ∧ bits (e.w 0) 0 8 = 1 ∧ rsv (e.w 0) 12 4 = true ∧ rsvHigh (e.w 0) 24 = true ∧ fieldAt e.cmd.payload 4 8 = s.sys.serial ∧ e.w 3 = s.sys.bootCount ∧ s.sys.bootCount ≠ 0xFFFFFFFF ∧ s.sys.fw.keyLive key = true ∧ keyOk = true ∧ sigOk = false) .authFailed
      (fun _ _ _ _ => [])
      (fun _ _ s => s.logAuth 0xA030 3)) ∧
  (∀ (s : State) (t : Nat) (x : LogEntry), s.sys.log.find? LogEntry.toFlash = some x → s.sys.pow.held = false → s.sys.pstate ≠ 2 → s.sys.pstate ≠ 3 → (s.sys.fw.copied.filter fun a => decide (max s.now t < a + secs 1)).length < 32 → 
      exec (.logFlashCopy t) s = .next ((s.advanceTo t).modSys fun y => { y with log := s.sys.log.map fun z => if z.seq = x.seq then { z with inFlash := true } else z, fw := { s.sys.fw with flashLog := (s.sys.fw.flashLog ++ [{ x with inFlash := true }]).drop ((s.sys.fw.flashLog ++ [{ x with inFlash := true }]).length - 4096), copied := (s.sys.fw.copied.filter fun a => decide (max s.now t < a + secs 1)) ++ [max s.now t] } })) ∧
  (∀ (s : State) (t : Nat) (x : LogEntry), s.sys.log.find? LogEntry.toFlash = some x → s.sys.pow.held = false → s.sys.pstate ≠ 2 → s.sys.pstate ≠ 3 → 32 ≤ (s.sys.fw.copied.filter fun a => decide (max s.now t < a + secs 1)).length → 
      exec (.logFlashCopy t) s = .next ((s.advanceTo t).modSys fun y => { y with log := s.sys.log.map fun z => if z.seq = x.seq then { z with skipped := true } else z, fw := { s.sys.fw with flashSkipped := satAdd 16 s.sys.fw.flashSkipped 1, copied := s.sys.fw.copied.filter fun a => decide (max s.now t < a + secs 1) } })) ∧
  (∀ (s : State) (t : Nat), s.sys.pow.held = false → s.sys.pstate ≠ 2 → s.sys.pstate ≠ 3 → bit (s.sys.fw.dbgScope.getD 0) 0 = true → 
      exec (.debugPortAccess t (.halt)) s = .next ((s.advanceTo t).modFw fun f => { f with halted := true })) ∧
  (∀ (s : State) (t : Nat), s.sys.pow.held = false → s.sys.pstate ≠ 2 → s.sys.pstate ≠ 3 → bit (s.sys.fw.dbgScope.getD 0) 0 = true → 
      exec (.debugPortAccess t (.resume)) s = .next (((s.advanceTo t).modFw fun f => { f with halted := false }).sweep)) ∧
  (∀ (s : State) (t : Nat) (a : Nat) (v : Byte), s.sys.pow.held = false → s.sys.pstate ≠ 2 → s.sys.pstate ≠ 3 → bit (s.sys.fw.dbgScope.getD 0) 2 = true → 
      exec (.debugPortAccess t (.write a v)) s = .next ((s.advanceTo t).modFw fun f => { f with mem := setByte f.mem a v })) ∧
  (∀ (s : State) (t : Nat) (a : Nat) (m : Nat × Byte), s.sys.pow.held = false → s.sys.pstate ≠ 2 → s.sys.pstate ≠ 3 → bit (s.sys.fw.dbgScope.getD 0) 1 = true → s.sys.fw.mem.find? (fun x => decide (x.1 = a)) = some m → 
      exec (.debugPortAccess t (.read a)) s = .next ((s.advanceTo t).modFw fun f => { f with dbgOut := some m.2 })) ∧
  (∀ (s : State) (t : Nat) (a : Nat), s.sys.pow.held = false → s.sys.pstate ≠ 2 → s.sys.pstate ≠ 3 → bit (s.sys.fw.dbgScope.getD 0) 1 = true → s.sys.fw.mem.find? (fun x => decide (x.1 = a)) = none → 
      exec (.debugPortAccess t (.read a)) s = .next (((s.advanceTo t).draw.2).modFw fun f => { f with dbgOut := some (BitVec.ofNat 8 (Config.reading 0x1002 s.free)) })) ∧
  (∀ (s : State) (t : Nat) (op : DebugOp), s.sys.fw.dbgScope = none ∨ s.sys.pow.held = true ∨ op = .step ∨ op = .factory → exec (.debugPortAccess t op) s = .next (s.advanceTo t)) ∧
  (Completes .cmisProfile 0xA050 false (fun _ e s => e.len = 4 ∧ 1 ≤ bits (e.w 0) 0 8 ∧ bits (e.w 0) 0 8 ≤ 3 ∧ rsvHigh (e.w 0) 8 = true ∧ (bits (e.w 0) 0 8 = 3 → s.sys.fw.hasCmis = true)) .ok
      (fun _ _ _ _ => [])
      (fun _ e s => s.modFw fun f => { f with cmisProfile := bits (e.w 0) 0 8 })) ∧
  (Completes .cmisProfile 0xA050 false (fun _ e s => e.len = 4 ∧ bits (e.w 0) 0 8 = 3 ∧ rsvHigh (e.w 0) 8 = true ∧ s.sys.fw.hasCmis = false) .precondition
      (fun _ _ _ _ => [])
      (fun _ _ s => s)) ∧
  (∀ (s : State) (t : Nat) (level : Bool), exec (.lpmodeChange t level) s = .next ((s.advanceTo t).modPow fun p => { p with lpmode := level }))

/-- Faults (R432 to R445, Tables 12.1 and 12.2). -/
def Obligations.FaultsHandled : Prop :=
  (∀ (s : State) (t : Nat) (n : Fin 8) (i : Nat), exec (.eccUncorrectable t (.engine n i)) s = .next (((s.advanceTo t).dataFault n.val).markInner n ((s.advanceTo t).lanes[n].acq.stage.blocksTouched i 64))) ∧
  (∀ (s : State) (t : Nat) (n : Fin 8) (toLine two : Bool), exec (.eccUncorrectable t (.buffer n toLine two)) s = .next (((s.advanceTo t).dataFault (0x10 + n.val)).markPairs n toLine two)) ∧
  (∀ (s : State) (t : Nat) (index : Nat), exec (.eccUncorrectable t (.capture index)) s = .next (let mark := fun (r : Record) => if r.index = index then { r with ecc := true } else r
        ((s.advanceTo t).dataFault 0x20).modAcq fun a => { a with records := a.records.map mark, cur := a.cur.map mark, eccUncorrectable := satAdd 32 a.eccUncorrectable 1 })) ∧
  (∀ (s : State) (t : Nat) (p : Fin 16), exec (.eccUncorrectable t (.rill p)) s = .next (((s.advanceTo t).dataFault (0x30 + p.val)).modLink p fun l => { l with rxFrame := none, rxBytes := none })) ∧
  (∀ (s : State) (t : Nat) (b : Block), exec (.eccUncorrectable t (.shadow b)) s = .next (((s.advanceTo t).reloadShadow b).paramFault b.id)) ∧
  (∀ (s : State) (t : Nat) (id : Nat) (b : Block), exec (.eccUncorrectable t (.snapshot id b)) s = .next ((s.advanceTo t).snapshotFault id b)) ∧
  (∀ (s : State) (t : Nat) (b : Block), exec (.eccUncorrectable t (.active b)) s = .next ((s.advanceTo t).paramFault b.id)) ∧
  (∀ (s : State) (t : Nat) (b : Block), exec (.eccUncorrectable t (.previous b)) s = .next (((s.advanceTo t).modMeta b fun m => { m with previousValid := false }).paramFault b.id)) ∧
  (∀ (s : State) (t : Nat) (n : Fin 8) (k : Fin 129), exec (.eccUncorrectable t (.adcEntry n k)) s = .next (((s.advanceTo t).modLane (.line n) fun l => { l with cal := { l.cal with adcOffset := l.cal.adcOffset.set k 0, adcGain := l.cal.adcGain.set k 0, adcSkew := l.cal.adcSkew.set k 0, adcRejected := l.cal.adcRejected.set k false } }).paramFault (Block.lineRx n).id)) ∧
  (∀ (s : State) (t : Nat) (n : Fin 8) (k : Fin 73), exec (.eccUncorrectable t (.gainEntry n k)) s = .next (((s.advanceTo t).modLane (.line n) fun l => { l with cal := { l.cal with gainTable := l.cal.gainTable.set k (-1536 + 64 * (k.val : Int)) } }).paramFault (Block.lineRx n).id)) ∧
  (∀ (s : State) (t : Nat) (n : Fin 8) (k : Fin 4), exec (.eccUncorrectable t (.dacEntry n k)) s = .next (((s.advanceTo t).modLane (.line n) fun l => { l with cal := { l.cal with dacOffset := l.cal.dacOffset.set k 0, dacGain := l.cal.dacGain.set k 0, dacSkew := l.cal.dacSkew.set k 0 } }).paramFault (Block.lineTx n).id)) ∧
  (∀ (s : State) (t : Nat) (n : Fin 8), exec (.eccUncorrectable t (.delayTable n)) s = .next (((s.advanceTo t).modLane (.line n) fun l => { l with time := l.time.reload }).paramFault (Block.lineRx n).id)) ∧
  (∀ (s : State) (t : Nat) (g : Fin 4) (k : Fin 5), exec (.eccUncorrectable t (.gaugeSet g k)) s = .next (((s.advanceTo t).modConv g fun c => { c with cal := { c.cal with sets := c.cal.sets.set k (Vector.replicate 4 (0, 0)) } }).paramFault (Block.gauge g).id)) ∧
  (∀ (s : State) (t : Nat) (j : Fin 24) (k : Fin 5), exec (.eccUncorrectable t (.jetsSet j k)) s = .next (((s.advanceTo t).modJets j fun c => { c with cal := { c.cal with sets := c.cal.sets.set k (Vector.replicate 4 (0, 0)) } }).paramFault (Block.jets j).id)) ∧
  (∀ (s : State) (t : Nat) (d : Fin 4), exec (.eccUncorrectable t (.filter d)) s = .next (((s.advanceTo t).modAcq fun a => { a with banks := a.banks.set d {} }).paramFault (Block.decim d).id)) ∧
  (∀ (s : State) (t : Nat) (j : Fin 24) (i : Nat), exec (.eccUncorrectable t (.jetsQueue j i)) s = .next (((s.advanceTo t).modJets j fun c => { c with queue := c.queue.eraseIdx i }).paramFault (Block.jets j).id)) ∧
  (∀ (s : State) (t : Nat) (g : Fin 4) (i : Nat), exec (.eccUncorrectable t (.gaugeFifo g i)) s = .next (((s.advanceTo t).modConv g fun c => { c with fifo := c.fifo.eraseIdx i, overflows := satAdd 16 c.overflows 1 }).paramFault (Block.gauge g).id)) ∧
  (∀ (s : State) (t : Nat) , exec (.eccUncorrectable t (.mgmt)) s = .next ((((s.advanceTo t).modInteg fun i => { i with uncorrMgmt := satAdd 16 i.uncorrMgmt 1 }).controlFault 5 0xFFFF).restartFirmware)) ∧
  (∀ (s : State) (t array : Nat) (cistern : Bool), exec (.eccCorrectable t array cistern) s = .next (let s1 := (((s.advanceTo t).noteFault 1).modInteg fun i => { i with corrected := satAdd 32 i.corrected 1 }).logOnce 1 array 0xFFFF 0xFFFF
        if cistern = true then s1.modAcq fun a => { a with eccCorrected := satAdd 32 a.eccCorrected 1 } else s1)) ∧
  (∀ (s : State) (t : Nat), exec (.scrubPass t) s = .next (s.advanceTo t)) ∧
  (∀ (s : State) (t : Nat) (n : Fin 8) (i : Nat), exec (.residueMismatch t (.lineRx n i)) s = .next (((((s.advanceTo t).residueNoted (.lineRx n)).modInteg fun i => { i with rxResidue := upd i.rxResidue n fun c => satAdd 32 c 1 }).markInner n
        (if s.lanes[n].acq.stage = .a then Stage.a.blocksTouched i 256 else s.lanes[n].acq.stage.blocksTouched (2 * i) 512)).countRecent n)) ∧
  (∀ (s : State) (t : Nat) (n : Fin 8) (k : Nat), exec (.residueMismatch t (.lineTx n k)) s = .next ((((s.advanceTo t).residueNoted (.lineTx n)).modInteg fun i => { i with txResidue := upd i.txResidue n fun c => satAdd 32 c 1 }).modLane (.line n) fun l => { l with tx := { l.tx with bypass := if l.tx.clocked = true then l.tx.bypass ++ [(k : Int)] else l.tx.bypass } })) ∧
  (∀ (s : State) (t : Nat) (h : Fin 16) (two : Bool), exec (.residueMismatch t (.hostRx h two)) s = .next ((((s.advanceTo t).residueNoted (.host h)).modInteg fun i => { i with hostResidue := satAdd 32 i.hostResidue 1 }).markPairs (relayPort h) true two)) ∧
  (∀ (s : State) (t : Nat) (h : Fin 16), exec (.residueMismatch t (.hostTx h)) s = .next (((s.advanceTo t).residueNoted (.host h)).modInteg fun i => { i with hostResidue := satAdd 32 i.hostResidue 1 })) ∧
  (∀ (s : State) (t : Nat), s.sys.fw.halted = false → s.sys.pow.held = false → s.sys.pstate ≠ 2 → s.sys.pstate ≠ 3 → exec (.watchdogExpiry t) s = .next ((((s.advanceTo t).modInteg fun i => { i with watchdogs := satAdd 16 i.watchdogs 1 }).controlFault 6 0xFFFF).restartFirmware)) ∧
  (∀ (s : State) (t : Nat), s.tb.refclkLost = false → exec (.referenceLost t false) s = .next ((((s.advanceTo t).modTb fun b => { b with refclkOk := false, refclkLost := true }).judgeClk).clockLoss 43)) ∧
  (∀ (s : State) (t : Nat), exec (.referenceLost t true) s = .next (((s.advanceTo t).modTb fun b => { b with timerefOk := false, timerefLost := true }).judgeClk)) ∧
  (∀ (s : State) (t : Nat), exec (.referenceQualified t true) s = .next (((s.advanceTo t).modTb fun b => { b with timerefOk := true, timerefLost := false }).judgeClk)) ∧
  (∀ (s : State) (t : Nat), exec (.referenceQualified t false) s = .next ((((s.advanceTo t).modTb fun b => { b with refclkOk := true, refclkLost := false }).judgeClk).modInteg fun i => { i with clockHold := i.clockHold.filter fun n => decide (n ≠ 43) })) ∧
  (∀ (s : State) (t : Nat) (n : Fin 64), watchedIsland n = true → s.sys.integ.clockHold.contains n.val = false → exec (.clockLoss t n) s = .next ((((s.advanceTo t).modSys fun y => { y with islands := y.islands.set n false }).unalign n).clockLoss n.val)) ∧
  (∀ (s : State) (t : Nat), s.tb.refclkLost = false → exec (.clockLoss t 43) s = .next ((((s.advanceTo t).modTb fun b => { b with refclkOk := false, refclkLost := true }).judgeClk).clockLoss 43)) ∧
  (∀ (s : State) (t : Nat) (n : Fin 64), watchedIsland n = true → s.sys.integ.clockHold.contains n.val = true → exec (.clockRestored t n) s = .next ((s.advanceTo t).modSys fun y => { y with islands := y.islands.set n true, integ := { y.integ with clockHold := y.integ.clockHold.filter fun x => decide (x ≠ n.val) } })) ∧
  (∀ (s : State) (t rails : Nat) (r : Fin 8) (rs : List (Fin 8)), ((maskIdx 8 rails).filter fun x => s.sys.pow.railOk[x]) = r :: rs → s.sys.pow.isOff = false → s.sys.pow.powered = true → s.sys.pow.held = false → s.sys.pstate ≠ 2 → s.sys.pstate ≠ 3 → 
      exec (.supplyFault t rails) s = .next ((((((s.advanceTo t).modPow fun p => { p with railOk := updAll p.railOk (r :: rs) fun _ _ => false, railAt := updAll p.railAt (r :: rs) fun _ _ => max s.now t }).modInteg fun i => { i with supplyFaults := satAdd 16 i.supplyFaults 1 }).controlFault 8 (0x2A + r.val)).parkJets))) ∧
  (∀ (s : State) (t : Nat) (readings : List Int), s.monitored = false → exec (.thermalMonitorRead t readings) s = .next (s.advanceTo t)) ∧
  (∀ (s : State) (t : Nat) (readings : List Int), s.monitored = true → exec (.thermalMonitorRead t readings) s = .next (let s1 := ((s.advanceTo t).modHk fun h => { h with temps := vmap h.temps fun i x => readings.getD i.val x }).refreshGauge
        match (List.finRange 13).find? fun i : Fin 13 => decide (500 ≤ s1.hk.temps[i]) with
        | some i => if s.sys.thermalTrip = true then s1 else s1.thermalTrip i.val
        | none => s1)) ∧
  (∀ (s : State) (t : Nat), s.sys.recovering = true → s.sys.fw.romDue = none → exec (.faultRecoveryComplete t) s = .next (let s1 := (s.advanceTo t).modSys fun y => { y with recovering := false }
        ((s1.forEach (s1.rill.workerEpochs.filter fun w => decide (w.outcome = 0xB) && w.commit.isSome) fun w s => s.epochCame w.id 2 0xB 0xFFFF ⟨0, false⟩ []).sweep).settleFaults))

/-- The queue of commands is first in, first out, and a step is the front command's effect on the state with the queue's rest. That an empty queue lets 4 ns pass is the model's choice (log entry 2); that no word spells a command follows from the table, which gives no bits. -/
def Obligations.StepTakesTheFront : Prop :=
  (∀ (s : State) (c : Instr) (rest : List Instr), s.pending = c :: rest → step s = exec c { s with pending := rest }) ∧
  (∀ (s : State), s.pending = [] → step s = .next (s.advanceTo (s.now + 4 * 65536))) ∧
  (∀ (s : State) (nbits w : Nat), decodeTableWord nbits w = none ∧ s.withFetchWord nbits w = s)

/-- Reset leaves the three sets equal (R31), the lockable limits at their boot values and open (R46, Table 1.5), the queues and the stream empty and F at 0 (R262). -/
def Obligations.ResetLeaves : Prop :=
  (State.reset.shadow = State.reset.active ∧ State.reset.active = State.reset.previous) ∧
  (∀ (n : Fin 24), State.reset.limits.jetsMin[n] = 0x0000 ∧ State.reset.limits.jetsMax[n] = 0xFFFF) ∧
  (∀ (n : Fin 8), State.reset.limits.txSwing[n] = 900 ∧ State.reset.limits.pwmMax[n] = 65536 ∧ State.reset.limits.interlock[n].biasCh = 0xFF ∧ State.reset.limits.interlock[n].powerCh = 0xFF) ∧
  (State.reset.limits.maxStep = 1000 ∧ State.reset.limits.locked = false) ∧
  (State.reset.q.all = [] ∧ State.reset.bus.stream = [] ∧ State.reset.commits = [] ∧ State.reset.pending = [] ∧ State.reset.tb.f = 0) ∧
  (∀ (n : Fin 8), State.reset.active.lineTx[n].txEn = false)

/-- No row stops the device: a command that cannot act is answered with its status, and an event whose conditions do not hold changes nothing but the time. -/
def Obligations.EveryCommandAnswers : Prop :=
  ∀ (c : Instr) (s : State), ∃ s', exec c s = .next s'

/-- The parity bits and the syndrome, bit by bit, as XORs of columns (R199). -/
def Obligations.ParityAndSyndrome : Prop :=
  (∀ (p : Nat), p < 2 ^ 136 → innerEncode p / 256 = p ∧ ∀ k < 8, Nat.testBit (innerEncode p) k = (dataColumns.zipIdx.foldr (fun c x => xor (Nat.testBit p c.2 && Nat.testBit c.1 k) x) false)) ∧
  (∀ (w k : Nat), Nat.testBit (syndrome w) k = (columns.zipIdx.foldr (fun c x => xor (Nat.testBit w c.2 && Nat.testBit c.1 k) x) false)) ∧
  (∀ (p : Nat), syndrome (innerEncode p) = 0)

/-- The three outcomes of the hard-decision decoder, and how many syndromes fail (R200). A failure is none: the word's own hard decisions go on. -/
def Obligations.HardDecision : Prop :=
  (∀ (w : Nat), syndrome w = 0 → hardDecode w = some w) ∧
  (∀ (w j : Nat), j < 144 → columns[j]? = some (syndrome w) → hardDecode w = some (w ^^^ 2 ^ j)) ∧
  (∀ (w : Nat), syndrome w ≠ 0 → syndrome w ∉ columns → hardDecode w = none) ∧
  (((List.range 256).filter fun x => decide (x ≠ 0 ∧ x ∉ columns)).length = 111)

/-- The code has minimum distance 3: one bit in error, wherever it falls, is put right and no codeword is changed (R198 to R200). -/
def Obligations.OneErrorCorrected : Prop :=
  (∀ (p : Nat), p < 2 ^ 136 → hardDecode (innerEncode p) = some (innerEncode p) ∧ innerEncode p / 256 = p) ∧
  (∀ (p j : Nat), p < 2 ^ 136 → j < 144 → hardDecode (innerEncode p ^^^ 2 ^ j) = some (innerEncode p))

/-- The marker block of R184 passes the judgement of R186, and no field of it is dropped or misplaced. -/
def Obligations.MarkersReadBack : Prop :=
  ∀ (n lane p : Nat), n ≤ 7999 → lane < 8 → p < 2 ^ 96 → (markerType n = .data → p / 2 ^ 92 ≤ 11) → judgeMarker (markerBlock n lane p) false = .good ∧ judgeMarker (markerBlock n lane p) true = .corrupt ∧ markerCount (markerBlock n lane p) = n ∧
      markerLane (markerBlock n lane p) = lane ∧ markerPayload (markerBlock n lane p) = p

/-- No field of a Rill frame header is dropped or misplaced, and the CRC covers header and body (R330). The slot noted beside a frame is the model's own and does not travel. -/
def Obligations.RillFrameRoundTrip : Prop :=
  ∀ (f : Frame), f.ftype < 256 ∧ f.lseq < 256 ∧ f.hops < 8 ∧ f.hopPtr < 8 ∧ f.route < 2 ^ 24 ∧ f.wid < 4096 ∧ f.xtag < 65536 → 
      crcGood f.bytes = true ∧ Frame.ofBytes f.bytes = { f with slot := none }

/-- From the lock on, the limits are locked until the device is reset; they survive STANDBY, SLEEP and DEEP (R46, R47). That a supply shutdown resets them too is the model's reading of R460 (log entry 97). -/
def Obligations.LimitsStayLocked : Prop :=
  ∀ (s s' : State), s.limits.locked = true → (∀ (c : Instr) (rest : List Instr), s.pending = c :: rest → canReset c = false) → step s = .next s' → 
      s'.limits = s.limits

/-- Steps 2 to 5 of the Chase procedure, with the metric of step 3 and the tie to the lowest pattern; pattern 0 is the hard decode (R201). -/
def Obligations.SoftDecision : Prop :=
  (∀ (d w : Nat) (rel : List Nat), chaseDecode d w rel = none ↔ ∀ t < 2 ^ d, hardDecode (flipBits w t (weakest rel d) 0) = none) ∧
  (∀ (d w c : Nat) (rel : List Nat), chaseDecode d w rel = some c → syndrome c = 0 ∧ ∃ t < 2 ^ d, hardDecode (flipBits w t (weakest rel d) 0) = some c ∧
      ∀ u < 2 ^ d, ∀ x, hardDecode (flipBits w u (weakest rel d) 0) = some x →
        metricFrom rel 0 (c ^^^ w) < metricFrom rel 0 (x ^^^ w) ∨ metricFrom rel 0 (c ^^^ w) = metricFrom rel 0 (x ^^^ w) ∧ t ≤ u) ∧
  (∀ (w : Nat) (rel : List Nat), chaseDecode 0 w rel = hardDecode w)

/-- CRC16 as a rule for one more bit at the end of a message, its check value, and the bits of the block that it covers (R185). -/
def Obligations.MarkerCheck : Prop :=
  (∀ (w : Nat), crc16 0 w = 0xFFFF) ∧
  (∀ (n w : Nat), crc16 (n + 1) w = (2 * crc16 n (w / 2) % 65536) ^^^ (if decide (32768 ≤ crc16 n (w / 2)) = decide (w % 2 = 1) then 0 else 0x1021)) ∧
  (crc16 72 0x313233343536373839 = 0x29B1) ∧
  (∀ (n lane p : Nat), markerBlock n lane p % 2 ^ 16 = crc16 128 (markerBlock n lane p / 2 ^ 16))

/-- The frame of the line-lane settings: a command writes the shadow set and nothing else (R32), pins are part of it and a pinned write is counted (R50). -/
def Obligations.SettingsLeaveTheRest : Prop :=
  (LeavesBut .lineMode (fun b a => { a with shadow := b.shadow, meta' := b.meta', free := b.free, q := { a.q with nextSeq := b.q.nextSeq } })) ∧
  (LeavesBut .lineEnable (fun b a => { a with shadow := b.shadow, meta' := b.meta', free := b.free, q := { a.q with nextSeq := b.q.nextSeq } })) ∧
  (LeavesBut .rxGain (fun b a => { a with shadow := b.shadow, meta' := b.meta', free := b.free, q := { a.q with nextSeq := b.q.nextSeq } })) ∧
  (LeavesBut .lockLossConfig (fun b a => { a with shadow := b.shadow, meta' := b.meta', free := b.free, q := { a.q with nextSeq := b.q.nextSeq } })) ∧
  (LeavesBut .txPredist (fun b a => { a with shadow := b.shadow, meta' := b.meta', free := b.free, q := { a.q with nextSeq := b.q.nextSeq } })) ∧
  (LeavesBut .txClockSource (fun b a => { a with shadow := b.shadow, meta' := b.meta', free := b.free, q := { a.q with nextSeq := b.q.nextSeq } })) ∧
  (LeavesBut .rxGainExpert (fun b a => { a with shadow := b.shadow, meta' := b.meta', free := b.free, q := { a.q with nextSeq := b.q.nextSeq } })) ∧
  (LeavesBut .rxTimingExpert (fun b a => { a with shadow := b.shadow, meta' := b.meta', free := b.free, q := { a.q with nextSeq := b.q.nextSeq } })) ∧
  (LeavesBut .rxDecodeExpert (fun b a => { a with shadow := b.shadow, meta' := b.meta', free := b.free, q := { a.q with nextSeq := b.q.nextSeq } })) ∧
  (LeavesBut .txSkewExpert (fun b a => { a with shadow := b.shadow, meta' := b.meta', free := b.free, q := { a.q with nextSeq := b.q.nextSeq } })) ∧
  (LeavesBut .txPredistExpert (fun b a => { a with shadow := b.shadow, meta' := b.meta', free := b.free, q := { a.q with nextSeq := b.q.nextSeq } })) ∧
  (LeavesBut .rxTiming (fun b a => { a with shadow := b.shadow, meta' := b.meta', free := b.free, q := { a.q with nextSeq := b.q.nextSeq } })) ∧
  (LeavesBut .rxDecode (fun b a => { a with shadow := b.shadow, meta' := b.meta', free := b.free, q := { a.q with nextSeq := b.q.nextSeq } })) ∧
  (LeavesBut .txSwing (fun b a => { a with shadow := b.shadow, meta' := b.meta', free := b.free, q := { a.q with nextSeq := b.q.nextSeq } })) ∧
  (LeavesBut .txSkew (fun b a => { a with shadow := b.shadow, meta' := b.meta', free := b.free, q := { a.q with nextSeq := b.q.nextSeq } }))
end

