-- ==== Sys2Proof/Laws/State.lean ====
section
/-! SUPPORT. What each update of one field of the state leaves in every field: one lemma per field per update. -/
namespace Sys2Proof.Machine

/-! ### State.modShadow -/

@[simp] theorem State.modShadow_pending (s : State) (f : Bank → Bank) : (s.modShadow f).pending = s.pending := rfl
@[simp] theorem State.modShadow_now (s : State) (f : Bank → Bank) : (s.modShadow f).now = s.now := rfl
@[simp] theorem State.modShadow_free (s : State) (f : Bank → Bank) : (s.modShadow f).free = s.free := rfl
@[simp] theorem State.modShadow_bus (s : State) (f : Bank → Bank) : (s.modShadow f).bus = s.bus := rfl
@[simp] theorem State.modShadow_q (s : State) (f : Bank → Bank) : (s.modShadow f).q = s.q := rfl
@[simp] theorem State.modShadow_shadow (s : State) (f : Bank → Bank) : (s.modShadow f).shadow = f s.shadow := rfl
@[simp] theorem State.modShadow_active (s : State) (f : Bank → Bank) : (s.modShadow f).active = s.active := rfl
@[simp] theorem State.modShadow_previous (s : State) (f : Bank → Bank) : (s.modShadow f).previous = s.previous := rfl
@[simp] theorem State.modShadow_meta_all (s : State) (f : Bank → Bank) : (s.modShadow f).meta' = s.meta' := rfl
@[simp] theorem State.modShadow_commits (s : State) (f : Bank → Bank) : (s.modShadow f).commits = s.commits := rfl
@[simp] theorem State.modShadow_nextCommit (s : State) (f : Bank → Bank) : (s.modShadow f).nextCommit = s.nextCommit := rfl
@[simp] theorem State.modShadow_releases (s : State) (f : Bank → Bank) : (s.modShadow f).releases = s.releases := rfl
@[simp] theorem State.modShadow_limits (s : State) (f : Bank → Bank) : (s.modShadow f).limits = s.limits := rfl
@[simp] theorem State.modShadow_owners (s : State) (f : Bank → Bank) : (s.modShadow f).owners = s.owners := rfl
@[simp] theorem State.modShadow_lanes (s : State) (f : Bank → Bank) : (s.modShadow f).lanes = s.lanes := rfl
@[simp] theorem State.modShadow_relays (s : State) (f : Bank → Bank) : (s.modShadow f).relays = s.relays := rfl
@[simp] theorem State.modShadow_scans (s : State) (f : Bank → Bank) : (s.modShadow f).scans = s.scans := rfl
@[simp] theorem State.modShadow_hosts (s : State) (f : Bank → Bank) : (s.modShadow f).hosts = s.hosts := rfl
@[simp] theorem State.modShadow_ports (s : State) (f : Bank → Bank) : (s.modShadow f).ports = s.ports := rfl
@[simp] theorem State.modShadow_tb (s : State) (f : Bank → Bank) : (s.modShadow f).tb = s.tb := rfl
@[simp] theorem State.modShadow_replicas (s : State) (f : Bank → Bank) : (s.modShadow f).replicas = s.replicas := rfl
@[simp] theorem State.modShadow_rill (s : State) (f : Bank → Bank) : (s.modShadow f).rill = s.rill := rfl
@[simp] theorem State.modShadow_acq (s : State) (f : Bank → Bank) : (s.modShadow f).acq = s.acq := rfl
@[simp] theorem State.modShadow_carriage (s : State) (f : Bank → Bank) : (s.modShadow f).carriage = s.carriage := rfl
@[simp] theorem State.modShadow_hk (s : State) (f : Bank → Bank) : (s.modShadow f).hk = s.hk := rfl
@[simp] theorem State.modShadow_sys (s : State) (f : Bank → Bank) : (s.modShadow f).sys = s.sys := rfl

/-! ### State.modMeta -/

@[simp] theorem State.modMeta_pending (s : State) (b : Block) (f : BlockMeta → BlockMeta) : (s.modMeta b f).pending = s.pending := rfl
@[simp] theorem State.modMeta_now (s : State) (b : Block) (f : BlockMeta → BlockMeta) : (s.modMeta b f).now = s.now := rfl
@[simp] theorem State.modMeta_free (s : State) (b : Block) (f : BlockMeta → BlockMeta) : (s.modMeta b f).free = s.free := rfl
@[simp] theorem State.modMeta_bus (s : State) (b : Block) (f : BlockMeta → BlockMeta) : (s.modMeta b f).bus = s.bus := rfl
@[simp] theorem State.modMeta_q (s : State) (b : Block) (f : BlockMeta → BlockMeta) : (s.modMeta b f).q = s.q := rfl
@[simp] theorem State.modMeta_shadow (s : State) (b : Block) (f : BlockMeta → BlockMeta) : (s.modMeta b f).shadow = s.shadow := rfl
@[simp] theorem State.modMeta_active (s : State) (b : Block) (f : BlockMeta → BlockMeta) : (s.modMeta b f).active = s.active := rfl
@[simp] theorem State.modMeta_previous (s : State) (b : Block) (f : BlockMeta → BlockMeta) : (s.modMeta b f).previous = s.previous := rfl
@[simp] theorem State.modMeta_meta_all (s : State) (b : Block) (f : BlockMeta → BlockMeta) : (s.modMeta b f).meta' = upd s.meta' b.index f := rfl
@[simp] theorem State.modMeta_commits (s : State) (b : Block) (f : BlockMeta → BlockMeta) : (s.modMeta b f).commits = s.commits := rfl
@[simp] theorem State.modMeta_nextCommit (s : State) (b : Block) (f : BlockMeta → BlockMeta) : (s.modMeta b f).nextCommit = s.nextCommit := rfl
@[simp] theorem State.modMeta_releases (s : State) (b : Block) (f : BlockMeta → BlockMeta) : (s.modMeta b f).releases = s.releases := rfl
@[simp] theorem State.modMeta_limits (s : State) (b : Block) (f : BlockMeta → BlockMeta) : (s.modMeta b f).limits = s.limits := rfl
@[simp] theorem State.modMeta_owners (s : State) (b : Block) (f : BlockMeta → BlockMeta) : (s.modMeta b f).owners = s.owners := rfl
@[simp] theorem State.modMeta_lanes (s : State) (b : Block) (f : BlockMeta → BlockMeta) : (s.modMeta b f).lanes = s.lanes := rfl
@[simp] theorem State.modMeta_relays (s : State) (b : Block) (f : BlockMeta → BlockMeta) : (s.modMeta b f).relays = s.relays := rfl
@[simp] theorem State.modMeta_scans (s : State) (b : Block) (f : BlockMeta → BlockMeta) : (s.modMeta b f).scans = s.scans := rfl
@[simp] theorem State.modMeta_hosts (s : State) (b : Block) (f : BlockMeta → BlockMeta) : (s.modMeta b f).hosts = s.hosts := rfl
@[simp] theorem State.modMeta_ports (s : State) (b : Block) (f : BlockMeta → BlockMeta) : (s.modMeta b f).ports = s.ports := rfl
@[simp] theorem State.modMeta_tb (s : State) (b : Block) (f : BlockMeta → BlockMeta) : (s.modMeta b f).tb = s.tb := rfl
@[simp] theorem State.modMeta_replicas (s : State) (b : Block) (f : BlockMeta → BlockMeta) : (s.modMeta b f).replicas = s.replicas := rfl
@[simp] theorem State.modMeta_rill (s : State) (b : Block) (f : BlockMeta → BlockMeta) : (s.modMeta b f).rill = s.rill := rfl
@[simp] theorem State.modMeta_acq (s : State) (b : Block) (f : BlockMeta → BlockMeta) : (s.modMeta b f).acq = s.acq := rfl
@[simp] theorem State.modMeta_carriage (s : State) (b : Block) (f : BlockMeta → BlockMeta) : (s.modMeta b f).carriage = s.carriage := rfl
@[simp] theorem State.modMeta_hk (s : State) (b : Block) (f : BlockMeta → BlockMeta) : (s.modMeta b f).hk = s.hk := rfl
@[simp] theorem State.modMeta_sys (s : State) (b : Block) (f : BlockMeta → BlockMeta) : (s.modMeta b f).sys = s.sys := rfl

/-! ### State.modHost -/

@[simp] theorem State.modHost_pending (s : State) (n : Fin 16) (f : HostLane → HostLane) : (s.modHost n f).pending = s.pending := rfl
@[simp] theorem State.modHost_now (s : State) (n : Fin 16) (f : HostLane → HostLane) : (s.modHost n f).now = s.now := rfl
@[simp] theorem State.modHost_free (s : State) (n : Fin 16) (f : HostLane → HostLane) : (s.modHost n f).free = s.free := rfl
@[simp] theorem State.modHost_bus (s : State) (n : Fin 16) (f : HostLane → HostLane) : (s.modHost n f).bus = s.bus := rfl
@[simp] theorem State.modHost_q (s : State) (n : Fin 16) (f : HostLane → HostLane) : (s.modHost n f).q = s.q := rfl
@[simp] theorem State.modHost_shadow (s : State) (n : Fin 16) (f : HostLane → HostLane) : (s.modHost n f).shadow = s.shadow := rfl
@[simp] theorem State.modHost_active (s : State) (n : Fin 16) (f : HostLane → HostLane) : (s.modHost n f).active = s.active := rfl
@[simp] theorem State.modHost_previous (s : State) (n : Fin 16) (f : HostLane → HostLane) : (s.modHost n f).previous = s.previous := rfl
@[simp] theorem State.modHost_meta_all (s : State) (n : Fin 16) (f : HostLane → HostLane) : (s.modHost n f).meta' = s.meta' := rfl
@[simp] theorem State.modHost_commits (s : State) (n : Fin 16) (f : HostLane → HostLane) : (s.modHost n f).commits = s.commits := rfl
@[simp] theorem State.modHost_nextCommit (s : State) (n : Fin 16) (f : HostLane → HostLane) : (s.modHost n f).nextCommit = s.nextCommit := rfl
@[simp] theorem State.modHost_releases (s : State) (n : Fin 16) (f : HostLane → HostLane) : (s.modHost n f).releases = s.releases := rfl
@[simp] theorem State.modHost_limits (s : State) (n : Fin 16) (f : HostLane → HostLane) : (s.modHost n f).limits = s.limits := rfl
@[simp] theorem State.modHost_owners (s : State) (n : Fin 16) (f : HostLane → HostLane) : (s.modHost n f).owners = s.owners := rfl
@[simp] theorem State.modHost_lanes (s : State) (n : Fin 16) (f : HostLane → HostLane) : (s.modHost n f).lanes = s.lanes := rfl
@[simp] theorem State.modHost_relays (s : State) (n : Fin 16) (f : HostLane → HostLane) : (s.modHost n f).relays = s.relays := rfl
@[simp] theorem State.modHost_scans (s : State) (n : Fin 16) (f : HostLane → HostLane) : (s.modHost n f).scans = s.scans := rfl
@[simp] theorem State.modHost_hosts (s : State) (n : Fin 16) (f : HostLane → HostLane) : (s.modHost n f).hosts = upd s.hosts n f := rfl
@[simp] theorem State.modHost_ports (s : State) (n : Fin 16) (f : HostLane → HostLane) : (s.modHost n f).ports = s.ports := rfl
@[simp] theorem State.modHost_tb (s : State) (n : Fin 16) (f : HostLane → HostLane) : (s.modHost n f).tb = s.tb := rfl
@[simp] theorem State.modHost_replicas (s : State) (n : Fin 16) (f : HostLane → HostLane) : (s.modHost n f).replicas = s.replicas := rfl
@[simp] theorem State.modHost_rill (s : State) (n : Fin 16) (f : HostLane → HostLane) : (s.modHost n f).rill = s.rill := rfl
@[simp] theorem State.modHost_acq (s : State) (n : Fin 16) (f : HostLane → HostLane) : (s.modHost n f).acq = s.acq := rfl
@[simp] theorem State.modHost_carriage (s : State) (n : Fin 16) (f : HostLane → HostLane) : (s.modHost n f).carriage = s.carriage := rfl
@[simp] theorem State.modHost_hk (s : State) (n : Fin 16) (f : HostLane → HostLane) : (s.modHost n f).hk = s.hk := rfl
@[simp] theorem State.modHost_sys (s : State) (n : Fin 16) (f : HostLane → HostLane) : (s.modHost n f).sys = s.sys := rfl

/-! ### State.modPort -/

@[simp] theorem State.modPort_pending (s : State) (n : Fin 8) (f : Port → Port) : (s.modPort n f).pending = s.pending := rfl
@[simp] theorem State.modPort_now (s : State) (n : Fin 8) (f : Port → Port) : (s.modPort n f).now = s.now := rfl
@[simp] theorem State.modPort_free (s : State) (n : Fin 8) (f : Port → Port) : (s.modPort n f).free = s.free := rfl
@[simp] theorem State.modPort_bus (s : State) (n : Fin 8) (f : Port → Port) : (s.modPort n f).bus = s.bus := rfl
@[simp] theorem State.modPort_q (s : State) (n : Fin 8) (f : Port → Port) : (s.modPort n f).q = s.q := rfl
@[simp] theorem State.modPort_shadow (s : State) (n : Fin 8) (f : Port → Port) : (s.modPort n f).shadow = s.shadow := rfl
@[simp] theorem State.modPort_active (s : State) (n : Fin 8) (f : Port → Port) : (s.modPort n f).active = s.active := rfl
@[simp] theorem State.modPort_previous (s : State) (n : Fin 8) (f : Port → Port) : (s.modPort n f).previous = s.previous := rfl
@[simp] theorem State.modPort_meta_all (s : State) (n : Fin 8) (f : Port → Port) : (s.modPort n f).meta' = s.meta' := rfl
@[simp] theorem State.modPort_commits (s : State) (n : Fin 8) (f : Port → Port) : (s.modPort n f).commits = s.commits := rfl
@[simp] theorem State.modPort_nextCommit (s : State) (n : Fin 8) (f : Port → Port) : (s.modPort n f).nextCommit = s.nextCommit := rfl
@[simp] theorem State.modPort_releases (s : State) (n : Fin 8) (f : Port → Port) : (s.modPort n f).releases = s.releases := rfl
@[simp] theorem State.modPort_limits (s : State) (n : Fin 8) (f : Port → Port) : (s.modPort n f).limits = s.limits := rfl
@[simp] theorem State.modPort_owners (s : State) (n : Fin 8) (f : Port → Port) : (s.modPort n f).owners = s.owners := rfl
@[simp] theorem State.modPort_lanes (s : State) (n : Fin 8) (f : Port → Port) : (s.modPort n f).lanes = s.lanes := rfl
@[simp] theorem State.modPort_relays (s : State) (n : Fin 8) (f : Port → Port) : (s.modPort n f).relays = s.relays := rfl
@[simp] theorem State.modPort_scans (s : State) (n : Fin 8) (f : Port → Port) : (s.modPort n f).scans = s.scans := rfl
@[simp] theorem State.modPort_hosts (s : State) (n : Fin 8) (f : Port → Port) : (s.modPort n f).hosts = s.hosts := rfl
@[simp] theorem State.modPort_ports (s : State) (n : Fin 8) (f : Port → Port) : (s.modPort n f).ports = upd s.ports n f := rfl
@[simp] theorem State.modPort_tb (s : State) (n : Fin 8) (f : Port → Port) : (s.modPort n f).tb = s.tb := rfl
@[simp] theorem State.modPort_replicas (s : State) (n : Fin 8) (f : Port → Port) : (s.modPort n f).replicas = s.replicas := rfl
@[simp] theorem State.modPort_rill (s : State) (n : Fin 8) (f : Port → Port) : (s.modPort n f).rill = s.rill := rfl
@[simp] theorem State.modPort_acq (s : State) (n : Fin 8) (f : Port → Port) : (s.modPort n f).acq = s.acq := rfl
@[simp] theorem State.modPort_carriage (s : State) (n : Fin 8) (f : Port → Port) : (s.modPort n f).carriage = s.carriage := rfl
@[simp] theorem State.modPort_hk (s : State) (n : Fin 8) (f : Port → Port) : (s.modPort n f).hk = s.hk := rfl
@[simp] theorem State.modPort_sys (s : State) (n : Fin 8) (f : Port → Port) : (s.modPort n f).sys = s.sys := rfl

/-! ### State.modLink -/

@[simp] theorem State.modLink_pending (s : State) (p : Fin 16) (f : Link → Link) : (s.modLink p f).pending = s.pending := rfl
@[simp] theorem State.modLink_now (s : State) (p : Fin 16) (f : Link → Link) : (s.modLink p f).now = s.now := rfl
@[simp] theorem State.modLink_free (s : State) (p : Fin 16) (f : Link → Link) : (s.modLink p f).free = s.free := rfl
@[simp] theorem State.modLink_bus (s : State) (p : Fin 16) (f : Link → Link) : (s.modLink p f).bus = s.bus := rfl
@[simp] theorem State.modLink_q (s : State) (p : Fin 16) (f : Link → Link) : (s.modLink p f).q = s.q := rfl
@[simp] theorem State.modLink_shadow (s : State) (p : Fin 16) (f : Link → Link) : (s.modLink p f).shadow = s.shadow := rfl
@[simp] theorem State.modLink_active (s : State) (p : Fin 16) (f : Link → Link) : (s.modLink p f).active = s.active := rfl
@[simp] theorem State.modLink_previous (s : State) (p : Fin 16) (f : Link → Link) : (s.modLink p f).previous = s.previous := rfl
@[simp] theorem State.modLink_meta_all (s : State) (p : Fin 16) (f : Link → Link) : (s.modLink p f).meta' = s.meta' := rfl
@[simp] theorem State.modLink_commits (s : State) (p : Fin 16) (f : Link → Link) : (s.modLink p f).commits = s.commits := rfl
@[simp] theorem State.modLink_nextCommit (s : State) (p : Fin 16) (f : Link → Link) : (s.modLink p f).nextCommit = s.nextCommit := rfl
@[simp] theorem State.modLink_releases (s : State) (p : Fin 16) (f : Link → Link) : (s.modLink p f).releases = s.releases := rfl
@[simp] theorem State.modLink_limits (s : State) (p : Fin 16) (f : Link → Link) : (s.modLink p f).limits = s.limits := rfl
@[simp] theorem State.modLink_owners (s : State) (p : Fin 16) (f : Link → Link) : (s.modLink p f).owners = s.owners := rfl
@[simp] theorem State.modLink_lanes (s : State) (p : Fin 16) (f : Link → Link) : (s.modLink p f).lanes = s.lanes := rfl
@[simp] theorem State.modLink_relays (s : State) (p : Fin 16) (f : Link → Link) : (s.modLink p f).relays = s.relays := rfl
@[simp] theorem State.modLink_scans (s : State) (p : Fin 16) (f : Link → Link) : (s.modLink p f).scans = s.scans := rfl
@[simp] theorem State.modLink_hosts (s : State) (p : Fin 16) (f : Link → Link) : (s.modLink p f).hosts = s.hosts := rfl
@[simp] theorem State.modLink_ports (s : State) (p : Fin 16) (f : Link → Link) : (s.modLink p f).ports = s.ports := rfl
@[simp] theorem State.modLink_tb (s : State) (p : Fin 16) (f : Link → Link) : (s.modLink p f).tb = s.tb := rfl
@[simp] theorem State.modLink_replicas (s : State) (p : Fin 16) (f : Link → Link) : (s.modLink p f).replicas = s.replicas := rfl
@[simp] theorem State.modLink_rill (s : State) (p : Fin 16) (f : Link → Link) : (s.modLink p f).rill = { s.rill with links := upd s.rill.links p f } := rfl
@[simp] theorem State.modLink_acq (s : State) (p : Fin 16) (f : Link → Link) : (s.modLink p f).acq = s.acq := rfl
@[simp] theorem State.modLink_carriage (s : State) (p : Fin 16) (f : Link → Link) : (s.modLink p f).carriage = s.carriage := rfl
@[simp] theorem State.modLink_hk (s : State) (p : Fin 16) (f : Link → Link) : (s.modLink p f).hk = s.hk := rfl
@[simp] theorem State.modLink_sys (s : State) (p : Fin 16) (f : Link → Link) : (s.modLink p f).sys = s.sys := rfl

/-! ### State.modTb -/

@[simp] theorem State.modTb_pending (s : State) (f : TimeBase → TimeBase) : (s.modTb f).pending = s.pending := rfl
@[simp] theorem State.modTb_now (s : State) (f : TimeBase → TimeBase) : (s.modTb f).now = s.now := rfl
@[simp] theorem State.modTb_free (s : State) (f : TimeBase → TimeBase) : (s.modTb f).free = s.free := rfl
@[simp] theorem State.modTb_bus (s : State) (f : TimeBase → TimeBase) : (s.modTb f).bus = s.bus := rfl
@[simp] theorem State.modTb_q (s : State) (f : TimeBase → TimeBase) : (s.modTb f).q = s.q := rfl
@[simp] theorem State.modTb_shadow (s : State) (f : TimeBase → TimeBase) : (s.modTb f).shadow = s.shadow := rfl
@[simp] theorem State.modTb_active (s : State) (f : TimeBase → TimeBase) : (s.modTb f).active = s.active := rfl
@[simp] theorem State.modTb_previous (s : State) (f : TimeBase → TimeBase) : (s.modTb f).previous = s.previous := rfl
@[simp] theorem State.modTb_meta_all (s : State) (f : TimeBase → TimeBase) : (s.modTb f).meta' = s.meta' := rfl
@[simp] theorem State.modTb_commits (s : State) (f : TimeBase → TimeBase) : (s.modTb f).commits = s.commits := rfl
@[simp] theorem State.modTb_nextCommit (s : State) (f : TimeBase → TimeBase) : (s.modTb f).nextCommit = s.nextCommit := rfl
@[simp] theorem State.modTb_releases (s : State) (f : TimeBase → TimeBase) : (s.modTb f).releases = s.releases := rfl
@[simp] theorem State.modTb_limits (s : State) (f : TimeBase → TimeBase) : (s.modTb f).limits = s.limits := rfl
@[simp] theorem State.modTb_owners (s : State) (f : TimeBase → TimeBase) : (s.modTb f).owners = s.owners := rfl
@[simp] theorem State.modTb_lanes (s : State) (f : TimeBase → TimeBase) : (s.modTb f).lanes = s.lanes := rfl
@[simp] theorem State.modTb_relays (s : State) (f : TimeBase → TimeBase) : (s.modTb f).relays = s.relays := rfl
@[simp] theorem State.modTb_scans (s : State) (f : TimeBase → TimeBase) : (s.modTb f).scans = s.scans := rfl
@[simp] theorem State.modTb_hosts (s : State) (f : TimeBase → TimeBase) : (s.modTb f).hosts = s.hosts := rfl
@[simp] theorem State.modTb_ports (s : State) (f : TimeBase → TimeBase) : (s.modTb f).ports = s.ports := rfl
@[simp] theorem State.modTb_tb (s : State) (f : TimeBase → TimeBase) : (s.modTb f).tb = f s.tb := rfl
@[simp] theorem State.modTb_replicas (s : State) (f : TimeBase → TimeBase) : (s.modTb f).replicas = s.replicas := rfl
@[simp] theorem State.modTb_rill (s : State) (f : TimeBase → TimeBase) : (s.modTb f).rill = s.rill := rfl
@[simp] theorem State.modTb_acq (s : State) (f : TimeBase → TimeBase) : (s.modTb f).acq = s.acq := rfl
@[simp] theorem State.modTb_carriage (s : State) (f : TimeBase → TimeBase) : (s.modTb f).carriage = s.carriage := rfl
@[simp] theorem State.modTb_hk (s : State) (f : TimeBase → TimeBase) : (s.modTb f).hk = s.hk := rfl
@[simp] theorem State.modTb_sys (s : State) (f : TimeBase → TimeBase) : (s.modTb f).sys = s.sys := rfl

/-! ### State.modHk -/

@[simp] theorem State.modHk_pending (s : State) (f : House → House) : (s.modHk f).pending = s.pending := rfl
@[simp] theorem State.modHk_now (s : State) (f : House → House) : (s.modHk f).now = s.now := rfl
@[simp] theorem State.modHk_free (s : State) (f : House → House) : (s.modHk f).free = s.free := rfl
@[simp] theorem State.modHk_bus (s : State) (f : House → House) : (s.modHk f).bus = s.bus := rfl
@[simp] theorem State.modHk_q (s : State) (f : House → House) : (s.modHk f).q = s.q := rfl
@[simp] theorem State.modHk_shadow (s : State) (f : House → House) : (s.modHk f).shadow = s.shadow := rfl
@[simp] theorem State.modHk_active (s : State) (f : House → House) : (s.modHk f).active = s.active := rfl
@[simp] theorem State.modHk_previous (s : State) (f : House → House) : (s.modHk f).previous = s.previous := rfl
@[simp] theorem State.modHk_meta_all (s : State) (f : House → House) : (s.modHk f).meta' = s.meta' := rfl
@[simp] theorem State.modHk_commits (s : State) (f : House → House) : (s.modHk f).commits = s.commits := rfl
@[simp] theorem State.modHk_nextCommit (s : State) (f : House → House) : (s.modHk f).nextCommit = s.nextCommit := rfl
@[simp] theorem State.modHk_releases (s : State) (f : House → House) : (s.modHk f).releases = s.releases := rfl
@[simp] theorem State.modHk_limits (s : State) (f : House → House) : (s.modHk f).limits = s.limits := rfl
@[simp] theorem State.modHk_owners (s : State) (f : House → House) : (s.modHk f).owners = s.owners := rfl
@[simp] theorem State.modHk_lanes (s : State) (f : House → House) : (s.modHk f).lanes = s.lanes := rfl
@[simp] theorem State.modHk_relays (s : State) (f : House → House) : (s.modHk f).relays = s.relays := rfl
@[simp] theorem State.modHk_scans (s : State) (f : House → House) : (s.modHk f).scans = s.scans := rfl
@[simp] theorem State.modHk_hosts (s : State) (f : House → House) : (s.modHk f).hosts = s.hosts := rfl
@[simp] theorem State.modHk_ports (s : State) (f : House → House) : (s.modHk f).ports = s.ports := rfl
@[simp] theorem State.modHk_tb (s : State) (f : House → House) : (s.modHk f).tb = s.tb := rfl
@[simp] theorem State.modHk_replicas (s : State) (f : House → House) : (s.modHk f).replicas = s.replicas := rfl
@[simp] theorem State.modHk_rill (s : State) (f : House → House) : (s.modHk f).rill = s.rill := rfl
@[simp] theorem State.modHk_acq (s : State) (f : House → House) : (s.modHk f).acq = s.acq := rfl
@[simp] theorem State.modHk_carriage (s : State) (f : House → House) : (s.modHk f).carriage = s.carriage := rfl
@[simp] theorem State.modHk_hk (s : State) (f : House → House) : (s.modHk f).hk = f s.hk := rfl
@[simp] theorem State.modHk_sys (s : State) (f : House → House) : (s.modHk f).sys = s.sys := rfl

/-! ### State.modAcq -/

@[simp] theorem State.modAcq_pending (s : State) (f : Acq → Acq) : (s.modAcq f).pending = s.pending := rfl
@[simp] theorem State.modAcq_now (s : State) (f : Acq → Acq) : (s.modAcq f).now = s.now := rfl
@[simp] theorem State.modAcq_free (s : State) (f : Acq → Acq) : (s.modAcq f).free = s.free := rfl
@[simp] theorem State.modAcq_bus (s : State) (f : Acq → Acq) : (s.modAcq f).bus = s.bus := rfl
@[simp] theorem State.modAcq_q (s : State) (f : Acq → Acq) : (s.modAcq f).q = s.q := rfl
@[simp] theorem State.modAcq_shadow (s : State) (f : Acq → Acq) : (s.modAcq f).shadow = s.shadow := rfl
@[simp] theorem State.modAcq_active (s : State) (f : Acq → Acq) : (s.modAcq f).active = s.active := rfl
@[simp] theorem State.modAcq_previous (s : State) (f : Acq → Acq) : (s.modAcq f).previous = s.previous := rfl
@[simp] theorem State.modAcq_meta_all (s : State) (f : Acq → Acq) : (s.modAcq f).meta' = s.meta' := rfl
@[simp] theorem State.modAcq_commits (s : State) (f : Acq → Acq) : (s.modAcq f).commits = s.commits := rfl
@[simp] theorem State.modAcq_nextCommit (s : State) (f : Acq → Acq) : (s.modAcq f).nextCommit = s.nextCommit := rfl
@[simp] theorem State.modAcq_releases (s : State) (f : Acq → Acq) : (s.modAcq f).releases = s.releases := rfl
@[simp] theorem State.modAcq_limits (s : State) (f : Acq → Acq) : (s.modAcq f).limits = s.limits := rfl
@[simp] theorem State.modAcq_owners (s : State) (f : Acq → Acq) : (s.modAcq f).owners = s.owners := rfl
@[simp] theorem State.modAcq_lanes (s : State) (f : Acq → Acq) : (s.modAcq f).lanes = s.lanes := rfl
@[simp] theorem State.modAcq_relays (s : State) (f : Acq → Acq) : (s.modAcq f).relays = s.relays := rfl
@[simp] theorem State.modAcq_scans (s : State) (f : Acq → Acq) : (s.modAcq f).scans = s.scans := rfl
@[simp] theorem State.modAcq_hosts (s : State) (f : Acq → Acq) : (s.modAcq f).hosts = s.hosts := rfl
@[simp] theorem State.modAcq_ports (s : State) (f : Acq → Acq) : (s.modAcq f).ports = s.ports := rfl
@[simp] theorem State.modAcq_tb (s : State) (f : Acq → Acq) : (s.modAcq f).tb = s.tb := rfl
@[simp] theorem State.modAcq_replicas (s : State) (f : Acq → Acq) : (s.modAcq f).replicas = s.replicas := rfl
@[simp] theorem State.modAcq_rill (s : State) (f : Acq → Acq) : (s.modAcq f).rill = s.rill := rfl
@[simp] theorem State.modAcq_acq (s : State) (f : Acq → Acq) : (s.modAcq f).acq = f s.acq := rfl
@[simp] theorem State.modAcq_carriage (s : State) (f : Acq → Acq) : (s.modAcq f).carriage = s.carriage := rfl
@[simp] theorem State.modAcq_hk (s : State) (f : Acq → Acq) : (s.modAcq f).hk = s.hk := rfl
@[simp] theorem State.modAcq_sys (s : State) (f : Acq → Acq) : (s.modAcq f).sys = s.sys := rfl

/-! ### State.modRill -/

@[simp] theorem State.modRill_pending (s : State) (f : Rill → Rill) : (s.modRill f).pending = s.pending := rfl
@[simp] theorem State.modRill_now (s : State) (f : Rill → Rill) : (s.modRill f).now = s.now := rfl
@[simp] theorem State.modRill_free (s : State) (f : Rill → Rill) : (s.modRill f).free = s.free := rfl
@[simp] theorem State.modRill_bus (s : State) (f : Rill → Rill) : (s.modRill f).bus = s.bus := rfl
@[simp] theorem State.modRill_q (s : State) (f : Rill → Rill) : (s.modRill f).q = s.q := rfl
@[simp] theorem State.modRill_shadow (s : State) (f : Rill → Rill) : (s.modRill f).shadow = s.shadow := rfl
@[simp] theorem State.modRill_active (s : State) (f : Rill → Rill) : (s.modRill f).active = s.active := rfl
@[simp] theorem State.modRill_previous (s : State) (f : Rill → Rill) : (s.modRill f).previous = s.previous := rfl
@[simp] theorem State.modRill_meta_all (s : State) (f : Rill → Rill) : (s.modRill f).meta' = s.meta' := rfl
@[simp] theorem State.modRill_commits (s : State) (f : Rill → Rill) : (s.modRill f).commits = s.commits := rfl
@[simp] theorem State.modRill_nextCommit (s : State) (f : Rill → Rill) : (s.modRill f).nextCommit = s.nextCommit := rfl
@[simp] theorem State.modRill_releases (s : State) (f : Rill → Rill) : (s.modRill f).releases = s.releases := rfl
@[simp] theorem State.modRill_limits (s : State) (f : Rill → Rill) : (s.modRill f).limits = s.limits := rfl
@[simp] theorem State.modRill_owners (s : State) (f : Rill → Rill) : (s.modRill f).owners = s.owners := rfl
@[simp] theorem State.modRill_lanes (s : State) (f : Rill → Rill) : (s.modRill f).lanes = s.lanes := rfl
@[simp] theorem State.modRill_relays (s : State) (f : Rill → Rill) : (s.modRill f).relays = s.relays := rfl
@[simp] theorem State.modRill_scans (s : State) (f : Rill → Rill) : (s.modRill f).scans = s.scans := rfl
@[simp] theorem State.modRill_hosts (s : State) (f : Rill → Rill) : (s.modRill f).hosts = s.hosts := rfl
@[simp] theorem State.modRill_ports (s : State) (f : Rill → Rill) : (s.modRill f).ports = s.ports := rfl
@[simp] theorem State.modRill_tb (s : State) (f : Rill → Rill) : (s.modRill f).tb = s.tb := rfl
@[simp] theorem State.modRill_replicas (s : State) (f : Rill → Rill) : (s.modRill f).replicas = s.replicas := rfl
@[simp] theorem State.modRill_rill (s : State) (f : Rill → Rill) : (s.modRill f).rill = f s.rill := rfl
@[simp] theorem State.modRill_acq (s : State) (f : Rill → Rill) : (s.modRill f).acq = s.acq := rfl
@[simp] theorem State.modRill_carriage (s : State) (f : Rill → Rill) : (s.modRill f).carriage = s.carriage := rfl
@[simp] theorem State.modRill_hk (s : State) (f : Rill → Rill) : (s.modRill f).hk = s.hk := rfl
@[simp] theorem State.modRill_sys (s : State) (f : Rill → Rill) : (s.modRill f).sys = s.sys := rfl

/-! ### State.modSys -/

@[simp] theorem State.modSys_pending (s : State) (f : Sys → Sys) : (s.modSys f).pending = s.pending := rfl
@[simp] theorem State.modSys_now (s : State) (f : Sys → Sys) : (s.modSys f).now = s.now := rfl
@[simp] theorem State.modSys_free (s : State) (f : Sys → Sys) : (s.modSys f).free = s.free := rfl
@[simp] theorem State.modSys_bus (s : State) (f : Sys → Sys) : (s.modSys f).bus = s.bus := rfl
@[simp] theorem State.modSys_q (s : State) (f : Sys → Sys) : (s.modSys f).q = s.q := rfl
@[simp] theorem State.modSys_shadow (s : State) (f : Sys → Sys) : (s.modSys f).shadow = s.shadow := rfl
@[simp] theorem State.modSys_active (s : State) (f : Sys → Sys) : (s.modSys f).active = s.active := rfl
@[simp] theorem State.modSys_previous (s : State) (f : Sys → Sys) : (s.modSys f).previous = s.previous := rfl
@[simp] theorem State.modSys_meta_all (s : State) (f : Sys → Sys) : (s.modSys f).meta' = s.meta' := rfl
@[simp] theorem State.modSys_commits (s : State) (f : Sys → Sys) : (s.modSys f).commits = s.commits := rfl
@[simp] theorem State.modSys_nextCommit (s : State) (f : Sys → Sys) : (s.modSys f).nextCommit = s.nextCommit := rfl
@[simp] theorem State.modSys_releases (s : State) (f : Sys → Sys) : (s.modSys f).releases = s.releases := rfl
@[simp] theorem State.modSys_limits (s : State) (f : Sys → Sys) : (s.modSys f).limits = s.limits := rfl
@[simp] theorem State.modSys_owners (s : State) (f : Sys → Sys) : (s.modSys f).owners = s.owners := rfl
@[simp] theorem State.modSys_lanes (s : State) (f : Sys → Sys) : (s.modSys f).lanes = s.lanes := rfl
@[simp] theorem State.modSys_relays (s : State) (f : Sys → Sys) : (s.modSys f).relays = s.relays := rfl
@[simp] theorem State.modSys_scans (s : State) (f : Sys → Sys) : (s.modSys f).scans = s.scans := rfl
@[simp] theorem State.modSys_hosts (s : State) (f : Sys → Sys) : (s.modSys f).hosts = s.hosts := rfl
@[simp] theorem State.modSys_ports (s : State) (f : Sys → Sys) : (s.modSys f).ports = s.ports := rfl
@[simp] theorem State.modSys_tb (s : State) (f : Sys → Sys) : (s.modSys f).tb = s.tb := rfl
@[simp] theorem State.modSys_replicas (s : State) (f : Sys → Sys) : (s.modSys f).replicas = s.replicas := rfl
@[simp] theorem State.modSys_rill (s : State) (f : Sys → Sys) : (s.modSys f).rill = s.rill := rfl
@[simp] theorem State.modSys_acq (s : State) (f : Sys → Sys) : (s.modSys f).acq = s.acq := rfl
@[simp] theorem State.modSys_carriage (s : State) (f : Sys → Sys) : (s.modSys f).carriage = s.carriage := rfl
@[simp] theorem State.modSys_hk (s : State) (f : Sys → Sys) : (s.modSys f).hk = s.hk := rfl
@[simp] theorem State.modSys_sys (s : State) (f : Sys → Sys) : (s.modSys f).sys = f s.sys := rfl

/-! ### State.modEntry -/

@[simp] theorem State.modEntry_pending (s : State) (x : QId) (k : Nat) (f : QEntry → QEntry) : (s.modEntry x k f).pending = s.pending := rfl
@[simp] theorem State.modEntry_now (s : State) (x : QId) (k : Nat) (f : QEntry → QEntry) : (s.modEntry x k f).now = s.now := rfl
@[simp] theorem State.modEntry_free (s : State) (x : QId) (k : Nat) (f : QEntry → QEntry) : (s.modEntry x k f).free = s.free := rfl
@[simp] theorem State.modEntry_bus (s : State) (x : QId) (k : Nat) (f : QEntry → QEntry) : (s.modEntry x k f).bus = s.bus := rfl
@[simp] theorem State.modEntry_q (s : State) (x : QId) (k : Nat) (f : QEntry → QEntry) : (s.modEntry x k f).q = s.q.put x ((s.q.get x).map fun e => if e.seq = k then f e else e) := rfl
@[simp] theorem State.modEntry_shadow (s : State) (x : QId) (k : Nat) (f : QEntry → QEntry) : (s.modEntry x k f).shadow = s.shadow := rfl
@[simp] theorem State.modEntry_active (s : State) (x : QId) (k : Nat) (f : QEntry → QEntry) : (s.modEntry x k f).active = s.active := rfl
@[simp] theorem State.modEntry_previous (s : State) (x : QId) (k : Nat) (f : QEntry → QEntry) : (s.modEntry x k f).previous = s.previous := rfl
@[simp] theorem State.modEntry_meta_all (s : State) (x : QId) (k : Nat) (f : QEntry → QEntry) : (s.modEntry x k f).meta' = s.meta' := rfl
@[simp] theorem State.modEntry_commits (s : State) (x : QId) (k : Nat) (f : QEntry → QEntry) : (s.modEntry x k f).commits = s.commits := rfl
@[simp] theorem State.modEntry_nextCommit (s : State) (x : QId) (k : Nat) (f : QEntry → QEntry) : (s.modEntry x k f).nextCommit = s.nextCommit := rfl
@[simp] theorem State.modEntry_releases (s : State) (x : QId) (k : Nat) (f : QEntry → QEntry) : (s.modEntry x k f).releases = s.releases := rfl
@[simp] theorem State.modEntry_limits (s : State) (x : QId) (k : Nat) (f : QEntry → QEntry) : (s.modEntry x k f).limits = s.limits := rfl
@[simp] theorem State.modEntry_owners (s : State) (x : QId) (k : Nat) (f : QEntry → QEntry) : (s.modEntry x k f).owners = s.owners := rfl
@[simp] theorem State.modEntry_lanes (s : State) (x : QId) (k : Nat) (f : QEntry → QEntry) : (s.modEntry x k f).lanes = s.lanes := rfl
@[simp] theorem State.modEntry_relays (s : State) (x : QId) (k : Nat) (f : QEntry → QEntry) : (s.modEntry x k f).relays = s.relays := rfl
@[simp] theorem State.modEntry_scans (s : State) (x : QId) (k : Nat) (f : QEntry → QEntry) : (s.modEntry x k f).scans = s.scans := rfl
@[simp] theorem State.modEntry_hosts (s : State) (x : QId) (k : Nat) (f : QEntry → QEntry) : (s.modEntry x k f).hosts = s.hosts := rfl
@[simp] theorem State.modEntry_ports (s : State) (x : QId) (k : Nat) (f : QEntry → QEntry) : (s.modEntry x k f).ports = s.ports := rfl
@[simp] theorem State.modEntry_tb (s : State) (x : QId) (k : Nat) (f : QEntry → QEntry) : (s.modEntry x k f).tb = s.tb := rfl
@[simp] theorem State.modEntry_replicas (s : State) (x : QId) (k : Nat) (f : QEntry → QEntry) : (s.modEntry x k f).replicas = s.replicas := rfl
@[simp] theorem State.modEntry_rill (s : State) (x : QId) (k : Nat) (f : QEntry → QEntry) : (s.modEntry x k f).rill = s.rill := rfl
@[simp] theorem State.modEntry_acq (s : State) (x : QId) (k : Nat) (f : QEntry → QEntry) : (s.modEntry x k f).acq = s.acq := rfl
@[simp] theorem State.modEntry_carriage (s : State) (x : QId) (k : Nat) (f : QEntry → QEntry) : (s.modEntry x k f).carriage = s.carriage := rfl
@[simp] theorem State.modEntry_hk (s : State) (x : QId) (k : Nat) (f : QEntry → QEntry) : (s.modEntry x k f).hk = s.hk := rfl
@[simp] theorem State.modEntry_sys (s : State) (x : QId) (k : Nat) (f : QEntry → QEntry) : (s.modEntry x k f).sys = s.sys := rfl

/-! ### State.dropEntry -/

@[simp] theorem State.dropEntry_pending (s : State) (x : QId) (k : Nat) : (s.dropEntry x k).pending = s.pending := rfl
@[simp] theorem State.dropEntry_now (s : State) (x : QId) (k : Nat) : (s.dropEntry x k).now = s.now := rfl
@[simp] theorem State.dropEntry_free (s : State) (x : QId) (k : Nat) : (s.dropEntry x k).free = s.free := rfl
@[simp] theorem State.dropEntry_bus (s : State) (x : QId) (k : Nat) : (s.dropEntry x k).bus = s.bus := rfl
@[simp] theorem State.dropEntry_q (s : State) (x : QId) (k : Nat) : (s.dropEntry x k).q = s.q.put x ((s.q.get x).filter fun e => decide (e.seq ≠ k)) := rfl
@[simp] theorem State.dropEntry_shadow (s : State) (x : QId) (k : Nat) : (s.dropEntry x k).shadow = s.shadow := rfl
@[simp] theorem State.dropEntry_active (s : State) (x : QId) (k : Nat) : (s.dropEntry x k).active = s.active := rfl
@[simp] theorem State.dropEntry_previous (s : State) (x : QId) (k : Nat) : (s.dropEntry x k).previous = s.previous := rfl
@[simp] theorem State.dropEntry_meta_all (s : State) (x : QId) (k : Nat) : (s.dropEntry x k).meta' = s.meta' := rfl
@[simp] theorem State.dropEntry_commits (s : State) (x : QId) (k : Nat) : (s.dropEntry x k).commits = s.commits := rfl
@[simp] theorem State.dropEntry_nextCommit (s : State) (x : QId) (k : Nat) : (s.dropEntry x k).nextCommit = s.nextCommit := rfl
@[simp] theorem State.dropEntry_releases (s : State) (x : QId) (k : Nat) : (s.dropEntry x k).releases = s.releases := rfl
@[simp] theorem State.dropEntry_limits (s : State) (x : QId) (k : Nat) : (s.dropEntry x k).limits = s.limits := rfl
@[simp] theorem State.dropEntry_owners (s : State) (x : QId) (k : Nat) : (s.dropEntry x k).owners = s.owners := rfl
@[simp] theorem State.dropEntry_lanes (s : State) (x : QId) (k : Nat) : (s.dropEntry x k).lanes = s.lanes := rfl
@[simp] theorem State.dropEntry_relays (s : State) (x : QId) (k : Nat) : (s.dropEntry x k).relays = s.relays := rfl
@[simp] theorem State.dropEntry_scans (s : State) (x : QId) (k : Nat) : (s.dropEntry x k).scans = s.scans := rfl
@[simp] theorem State.dropEntry_hosts (s : State) (x : QId) (k : Nat) : (s.dropEntry x k).hosts = s.hosts := rfl
@[simp] theorem State.dropEntry_ports (s : State) (x : QId) (k : Nat) : (s.dropEntry x k).ports = s.ports := rfl
@[simp] theorem State.dropEntry_tb (s : State) (x : QId) (k : Nat) : (s.dropEntry x k).tb = s.tb := rfl
@[simp] theorem State.dropEntry_replicas (s : State) (x : QId) (k : Nat) : (s.dropEntry x k).replicas = s.replicas := rfl
@[simp] theorem State.dropEntry_rill (s : State) (x : QId) (k : Nat) : (s.dropEntry x k).rill = s.rill := rfl
@[simp] theorem State.dropEntry_acq (s : State) (x : QId) (k : Nat) : (s.dropEntry x k).acq = s.acq := rfl
@[simp] theorem State.dropEntry_carriage (s : State) (x : QId) (k : Nat) : (s.dropEntry x k).carriage = s.carriage := rfl
@[simp] theorem State.dropEntry_hk (s : State) (x : QId) (k : Nat) : (s.dropEntry x k).hk = s.hk := rfl
@[simp] theorem State.dropEntry_sys (s : State) (x : QId) (k : Nat) : (s.dropEntry x k).sys = s.sys := rfl

/-! ### State.answer -/

@[simp] theorem State.answer_pending (s : State) (r : BusResult) : (s.answer r).pending = s.pending := rfl
@[simp] theorem State.answer_now (s : State) (r : BusResult) : (s.answer r).now = s.now := rfl
@[simp] theorem State.answer_free (s : State) (r : BusResult) : (s.answer r).free = s.free := rfl
@[simp] theorem State.answer_bus (s : State) (r : BusResult) : (s.answer r).bus = { s.bus with last := r } := rfl
@[simp] theorem State.answer_q (s : State) (r : BusResult) : (s.answer r).q = s.q := rfl
@[simp] theorem State.answer_shadow (s : State) (r : BusResult) : (s.answer r).shadow = s.shadow := rfl
@[simp] theorem State.answer_active (s : State) (r : BusResult) : (s.answer r).active = s.active := rfl
@[simp] theorem State.answer_previous (s : State) (r : BusResult) : (s.answer r).previous = s.previous := rfl
@[simp] theorem State.answer_meta_all (s : State) (r : BusResult) : (s.answer r).meta' = s.meta' := rfl
@[simp] theorem State.answer_commits (s : State) (r : BusResult) : (s.answer r).commits = s.commits := rfl
@[simp] theorem State.answer_nextCommit (s : State) (r : BusResult) : (s.answer r).nextCommit = s.nextCommit := rfl
@[simp] theorem State.answer_releases (s : State) (r : BusResult) : (s.answer r).releases = s.releases := rfl
@[simp] theorem State.answer_limits (s : State) (r : BusResult) : (s.answer r).limits = s.limits := rfl
@[simp] theorem State.answer_owners (s : State) (r : BusResult) : (s.answer r).owners = s.owners := rfl
@[simp] theorem State.answer_lanes (s : State) (r : BusResult) : (s.answer r).lanes = s.lanes := rfl
@[simp] theorem State.answer_relays (s : State) (r : BusResult) : (s.answer r).relays = s.relays := rfl
@[simp] theorem State.answer_scans (s : State) (r : BusResult) : (s.answer r).scans = s.scans := rfl
@[simp] theorem State.answer_hosts (s : State) (r : BusResult) : (s.answer r).hosts = s.hosts := rfl
@[simp] theorem State.answer_ports (s : State) (r : BusResult) : (s.answer r).ports = s.ports := rfl
@[simp] theorem State.answer_tb (s : State) (r : BusResult) : (s.answer r).tb = s.tb := rfl
@[simp] theorem State.answer_replicas (s : State) (r : BusResult) : (s.answer r).replicas = s.replicas := rfl
@[simp] theorem State.answer_rill (s : State) (r : BusResult) : (s.answer r).rill = s.rill := rfl
@[simp] theorem State.answer_acq (s : State) (r : BusResult) : (s.answer r).acq = s.acq := rfl
@[simp] theorem State.answer_carriage (s : State) (r : BusResult) : (s.answer r).carriage = s.carriage := rfl
@[simp] theorem State.answer_hk (s : State) (r : BusResult) : (s.answer r).hk = s.hk := rfl
@[simp] theorem State.answer_sys (s : State) (r : BusResult) : (s.answer r).sys = s.sys := rfl

/-! ### State.modLane -/

@[simp] theorem State.modLane_pending (s : State) (r : LaneRef) (f : Lane → Lane) : (s.modLane r f).pending = s.pending := by cases r <;> rfl
@[simp] theorem State.modLane_now (s : State) (r : LaneRef) (f : Lane → Lane) : (s.modLane r f).now = s.now := by cases r <;> rfl
@[simp] theorem State.modLane_free (s : State) (r : LaneRef) (f : Lane → Lane) : (s.modLane r f).free = s.free := by cases r <;> rfl
@[simp] theorem State.modLane_bus (s : State) (r : LaneRef) (f : Lane → Lane) : (s.modLane r f).bus = s.bus := by cases r <;> rfl
@[simp] theorem State.modLane_q (s : State) (r : LaneRef) (f : Lane → Lane) : (s.modLane r f).q = s.q := by cases r <;> rfl
@[simp] theorem State.modLane_shadow (s : State) (r : LaneRef) (f : Lane → Lane) : (s.modLane r f).shadow = s.shadow := by cases r <;> rfl
@[simp] theorem State.modLane_active (s : State) (r : LaneRef) (f : Lane → Lane) : (s.modLane r f).active = s.active := by cases r <;> rfl
@[simp] theorem State.modLane_previous (s : State) (r : LaneRef) (f : Lane → Lane) : (s.modLane r f).previous = s.previous := by cases r <;> rfl
@[simp] theorem State.modLane_meta_all (s : State) (r : LaneRef) (f : Lane → Lane) : (s.modLane r f).meta' = s.meta' := by cases r <;> rfl
@[simp] theorem State.modLane_commits (s : State) (r : LaneRef) (f : Lane → Lane) : (s.modLane r f).commits = s.commits := by cases r <;> rfl
@[simp] theorem State.modLane_nextCommit (s : State) (r : LaneRef) (f : Lane → Lane) : (s.modLane r f).nextCommit = s.nextCommit := by cases r <;> rfl
@[simp] theorem State.modLane_releases (s : State) (r : LaneRef) (f : Lane → Lane) : (s.modLane r f).releases = s.releases := by cases r <;> rfl
@[simp] theorem State.modLane_limits (s : State) (r : LaneRef) (f : Lane → Lane) : (s.modLane r f).limits = s.limits := by cases r <;> rfl
@[simp] theorem State.modLane_owners (s : State) (r : LaneRef) (f : Lane → Lane) : (s.modLane r f).owners = s.owners := by cases r <;> rfl
@[simp] theorem State.modLane_scans (s : State) (r : LaneRef) (f : Lane → Lane) : (s.modLane r f).scans = s.scans := by cases r <;> rfl
@[simp] theorem State.modLane_hosts (s : State) (r : LaneRef) (f : Lane → Lane) : (s.modLane r f).hosts = s.hosts := by cases r <;> rfl
@[simp] theorem State.modLane_ports (s : State) (r : LaneRef) (f : Lane → Lane) : (s.modLane r f).ports = s.ports := by cases r <;> rfl
@[simp] theorem State.modLane_tb (s : State) (r : LaneRef) (f : Lane → Lane) : (s.modLane r f).tb = s.tb := by cases r <;> rfl
@[simp] theorem State.modLane_replicas (s : State) (r : LaneRef) (f : Lane → Lane) : (s.modLane r f).replicas = s.replicas := by cases r <;> rfl
@[simp] theorem State.modLane_rill (s : State) (r : LaneRef) (f : Lane → Lane) : (s.modLane r f).rill = s.rill := by cases r <;> rfl
@[simp] theorem State.modLane_acq (s : State) (r : LaneRef) (f : Lane → Lane) : (s.modLane r f).acq = s.acq := by cases r <;> rfl
@[simp] theorem State.modLane_carriage (s : State) (r : LaneRef) (f : Lane → Lane) : (s.modLane r f).carriage = s.carriage := by cases r <;> rfl
@[simp] theorem State.modLane_hk (s : State) (r : LaneRef) (f : Lane → Lane) : (s.modLane r f).hk = s.hk := by cases r <;> rfl
@[simp] theorem State.modLane_sys (s : State) (r : LaneRef) (f : Lane → Lane) : (s.modLane r f).sys = s.sys := by cases r <;> rfl
@[simp] theorem State.modLane_line_lanes (s : State) (n : Fin 8) (f : Lane → Lane) : (s.modLane (.line n) f).lanes = upd s.lanes n f := rfl
@[simp] theorem State.modLane_line_relays (s : State) (n : Fin 8) (f : Lane → Lane) : (s.modLane (.line n) f).relays = s.relays := rfl
@[simp] theorem State.modLane_relay_lanes (s : State) (n : Fin 16) (f : Lane → Lane) : (s.modLane (.relay n) f).lanes = s.lanes := rfl
@[simp] theorem State.modLane_relay_relays (s : State) (n : Fin 16) (f : Lane → Lane) : (s.modLane (.relay n) f).relays = upd s.relays n f := rfl

/-! ### State.advanceTo -/

@[simp] theorem State.advanceTo_pending (s : State) (t : Instant) : (s.advanceTo t).pending = s.pending := by unfold State.advanceTo; split <;> rfl
@[simp] theorem State.advanceTo_free (s : State) (t : Instant) : (s.advanceTo t).free = s.free := by unfold State.advanceTo; split <;> rfl
@[simp] theorem State.advanceTo_bus (s : State) (t : Instant) : (s.advanceTo t).bus = s.bus := by unfold State.advanceTo; split <;> rfl
@[simp] theorem State.advanceTo_q (s : State) (t : Instant) : (s.advanceTo t).q = s.q := by unfold State.advanceTo; split <;> rfl
@[simp] theorem State.advanceTo_shadow (s : State) (t : Instant) : (s.advanceTo t).shadow = s.shadow := by unfold State.advanceTo; split <;> rfl
@[simp] theorem State.advanceTo_active (s : State) (t : Instant) : (s.advanceTo t).active = s.active := by unfold State.advanceTo; split <;> rfl
@[simp] theorem State.advanceTo_previous (s : State) (t : Instant) : (s.advanceTo t).previous = s.previous := by unfold State.advanceTo; split <;> rfl
@[simp] theorem State.advanceTo_meta_all (s : State) (t : Instant) : (s.advanceTo t).meta' = s.meta' := by unfold State.advanceTo; split <;> rfl
@[simp] theorem State.advanceTo_commits (s : State) (t : Instant) : (s.advanceTo t).commits = s.commits := by unfold State.advanceTo; split <;> rfl
@[simp] theorem State.advanceTo_nextCommit (s : State) (t : Instant) : (s.advanceTo t).nextCommit = s.nextCommit := by unfold State.advanceTo; split <;> rfl
@[simp] theorem State.advanceTo_releases (s : State) (t : Instant) : (s.advanceTo t).releases = s.releases := by unfold State.advanceTo; split <;> rfl
@[simp] theorem State.advanceTo_limits (s : State) (t : Instant) : (s.advanceTo t).limits = s.limits := by unfold State.advanceTo; split <;> rfl
@[simp] theorem State.advanceTo_owners (s : State) (t : Instant) : (s.advanceTo t).owners = s.owners := by unfold State.advanceTo; split <;> rfl
@[simp] theorem State.advanceTo_lanes (s : State) (t : Instant) : (s.advanceTo t).lanes = s.lanes := by unfold State.advanceTo; split <;> rfl
@[simp] theorem State.advanceTo_relays (s : State) (t : Instant) : (s.advanceTo t).relays = s.relays := by unfold State.advanceTo; split <;> rfl
@[simp] theorem State.advanceTo_scans (s : State) (t : Instant) : (s.advanceTo t).scans = s.scans := by unfold State.advanceTo; split <;> rfl
@[simp] theorem State.advanceTo_hosts (s : State) (t : Instant) : (s.advanceTo t).hosts = s.hosts := by unfold State.advanceTo; split <;> rfl
@[simp] theorem State.advanceTo_ports (s : State) (t : Instant) : (s.advanceTo t).ports = s.ports := by unfold State.advanceTo; split <;> rfl
@[simp] theorem State.advanceTo_replicas (s : State) (t : Instant) : (s.advanceTo t).replicas = s.replicas := by unfold State.advanceTo; split <;> rfl
@[simp] theorem State.advanceTo_rill (s : State) (t : Instant) : (s.advanceTo t).rill = s.rill := by unfold State.advanceTo; split <;> rfl
@[simp] theorem State.advanceTo_acq (s : State) (t : Instant) : (s.advanceTo t).acq = s.acq := by unfold State.advanceTo; split <;> rfl
@[simp] theorem State.advanceTo_hk (s : State) (t : Instant) : (s.advanceTo t).hk = s.hk := by unfold State.advanceTo; split <;> rfl
@[simp] theorem State.advanceTo_sys (s : State) (t : Instant) : (s.advanceTo t).sys = s.sys := by unfold State.advanceTo; split <;> rfl

/-- Elapsed time never runs backwards. -/
@[simp] theorem State.advanceTo_now (s : State) (t : Instant) : (s.advanceTo t).now = max s.now t := by
  unfold State.advanceTo
  split
  · exact (Nat.max_eq_left ‹_›).symm
  · exact (Nat.max_eq_right (Nat.le_of_not_le ‹_›)).symm

/-- An instant already past changes nothing. -/
theorem State.advanceTo_past (s : State) (t : Instant) (h : t ≤ s.now) : s.advanceTo t = s := by simp [State.advanceTo, h]

/-! ### State.logEntry and State.push -/

@[simp] theorem State.logEntry_pending (s : State) (c k v u : Nat) (d : List Nat) : (s.logEntry c k v u d).pending = s.pending := rfl
@[simp] theorem State.push_pending (s : State) (p : Packet) : (s.push p).pending = s.pending := rfl
@[simp] theorem State.logEntry_now (s : State) (c k v u : Nat) (d : List Nat) : (s.logEntry c k v u d).now = s.now := rfl
@[simp] theorem State.push_now (s : State) (p : Packet) : (s.push p).now = s.now := rfl
@[simp] theorem State.logEntry_free (s : State) (c k v u : Nat) (d : List Nat) : (s.logEntry c k v u d).free = s.free := rfl
@[simp] theorem State.push_free (s : State) (p : Packet) : (s.push p).free = s.free := rfl
@[simp] theorem State.logEntry_bus (s : State) (c k v u : Nat) (d : List Nat) : (s.logEntry c k v u d).bus = s.bus := rfl
@[simp] theorem State.logEntry_q (s : State) (c k v u : Nat) (d : List Nat) : (s.logEntry c k v u d).q = s.q := rfl
@[simp] theorem State.push_q (s : State) (p : Packet) : (s.push p).q = s.q := rfl
@[simp] theorem State.logEntry_shadow (s : State) (c k v u : Nat) (d : List Nat) : (s.logEntry c k v u d).shadow = s.shadow := rfl
@[simp] theorem State.push_shadow (s : State) (p : Packet) : (s.push p).shadow = s.shadow := rfl
@[simp] theorem State.logEntry_active (s : State) (c k v u : Nat) (d : List Nat) : (s.logEntry c k v u d).active = s.active := rfl
@[simp] theorem State.push_active (s : State) (p : Packet) : (s.push p).active = s.active := rfl
@[simp] theorem State.logEntry_previous (s : State) (c k v u : Nat) (d : List Nat) : (s.logEntry c k v u d).previous = s.previous := rfl
@[simp] theorem State.push_previous (s : State) (p : Packet) : (s.push p).previous = s.previous := rfl
@[simp] theorem State.logEntry_meta_all (s : State) (c k v u : Nat) (d : List Nat) : (s.logEntry c k v u d).meta' = s.meta' := rfl
@[simp] theorem State.push_meta_all (s : State) (p : Packet) : (s.push p).meta' = s.meta' := rfl
@[simp] theorem State.logEntry_commits (s : State) (c k v u : Nat) (d : List Nat) : (s.logEntry c k v u d).commits = s.commits := rfl
@[simp] theorem State.push_commits (s : State) (p : Packet) : (s.push p).commits = s.commits := rfl
@[simp] theorem State.logEntry_nextCommit (s : State) (c k v u : Nat) (d : List Nat) : (s.logEntry c k v u d).nextCommit = s.nextCommit := rfl
@[simp] theorem State.push_nextCommit (s : State) (p : Packet) : (s.push p).nextCommit = s.nextCommit := rfl
@[simp] theorem State.logEntry_releases (s : State) (c k v u : Nat) (d : List Nat) : (s.logEntry c k v u d).releases = s.releases := rfl
@[simp] theorem State.push_releases (s : State) (p : Packet) : (s.push p).releases = s.releases := rfl
@[simp] theorem State.logEntry_limits (s : State) (c k v u : Nat) (d : List Nat) : (s.logEntry c k v u d).limits = s.limits := rfl
@[simp] theorem State.push_limits (s : State) (p : Packet) : (s.push p).limits = s.limits := rfl
@[simp] theorem State.logEntry_owners (s : State) (c k v u : Nat) (d : List Nat) : (s.logEntry c k v u d).owners = s.owners := rfl
@[simp] theorem State.push_owners (s : State) (p : Packet) : (s.push p).owners = s.owners := rfl
@[simp] theorem State.logEntry_lanes (s : State) (c k v u : Nat) (d : List Nat) : (s.logEntry c k v u d).lanes = s.lanes := rfl
@[simp] theorem State.push_lanes (s : State) (p : Packet) : (s.push p).lanes = s.lanes := rfl
@[simp] theorem State.logEntry_relays (s : State) (c k v u : Nat) (d : List Nat) : (s.logEntry c k v u d).relays = s.relays := rfl
@[simp] theorem State.push_relays (s : State) (p : Packet) : (s.push p).relays = s.relays := rfl
@[simp] theorem State.logEntry_scans (s : State) (c k v u : Nat) (d : List Nat) : (s.logEntry c k v u d).scans = s.scans := rfl
@[simp] theorem State.push_scans (s : State) (p : Packet) : (s.push p).scans = s.scans := rfl
@[simp] theorem State.logEntry_hosts (s : State) (c k v u : Nat) (d : List Nat) : (s.logEntry c k v u d).hosts = s.hosts := rfl
@[simp] theorem State.push_hosts (s : State) (p : Packet) : (s.push p).hosts = s.hosts := rfl
@[simp] theorem State.logEntry_ports (s : State) (c k v u : Nat) (d : List Nat) : (s.logEntry c k v u d).ports = s.ports := rfl
@[simp] theorem State.push_ports (s : State) (p : Packet) : (s.push p).ports = s.ports := rfl
@[simp] theorem State.logEntry_tb (s : State) (c k v u : Nat) (d : List Nat) : (s.logEntry c k v u d).tb = s.tb := rfl
@[simp] theorem State.push_tb (s : State) (p : Packet) : (s.push p).tb = s.tb := rfl
@[simp] theorem State.logEntry_replicas (s : State) (c k v u : Nat) (d : List Nat) : (s.logEntry c k v u d).replicas = s.replicas := rfl
@[simp] theorem State.push_replicas (s : State) (p : Packet) : (s.push p).replicas = s.replicas := rfl
@[simp] theorem State.logEntry_rill (s : State) (c k v u : Nat) (d : List Nat) : (s.logEntry c k v u d).rill = s.rill := rfl
@[simp] theorem State.push_rill (s : State) (p : Packet) : (s.push p).rill = s.rill := rfl
@[simp] theorem State.logEntry_acq (s : State) (c k v u : Nat) (d : List Nat) : (s.logEntry c k v u d).acq = s.acq := rfl
@[simp] theorem State.logEntry_carriage (s : State) (c k v u : Nat) (d : List Nat) : (s.logEntry c k v u d).carriage = s.carriage := rfl
@[simp] theorem State.push_acq (s : State) (p : Packet) : (s.push p).acq = s.acq := rfl
@[simp] theorem State.push_carriage (s : State) (p : Packet) : (s.push p).carriage = s.carriage := rfl
@[simp] theorem State.logEntry_hk (s : State) (c k v u : Nat) (d : List Nat) : (s.logEntry c k v u d).hk = s.hk := rfl
@[simp] theorem State.push_hk (s : State) (p : Packet) : (s.push p).hk = s.hk := rfl
@[simp] theorem State.push_sys (s : State) (p : Packet) : (s.push p).sys = s.sys := rfl

/-! ### What reads the state and not the time -/

@[simp] theorem State.advanceTo_lane (s : State) (t : Instant) (r : LaneRef) : (s.advanceTo t).lane r = s.lane r := by cases r <;> simp [State.lane]
@[simp] theorem State.advanceTo_isS200 (s : State) (t : Instant) (r : LaneRef) : (s.advanceTo t).isS200 r = s.isS200 r := by cases r <;> simp [State.isS200]
@[simp] theorem State.advanceTo_firstStage (s : State) (t : Instant) (r : LaneRef) : (s.advanceTo t).firstStage r = s.firstStage r := by simp [State.firstStage]
@[simp] theorem State.advanceTo_grouping (s : State) (t : Instant) : (s.advanceTo t).grouping = s.grouping := by simp [State.grouping]
@[simp] theorem State.advanceTo_failLimit (s : State) (t : Instant) (r : LaneRef) : (s.advanceTo t).failLimit r = s.failLimit r := by cases r <;> simp [State.failLimit]
@[simp] theorem State.advanceTo_muInForce (s : State) (t : Instant) (n : Fin 8) : (s.advanceTo t).muInForce n = s.muInForce n := by simp [State.muInForce]

end Sys2Proof.Machine
end

