-- ==== Sys2Proof/Laws/Replies.lean ====
section
/-! SUPPORT. What a reply, an event and the sweep of the queues' heads leave alone: everything but the queues, the stream, the Rill
links and the firmware's own counts. -/
namespace Sys2Proof.Machine

/-! ### Frames on their way up -/

/-- A frame that finds room changes nothing but its link. -/
theorem State.queueFrame_some {s s' : State} {p : Fin 16} {f : Frame} (h : s.queueFrame p f = some s') :
    ∃ c, s.canonical p = some c ∧ s' = s.modLink c fun l => { l with queue := l.queue ++ [f] } := by
  unfold State.queueFrame at h
  split at h
  · cases h
  · split at h
    · exact ⟨_, ‹_›, (Option.some.inj h).symm⟩
    · cases h

@[simp] theorem State.freeSlot_pending (s : State) (g : Frame) : (s.freeSlot g).pending = s.pending := by
  unfold State.freeSlot; split <;> rfl
@[simp] theorem State.dropUp_pending (s : State) (g : Frame) : (s.dropUp g).pending = s.pending := by
  simp [State.dropUp]
@[simp] theorem State.sendUp_pending (s : State) (n r : Nat) (g : Frame) : (s.sendUp n r g).pending = s.pending := by
  unfold State.sendUp
  dsimp only
  split
  · obtain ⟨c, -, rfl⟩ := State.queueFrame_some ‹_›
    simp
  · simp
@[simp] theorem State.event_pending (s : State) (c t : Nat) (p : List Byte) : (s.event c t p).pending = s.pending := by
  unfold State.event; dsimp only; (repeat' split) <;> simp
@[simp] theorem State.fillQ3_pending (s : State)  : (s.fillQ3 ).pending = s.pending := by
  rfl
@[simp] theorem State.localReply_pending (s : State) (x : QId) (e : QEntry) (st : Status) : (s.localReply x e st).pending = s.pending := by
  unfold State.localReply; (repeat' split) <;> rfl
@[simp] theorem State.replyTo_pending (s : State) (x : QId) (e : QEntry) (st : Status) (p : List Byte) : (s.replyTo x e st p).pending = s.pending := by
  unfold State.replyTo; (repeat' split) <;> simp
@[simp] theorem State.sweepOne_pending (s : State) (x : QId) : (s.sweepOne x).pending = s.pending := by
  unfold State.sweepOne; (repeat' split) <;> simp
@[simp] theorem State.sweep_pending (s : State) : s.sweep.pending = s.pending := by
  have one : ∀ (l : List QId) (s : State), (l.foldl State.sweepOne s).pending = s.pending := by
    intro l
    induction l with
    | nil => intro s; rfl
    | cons a l ih => intro s; rw [List.foldl_cons, ih, State.sweepOne_pending]
  have all : ∀ (l : List Nat) (s : State),
      (l.foldl (fun s _ => [QId.q1, .q0, .q2, .q3].foldl State.sweepOne s) s).pending = s.pending := by
    intro l
    induction l with
    | nil => intro s; rfl
    | cons a l ih => intro s; rw [List.foldl_cons, ih, one]
  exact all _ s
@[simp] theorem State.freeSlot_now (s : State) (g : Frame) : (s.freeSlot g).now = s.now := by
  unfold State.freeSlot; split <;> rfl
@[simp] theorem State.dropUp_now (s : State) (g : Frame) : (s.dropUp g).now = s.now := by
  simp [State.dropUp]
@[simp] theorem State.sendUp_now (s : State) (n r : Nat) (g : Frame) : (s.sendUp n r g).now = s.now := by
  unfold State.sendUp
  dsimp only
  split
  · obtain ⟨c, -, rfl⟩ := State.queueFrame_some ‹_›
    simp
  · simp
@[simp] theorem State.event_now (s : State) (c t : Nat) (p : List Byte) : (s.event c t p).now = s.now := by
  unfold State.event; dsimp only; (repeat' split) <;> simp
@[simp] theorem State.fillQ3_now (s : State)  : (s.fillQ3 ).now = s.now := by
  rfl
@[simp] theorem State.localReply_now (s : State) (x : QId) (e : QEntry) (st : Status) : (s.localReply x e st).now = s.now := by
  unfold State.localReply; (repeat' split) <;> rfl
@[simp] theorem State.replyTo_now (s : State) (x : QId) (e : QEntry) (st : Status) (p : List Byte) : (s.replyTo x e st p).now = s.now := by
  unfold State.replyTo; (repeat' split) <;> simp
@[simp] theorem State.sweepOne_now (s : State) (x : QId) : (s.sweepOne x).now = s.now := by
  unfold State.sweepOne; (repeat' split) <;> simp
@[simp] theorem State.sweep_now (s : State) : s.sweep.now = s.now := by
  have one : ∀ (l : List QId) (s : State), (l.foldl State.sweepOne s).now = s.now := by
    intro l
    induction l with
    | nil => intro s; rfl
    | cons a l ih => intro s; rw [List.foldl_cons, ih, State.sweepOne_now]
  have all : ∀ (l : List Nat) (s : State),
      (l.foldl (fun s _ => [QId.q1, .q0, .q2, .q3].foldl State.sweepOne s) s).now = s.now := by
    intro l
    induction l with
    | nil => intro s; rfl
    | cons a l ih => intro s; rw [List.foldl_cons, ih, one]
  exact all _ s
@[simp] theorem State.freeSlot_free (s : State) (g : Frame) : (s.freeSlot g).free = s.free := by
  unfold State.freeSlot; split <;> rfl
@[simp] theorem State.dropUp_free (s : State) (g : Frame) : (s.dropUp g).free = s.free := by
  simp [State.dropUp]
@[simp] theorem State.sendUp_free (s : State) (n r : Nat) (g : Frame) : (s.sendUp n r g).free = s.free := by
  unfold State.sendUp
  dsimp only
  split
  · obtain ⟨c, -, rfl⟩ := State.queueFrame_some ‹_›
    simp
  · simp
@[simp] theorem State.event_free (s : State) (c t : Nat) (p : List Byte) : (s.event c t p).free = s.free := by
  unfold State.event; dsimp only; (repeat' split) <;> simp
@[simp] theorem State.fillQ3_free (s : State)  : (s.fillQ3 ).free = s.free := by
  rfl
@[simp] theorem State.localReply_free (s : State) (x : QId) (e : QEntry) (st : Status) : (s.localReply x e st).free = s.free := by
  unfold State.localReply; (repeat' split) <;> rfl
@[simp] theorem State.replyTo_free (s : State) (x : QId) (e : QEntry) (st : Status) (p : List Byte) : (s.replyTo x e st p).free = s.free := by
  unfold State.replyTo; (repeat' split) <;> simp
@[simp] theorem State.sweepOne_free (s : State) (x : QId) : (s.sweepOne x).free = s.free := by
  unfold State.sweepOne; (repeat' split) <;> simp
@[simp] theorem State.sweep_free (s : State) : s.sweep.free = s.free := by
  have one : ∀ (l : List QId) (s : State), (l.foldl State.sweepOne s).free = s.free := by
    intro l
    induction l with
    | nil => intro s; rfl
    | cons a l ih => intro s; rw [List.foldl_cons, ih, State.sweepOne_free]
  have all : ∀ (l : List Nat) (s : State),
      (l.foldl (fun s _ => [QId.q1, .q0, .q2, .q3].foldl State.sweepOne s) s).free = s.free := by
    intro l
    induction l with
    | nil => intro s; rfl
    | cons a l ih => intro s; rw [List.foldl_cons, ih, one]
  exact all _ s
@[simp] theorem State.freeSlot_bus (s : State) (g : Frame) : (s.freeSlot g).bus = s.bus := by
  unfold State.freeSlot; split <;> rfl
@[simp] theorem State.dropUp_bus (s : State) (g : Frame) : (s.dropUp g).bus = s.bus := by
  simp [State.dropUp]
@[simp] theorem State.sendUp_bus (s : State) (n r : Nat) (g : Frame) : (s.sendUp n r g).bus = s.bus := by
  unfold State.sendUp
  dsimp only
  split
  · obtain ⟨c, -, rfl⟩ := State.queueFrame_some ‹_›
    simp
  · simp
@[simp] theorem State.fillQ3_bus (s : State)  : (s.fillQ3 ).bus = s.bus := by
  rfl
@[simp] theorem State.localReply_bus (s : State) (x : QId) (e : QEntry) (st : Status) : (s.localReply x e st).bus = s.bus := by
  unfold State.localReply; (repeat' split) <;> rfl
@[simp] theorem State.localReply_q (s : State) (x : QId) (e : QEntry) (st : Status) : (s.localReply x e st).q = s.q := by
  unfold State.localReply; (repeat' split) <;> rfl
@[simp] theorem State.freeSlot_shadow (s : State) (g : Frame) : (s.freeSlot g).shadow = s.shadow := by
  unfold State.freeSlot; split <;> rfl
@[simp] theorem State.dropUp_shadow (s : State) (g : Frame) : (s.dropUp g).shadow = s.shadow := by
  simp [State.dropUp]
@[simp] theorem State.sendUp_shadow (s : State) (n r : Nat) (g : Frame) : (s.sendUp n r g).shadow = s.shadow := by
  unfold State.sendUp
  dsimp only
  split
  · obtain ⟨c, -, rfl⟩ := State.queueFrame_some ‹_›
    simp
  · simp
@[simp] theorem State.event_shadow (s : State) (c t : Nat) (p : List Byte) : (s.event c t p).shadow = s.shadow := by
  unfold State.event; dsimp only; (repeat' split) <;> simp
@[simp] theorem State.fillQ3_shadow (s : State)  : (s.fillQ3 ).shadow = s.shadow := by
  rfl
@[simp] theorem State.localReply_shadow (s : State) (x : QId) (e : QEntry) (st : Status) : (s.localReply x e st).shadow = s.shadow := by
  unfold State.localReply; (repeat' split) <;> rfl
@[simp] theorem State.replyTo_shadow (s : State) (x : QId) (e : QEntry) (st : Status) (p : List Byte) : (s.replyTo x e st p).shadow = s.shadow := by
  unfold State.replyTo; (repeat' split) <;> simp
@[simp] theorem State.sweepOne_shadow (s : State) (x : QId) : (s.sweepOne x).shadow = s.shadow := by
  unfold State.sweepOne; (repeat' split) <;> simp
@[simp] theorem State.sweep_shadow (s : State) : s.sweep.shadow = s.shadow := by
  have one : ∀ (l : List QId) (s : State), (l.foldl State.sweepOne s).shadow = s.shadow := by
    intro l
    induction l with
    | nil => intro s; rfl
    | cons a l ih => intro s; rw [List.foldl_cons, ih, State.sweepOne_shadow]
  have all : ∀ (l : List Nat) (s : State),
      (l.foldl (fun s _ => [QId.q1, .q0, .q2, .q3].foldl State.sweepOne s) s).shadow = s.shadow := by
    intro l
    induction l with
    | nil => intro s; rfl
    | cons a l ih => intro s; rw [List.foldl_cons, ih, one]
  exact all _ s
@[simp] theorem State.freeSlot_active (s : State) (g : Frame) : (s.freeSlot g).active = s.active := by
  unfold State.freeSlot; split <;> rfl
@[simp] theorem State.dropUp_active (s : State) (g : Frame) : (s.dropUp g).active = s.active := by
  simp [State.dropUp]
@[simp] theorem State.sendUp_active (s : State) (n r : Nat) (g : Frame) : (s.sendUp n r g).active = s.active := by
  unfold State.sendUp
  dsimp only
  split
  · obtain ⟨c, -, rfl⟩ := State.queueFrame_some ‹_›
    simp
  · simp
@[simp] theorem State.event_active (s : State) (c t : Nat) (p : List Byte) : (s.event c t p).active = s.active := by
  unfold State.event; dsimp only; (repeat' split) <;> simp
@[simp] theorem State.fillQ3_active (s : State)  : (s.fillQ3 ).active = s.active := by
  rfl
@[simp] theorem State.localReply_active (s : State) (x : QId) (e : QEntry) (st : Status) : (s.localReply x e st).active = s.active := by
  unfold State.localReply; (repeat' split) <;> rfl
@[simp] theorem State.replyTo_active (s : State) (x : QId) (e : QEntry) (st : Status) (p : List Byte) : (s.replyTo x e st p).active = s.active := by
  unfold State.replyTo; (repeat' split) <;> simp
@[simp] theorem State.sweepOne_active (s : State) (x : QId) : (s.sweepOne x).active = s.active := by
  unfold State.sweepOne; (repeat' split) <;> simp
@[simp] theorem State.sweep_active (s : State) : s.sweep.active = s.active := by
  have one : ∀ (l : List QId) (s : State), (l.foldl State.sweepOne s).active = s.active := by
    intro l
    induction l with
    | nil => intro s; rfl
    | cons a l ih => intro s; rw [List.foldl_cons, ih, State.sweepOne_active]
  have all : ∀ (l : List Nat) (s : State),
      (l.foldl (fun s _ => [QId.q1, .q0, .q2, .q3].foldl State.sweepOne s) s).active = s.active := by
    intro l
    induction l with
    | nil => intro s; rfl
    | cons a l ih => intro s; rw [List.foldl_cons, ih, one]
  exact all _ s
@[simp] theorem State.freeSlot_previous (s : State) (g : Frame) : (s.freeSlot g).previous = s.previous := by
  unfold State.freeSlot; split <;> rfl
@[simp] theorem State.dropUp_previous (s : State) (g : Frame) : (s.dropUp g).previous = s.previous := by
  simp [State.dropUp]
@[simp] theorem State.sendUp_previous (s : State) (n r : Nat) (g : Frame) : (s.sendUp n r g).previous = s.previous := by
  unfold State.sendUp
  dsimp only
  split
  · obtain ⟨c, -, rfl⟩ := State.queueFrame_some ‹_›
    simp
  · simp
@[simp] theorem State.event_previous (s : State) (c t : Nat) (p : List Byte) : (s.event c t p).previous = s.previous := by
  unfold State.event; dsimp only; (repeat' split) <;> simp
@[simp] theorem State.fillQ3_previous (s : State)  : (s.fillQ3 ).previous = s.previous := by
  rfl
@[simp] theorem State.localReply_previous (s : State) (x : QId) (e : QEntry) (st : Status) : (s.localReply x e st).previous = s.previous := by
  unfold State.localReply; (repeat' split) <;> rfl
@[simp] theorem State.replyTo_previous (s : State) (x : QId) (e : QEntry) (st : Status) (p : List Byte) : (s.replyTo x e st p).previous = s.previous := by
  unfold State.replyTo; (repeat' split) <;> simp
@[simp] theorem State.sweepOne_previous (s : State) (x : QId) : (s.sweepOne x).previous = s.previous := by
  unfold State.sweepOne; (repeat' split) <;> simp
@[simp] theorem State.sweep_previous (s : State) : s.sweep.previous = s.previous := by
  have one : ∀ (l : List QId) (s : State), (l.foldl State.sweepOne s).previous = s.previous := by
    intro l
    induction l with
    | nil => intro s; rfl
    | cons a l ih => intro s; rw [List.foldl_cons, ih, State.sweepOne_previous]
  have all : ∀ (l : List Nat) (s : State),
      (l.foldl (fun s _ => [QId.q1, .q0, .q2, .q3].foldl State.sweepOne s) s).previous = s.previous := by
    intro l
    induction l with
    | nil => intro s; rfl
    | cons a l ih => intro s; rw [List.foldl_cons, ih, one]
  exact all _ s
@[simp] theorem State.freeSlot_meta_all (s : State) (g : Frame) : (s.freeSlot g).meta' = s.meta' := by
  unfold State.freeSlot; split <;> rfl
@[simp] theorem State.dropUp_meta_all (s : State) (g : Frame) : (s.dropUp g).meta' = s.meta' := by
  simp [State.dropUp]
@[simp] theorem State.sendUp_meta_all (s : State) (n r : Nat) (g : Frame) : (s.sendUp n r g).meta' = s.meta' := by
  unfold State.sendUp
  dsimp only
  split
  · obtain ⟨c, -, rfl⟩ := State.queueFrame_some ‹_›
    simp
  · simp
@[simp] theorem State.event_meta_all (s : State) (c t : Nat) (p : List Byte) : (s.event c t p).meta' = s.meta' := by
  unfold State.event; dsimp only; (repeat' split) <;> simp
@[simp] theorem State.fillQ3_meta_all (s : State)  : (s.fillQ3 ).meta' = s.meta' := by
  rfl
@[simp] theorem State.localReply_meta_all (s : State) (x : QId) (e : QEntry) (st : Status) : (s.localReply x e st).meta' = s.meta' := by
  unfold State.localReply; (repeat' split) <;> rfl
@[simp] theorem State.replyTo_meta_all (s : State) (x : QId) (e : QEntry) (st : Status) (p : List Byte) : (s.replyTo x e st p).meta' = s.meta' := by
  unfold State.replyTo; (repeat' split) <;> simp
@[simp] theorem State.sweepOne_meta_all (s : State) (x : QId) : (s.sweepOne x).meta' = s.meta' := by
  unfold State.sweepOne; (repeat' split) <;> simp
@[simp] theorem State.sweep_meta_all (s : State) : s.sweep.meta' = s.meta' := by
  have one : ∀ (l : List QId) (s : State), (l.foldl State.sweepOne s).meta' = s.meta' := by
    intro l
    induction l with
    | nil => intro s; rfl
    | cons a l ih => intro s; rw [List.foldl_cons, ih, State.sweepOne_meta_all]
  have all : ∀ (l : List Nat) (s : State),
      (l.foldl (fun s _ => [QId.q1, .q0, .q2, .q3].foldl State.sweepOne s) s).meta' = s.meta' := by
    intro l
    induction l with
    | nil => intro s; rfl
    | cons a l ih => intro s; rw [List.foldl_cons, ih, one]
  exact all _ s
@[simp] theorem State.freeSlot_commits (s : State) (g : Frame) : (s.freeSlot g).commits = s.commits := by
  unfold State.freeSlot; split <;> rfl
@[simp] theorem State.dropUp_commits (s : State) (g : Frame) : (s.dropUp g).commits = s.commits := by
  simp [State.dropUp]
@[simp] theorem State.sendUp_commits (s : State) (n r : Nat) (g : Frame) : (s.sendUp n r g).commits = s.commits := by
  unfold State.sendUp
  dsimp only
  split
  · obtain ⟨c, -, rfl⟩ := State.queueFrame_some ‹_›
    simp
  · simp
@[simp] theorem State.event_commits (s : State) (c t : Nat) (p : List Byte) : (s.event c t p).commits = s.commits := by
  unfold State.event; dsimp only; (repeat' split) <;> simp
@[simp] theorem State.fillQ3_commits (s : State)  : (s.fillQ3 ).commits = s.commits := by
  rfl
@[simp] theorem State.localReply_commits (s : State) (x : QId) (e : QEntry) (st : Status) : (s.localReply x e st).commits = s.commits := by
  unfold State.localReply; (repeat' split) <;> rfl
@[simp] theorem State.replyTo_commits (s : State) (x : QId) (e : QEntry) (st : Status) (p : List Byte) : (s.replyTo x e st p).commits = s.commits := by
  unfold State.replyTo; (repeat' split) <;> simp
@[simp] theorem State.sweepOne_commits (s : State) (x : QId) : (s.sweepOne x).commits = s.commits := by
  unfold State.sweepOne; (repeat' split) <;> simp
@[simp] theorem State.sweep_commits (s : State) : s.sweep.commits = s.commits := by
  have one : ∀ (l : List QId) (s : State), (l.foldl State.sweepOne s).commits = s.commits := by
    intro l
    induction l with
    | nil => intro s; rfl
    | cons a l ih => intro s; rw [List.foldl_cons, ih, State.sweepOne_commits]
  have all : ∀ (l : List Nat) (s : State),
      (l.foldl (fun s _ => [QId.q1, .q0, .q2, .q3].foldl State.sweepOne s) s).commits = s.commits := by
    intro l
    induction l with
    | nil => intro s; rfl
    | cons a l ih => intro s; rw [List.foldl_cons, ih, one]
  exact all _ s
@[simp] theorem State.freeSlot_nextCommit (s : State) (g : Frame) : (s.freeSlot g).nextCommit = s.nextCommit := by
  unfold State.freeSlot; split <;> rfl
@[simp] theorem State.dropUp_nextCommit (s : State) (g : Frame) : (s.dropUp g).nextCommit = s.nextCommit := by
  simp [State.dropUp]
@[simp] theorem State.sendUp_nextCommit (s : State) (n r : Nat) (g : Frame) : (s.sendUp n r g).nextCommit = s.nextCommit := by
  unfold State.sendUp
  dsimp only
  split
  · obtain ⟨c, -, rfl⟩ := State.queueFrame_some ‹_›
    simp
  · simp
@[simp] theorem State.event_nextCommit (s : State) (c t : Nat) (p : List Byte) : (s.event c t p).nextCommit = s.nextCommit := by
  unfold State.event; dsimp only; (repeat' split) <;> simp
@[simp] theorem State.fillQ3_nextCommit (s : State)  : (s.fillQ3 ).nextCommit = s.nextCommit := by
  rfl
@[simp] theorem State.localReply_nextCommit (s : State) (x : QId) (e : QEntry) (st : Status) : (s.localReply x e st).nextCommit = s.nextCommit := by
  unfold State.localReply; (repeat' split) <;> rfl
@[simp] theorem State.replyTo_nextCommit (s : State) (x : QId) (e : QEntry) (st : Status) (p : List Byte) : (s.replyTo x e st p).nextCommit = s.nextCommit := by
  unfold State.replyTo; (repeat' split) <;> simp
@[simp] theorem State.sweepOne_nextCommit (s : State) (x : QId) : (s.sweepOne x).nextCommit = s.nextCommit := by
  unfold State.sweepOne; (repeat' split) <;> simp
@[simp] theorem State.sweep_nextCommit (s : State) : s.sweep.nextCommit = s.nextCommit := by
  have one : ∀ (l : List QId) (s : State), (l.foldl State.sweepOne s).nextCommit = s.nextCommit := by
    intro l
    induction l with
    | nil => intro s; rfl
    | cons a l ih => intro s; rw [List.foldl_cons, ih, State.sweepOne_nextCommit]
  have all : ∀ (l : List Nat) (s : State),
      (l.foldl (fun s _ => [QId.q1, .q0, .q2, .q3].foldl State.sweepOne s) s).nextCommit = s.nextCommit := by
    intro l
    induction l with
    | nil => intro s; rfl
    | cons a l ih => intro s; rw [List.foldl_cons, ih, one]
  exact all _ s
@[simp] theorem State.freeSlot_releases (s : State) (g : Frame) : (s.freeSlot g).releases = s.releases := by
  unfold State.freeSlot; split <;> rfl
@[simp] theorem State.dropUp_releases (s : State) (g : Frame) : (s.dropUp g).releases = s.releases := by
  simp [State.dropUp]
@[simp] theorem State.sendUp_releases (s : State) (n r : Nat) (g : Frame) : (s.sendUp n r g).releases = s.releases := by
  unfold State.sendUp
  dsimp only
  split
  · obtain ⟨c, -, rfl⟩ := State.queueFrame_some ‹_›
    simp
  · simp
@[simp] theorem State.event_releases (s : State) (c t : Nat) (p : List Byte) : (s.event c t p).releases = s.releases := by
  unfold State.event; dsimp only; (repeat' split) <;> simp
@[simp] theorem State.fillQ3_releases (s : State)  : (s.fillQ3 ).releases = s.releases := by
  rfl
@[simp] theorem State.localReply_releases (s : State) (x : QId) (e : QEntry) (st : Status) : (s.localReply x e st).releases = s.releases := by
  unfold State.localReply; (repeat' split) <;> rfl
@[simp] theorem State.replyTo_releases (s : State) (x : QId) (e : QEntry) (st : Status) (p : List Byte) : (s.replyTo x e st p).releases = s.releases := by
  unfold State.replyTo; (repeat' split) <;> simp
@[simp] theorem State.sweepOne_releases (s : State) (x : QId) : (s.sweepOne x).releases = s.releases := by
  unfold State.sweepOne; (repeat' split) <;> simp
@[simp] theorem State.sweep_releases (s : State) : s.sweep.releases = s.releases := by
  have one : ∀ (l : List QId) (s : State), (l.foldl State.sweepOne s).releases = s.releases := by
    intro l
    induction l with
    | nil => intro s; rfl
    | cons a l ih => intro s; rw [List.foldl_cons, ih, State.sweepOne_releases]
  have all : ∀ (l : List Nat) (s : State),
      (l.foldl (fun s _ => [QId.q1, .q0, .q2, .q3].foldl State.sweepOne s) s).releases = s.releases := by
    intro l
    induction l with
    | nil => intro s; rfl
    | cons a l ih => intro s; rw [List.foldl_cons, ih, one]
  exact all _ s
@[simp] theorem State.freeSlot_limits (s : State) (g : Frame) : (s.freeSlot g).limits = s.limits := by
  unfold State.freeSlot; split <;> rfl
@[simp] theorem State.dropUp_limits (s : State) (g : Frame) : (s.dropUp g).limits = s.limits := by
  simp [State.dropUp]
@[simp] theorem State.sendUp_limits (s : State) (n r : Nat) (g : Frame) : (s.sendUp n r g).limits = s.limits := by
  unfold State.sendUp
  dsimp only
  split
  · obtain ⟨c, -, rfl⟩ := State.queueFrame_some ‹_›
    simp
  · simp
@[simp] theorem State.event_limits (s : State) (c t : Nat) (p : List Byte) : (s.event c t p).limits = s.limits := by
  unfold State.event; dsimp only; (repeat' split) <;> simp
@[simp] theorem State.fillQ3_limits (s : State)  : (s.fillQ3 ).limits = s.limits := by
  rfl
@[simp] theorem State.localReply_limits (s : State) (x : QId) (e : QEntry) (st : Status) : (s.localReply x e st).limits = s.limits := by
  unfold State.localReply; (repeat' split) <;> rfl
@[simp] theorem State.replyTo_limits (s : State) (x : QId) (e : QEntry) (st : Status) (p : List Byte) : (s.replyTo x e st p).limits = s.limits := by
  unfold State.replyTo; (repeat' split) <;> simp
@[simp] theorem State.sweepOne_limits (s : State) (x : QId) : (s.sweepOne x).limits = s.limits := by
  unfold State.sweepOne; (repeat' split) <;> simp
@[simp] theorem State.sweep_limits (s : State) : s.sweep.limits = s.limits := by
  have one : ∀ (l : List QId) (s : State), (l.foldl State.sweepOne s).limits = s.limits := by
    intro l
    induction l with
    | nil => intro s; rfl
    | cons a l ih => intro s; rw [List.foldl_cons, ih, State.sweepOne_limits]
  have all : ∀ (l : List Nat) (s : State),
      (l.foldl (fun s _ => [QId.q1, .q0, .q2, .q3].foldl State.sweepOne s) s).limits = s.limits := by
    intro l
    induction l with
    | nil => intro s; rfl
    | cons a l ih => intro s; rw [List.foldl_cons, ih, one]
  exact all _ s
@[simp] theorem State.freeSlot_owners (s : State) (g : Frame) : (s.freeSlot g).owners = s.owners := by
  unfold State.freeSlot; split <;> rfl
@[simp] theorem State.dropUp_owners (s : State) (g : Frame) : (s.dropUp g).owners = s.owners := by
  simp [State.dropUp]
@[simp] theorem State.sendUp_owners (s : State) (n r : Nat) (g : Frame) : (s.sendUp n r g).owners = s.owners := by
  unfold State.sendUp
  dsimp only
  split
  · obtain ⟨c, -, rfl⟩ := State.queueFrame_some ‹_›
    simp
  · simp
@[simp] theorem State.event_owners (s : State) (c t : Nat) (p : List Byte) : (s.event c t p).owners = s.owners := by
  unfold State.event; dsimp only; (repeat' split) <;> simp
@[simp] theorem State.fillQ3_owners (s : State)  : (s.fillQ3 ).owners = s.owners := by
  rfl
@[simp] theorem State.localReply_owners (s : State) (x : QId) (e : QEntry) (st : Status) : (s.localReply x e st).owners = s.owners := by
  unfold State.localReply; (repeat' split) <;> rfl
@[simp] theorem State.replyTo_owners (s : State) (x : QId) (e : QEntry) (st : Status) (p : List Byte) : (s.replyTo x e st p).owners = s.owners := by
  unfold State.replyTo; (repeat' split) <;> simp
@[simp] theorem State.sweepOne_owners (s : State) (x : QId) : (s.sweepOne x).owners = s.owners := by
  unfold State.sweepOne; (repeat' split) <;> simp
@[simp] theorem State.sweep_owners (s : State) : s.sweep.owners = s.owners := by
  have one : ∀ (l : List QId) (s : State), (l.foldl State.sweepOne s).owners = s.owners := by
    intro l
    induction l with
    | nil => intro s; rfl
    | cons a l ih => intro s; rw [List.foldl_cons, ih, State.sweepOne_owners]
  have all : ∀ (l : List Nat) (s : State),
      (l.foldl (fun s _ => [QId.q1, .q0, .q2, .q3].foldl State.sweepOne s) s).owners = s.owners := by
    intro l
    induction l with
    | nil => intro s; rfl
    | cons a l ih => intro s; rw [List.foldl_cons, ih, one]
  exact all _ s
@[simp] theorem State.freeSlot_lanes (s : State) (g : Frame) : (s.freeSlot g).lanes = s.lanes := by
  unfold State.freeSlot; split <;> rfl
@[simp] theorem State.dropUp_lanes (s : State) (g : Frame) : (s.dropUp g).lanes = s.lanes := by
  simp [State.dropUp]
@[simp] theorem State.sendUp_lanes (s : State) (n r : Nat) (g : Frame) : (s.sendUp n r g).lanes = s.lanes := by
  unfold State.sendUp
  dsimp only
  split
  · obtain ⟨c, -, rfl⟩ := State.queueFrame_some ‹_›
    simp
  · simp
@[simp] theorem State.event_lanes (s : State) (c t : Nat) (p : List Byte) : (s.event c t p).lanes = s.lanes := by
  unfold State.event; dsimp only; (repeat' split) <;> simp
@[simp] theorem State.fillQ3_lanes (s : State)  : (s.fillQ3 ).lanes = s.lanes := by
  rfl
@[simp] theorem State.localReply_lanes (s : State) (x : QId) (e : QEntry) (st : Status) : (s.localReply x e st).lanes = s.lanes := by
  unfold State.localReply; (repeat' split) <;> rfl
@[simp] theorem State.replyTo_lanes (s : State) (x : QId) (e : QEntry) (st : Status) (p : List Byte) : (s.replyTo x e st p).lanes = s.lanes := by
  unfold State.replyTo; (repeat' split) <;> simp
@[simp] theorem State.sweepOne_lanes (s : State) (x : QId) : (s.sweepOne x).lanes = s.lanes := by
  unfold State.sweepOne; (repeat' split) <;> simp
@[simp] theorem State.sweep_lanes (s : State) : s.sweep.lanes = s.lanes := by
  have one : ∀ (l : List QId) (s : State), (l.foldl State.sweepOne s).lanes = s.lanes := by
    intro l
    induction l with
    | nil => intro s; rfl
    | cons a l ih => intro s; rw [List.foldl_cons, ih, State.sweepOne_lanes]
  have all : ∀ (l : List Nat) (s : State),
      (l.foldl (fun s _ => [QId.q1, .q0, .q2, .q3].foldl State.sweepOne s) s).lanes = s.lanes := by
    intro l
    induction l with
    | nil => intro s; rfl
    | cons a l ih => intro s; rw [List.foldl_cons, ih, one]
  exact all _ s
@[simp] theorem State.freeSlot_relays (s : State) (g : Frame) : (s.freeSlot g).relays = s.relays := by
  unfold State.freeSlot; split <;> rfl
@[simp] theorem State.dropUp_relays (s : State) (g : Frame) : (s.dropUp g).relays = s.relays := by
  simp [State.dropUp]
@[simp] theorem State.sendUp_relays (s : State) (n r : Nat) (g : Frame) : (s.sendUp n r g).relays = s.relays := by
  unfold State.sendUp
  dsimp only
  split
  · obtain ⟨c, -, rfl⟩ := State.queueFrame_some ‹_›
    simp
  · simp
@[simp] theorem State.event_relays (s : State) (c t : Nat) (p : List Byte) : (s.event c t p).relays = s.relays := by
  unfold State.event; dsimp only; (repeat' split) <;> simp
@[simp] theorem State.fillQ3_relays (s : State)  : (s.fillQ3 ).relays = s.relays := by
  rfl
@[simp] theorem State.localReply_relays (s : State) (x : QId) (e : QEntry) (st : Status) : (s.localReply x e st).relays = s.relays := by
  unfold State.localReply; (repeat' split) <;> rfl
@[simp] theorem State.replyTo_relays (s : State) (x : QId) (e : QEntry) (st : Status) (p : List Byte) : (s.replyTo x e st p).relays = s.relays := by
  unfold State.replyTo; (repeat' split) <;> simp
@[simp] theorem State.sweepOne_relays (s : State) (x : QId) : (s.sweepOne x).relays = s.relays := by
  unfold State.sweepOne; (repeat' split) <;> simp
@[simp] theorem State.sweep_relays (s : State) : s.sweep.relays = s.relays := by
  have one : ∀ (l : List QId) (s : State), (l.foldl State.sweepOne s).relays = s.relays := by
    intro l
    induction l with
    | nil => intro s; rfl
    | cons a l ih => intro s; rw [List.foldl_cons, ih, State.sweepOne_relays]
  have all : ∀ (l : List Nat) (s : State),
      (l.foldl (fun s _ => [QId.q1, .q0, .q2, .q3].foldl State.sweepOne s) s).relays = s.relays := by
    intro l
    induction l with
    | nil => intro s; rfl
    | cons a l ih => intro s; rw [List.foldl_cons, ih, one]
  exact all _ s
@[simp] theorem State.freeSlot_scans (s : State) (g : Frame) : (s.freeSlot g).scans = s.scans := by
  unfold State.freeSlot; split <;> rfl
@[simp] theorem State.dropUp_scans (s : State) (g : Frame) : (s.dropUp g).scans = s.scans := by
  simp [State.dropUp]
@[simp] theorem State.sendUp_scans (s : State) (n r : Nat) (g : Frame) : (s.sendUp n r g).scans = s.scans := by
  unfold State.sendUp
  dsimp only
  split
  · obtain ⟨c, -, rfl⟩ := State.queueFrame_some ‹_›
    simp
  · simp
@[simp] theorem State.event_scans (s : State) (c t : Nat) (p : List Byte) : (s.event c t p).scans = s.scans := by
  unfold State.event; dsimp only; (repeat' split) <;> simp
@[simp] theorem State.fillQ3_scans (s : State)  : (s.fillQ3 ).scans = s.scans := by
  rfl
@[simp] theorem State.localReply_scans (s : State) (x : QId) (e : QEntry) (st : Status) : (s.localReply x e st).scans = s.scans := by
  unfold State.localReply; (repeat' split) <;> rfl
@[simp] theorem State.replyTo_scans (s : State) (x : QId) (e : QEntry) (st : Status) (p : List Byte) : (s.replyTo x e st p).scans = s.scans := by
  unfold State.replyTo; (repeat' split) <;> simp
@[simp] theorem State.sweepOne_scans (s : State) (x : QId) : (s.sweepOne x).scans = s.scans := by
  unfold State.sweepOne; (repeat' split) <;> simp
@[simp] theorem State.sweep_scans (s : State) : s.sweep.scans = s.scans := by
  have one : ∀ (l : List QId) (s : State), (l.foldl State.sweepOne s).scans = s.scans := by
    intro l
    induction l with
    | nil => intro s; rfl
    | cons a l ih => intro s; rw [List.foldl_cons, ih, State.sweepOne_scans]
  have all : ∀ (l : List Nat) (s : State),
      (l.foldl (fun s _ => [QId.q1, .q0, .q2, .q3].foldl State.sweepOne s) s).scans = s.scans := by
    intro l
    induction l with
    | nil => intro s; rfl
    | cons a l ih => intro s; rw [List.foldl_cons, ih, one]
  exact all _ s
@[simp] theorem State.freeSlot_hosts (s : State) (g : Frame) : (s.freeSlot g).hosts = s.hosts := by
  unfold State.freeSlot; split <;> rfl
@[simp] theorem State.dropUp_hosts (s : State) (g : Frame) : (s.dropUp g).hosts = s.hosts := by
  simp [State.dropUp]
@[simp] theorem State.sendUp_hosts (s : State) (n r : Nat) (g : Frame) : (s.sendUp n r g).hosts = s.hosts := by
  unfold State.sendUp
  dsimp only
  split
  · obtain ⟨c, -, rfl⟩ := State.queueFrame_some ‹_›
    simp
  · simp
@[simp] theorem State.event_hosts (s : State) (c t : Nat) (p : List Byte) : (s.event c t p).hosts = s.hosts := by
  unfold State.event; dsimp only; (repeat' split) <;> simp
@[simp] theorem State.fillQ3_hosts (s : State)  : (s.fillQ3 ).hosts = s.hosts := by
  rfl
@[simp] theorem State.localReply_hosts (s : State) (x : QId) (e : QEntry) (st : Status) : (s.localReply x e st).hosts = s.hosts := by
  unfold State.localReply; (repeat' split) <;> rfl
@[simp] theorem State.replyTo_hosts (s : State) (x : QId) (e : QEntry) (st : Status) (p : List Byte) : (s.replyTo x e st p).hosts = s.hosts := by
  unfold State.replyTo; (repeat' split) <;> simp
@[simp] theorem State.sweepOne_hosts (s : State) (x : QId) : (s.sweepOne x).hosts = s.hosts := by
  unfold State.sweepOne; (repeat' split) <;> simp
@[simp] theorem State.sweep_hosts (s : State) : s.sweep.hosts = s.hosts := by
  have one : ∀ (l : List QId) (s : State), (l.foldl State.sweepOne s).hosts = s.hosts := by
    intro l
    induction l with
    | nil => intro s; rfl
    | cons a l ih => intro s; rw [List.foldl_cons, ih, State.sweepOne_hosts]
  have all : ∀ (l : List Nat) (s : State),
      (l.foldl (fun s _ => [QId.q1, .q0, .q2, .q3].foldl State.sweepOne s) s).hosts = s.hosts := by
    intro l
    induction l with
    | nil => intro s; rfl
    | cons a l ih => intro s; rw [List.foldl_cons, ih, one]
  exact all _ s
@[simp] theorem State.freeSlot_ports (s : State) (g : Frame) : (s.freeSlot g).ports = s.ports := by
  unfold State.freeSlot; split <;> rfl
@[simp] theorem State.dropUp_ports (s : State) (g : Frame) : (s.dropUp g).ports = s.ports := by
  simp [State.dropUp]
@[simp] theorem State.sendUp_ports (s : State) (n r : Nat) (g : Frame) : (s.sendUp n r g).ports = s.ports := by
  unfold State.sendUp
  dsimp only
  split
  · obtain ⟨c, -, rfl⟩ := State.queueFrame_some ‹_›
    simp
  · simp
@[simp] theorem State.event_ports (s : State) (c t : Nat) (p : List Byte) : (s.event c t p).ports = s.ports := by
  unfold State.event; dsimp only; (repeat' split) <;> simp
@[simp] theorem State.fillQ3_ports (s : State)  : (s.fillQ3 ).ports = s.ports := by
  rfl
@[simp] theorem State.localReply_ports (s : State) (x : QId) (e : QEntry) (st : Status) : (s.localReply x e st).ports = s.ports := by
  unfold State.localReply; (repeat' split) <;> rfl
@[simp] theorem State.replyTo_ports (s : State) (x : QId) (e : QEntry) (st : Status) (p : List Byte) : (s.replyTo x e st p).ports = s.ports := by
  unfold State.replyTo; (repeat' split) <;> simp
@[simp] theorem State.sweepOne_ports (s : State) (x : QId) : (s.sweepOne x).ports = s.ports := by
  unfold State.sweepOne; (repeat' split) <;> simp
@[simp] theorem State.sweep_ports (s : State) : s.sweep.ports = s.ports := by
  have one : ∀ (l : List QId) (s : State), (l.foldl State.sweepOne s).ports = s.ports := by
    intro l
    induction l with
    | nil => intro s; rfl
    | cons a l ih => intro s; rw [List.foldl_cons, ih, State.sweepOne_ports]
  have all : ∀ (l : List Nat) (s : State),
      (l.foldl (fun s _ => [QId.q1, .q0, .q2, .q3].foldl State.sweepOne s) s).ports = s.ports := by
    intro l
    induction l with
    | nil => intro s; rfl
    | cons a l ih => intro s; rw [List.foldl_cons, ih, one]
  exact all _ s
@[simp] theorem State.freeSlot_tb (s : State) (g : Frame) : (s.freeSlot g).tb = s.tb := by
  unfold State.freeSlot; split <;> rfl
@[simp] theorem State.dropUp_tb (s : State) (g : Frame) : (s.dropUp g).tb = s.tb := by
  simp [State.dropUp]
@[simp] theorem State.sendUp_tb (s : State) (n r : Nat) (g : Frame) : (s.sendUp n r g).tb = s.tb := by
  unfold State.sendUp
  dsimp only
  split
  · obtain ⟨c, -, rfl⟩ := State.queueFrame_some ‹_›
    simp
  · simp
@[simp] theorem State.event_tb (s : State) (c t : Nat) (p : List Byte) : (s.event c t p).tb = s.tb := by
  unfold State.event; dsimp only; (repeat' split) <;> simp
@[simp] theorem State.fillQ3_tb (s : State)  : (s.fillQ3 ).tb = s.tb := by
  rfl
@[simp] theorem State.localReply_tb (s : State) (x : QId) (e : QEntry) (st : Status) : (s.localReply x e st).tb = s.tb := by
  unfold State.localReply; (repeat' split) <;> rfl
@[simp] theorem State.replyTo_tb (s : State) (x : QId) (e : QEntry) (st : Status) (p : List Byte) : (s.replyTo x e st p).tb = s.tb := by
  unfold State.replyTo; (repeat' split) <;> simp
@[simp] theorem State.sweepOne_tb (s : State) (x : QId) : (s.sweepOne x).tb = s.tb := by
  unfold State.sweepOne; (repeat' split) <;> simp
@[simp] theorem State.sweep_tb (s : State) : s.sweep.tb = s.tb := by
  have one : ∀ (l : List QId) (s : State), (l.foldl State.sweepOne s).tb = s.tb := by
    intro l
    induction l with
    | nil => intro s; rfl
    | cons a l ih => intro s; rw [List.foldl_cons, ih, State.sweepOne_tb]
  have all : ∀ (l : List Nat) (s : State),
      (l.foldl (fun s _ => [QId.q1, .q0, .q2, .q3].foldl State.sweepOne s) s).tb = s.tb := by
    intro l
    induction l with
    | nil => intro s; rfl
    | cons a l ih => intro s; rw [List.foldl_cons, ih, one]
  exact all _ s
@[simp] theorem State.freeSlot_replicas (s : State) (g : Frame) : (s.freeSlot g).replicas = s.replicas := by
  unfold State.freeSlot; split <;> rfl
@[simp] theorem State.dropUp_replicas (s : State) (g : Frame) : (s.dropUp g).replicas = s.replicas := by
  simp [State.dropUp]
@[simp] theorem State.sendUp_replicas (s : State) (n r : Nat) (g : Frame) : (s.sendUp n r g).replicas = s.replicas := by
  unfold State.sendUp
  dsimp only
  split
  · obtain ⟨c, -, rfl⟩ := State.queueFrame_some ‹_›
    simp
  · simp
@[simp] theorem State.event_replicas (s : State) (c t : Nat) (p : List Byte) : (s.event c t p).replicas = s.replicas := by
  unfold State.event; dsimp only; (repeat' split) <;> simp
@[simp] theorem State.fillQ3_replicas (s : State)  : (s.fillQ3 ).replicas = s.replicas := by
  rfl
@[simp] theorem State.localReply_replicas (s : State) (x : QId) (e : QEntry) (st : Status) : (s.localReply x e st).replicas = s.replicas := by
  unfold State.localReply; (repeat' split) <;> rfl
@[simp] theorem State.replyTo_replicas (s : State) (x : QId) (e : QEntry) (st : Status) (p : List Byte) : (s.replyTo x e st p).replicas = s.replicas := by
  unfold State.replyTo; (repeat' split) <;> simp
@[simp] theorem State.sweepOne_replicas (s : State) (x : QId) : (s.sweepOne x).replicas = s.replicas := by
  unfold State.sweepOne; (repeat' split) <;> simp
@[simp] theorem State.sweep_replicas (s : State) : s.sweep.replicas = s.replicas := by
  have one : ∀ (l : List QId) (s : State), (l.foldl State.sweepOne s).replicas = s.replicas := by
    intro l
    induction l with
    | nil => intro s; rfl
    | cons a l ih => intro s; rw [List.foldl_cons, ih, State.sweepOne_replicas]
  have all : ∀ (l : List Nat) (s : State),
      (l.foldl (fun s _ => [QId.q1, .q0, .q2, .q3].foldl State.sweepOne s) s).replicas = s.replicas := by
    intro l
    induction l with
    | nil => intro s; rfl
    | cons a l ih => intro s; rw [List.foldl_cons, ih, one]
  exact all _ s
@[simp] theorem State.freeSlot_rill (s : State) (g : Frame) : (s.freeSlot g).rill = s.rill := by
  unfold State.freeSlot; split <;> rfl
@[simp] theorem State.fillQ3_rill (s : State)  : (s.fillQ3 ).rill = s.rill := by
  rfl
@[simp] theorem State.freeSlot_acq (s : State) (g : Frame) : (s.freeSlot g).acq = s.acq := by
  unfold State.freeSlot; split <;> rfl
@[simp] theorem State.dropUp_acq (s : State) (g : Frame) : (s.dropUp g).acq = s.acq := by
  simp [State.dropUp]
@[simp] theorem State.sendUp_acq (s : State) (n r : Nat) (g : Frame) : (s.sendUp n r g).acq = s.acq := by
  unfold State.sendUp
  dsimp only
  split
  · obtain ⟨c, -, rfl⟩ := State.queueFrame_some ‹_›
    simp
  · simp
@[simp] theorem State.event_acq (s : State) (c t : Nat) (p : List Byte) : (s.event c t p).acq = s.acq := by
  unfold State.event; dsimp only; (repeat' split) <;> simp
@[simp] theorem State.fillQ3_acq (s : State)  : (s.fillQ3 ).acq = s.acq := by
  rfl
@[simp] theorem State.localReply_acq (s : State) (x : QId) (e : QEntry) (st : Status) : (s.localReply x e st).acq = s.acq := by
  unfold State.localReply; (repeat' split) <;> rfl
@[simp] theorem State.replyTo_acq (s : State) (x : QId) (e : QEntry) (st : Status) (p : List Byte) : (s.replyTo x e st p).acq = s.acq := by
  unfold State.replyTo; (repeat' split) <;> simp
@[simp] theorem State.sweepOne_acq (s : State) (x : QId) : (s.sweepOne x).acq = s.acq := by
  unfold State.sweepOne; (repeat' split) <;> simp
@[simp] theorem State.sweep_acq (s : State) : s.sweep.acq = s.acq := by
  have one : ∀ (l : List QId) (s : State), (l.foldl State.sweepOne s).acq = s.acq := by
    intro l
    induction l with
    | nil => intro s; rfl
    | cons a l ih => intro s; rw [List.foldl_cons, ih, State.sweepOne_acq]
  have all : ∀ (l : List Nat) (s : State),
      (l.foldl (fun s _ => [QId.q1, .q0, .q2, .q3].foldl State.sweepOne s) s).acq = s.acq := by
    intro l
    induction l with
    | nil => intro s; rfl
    | cons a l ih => intro s; rw [List.foldl_cons, ih, one]
  exact all _ s
@[simp] theorem State.freeSlot_hk (s : State) (g : Frame) : (s.freeSlot g).hk = s.hk := by
  unfold State.freeSlot; split <;> rfl
@[simp] theorem State.dropUp_hk (s : State) (g : Frame) : (s.dropUp g).hk = s.hk := by
  simp [State.dropUp]
@[simp] theorem State.sendUp_hk (s : State) (n r : Nat) (g : Frame) : (s.sendUp n r g).hk = s.hk := by
  unfold State.sendUp
  dsimp only
  split
  · obtain ⟨c, -, rfl⟩ := State.queueFrame_some ‹_›
    simp
  · simp
@[simp] theorem State.event_hk (s : State) (c t : Nat) (p : List Byte) : (s.event c t p).hk = s.hk := by
  unfold State.event; dsimp only; (repeat' split) <;> simp
@[simp] theorem State.fillQ3_hk (s : State)  : (s.fillQ3 ).hk = s.hk := by
  rfl
@[simp] theorem State.localReply_hk (s : State) (x : QId) (e : QEntry) (st : Status) : (s.localReply x e st).hk = s.hk := by
  unfold State.localReply; (repeat' split) <;> rfl
@[simp] theorem State.replyTo_hk (s : State) (x : QId) (e : QEntry) (st : Status) (p : List Byte) : (s.replyTo x e st p).hk = s.hk := by
  unfold State.replyTo; (repeat' split) <;> simp
@[simp] theorem State.sweepOne_hk (s : State) (x : QId) : (s.sweepOne x).hk = s.hk := by
  unfold State.sweepOne; (repeat' split) <;> simp
@[simp] theorem State.sweep_hk (s : State) : s.sweep.hk = s.hk := by
  have one : ∀ (l : List QId) (s : State), (l.foldl State.sweepOne s).hk = s.hk := by
    intro l
    induction l with
    | nil => intro s; rfl
    | cons a l ih => intro s; rw [List.foldl_cons, ih, State.sweepOne_hk]
  have all : ∀ (l : List Nat) (s : State),
      (l.foldl (fun s _ => [QId.q1, .q0, .q2, .q3].foldl State.sweepOne s) s).hk = s.hk := by
    intro l
    induction l with
    | nil => intro s; rfl
    | cons a l ih => intro s; rw [List.foldl_cons, ih, one]
  exact all _ s
@[simp] theorem State.freeSlot_sys (s : State) (g : Frame) : (s.freeSlot g).sys = s.sys := by
  unfold State.freeSlot; split <;> rfl
@[simp] theorem State.dropUp_sys (s : State) (g : Frame) : (s.dropUp g).sys = s.sys := by
  simp [State.dropUp]
@[simp] theorem State.sendUp_sys (s : State) (n r : Nat) (g : Frame) : (s.sendUp n r g).sys = s.sys := by
  unfold State.sendUp
  dsimp only
  split
  · obtain ⟨c, -, rfl⟩ := State.queueFrame_some ‹_›
    simp
  · simp
@[simp] theorem State.event_sys (s : State) (c t : Nat) (p : List Byte) : (s.event c t p).sys = s.sys := by
  unfold State.event; dsimp only; (repeat' split) <;> simp

/-! ### The device apart from replies -/

theorem State.modEntry_device (s : State) (x : QId) (k : Nat) (f : QEntry → QEntry) : (s.modEntry x k f).device = s.device := by
  cases x <;> rfl

theorem State.dropEntry_device (s : State) (x : QId) (k : Nat) : (s.dropEntry x k).device = s.device := by cases x <;> rfl

theorem State.accept_device (s : State) (x : QId) (e : QEntry) : (s.accept x e).device = s.device := by cases x <;> rfl

theorem State.fillQ3_device (s : State) : s.fillQ3.device = s.device := rfl

theorem State.push_device (s : State) (p : Packet) : (s.push p).device = s.device := rfl

theorem State.freeSlot_device (s : State) (g : Frame) : (s.freeSlot g).device = s.device := by
  unfold State.freeSlot; split <;> rfl

theorem State.dropUp_device (s : State) (g : Frame) : (s.dropUp g).device = s.device := by
  unfold State.dropUp State.freeSlot
  split <;> rfl

/-- A frame that joins a link's queue touches nothing else. -/
theorem State.queueOn_device (s : State) (c : Fin 16) (f : List Frame → List Frame) :
    (s.modLink c fun l => { l with queue := f l.queue }).device = s.device := by
  have h : (Vector.ofFn fun i : Fin 16 => { (upd s.rill.links c fun l => { l with queue := f l.queue })[i] with queue := [] }) =
      Vector.ofFn fun i : Fin 16 => { s.rill.links[i] with queue := [] } := by
    congr 1
    funext i
    by_cases hc : c = i
    · subst hc; simp [upd]
    · have : c.val ≠ i.val := fun h => hc (Fin.ext h)
      simp [upd, this]
  unfold State.device
  simp only [State.modLink]
  rw [h]

theorem State.sendUp_device (s : State) (n r : Nat) (g : Frame) : (s.sendUp n r g).device = s.device := by
  unfold State.sendUp
  dsimp only
  split
  · obtain ⟨c, -, rfl⟩ := State.queueFrame_some ‹_›
    exact s.queueOn_device c fun l => l ++ [_]
  · exact s.dropUp_device _

theorem State.localReply_device (s : State) (x : QId) (e : QEntry) (st : Status) : (s.localReply x e st).device = s.device := by
  unfold State.localReply
  split
  · rcases h : s.rill.staging with _ | g
    · simp [State.device, h]
    · by_cases hg : g.seq = e.seq <;> simp [State.device, h, hg]
  · split <;> rfl

theorem State.replyTo_device (s : State) (x : QId) (e : QEntry) (st : Status) (p : List Byte) : (s.replyTo x e st p).device = s.device := by
  unfold State.replyTo
  split
  · rw [State.localReply_device, State.fillQ3_device, State.dropEntry_device]
  · split
    · rw [State.fillQ3_device, State.dropEntry_device]
    · rw [State.sendUp_device, State.modEntry_device]
    · split
      · exact s.dropEntry_device _ _
      · rw [State.push_device, State.modEntry_device]

theorem State.sweepOne_device (s : State) (x : QId) : (s.sweepOne x).device = s.device := by
  unfold State.sweepOne
  (repeat' split) <;> simp only [State.replyTo_device]

theorem State.sweep_device (s : State) : s.sweep.device = s.device := by
  have one : ∀ (l : List QId) (s : State), (l.foldl State.sweepOne s).device = s.device := by
    intro l
    induction l with
    | nil => intro s; rfl
    | cons a l ih => intro s; rw [List.foldl_cons, ih, State.sweepOne_device]
  have all : ∀ (l : List Nat) (s : State),
      (l.foldl (fun s _ => [QId.q1, .q0, .q2, .q3].foldl State.sweepOne s) s).device = s.device := by
    intro l
    induction l with
    | nil => intro s; rfl
    | cons a l ih => intro s; rw [List.foldl_cons, ih, one]
  exact all _ s

/-! ### Rows that are commands -/

/-- Every outcome of a row whose own work keeps a relation to the state before it keeps that relation, the replies apart.  It is how
a frame over all states is proved: the relation has only to hold of the command's own work. -/
theorem runCmd_frame {t : Instant} {q : QId} {op : Nat} {inQ1 : Bool} {body : QId → QEntry → State → Res} {P : State → State → Prop}
    (s : State) (refl : ∀ s, P s s)
    (work : ∀ (e : QEntry) (s : State), match body q e s with
      | .ok _ u | .clamped _ u | .wait u => P u.device s.device
      | .fail .. => True
      | .failWith _ _ u => P { u with shadow := s.shadow }.device s.device) :
    P (runCmd t q op inQ1 body s).device (s.advanceTo t).device := by
  unfold runCmd
  dsimp only
  split
  · rename_i e0 _
    split
    · split
      · rw [State.sweep_device, State.replyTo_device, State.accept_device]; exact refl _
      · rw [State.sweep_device]
        set s1 := (s.advanceTo t).accept q (e0.accept (s.advanceTo t)) with hs1
        have hd : s1.device = (s.advanceTo t).device := State.accept_device _ _ _
        have hw := work (e0.accept (s.advanceTo t)) s1
        rw [← hd]
        unfold Res.barred
        cases hb : body q (e0.accept (s.advanceTo t)) s1 with
        | ok p u =>
          rw [hb] at hw
          (repeat' split) <;> simp only [settle] <;> (repeat' split) <;> simp only [State.replyTo_device] <;> first | exact refl _ | exact hw
        | clamped p u =>
          rw [hb] at hw
          (repeat' split) <;> simp only [settle] <;> (repeat' split) <;> simp only [State.replyTo_device] <;> first | exact refl _ | exact hw
        | fail st p =>
          (repeat' split) <;> simp only [settle, State.replyTo_device] <;> exact refl _
        | failWith st p u =>
          rw [hb] at hw
          (repeat' split) <;> simp only [settle, State.replyTo_device] <;> first | exact refl _ | exact hw
        | wait u =>
          rw [hb] at hw
          (repeat' split) <;> simp only [settle, State.replyTo_device] <;> first | exact refl _ | exact hw
    · exact refl _
  · exact refl _

/-- A ready command is accepted, checked and done: what its row answers. -/
theorem runCmd_ready {s : State} {t : Instant} {q : QId} {op : Nat} {inQ1 : Bool} {e : QEntry} {body : QId → QEntry → State → Res}
    (h : Ready s t q op inQ1 e) :
    runCmd t q op inQ1 body s = (settle (s.running t q e) q (s.accepted t e) (body q (s.accepted t e) (s.running t q e))).sweep := by
  obtain ⟨ha, hi, ho, hp, hb⟩ := h
  have hr : (s.running t q e).barred op = false := by
    simpa [State.barred, State.running, State.accept] using hb
  unfold runCmd
  simp only [ha, ho, hi, and_self, if_true]
  have hp' : precheck ((s.advanceTo t).accept q (e.accept (s.advanceTo t))) q (e.accept (s.advanceTo t)) inQ1 = none := hp
  rw [hp']
  simp only [Res.barred]
  have hr' : ((s.advanceTo t).accept q (e.accept (s.advanceTo t))).barred op = false := hr
  rw [hr']
  rfl

/-- With no head that carries the opcode a row lets only time pass. -/
theorem runCmd_idle {s : State} {t : Instant} {q : QId} {op : Nat} {inQ1 : Bool} {body : QId → QEntry → State → Res}
    (h : ∀ e, (s.advanceTo t).acceptable q = some e → e.cmd.op ≠ op) : runCmd t q op inQ1 body s = s.advanceTo t := by
  unfold runCmd
  dsimp only
  split
  · exact if_neg fun c => h _ ‹_› c.1
  · rfl


/-- A command whose length and parameters are good does the rest of its work (R86). -/
theorem checked_pass {e : QEntry} {len : Nat → Bool} {params : Bool} {rest : Unit → Res} (h1 : len e.len = true) (h2 : params = true) :
    checked e len params rest = rest () := by simp [checked, h1, h2]

/-- A reply that fits its queue goes out with the work done. -/
theorem settle_ok {base s : State} {q : QId} {e : QEntry} {p : List Byte} (h : Fits q p) :
    settle base q e (.ok p s) = s.replyTo q e .ok p := by
  unfold settle
  exact if_neg fun c => Nat.not_lt.mpr (h c.1) c.2

/-- The same with LIMIT_CLAMPED. -/
theorem settle_clamped {base s : State} {q : QId} {e : QEntry} {p : List Byte} (h : Fits q p) :
    settle base q e (.clamped p s) = s.replyTo q e .limitClamped p := by
  unfold settle
  exact if_neg fun c => Nat.not_lt.mpr (h c.1) c.2

/-- A row completes when its command's own work ends with OK. -/
theorem completes_ok {row : Instant → QId → Instr} {op : Nat} {inQ1 : Bool} {pre : QId → QEntry → State → Prop}
    {reply : QId → QEntry → State → State → List Byte} {after : QId → QEntry → State → State} (body : QId → QEntry → State → Res)
    (hrow : ∀ t q s, exec (row t q) s = .next (runCmd t q op inQ1 body s))
    (hb : ∀ q e s, pre q e s → body q e s = .ok (reply q e s (after q e s)) (after q e s)) : Completes row op inQ1 pre .ok reply after := by
  intro s t q e h hp w p hf
  unfold Replied
  rw [hrow, runCmd_ready h, hb _ _ _ hp, settle_ok hf]

/-- A row completes when its command's own work ends with LIMIT_CLAMPED. -/
theorem completes_clamped {row : Instant → QId → Instr} {op : Nat} {inQ1 : Bool} {pre : QId → QEntry → State → Prop}
    {reply : QId → QEntry → State → State → List Byte} {after : QId → QEntry → State → State} (body : QId → QEntry → State → Res)
    (hrow : ∀ t q s, exec (row t q) s = .next (runCmd t q op inQ1 body s))
    (hb : ∀ q e s, pre q e s → body q e s = .clamped (reply q e s (after q e s)) (after q e s)) :
    Completes row op inQ1 pre .limitClamped reply after := by
  intro s t q e h hp w p hf
  unfold Replied
  rw [hrow, runCmd_ready h, hb _ _ _ hp, settle_clamped hf]

/-- A row that refuses its command leaves the state in which it ran. -/
theorem completes_fail {row : Instant → QId → Instr} {op : Nat} {inQ1 : Bool} {pre : QId → QEntry → State → Prop} {st : Status}
    {reply : QId → QEntry → State → State → List Byte} (body : QId → QEntry → State → Res)
    (hrow : ∀ t q s, exec (row t q) s = .next (runCmd t q op inQ1 body s))
    (hb : ∀ q e s, pre q e s → body q e s = .fail st (reply q e s s)) : Completes row op inQ1 pre st reply fun _ _ s => s := by
  intro s t q e h hp w p _
  unfold Replied
  rw [hrow, runCmd_ready h, hb _ _ _ hp]
  rfl

/-- A row starts its work when its command's own work goes on. -/
theorem starts_wait {row : Instant → QId → Instr} {op : Nat} {inQ1 : Bool} {pre : QId → QEntry → State → Prop}
    {after : QId → QEntry → State → State} (body : QId → QEntry → State → Res)
    (hrow : ∀ t q s, exec (row t q) s = .next (runCmd t q op inQ1 body s))
    (hb : ∀ q e s, pre q e s → body q e s = .wait (after q e s)) : Starts row op inQ1 pre after := by
  intro s t q e h hp
  unfold Waits
  rw [hrow, runCmd_ready h, hb _ _ _ hp]
  rfl

/-- A row leaves everything but what `keep` copies over when its command's own work does. -/
theorem leavesBut {row : Instant → QId → Instr} {op : Nat} {inQ1 : Bool} {keep : State → State → State}
    (body : QId → QEntry → State → Res) (hrow : ∀ t q s, exec (row t q) s = .next (runCmd t q op inQ1 body s))
    (refl : ∀ s, keep s s = s)
    (work : ∀ (q : QId) (e : QEntry) (s : State), match body q e s with
      | .ok _ u | .clamped _ u | .wait u => u.device = keep u.device s.device
      | .fail .. => True
      | .failWith _ _ u => State.device { u with shadow := s.shadow } = keep (State.device { u with shadow := s.shadow }) s.device) :
    LeavesBut row keep := by
  intro s s' t q h
  rw [hrow] at h
  injection h with h
  subst h
  exact runCmd_frame (P := fun a b => a = keep a b) s (fun s => (refl s).symm) (work q)


end Sys2Proof.Machine
end

