-- ==== Sys2Proof/Laws/Shadow.lean ====
section
/-! SUPPORT. What writes of shadow parameters do, one lane or one unit at a time. -/
namespace Sys2Proof.Machine

/-- A change made for each of a list of things, seen through something only one of them touches: it is changed once if that one is
in the list. -/
theorem forEach_at {α β : Type} [DecidableEq α] (proj : State → β) (n : α) (f : α → State → State) (g : β → β)
    (self : ∀ s, proj (f n s) = g (proj s)) (other : ∀ m s, m ≠ n → proj (f m s) = proj s) (xs : List α) (nd : xs.Nodup) (s : State) :
    proj (s.forEach xs f) = if n ∈ xs then g (proj s) else proj s := by
  unfold State.forEach
  induction xs generalizing s with
  | nil => simp
  | cons a l ih =>
    rw [List.foldl_cons, ih (List.nodup_cons.mp nd).2]
    by_cases h : a = n
    · subst h
      have : a ∉ l := (List.nodup_cons.mp nd).1
      simp [this, self]
    · have h' : ¬n = a := fun e => h e.symm
      simp [h', other a s h]

/-- What no change of a list touches stays. -/
theorem forEach_keep {α β : Type} (proj : State → β) (f : α → State → State) (h : ∀ m s, proj (f m s) = proj s) (xs : List α) (s : State) :
    proj (s.forEach xs f) = proj s := by
  unfold State.forEach
  induction xs generalizing s with
  | nil => rfl
  | cons a l ih => rw [List.foldl_cons, ih, h]

theorem maskIdx_nodup (n m : Nat) : (maskIdx n m).Nodup := (List.nodup_finRange n).filter _

theorem QEntry.lanes_nodup (e : QEntry) : e.lanes.Nodup := maskIdx_nodup 8 _

@[simp] theorem mem_maskIdx {n m : Nat} {i : Fin n} : i ∈ maskIdx n m ↔ Nat.testBit m i.val = true := by simp [maskIdx]

@[simp] theorem upd_getElem {α : Type} {n : Nat} (v : Vector α n) (i : Fin n) (f : α → α) (j : Nat) (hj : j < n) :
    (upd v i f)[j] = if j = i.val then f v[j] else v[j] := by
  unfold upd
  by_cases h : i.val = j
  · subst h; simp
  · have h' : ¬j = i.val := fun e => h e.symm
    simp [h, h']

/-- A basic write changes the shadow sets unless the parameter is pinned (R50). -/
theorem State.writeBasic_shadow (s : State) (b : Block) (op el : Nat) (f : Bank → Bank) :
    (s.writeBasic b op el f).shadow = if s.shadow.pinned b op el then s.shadow else f s.shadow := by
  unfold State.writeBasic; split <;> rfl

/-- A bank with one more pin. -/
def Bank.addPin (k : Bank) (b : Block) (op el : Nat) : Bank := if k.pinned b op el then k else { k with pins := k.pins ++ [(b, op, el)] }

/-- An expert write changes the shadow sets and pins the parameter (R50). -/
theorem State.writeExpert_shadow (s : State) (b : Block) (op el : Nat) (f : Bank → Bank) :
    (s.writeExpert b op el f).shadow = (f s.shadow).addPin b op el := by rfl

theorem Bank.addPin_pinned (k : Bank) (b : Block) (op el : Nat) (b' : Block) (op' el' : Nat) :
    (k.addPin b op el).pinned b' op' el' = (k.pinned b' op' el' || decide (b' = b ∧ op' = op ∧ el' = el)) := by
  unfold Bank.addPin
  split
  · rename_i h
    by_cases e : b' = b ∧ op' = op ∧ el' = el
    · obtain ⟨rfl, rfl, rfl⟩ := e; simp [h]
    · simp [e]
  · simp [Bank.pinned, Prod.ext_iff]

section
variable (k : Bank) (b : Block) (op el : Nat)
@[simp] theorem Bank.addPin_lineTx : (k.addPin b op el).lineTx = k.lineTx := by unfold Bank.addPin; split <;> rfl
@[simp] theorem Bank.addPin_lineRx : (k.addPin b op el).lineRx = k.lineRx := by unfold Bank.addPin; split <;> rfl
@[simp] theorem Bank.addPin_port : (k.addPin b op el).port = k.port := by unfold Bank.addPin; split <;> rfl
@[simp] theorem Bank.addPin_host : (k.addPin b op el).host = k.host := by unfold Bank.addPin; split <;> rfl
@[simp] theorem Bank.addPin_servo : (k.addPin b op el).servo = k.servo := by unfold Bank.addPin; split <;> rfl
@[simp] theorem Bank.addPin_pps : (k.addPin b op el).pps = k.pps := by unfold Bank.addPin; split <;> rfl
@[simp] theorem Bank.addPin_rill : (k.addPin b op el).rill = k.rill := by unfold Bank.addPin; split <;> rfl
@[simp] theorem Bank.addPin_weir : (k.addPin b op el).weir = k.weir := by unfold Bank.addPin; split <;> rfl
@[simp] theorem Bank.addPin_channel : (k.addPin b op el).channel = k.channel := by unfold Bank.addPin; split <;> rfl
@[simp] theorem Bank.addPin_decim : (k.addPin b op el).decim = k.decim := by unfold Bank.addPin; split <;> rfl
@[simp] theorem Bank.addPin_spillway : (k.addPin b op el).spillway = k.spillway := by unfold Bank.addPin; split <;> rfl
@[simp] theorem Bank.addPin_gauge : (k.addPin b op el).gauge = k.gauge := by unfold Bank.addPin; split <;> rfl
@[simp] theorem Bank.addPin_jets : (k.addPin b op el).jets = k.jets := by unfold Bank.addPin; split <;> rfl
@[simp] theorem Bank.addPin_pwm : (k.addPin b op el).pwm = k.pwm := by unfold Bank.addPin; split <;> rfl
@[simp] theorem Bank.addPin_timer : (k.addPin b op el).timer = k.timer := by unfold Bank.addPin; split <;> rfl
@[simp] theorem Bank.addPin_sluice : (k.addPin b op el).sluice = k.sluice := by unfold Bank.addPin; split <;> rfl
end

@[simp] theorem Bank.rx_lineRx (n : Fin 8) (f : LineRxP → LineRxP) (k : Bank) : (k.rx n f).lineRx = upd k.lineRx n f := rfl
@[simp] theorem Bank.rx_lineTx (n : Fin 8) (f : LineRxP → LineRxP) (k : Bank) : (k.rx n f).lineTx = k.lineTx := rfl
@[simp] theorem Bank.rx_pins (n : Fin 8) (f : LineRxP → LineRxP) (k : Bank) : (k.rx n f).pins = k.pins := rfl
@[simp] theorem Bank.tx_lineTx (n : Fin 8) (f : LineTxP → LineTxP) (k : Bank) : (k.tx n f).lineTx = upd k.lineTx n f := rfl
@[simp] theorem Bank.tx_lineRx (n : Fin 8) (f : LineTxP → LineTxP) (k : Bank) : (k.tx n f).lineRx = k.lineRx := rfl
@[simp] theorem Bank.tx_pins (n : Fin 8) (f : LineTxP → LineTxP) (k : Bank) : (k.tx n f).pins = k.pins := rfl
@[simp] theorem Bank.rx_pinned (n : Fin 8) (f : LineRxP → LineRxP) (k : Bank) (b : Block) (op el : Nat) :
    (k.rx n f).pinned b op el = k.pinned b op el := rfl
@[simp] theorem Bank.tx_pinned (n : Fin 8) (f : LineTxP → LineTxP) (k : Bank) (b : Block) (op el : Nat) :
    (k.tx n f).pinned b op el = k.pinned b op el := rfl

/-! ### Writes of a line lane's parameters -/

@[simp] theorem State.rxBasic_lineRx (s : State) (n : Fin 8) (op el : Nat) (f : LineRxP → LineRxP) (j : Nat) (hj : j < 8) :
    (s.rxBasic n op el f).shadow.lineRx[j] = if j = n.val ∧ s.shadow.pinned (.lineRx n) op el = false then f s.shadow.lineRx[j] else s.shadow.lineRx[j] := by
  unfold State.rxBasic
  rw [State.writeBasic_shadow]
  by_cases hp : s.shadow.pinned (.lineRx n) op el = true <;> simp [hp]

@[simp] theorem State.rxBasic_lineTx (s : State) (n : Fin 8) (op el : Nat) (f : LineRxP → LineRxP) :
    (s.rxBasic n op el f).shadow.lineTx = s.shadow.lineTx := by
  unfold State.rxBasic
  rw [State.writeBasic_shadow]
  split <;> rfl

/-- A basic write stays within the settings: no lane changes. -/
@[simp] theorem State.writeBasic_lanes (s : State) (b : Block) (op el : Nat) (f : Bank → Bank) :
    (s.writeBasic b op el f).lanes = s.lanes := by
  unfold State.writeBasic; split <;> rfl
@[simp] theorem State.rxBasic_lanes (s : State) (n : Fin 8) (op el : Nat) (f : LineRxP → LineRxP) :
    (s.rxBasic n op el f).lanes = s.lanes := State.writeBasic_lanes ..
@[simp] theorem State.rxBasic_pinned (s : State) (n : Fin 8) (op el : Nat) (f : LineRxP → LineRxP) (b : Block) (op' el' : Nat) :
    (s.rxBasic n op el f).shadow.pinned b op' el' = s.shadow.pinned b op' el' := by
  unfold State.rxBasic
  rw [State.writeBasic_shadow]
  split <;> rfl

@[simp] theorem State.rxExpert_lineRx (s : State) (n : Fin 8) (op el : Nat) (f : LineRxP → LineRxP) (j : Nat) (hj : j < 8) :
    (s.rxExpert n op el f).shadow.lineRx[j] = if j = n.val then f s.shadow.lineRx[j] else s.shadow.lineRx[j] := by
  unfold State.rxExpert
  rw [State.writeExpert_shadow]
  simp

@[simp] theorem State.rxExpert_lineTx (s : State) (n : Fin 8) (op el : Nat) (f : LineRxP → LineRxP) :
    (s.rxExpert n op el f).shadow.lineTx = s.shadow.lineTx := by
  unfold State.rxExpert
  rw [State.writeExpert_shadow]
  simp

@[simp] theorem State.rxExpert_pinned (s : State) (n : Fin 8) (op el : Nat) (f : LineRxP → LineRxP) (b : Block) (op' el' : Nat) :
    (s.rxExpert n op el f).shadow.pinned b op' el' = (s.shadow.pinned b op' el' || decide (b = .lineRx n ∧ op' = op ∧ el' = el)) := by
  unfold State.rxExpert
  rw [State.writeExpert_shadow]
  rw [Bank.addPin_pinned]; rfl

@[simp] theorem State.txBasic_lineTx (s : State) (n : Fin 8) (op el : Nat) (f : LineTxP → LineTxP) (j : Nat) (hj : j < 8) :
    (s.txBasic n op el f).shadow.lineTx[j] = if j = n.val ∧ s.shadow.pinned (.lineTx n) op el = false then f s.shadow.lineTx[j] else s.shadow.lineTx[j] := by
  unfold State.txBasic
  rw [State.writeBasic_shadow]
  by_cases hp : s.shadow.pinned (.lineTx n) op el = true <;> simp [hp]

@[simp] theorem State.txBasic_lineRx (s : State) (n : Fin 8) (op el : Nat) (f : LineTxP → LineTxP) :
    (s.txBasic n op el f).shadow.lineRx = s.shadow.lineRx := by
  unfold State.txBasic
  rw [State.writeBasic_shadow]
  split <;> rfl

@[simp] theorem State.txBasic_pinned (s : State) (n : Fin 8) (op el : Nat) (f : LineTxP → LineTxP) (b : Block) (op' el' : Nat) :
    (s.txBasic n op el f).shadow.pinned b op' el' = s.shadow.pinned b op' el' := by
  unfold State.txBasic
  rw [State.writeBasic_shadow]
  split <;> rfl

@[simp] theorem State.txExpert_lineTx (s : State) (n : Fin 8) (op el : Nat) (f : LineTxP → LineTxP) (j : Nat) (hj : j < 8) :
    (s.txExpert n op el f).shadow.lineTx[j] = if j = n.val then f s.shadow.lineTx[j] else s.shadow.lineTx[j] := by
  unfold State.txExpert
  rw [State.writeExpert_shadow]
  simp

@[simp] theorem State.txExpert_lineRx (s : State) (n : Fin 8) (op el : Nat) (f : LineTxP → LineTxP) :
    (s.txExpert n op el f).shadow.lineRx = s.shadow.lineRx := by
  unfold State.txExpert
  rw [State.writeExpert_shadow]
  simp

@[simp] theorem State.txExpert_pinned (s : State) (n : Fin 8) (op el : Nat) (f : LineTxP → LineTxP) (b : Block) (op' el' : Nat) :
    (s.txExpert n op el f).shadow.pinned b op' el' = (s.shadow.pinned b op' el' || decide (b = .lineTx n ∧ op' = op ∧ el' = el)) := by
  unfold State.txExpert
  rw [State.writeExpert_shadow]
  rw [Bank.addPin_pinned]; rfl

/-- A row writes when its command's own work ends with OK. -/
theorem writes {row : Instant → QId → Instr} {op : Nat} {pre : QId → QEntry → State → Prop} {wrote : QId → QEntry → State → Bank → Prop}
    (body : QId → QEntry → State → Res) (hrow : ∀ t q s, exec (row t q) s = .next (runCmd t q op false body s))
    (hb : ∀ q e s, pre q e s → ∃ p w, body q e s = .ok p w ∧ p.length ≤ 1008 ∧ wrote q e s w.shadow) : Writes row op pre .ok wrote := by
  intro s t q e h hp
  obtain ⟨p, w, hb, hf, hw⟩ := hb _ _ _ hp
  refine ⟨p, w, ?_, hw⟩
  unfold Replied
  rw [hrow, runCmd_ready h, hb, settle_ok fun _ => hf]

/-- The same with LIMIT_CLAMPED. -/
theorem writes_clamped {row : Instant → QId → Instr} {op : Nat} {pre : QId → QEntry → State → Prop} {wrote : QId → QEntry → State → Bank → Prop}
    (body : QId → QEntry → State → Res) (hrow : ∀ t q s, exec (row t q) s = .next (runCmd t q op false body s))
    (hb : ∀ q e s, pre q e s → ∃ p w, body q e s = .clamped p w ∧ p.length ≤ 1008 ∧ wrote q e s w.shadow) :
    Writes row op pre .limitClamped wrote := by
  intro s t q e h hp
  obtain ⟨p, w, hb, hf, hw⟩ := hb _ _ _ hp
  refine ⟨p, w, ?_, hw⟩
  unfold Replied
  rw [hrow, runCmd_ready h, hb, settle_clamped fun _ => hf]

end Sys2Proof.Machine
end

