-- ==== Sys2Proof/Laws/Lanes.lean ====
section
/-! SUPPORT. A lane after an update of it, and a delivered message as it is taken. -/
namespace Sys2Proof.Machine

@[simp] theorem State.lane_modLane (s : State) (r : LaneRef) (f : Lane → Lane) : (s.modLane r f).lane r = f (s.lane r) := by
  cases r <;> simp [State.lane]

@[simp] theorem State.taken_lane (s : State) (r : LaneRef) : (s.taken r).lane r = { s.lane r with rx := { (s.lane r).rx with inbox := none } } := by
  simp [State.taken]

@[simp] theorem State.taken_sys (s : State) (r : LaneRef) : (s.taken r).sys = s.sys := by simp [State.taken]
@[simp] theorem State.taken_active (s : State) (r : LaneRef) : (s.taken r).active = s.active := by simp [State.taken]
@[simp] theorem State.taken_shadow (s : State) (r : LaneRef) : (s.taken r).shadow = s.shadow := by simp [State.taken]
@[simp] theorem State.taken_free (s : State) (r : LaneRef) : (s.taken r).free = s.free := by simp [State.taken]
@[simp] theorem State.taken_tb (s : State) (r : LaneRef) : (s.taken r).tb = s.tb := by simp [State.taken]

@[simp] theorem State.mayStep_taken (s : State) (r : LaneRef) : (s.taken r).mayStep r = s.mayStep r := by
  simp [State.mayStep, Lane.txActive]

@[simp] theorem State.advanceTo_message (s : State) (t : Instant) (r : LaneRef) (ty : Nat) : (s.advanceTo t).message r ty = s.message r ty := by
  simp [State.message]

@[simp] theorem State.advanceTo_mayStep (s : State) (t : Instant) (r : LaneRef) : (s.advanceTo t).mayStep r = s.mayStep r := by
  simp [State.mayStep]

/-- RESTART as a good lane-control marker carries it (R191). -/
theorem State.takeGood_farRestart {s : State} {r : LaneRef} {b index : Nat} (h : markerType (markerCount b) = .control) :
    ((s.takeGood r b index).lane r).rx.farRestart = bit (markerPayload b) 81 := by
  simp [State.takeGood, h, Lane.takeControl]

/-- A line lane of the array is the lane of its reference. -/
theorem State.lanes_lane (s : State) (n : Fin 8) : s.lanes[n.val] = s.lane (.line n) := rfl

end Sys2Proof.Machine
end

