-- ==== Sys2Proof/Laws/TimeBase.lean ====
section
/-! SUPPORT. The time base as time passes: its counter runs, and nothing else of it changes. -/
namespace Sys2Proof.Machine

@[simp] theorem State.advanceTo_tb_running (s : State) (t : Instant) : (s.advanceTo t).tb.running = s.tb.running := by unfold State.advanceTo; split <;> rfl
@[simp] theorem State.advanceTo_tb_f (s : State) (t : Instant) : (s.advanceTo t).tb.f = s.tb.f := by unfold State.advanceTo; split <;> rfl
@[simp] theorem State.advanceTo_tb_rateLimited (s : State) (t : Instant) : (s.advanceTo t).tb.rateLimited = s.tb.rateLimited := by unfold State.advanceTo; split <;> rfl
@[simp] theorem State.advanceTo_tb_state (s : State) (t : Instant) : (s.advanceTo t).tb.state = s.tb.state := by unfold State.advanceTo; split <;> rfl
@[simp] theorem State.advanceTo_tb_integ (s : State) (t : Instant) : (s.advanceTo t).tb.integ = s.tb.integ := by unfold State.advanceTo; split <;> rfl
@[simp] theorem State.advanceTo_tb_holdRate (s : State) (t : Instant) : (s.advanceTo t).tb.holdRate = s.tb.holdRate := by unfold State.advanceTo; split <;> rfl
@[simp] theorem State.advanceTo_tb_rates (s : State) (t : Instant) : (s.advanceTo t).tb.rates = s.tb.rates := by unfold State.advanceTo; split <;> rfl
@[simp] theorem State.advanceTo_tb_stepBlocked (s : State) (t : Instant) : (s.advanceTo t).tb.stepBlocked = s.tb.stepBlocked := by unfold State.advanceTo; split <;> rfl
@[simp] theorem State.advanceTo_tb_timeValid (s : State) (t : Instant) : (s.advanceTo t).tb.timeValid = s.tb.timeValid := by unfold State.advanceTo; split <;> rfl
@[simp] theorem State.advanceTo_tb_clk (s : State) (t : Instant) : (s.advanceTo t).tb.clk = s.tb.clk := by unfold State.advanceTo; split <;> rfl
@[simp] theorem State.advanceTo_tb_refclkOk (s : State) (t : Instant) : (s.advanceTo t).tb.refclkOk = s.tb.refclkOk := by unfold State.advanceTo; split <;> rfl
@[simp] theorem State.advanceTo_tb_timerefOk (s : State) (t : Instant) : (s.advanceTo t).tb.timerefOk = s.tb.timerefOk := by unfold State.advanceTo; split <;> rfl
@[simp] theorem State.advanceTo_tb_offset (s : State) (t : Instant) : (s.advanceTo t).tb.offset = s.tb.offset := by unfold State.advanceTo; split <;> rfl
@[simp] theorem State.advanceTo_tb_updates (s : State) (t : Instant) : (s.advanceTo t).tb.updates = s.tb.updates := by unfold State.advanceTo; split <;> rfl
@[simp] theorem State.advanceTo_tb_since (s : State) (t : Instant) : (s.advanceTo t).tb.since = s.tb.since := by unfold State.advanceTo; split <;> rfl
@[simp] theorem State.advanceTo_tb_stateStamp (s : State) (t : Instant) : (s.advanceTo t).tb.stateStamp = s.tb.stateStamp := by unfold State.advanceTo; split <;> rfl
@[simp] theorem State.advanceTo_tb_lastCause (s : State) (t : Instant) : (s.advanceTo t).tb.lastCause = s.tb.lastCause := by unfold State.advanceTo; split <;> rfl
@[simp] theorem State.advanceTo_tb_good (s : State) (t : Instant) : (s.advanceTo t).tb.good = s.tb.good := by unfold State.advanceTo; split <;> rfl
@[simp] theorem State.advanceTo_tb_bad (s : State) (t : Instant) : (s.advanceTo t).tb.bad = s.tb.bad := by unfold State.advanceTo; split <;> rfl
@[simp] theorem State.advanceTo_tb_empty (s : State) (t : Instant) : (s.advanceTo t).tb.empty = s.tb.empty := by unfold State.advanceTo; split <;> rfl
@[simp] theorem State.advanceTo_tb_updateAt (s : State) (t : Instant) : (s.advanceTo t).tb.updateAt = s.tb.updateAt := by unfold State.advanceTo; split <;> rfl
@[simp] theorem State.advanceTo_tb_updated (s : State) (t : Instant) : (s.advanceTo t).tb.updated = s.tb.updated := by unfold State.advanceTo; split <;> rfl
@[simp] theorem State.advanceTo_tb_markers (s : State) (t : Instant) : (s.advanceTo t).tb.markers = s.tb.markers := by unfold State.advanceTo; split <;> rfl
@[simp] theorem State.advanceTo_tb_pending (s : State) (t : Instant) : (s.advanceTo t).tb.pending = s.tb.pending := by unfold State.advanceTo; split <;> rfl
@[simp] theorem State.advanceTo_tb_steps (s : State) (t : Instant) : (s.advanceTo t).tb.steps = s.tb.steps := by unfold State.advanceTo; split <;> rfl
@[simp] theorem State.advanceTo_tb_ppsLast (s : State) (t : Instant) : (s.advanceTo t).tb.ppsLast = s.tb.ppsLast := by unfold State.advanceTo; split <;> rfl
@[simp] theorem State.advanceTo_tb_ppsBase (s : State) (t : Instant) : (s.advanceTo t).tb.ppsBase = s.tb.ppsBase := by unfold State.advanceTo; split <;> rfl
@[simp] theorem State.advanceTo_tb_ppsRejects (s : State) (t : Instant) : (s.advanceTo t).tb.ppsRejects = s.tb.ppsRejects := by unfold State.advanceTo; split <;> rfl
@[simp] theorem State.advanceTo_tb_lanesIn (s : State) (t : Instant) : (s.advanceTo t).tb.lanesIn = s.tb.lanesIn := by unfold State.advanceTo; split <;> rfl
@[simp] theorem State.advanceTo_tb_combValid (s : State) (t : Instant) : (s.advanceTo t).tb.combValid = s.tb.combValid := by unfold State.advanceTo; split <;> rfl
@[simp] theorem State.advanceTo_tb_upstreamValid (s : State) (t : Instant) : (s.advanceTo t).tb.upstreamValid = s.tb.upstreamValid := by unfold State.advanceTo; split <;> rfl
@[simp] theorem State.advanceTo_tb_combined (s : State) (t : Instant) : (s.advanceTo t).tb.combined = s.tb.combined := by unfold State.advanceTo; split <;> rfl
@[simp] theorem State.advanceTo_tb_updateStamp (s : State) (t : Instant) : (s.advanceTo t).tb.updateStamp = s.tb.updateStamp := by unfold State.advanceTo; split <;> rfl
@[simp] theorem State.advanceTo_tb_ppsOut (s : State) (t : Instant) : (s.advanceTo t).tb.ppsOut = s.tb.ppsOut := by unfold State.advanceTo; split <;> rfl
@[simp] theorem State.advanceTo_tb_ppsEdgeAt (s : State) (t : Instant) : (s.advanceTo t).tb.ppsEdgeAt = s.tb.ppsEdgeAt := by unfold State.advanceTo; split <;> rfl
@[simp] theorem State.advanceTo_tb_ppsWidth (s : State) (t : Instant) : (s.advanceTo t).tb.ppsWidth = s.tb.ppsWidth := by unfold State.advanceTo; split <;> rfl
@[simp] theorem State.advanceTo_tb_ppsTrailAt (s : State) (t : Instant) : (s.advanceTo t).tb.ppsTrailAt = s.tb.ppsTrailAt := by unfold State.advanceTo; split <;> rfl
@[simp] theorem State.advanceTo_tb_refout (s : State) (t : Instant) : (s.advanceTo t).tb.refout = s.tb.refout := by unfold State.advanceTo; split <;> rfl
@[simp] theorem State.advanceTo_tb_refAligned (s : State) (t : Instant) : (s.advanceTo t).tb.refAligned = s.tb.refAligned := by unfold State.advanceTo; split <;> rfl
@[simp] theorem State.advanceTo_tb_refEdge (s : State) (t : Instant) : (s.advanceTo t).tb.refEdge = s.tb.refEdge := by unfold State.advanceTo; split <;> rfl
@[simp] theorem State.advanceTo_tb_hostrefLost (s : State) (t : Instant) : (s.advanceTo t).tb.hostrefLost = s.tb.hostrefLost := by unfold State.advanceTo; split <;> rfl
@[simp] theorem State.advanceTo_tb_asymReason (s : State) (t : Instant) : (s.advanceTo t).tb.asymReason = s.tb.asymReason := by unfold State.advanceTo; split <;> rfl
@[simp] theorem State.advanceTo_tb_asymUsed (s : State) (t : Instant) : (s.advanceTo t).tb.asymUsed = s.tb.asymUsed := by unfold State.advanceTo; split <;> rfl
@[simp] theorem State.advanceTo_tb_asymSlope (s : State) (t : Instant) : (s.advanceTo t).tb.asymSlope = s.tb.asymSlope := by unfold State.advanceTo; split <;> rfl
@[simp] theorem State.advanceTo_tb_asymCurve (s : State) (t : Instant) : (s.advanceTo t).tb.asymCurve = s.tb.asymCurve := by unfold State.advanceTo; split <;> rfl
@[simp] theorem State.advanceTo_tb_asymResidual (s : State) (t : Instant) : (s.advanceTo t).tb.asymResidual = s.tb.asymResidual := by unfold State.advanceTo; split <;> rfl
@[simp] theorem State.advanceTo_tb_asymStamp (s : State) (t : Instant) : (s.advanceTo t).tb.asymStamp = s.tb.asymStamp := by unfold State.advanceTo; split <;> rfl
@[simp] theorem State.advanceTo_tb_startAt (s : State) (t : Instant) : (s.advanceTo t).tb.startAt = s.tb.startAt := by unfold State.advanceTo; split <;> rfl
@[simp] theorem State.advanceTo_tb_past (s : State) (t : Instant) : (s.advanceTo t).tb.past = s.tb.past := by unfold State.advanceTo; split <;> rfl
@[simp] theorem State.advanceTo_tb_refclkLost (s : State) (t : Instant) : (s.advanceTo t).tb.refclkLost = s.tb.refclkLost := by unfold State.advanceTo; split <;> rfl
@[simp] theorem State.advanceTo_tb_timerefLost (s : State) (t : Instant) : (s.advanceTo t).tb.timerefLost = s.tb.timerefLost := by unfold State.advanceTo; split <;> rfl
@[simp] theorem State.advanceTo_tb_stepAt (s : State) (t : Instant) : (s.advanceTo t).tb.stepAt = s.tb.stepAt := by unfold State.advanceTo; split <;> rfl
@[simp] theorem State.advanceTo_tb_ppsFalling (s : State) (t : Instant) : (s.advanceTo t).tb.ppsFalling = s.tb.ppsFalling := by unfold State.advanceTo; split <;> rfl
@[simp] theorem State.advanceTo_tb_ppsMask (s : State) (t : Instant) : (s.advanceTo t).tb.ppsMask = s.tb.ppsMask := by unfold State.advanceTo; split <;> rfl
@[simp] theorem State.advanceTo_tb_refLong (s : State) (t : Instant) : (s.advanceTo t).tb.refLong = s.tb.refLong := by unfold State.advanceTo; split <;> rfl
@[simp] theorem State.advanceTo_tb_asymMarkers (s : State) (t : Instant) : (s.advanceTo t).tb.asymMarkers = s.tb.asymMarkers := by unfold State.advanceTo; split <;> rfl

theorem State.advanceTo_intPinned (s : State) (t : Instant) (n : Fin 8) : (s.advanceTo t).intPinned n = s.intPinned n := by
  simp [State.intPinned]

@[simp] theorem State.advanceTo_txFibre (s : State) (t : Instant) (r : LaneRef) : (s.advanceTo t).txFibre r = s.txFibre r := by
  cases r <;> simp only [State.txFibre, State.txInt, State.advanceTo_intPinned, State.advanceTo_active, State.advanceTo_lanes]

@[simp] theorem State.advanceTo_rxFibre (s : State) (t : Instant) (r : LaneRef) : (s.advanceTo t).rxFibre r = s.rxFibre r := by
  cases r <;> simp only [State.rxFibre, State.rxInt, State.advanceTo_intPinned, State.advanceTo_active, State.advanceTo_lanes]

end Sys2Proof.Machine
end

