-- ==== Sys2Proof/Laws/Rill.lean ====
section
/-! SUPPORT. What the row of a frame's kind does with the accepted frame, and a command turned away with something done. -/
namespace Sys2Proof.Machine

/-- A row over `takeFrame` takes its frames as `Takes` says. -/
theorem takes {row : Instant → Fin 16 → Instr} {mine : Frame → Bool} {act : Fin 16 → Frame → State → State}
    (h : ∀ t p s, exec (row t p) s = .next ((s.advanceTo t).takeFrame p mine (act p))) : Takes row mine act := by
  intro s t p f ha hm
  rw [h]
  have hb : (s.advanceTo t).rill.links[p] = s.rill.links[p] := by simp
  unfold State.takeFrame
  rw [hb, ha]
  simp only [hm, Bool.true_eq_false, if_false]

/-- A command whose work fails after it has done something outside the shadow sets. -/
theorem completes_failWith {row : Instant → QId → Instr} {op : Nat} {inQ1 : Bool} {pre : QId → QEntry → State → Prop} {st : Status}
    {reply : QId → QEntry → State → State → List Byte} {after : QId → QEntry → State → State} (body : QId → QEntry → State → Res)
    (hrow : ∀ t q s, exec (row t q) s = .next (runCmd t q op inQ1 body s))
    (hs : ∀ q e s, (after q e s).shadow = s.shadow)
    (hb : ∀ q e s, pre q e s → body q e s = .failWith st (reply q e s (after q e s)) (after q e s)) : Completes row op inQ1 pre st reply after := by
  intro s t q e h hp w p _
  unfold Replied
  rw [hrow, runCmd_ready h, hb _ _ _ hp]
  have : ({ w with shadow := (s.running t q e).shadow } : State) = w := by
    have h1 : w.shadow = (s.running t q e).shadow := hs _ _ _
    rw [← h1]
  simp only [settle]
  exact congrArg (fun x : State => Host.Outcome.next (x.replyTo q (s.accepted t e) st p).sweep) this

end Sys2Proof.Machine
end

