-- ==== Sys2Proof/Laws/Transfers.lean ====
section
/-! SUPPORT. What an SDR private transfer comes to at a device that takes it. -/
namespace Sys2Proof.Machine

@[simp] theorem State.atSdr_bus (s : State) (t : Instant) : (s.atSdr t).bus = { s.bus with hdr := false } := rfl
@[simp] theorem State.atSdr_q (s : State) (t : Instant) : (s.atSdr t).q = s.q := by simp [State.atSdr]
@[simp] theorem State.atSdr_sys (s : State) (t : Instant) : (s.atSdr t).sys = s.sys := by simp [State.atSdr]
@[simp] theorem State.atSdr_shadow (s : State) (t : Instant) : (s.atSdr t).shadow = s.shadow := by simp [State.atSdr]
@[simp] theorem State.atSdr_active (s : State) (t : Instant) : (s.atSdr t).active = s.active := by simp [State.atSdr]
@[simp] theorem State.advanceTo_bootDone (s : State) (t : Instant) : (s.advanceTo t).bootDone = s.bootDone := by
  simp [State.bootDone, State.restarting]
@[simp] theorem State.atSdr_bootDone (s : State) (t : Instant) : (s.atSdr t).bootDone = s.bootDone := by
  simp [State.bootDone, State.restarting]
@[simp] theorem State.atSdr_streamBytes (s : State) (t : Instant) : (s.atSdr t).streamBytes = s.streamBytes := by
  simp [State.streamBytes]

/-- A write at a device that takes writes comes to the packet checks. -/
theorem privateWrite_sdr {s : State} {addr : Nat} (h : s.takes addr) (t : Nat) (bytes : List Byte) :
    exec (.privateWrite t addr none false bytes) s =
      .next (((s.atSdr t).takePacket (bytes.take s.bus.mwl) (decide (s.bus.mwl < bytes.length))).answer .ack) := by
  obtain ⟨h1, h2, h3, h4⟩ := h
  have h23 : ¬(s.sys.pstate = 2 ∨ s.sys.pstate = 3) := by omega
  have e : ({ s.advanceTo t with
      bus := { s.bus with protocolError := s.bus.protocolError || false, hdr := s.bus.hdr && (none : Option Nat).isSome } } : State) =
        s.atSdr t := by simp [State.atSdr]
  have o : (s.atSdr t).privateOpen addr = true := by simp [State.privateOpen, h1, h2, h3]
  simp only [exec, execPrivateWrite, State.advanceTo_bus, State.advanceTo_sys, h1, h4, h23, State.privateWrite]
  simp only [ne_eq, not_true_eq_false, if_false, Bool.false_eq_true]
  rw [State.advanceTo_bus, e, o]
  simp

/-- A read at a device in RUN or STANDBY. -/
theorem privateRead_sdr {s : State} (h : s.sys.pstate ≤ 1) (t addr n : Nat) :
    exec (.privateRead t addr none n) s = .next (
      if (s.atSdr t).privateOpen addr = false ∨ s.streamBytes = [] then (s.atSdr t).answer .nack
      else
        let out := s.streamBytes.take (min n s.bus.mrl)
        let s1 := consume (s.bus.stream.length + 1) s.bus.stream (s.bus.readPos + out.length) (s.atSdr t)
        ({ s1 with bus := { s1.bus with ibiAcked := false, ibiReq := s1.bus.ibiReq && !s1.bus.stream.isEmpty } }.answer (.data out))) := by
  have h23 : ¬(s.sys.pstate = 2 ∨ s.sys.pstate = 3) := by omega
  have one : exec (.privateRead t addr none n) s = .next ((s.advanceTo t).privateRead addr none n) := by
    simp [exec, execPrivateRead, h23]
  have e : ({ s.advanceTo t with
      bus := { (s.advanceTo t).bus with hdr := (s.advanceTo t).bus.hdr && (none : Option Nat).isSome } } : State) = s.atSdr t := by
    simp [State.atSdr]
  rw [one]
  unfold State.privateRead
  rw [e]
  simp only [Option.isSome_none, Bool.false_eq_true, false_and, false_or, State.atSdr_bus, State.atSdr_streamBytes]

end Sys2Proof.Machine
end

