-- ==== Sys2Proof/Laws/Limits.lean ====
section
/-! SUPPORT. What every operation and every row does to the hardware limits: nothing, once they are locked, unless it resets the
device. -/
namespace Sys2Proof.Machine

/-- The limits that a command's result leaves; `l` for one that changes nothing. -/
def Res.limitsOr (l : Limits) : Res → Limits
  | .ok _ s | .clamped _ s | .failWith _ _ s | .wait s => s.limits
  | .fail _ _ => l

/-- The limits that a row leaves. -/
def outLim (l : Limits) : Out → Limits
  | .next s => s.limits
  | _ => l

@[simp] theorem Res.limitsOr_ok (l : Limits) (p : List Byte) (s : State) : Res.limitsOr l (.ok p s) = s.limits := rfl
@[simp] theorem Res.limitsOr_clamped (l : Limits) (p : List Byte) (s : State) : Res.limitsOr l (.clamped p s) = s.limits := rfl
@[simp] theorem Res.limitsOr_failWith (l : Limits) (x : Status) (p : List Byte) (s : State) : Res.limitsOr l (.failWith x p s) = s.limits := rfl
@[simp] theorem Res.limitsOr_wait (l : Limits) (s : State) : Res.limitsOr l (.wait s) = s.limits := rfl
@[simp] theorem Res.limitsOr_fail (l : Limits) (x : Status) (p : List Byte) : Res.limitsOr l (.fail x p) = l := rfl
@[simp] theorem outLim_next (l : Limits) (s : State) : outLim l (.next s) = s.limits := rfl
@[simp] theorem ite_limits (c : Prop) [Decidable c] (a b : State) : (if c then a else b).limits = if c then a.limits else b.limits := apply_ite ..

@[simp] theorem forEach_limits {α : Type} (s : State) (xs : List α) (f : α → State → State) (h : ∀ x s, (f x s).limits = s.limits) :
    (s.forEach xs f).limits = s.limits := by
  unfold State.forEach
  induction xs generalizing s with
  | nil => rfl
  | cons x xs ih => rw [List.foldl_cons, ih, h]
@[simp] theorem foldl_limits {α : Type} (s : State) (xs : List α) (f : State → α → State) (h : ∀ x s, (f s x).limits = s.limits) :
    (xs.foldl f s).limits = s.limits := by
  induction xs generalizing s with
  | nil => rfl
  | cons x xs ih => rw [List.foldl_cons, ih, h]
@[simp] theorem foldl_pair_limits {α β : Type} (s : State × β) (xs : List α) (f : State × β → α → State × β)
    (h : ∀ x s, (f s x).1.limits = s.1.limits) : (xs.foldl f s).1.limits = s.1.limits := by
  induction xs generalizing s with
  | nil => rfl
  | cons x xs ih => rw [List.foldl_cons, ih, h]

@[simp] theorem State.draw_limits (s : State) : (State.draw s).2.limits = s.limits := by unfold State.draw; simp
@[simp] theorem State.writeBasic_limits (s : State) (b : Block) (op el : Nat) (f : Bank → Bank) : (State.writeBasic s b op el f).limits = s.limits :=
    by unfold State.writeBasic; simp
@[simp] theorem State.writeExpert_limits (s : State) (b : Block) (op el : Nat) (f : Bank → Bank) : (State.writeExpert s b op el f).limits = s.limits :=
    by unfold State.writeExpert; simp
@[simp] theorem State.mark_limits (s : State) (b : Block) (op : Nat) : (State.mark s b op).limits = s.limits := by unfold State.mark; simp
@[simp] theorem State.unmark_limits (s : State) (b : Block) (op : Nat) : (State.unmark s b op).limits = s.limits := by unfold State.unmark; simp
theorem State.queueFrame_limits (s : State) (p : Fin 16) (f : Frame) : ∀ x, (State.queueFrame s p f) = some x → x.limits = s.limits :=
    by intro x h; obtain ⟨c, -, rfl⟩ := State.queueFrame_some h; simp
@[simp] theorem State.receive_limits (s : State) (q : QId) (c : Cmd) (origin : Nat × Nat × Nat) : (State.receive s q c origin).limits = s.limits :=
    by unfold State.receive; simp
@[simp] theorem State.toQ3_limits (s : State) (c : Cmd) (local' : Bool) : (State.toQ3 s c local').limits = s.limits :=
    by unfold State.toQ3; (try dsimp only); (repeat' split) <;> simp
@[simp] theorem State.q3Apply_limits (s : State) (blocks : List Block) : (State.q3Apply s blocks).limits = s.limits := by unfold State.q3Apply; simp
@[simp] theorem State.tookPart_limits (s : State) (q : QId) : (State.tookPart s q).limits = s.limits := rfl
@[simp] theorem State.complete_limits (s : State) (seq : Nat) (st : Status) (payload : List Byte) : (State.complete s seq st payload).limits = s.limits :=
    by unfold State.complete; (repeat' split) <;> simp
@[simp] theorem Res.barred_limits (s : State) (op : Nat) (r : Res) (l : Limits) (h : r.limitsOr l = l) : (r.barred s op).limitsOr l = l := by unfold Res.barred; (repeat' split) <;> simp_all
theorem settle_limits (s : State) (q : QId) (e : QEntry) (r : Res) (h : r.limitsOr s.limits = s.limits) : (settle s q e r).limits = s.limits := by unfold settle; (repeat' split) <;> simp_all
@[simp] theorem State.accept_limits (s : State) (q : QId) (e : QEntry) : (State.accept s q e).limits = s.limits :=
    by unfold State.accept; (try dsimp only); (repeat' split) <;> simp
@[simp] theorem runCmd_limits (t : Instant) (q : QId) (op : Nat) (i : Bool) (body : QId → QEntry → State → Res) (s : State) (h : ∀ q e s, (body q e s).limitsOr s.limits = s.limits) : (runCmd t q op i body s).limits = s.limits := by
  have e : ∀ (t : Instant), (s.advanceTo t).limits = s.limits := by simp
  unfold runCmd; dsimp only; split
  · split
    · split
      · simp
      · rw [State.sweep_limits, settle_limits]
        · simp
        · exact Res.barred_limits _ _ _ _ (h _ _ _)
    · simp
  · simp
theorem runCmd_locked (t : Instant) (q : QId) (op : Nat) (i : Bool) (body : QId → QEntry → State → Res) (s : State) (hl : s.limits.locked = true) (h : ∀ q e s, s.limits.locked = true → (body q e s).limitsOr s.limits = s.limits) : (runCmd t q op i body s).limits = s.limits := by
  have e : ∀ (t : Instant), (s.advanceTo t).limits = s.limits := by simp
  unfold runCmd; dsimp only; split
  · split
    · split
      · simp
      · rw [State.sweep_limits, settle_limits]
        · simp
        · exact Res.barred_limits _ _ _ _ (h _ _ _ (by simp [hl]))
    · simp
  · simp
@[simp] theorem State.claim_limits (s : State) (r : Fin 41) (fn : Function) (detail : Nat) : (State.claim s r fn detail).limits = s.limits :=
    by unfold State.claim; simp
@[simp] theorem State.disown_limits (s : State) (r : Fin 41) (fn : Function) : (State.disown s r fn).limits = s.limits := by unfold State.disown; simp
@[simp] theorem State.modBist_limits (s : State) (f : Bist → Bist) : (State.modBist s f).limits = s.limits := by unfold State.modBist; simp
@[simp] theorem State.modInteg_limits (s : State) (f : Integrity → Integrity) : (State.modInteg s f).limits = s.limits :=
    by unfold State.modInteg; simp
@[simp] theorem State.modPow_limits (s : State) (f : Power → Power) : (State.modPow s f).limits = s.limits := by unfold State.modPow; simp
@[simp] theorem State.modFw_limits (s : State) (f : Firmware → Firmware) : (State.modFw s f).limits = s.limits := by unfold State.modFw; simp
@[simp] theorem State.modRun_limits (s : State) (id : Nat) (f : TestRun → TestRun) : (State.modRun s id f).limits = s.limits :=
    by unfold State.modRun; simp
@[simp] theorem State.judgeEngine_limits (s : State) (r : TestRun) : (State.judgeEngine s r).limits = s.limits :=
    by unfold State.judgeEngine; dsimp only; (repeat' split) <;> simp
@[simp] theorem State.endTest_limits (s : State) (id cause : Nat) : (State.endTest s id cause).limits = s.limits :=
    by unfold State.endTest; (repeat' split) <;> simp
@[simp] theorem State.startTest_limits (s : State) (id : Nat) (cmd : Option (Nat × Nat)) (periodic : Bool) (verdict : Option (Fin 8)) : (State.startTest s id cmd periodic verdict).limits = s.limits :=
    by unfold State.startTest; simp
@[simp] theorem State.endTests_limits (s : State) (ids : List Nat) (cause : Nat) : (State.endTests s ids cause).limits = s.limits :=
    by unfold State.endTests; simp
@[simp] theorem State.freeSpare_limits (s : State) (e : Fin 9) : (State.freeSpare s e).limits = s.limits := by unfold State.freeSpare; simp
@[simp] theorem State.serveDue_limits (s : State) : (State.serveDue s).limits = s.limits := by unfold State.serveDue; (repeat' split) <;> simp
@[simp] theorem State.dropTakeover_limits (s : State) (n : Fin 8) : (State.dropTakeover s n).limits = s.limits :=
    by unfold State.dropTakeover; (repeat' split) <;> simp
@[simp] theorem State.reject_limits (s : State) (st : Status) (tag op queue : Nat) : (State.reject s st tag op queue).limits = s.limits :=
    by unfold State.reject; simp
@[simp] theorem State.takePacket_limits (s : State) (bs : List Byte) (cut : Bool) : (State.takePacket s bs cut).limits = s.limits :=
    by unfold State.takePacket; (repeat' split) <;> simp
@[simp] theorem State.privateWrite_limits (s : State) (addr : Nat) (hdr : Option Nat) (err : Bool) (bytes : List Byte) : (State.privateWrite s addr hdr err bytes).limits = s.limits :=
    by unfold State.privateWrite; simp
@[simp] theorem consume_limits (y0 : Nat) (y1 : List Packet) (y2 : Nat) (y3 : State) : (consume y0 y1 y2 y3).limits = y3.limits :=
    by
  induction y0 generalizing y1 y2 y3 with
  | zero => rfl
  | succ k ih => unfold consume; (repeat' split) <;> simp [ih]
@[simp] theorem State.privateRead_limits (s : State) (addr : Nat) (hdr : Option Nat) (n : Nat) : (State.privateRead s addr hdr n).limits = s.limits :=
    by unfold State.privateRead; simp
@[simp] theorem execIbiRetry_limits (t : Instant) (acked : Bool) (s : State) : outLim s.limits (execIbiRetry t acked s) = s.limits :=
    by unfold execIbiRetry; dsimp only; (repeat' split) <;> simp
@[simp] theorem State.takeAddress_limits (s : State) (a : Nat) : (State.takeAddress s a).limits = s.limits := by unfold State.takeAddress; simp
@[simp] theorem execEntdaa_limits (t : Instant) (given : Option Nat) (s : State) : outLim s.limits (execEntdaa t given s) = s.limits :=
    by unfold execEntdaa; dsimp only; (repeat' split) <;> simp
@[simp] theorem execSetdasa_limits (t : Instant) (static addr : Nat) (s : State) : outLim s.limits (execSetdasa t static addr s) = s.limits :=
    by unfold execSetdasa; dsimp only; (repeat' split) <;> simp
@[simp] theorem readCcc_limits (t : Instant) (addr : Nat) (bytes : State → List Byte) (s : State) : (readCcc t addr bytes s).limits = s.limits :=
    by unfold readCcc; simp
@[simp] theorem writeCcc_limits (t : Instant) (addr : Option Nat) (f : Bus → Bus) (s : State) : (writeCcc t addr f s).limits = s.limits :=
    by unfold writeCcc; simp
@[simp] theorem execSetnewda_limits (t : Instant) (addr new : Nat) (s : State) : outLim s.limits (execSetnewda t addr new s) = s.limits :=
    by unfold execSetnewda; simp
@[simp] theorem execRstdaa_limits (t : Instant) (s : State) : outLim s.limits (execRstdaa t s) = s.limits := by unfold execRstdaa; simp
@[simp] theorem execGetpid_limits (t : Instant) (addr : Nat) (s : State) : outLim s.limits (execGetpid t addr s) = s.limits :=
    by unfold execGetpid; simp
@[simp] theorem execGetbcr_limits (t : Instant) (addr : Nat) (s : State) : outLim s.limits (execGetbcr t addr s) = s.limits :=
    by unfold execGetbcr; simp
@[simp] theorem execGetdcr_limits (t : Instant) (addr : Nat) (s : State) : outLim s.limits (execGetdcr t addr s) = s.limits :=
    by unfold execGetdcr; simp
@[simp] theorem execGetstatus_limits (t : Instant) (addr : Nat) (s : State) : outLim s.limits (execGetstatus t addr s) = s.limits :=
    by unfold execGetstatus; simp
@[simp] theorem execGetmwl_limits (t : Instant) (addr : Nat) (s : State) : outLim s.limits (execGetmwl t addr s) = s.limits :=
    by unfold execGetmwl; simp
@[simp] theorem execSetmwl_limits (t : Instant) (addr v : Nat) (s : State) : outLim s.limits (execSetmwl t addr v s) = s.limits :=
    by unfold execSetmwl; simp
@[simp] theorem execGetmrl_limits (t : Instant) (addr : Nat) (s : State) : outLim s.limits (execGetmrl t addr s) = s.limits :=
    by unfold execGetmrl; simp
@[simp] theorem execSetmrl_limits (t : Instant) (addr v ibi : Nat) (s : State) : outLim s.limits (execSetmrl t addr v ibi s) = s.limits :=
    by unfold execSetmrl; simp
@[simp] theorem execEnec_limits (t : Instant) (addr : Option Nat) (ev : Nat) (s : State) : outLim s.limits (execEnec t addr ev s) = s.limits :=
    by unfold execEnec; simp
@[simp] theorem execDisec_limits (t : Instant) (addr : Option Nat) (ev : Nat) (s : State) : outLim s.limits (execDisec t addr ev s) = s.limits :=
    by unfold execDisec; simp
@[simp] theorem execRstactNoReset_limits (t : Instant) (c : IdleCcc) (s : State) : outLim s.limits (execRstactNoReset t c s) = s.limits :=
    by unfold execRstactNoReset; (try dsimp only); (repeat' split) <;> simp
@[simp] theorem execRstactTransferReset_limits (t : Instant) (addr : Option Nat) (s : State) : outLim s.limits (execRstactTransferReset t addr s) = s.limits :=
    by unfold execRstactTransferReset; simp
@[simp] theorem execEnthdr0_limits (t : Instant) (s : State) : outLim s.limits (execEnthdr0 t s) = s.limits := by unfold execEnthdr0; simp
@[simp] theorem cmdGetStatus_limits (u_q : QId) (e : QEntry) (s : State) : (cmdGetStatus u_q e s).limitsOr s.limits = s.limits :=
    by unfold cmdGetStatus; simp only [checked]; (repeat' split) <;> simp
@[simp] theorem execGetStatus_limits (t : Instant) (q : QId) (s : State) : outLim s.limits (execGetStatus t q s) = s.limits :=
    by unfold execGetStatus; simp
@[simp] theorem State.discard_limits (s : State) (q : QId) (e : QEntry) : (State.discard s q e).limits = s.limits := by unfold State.discard; simp
@[simp] theorem cmdAbort_limits (u_q : QId) (e : QEntry) (s : State) : (cmdAbort u_q e s).limitsOr s.limits = s.limits :=
    by unfold cmdAbort; simp only [checked]; (repeat' split) <;> simp
@[simp] theorem execAbort_limits (t : Instant) (q : QId) (s : State) : outLim s.limits (execAbort t q s) = s.limits := by unfold execAbort; simp
@[simp] theorem cmdEcho_limits (u_q : QId) (e : QEntry) (s : State) : (cmdEcho u_q e s).limitsOr s.limits = s.limits := by unfold cmdEcho; simp
@[simp] theorem execEcho_limits (t : Instant) (q : QId) (s : State) : outLim s.limits (execEcho t q s) = s.limits := by unfold execEcho; simp
@[simp] theorem cmdSetNotify_limits (u_q : QId) (e : QEntry) (s : State) : (cmdSetNotify u_q e s).limitsOr s.limits = s.limits :=
    by unfold cmdSetNotify; simp only [checked]; (repeat' split) <;> simp
@[simp] theorem execSetNotify_limits (t : Instant) (q : QId) (s : State) : outLim s.limits (execSetNotify t q s) = s.limits :=
    by unfold execSetNotify; simp
@[simp] theorem cmdSessionExpert_limits (q : QId) (e : QEntry) (s : State) : (cmdSessionExpert q e s).limitsOr s.limits = s.limits :=
    by unfold cmdSessionExpert; simp only [checked]; (repeat' split) <;> simp
@[simp] theorem execSessionExpert_limits (t : Instant) (q : QId) (s : State) : outLim s.limits (execSessionExpert t q s) = s.limits :=
    by unfold execSessionExpert; simp
@[simp] theorem cmdSessionBasic_limits (q : QId) (e : QEntry) (s : State) : (cmdSessionBasic q e s).limitsOr s.limits = s.limits :=
    by unfold cmdSessionBasic; simp only [checked]; (repeat' split) <;> simp
@[simp] theorem execSessionBasic_limits (t : Instant) (q : QId) (s : State) : outLim s.limits (execSessionBasic t q s) = s.limits :=
    by unfold execSessionBasic; simp
@[simp] theorem cmdLimitSet_limits (u_q : QId) (e : QEntry) (s : State) (hl : s.limits.locked = true) : (cmdLimitSet u_q e s).limitsOr s.limits = s.limits :=
    by unfold cmdLimitSet; simp only [checked]; (repeat' split) <;> simp
@[simp] theorem execLimitSet_limits (t : Instant) (q : QId) (s : State) (hl : s.limits.locked = true) : outLim s.limits (execLimitSet t q s) = s.limits :=
    by unfold execLimitSet; exact runCmd_locked _ _ _ _ _ _ hl (fun q e s h => by simp [h])
@[simp] theorem State.lockLimits_limits (s : State) (cause : Nat) (q : QId) (tag : Nat) (hl : s.limits.locked = true) : (State.lockLimits s cause q tag).limits = s.limits :=
    by unfold State.lockLimits; simp [hl]
@[simp] theorem cmdLimitLock_limits (q : QId) (e : QEntry) (s : State) (hl : s.limits.locked = true) : (cmdLimitLock q e s).limitsOr s.limits = s.limits :=
    by unfold cmdLimitLock; simp only [checked]; (repeat' split) <;> simp [hl]
@[simp] theorem execLimitLock_limits (t : Instant) (q : QId) (s : State) (hl : s.limits.locked = true) : outLim s.limits (execLimitLock t q s) = s.limits :=
    by unfold execLimitLock; exact runCmd_locked _ _ _ _ _ _ hl (fun q e s h => by simp [h])
@[simp] theorem cmdLimitRead_limits (u_q : QId) (e : QEntry) (s : State) : (cmdLimitRead u_q e s).limitsOr s.limits = s.limits :=
    by unfold cmdLimitRead; simp only [checked]; (repeat' split) <;> simp
@[simp] theorem execLimitRead_limits (t : Instant) (q : QId) (s : State) : outLim s.limits (execLimitRead t q s) = s.limits :=
    by unfold execLimitRead; simp
@[simp] theorem cmdOwnerRead_limits (u_q : QId) (e : QEntry) (s : State) : (cmdOwnerRead u_q e s).limitsOr s.limits = s.limits :=
    by unfold cmdOwnerRead; simp only [checked]; (repeat' split) <;> simp
@[simp] theorem execOwnerRead_limits (t : Instant) (q : QId) (s : State) : outLim s.limits (execOwnerRead t q s) = s.limits :=
    by unfold execOwnerRead; simp
@[simp] theorem cmdSetGrouping_limits (u_q : QId) (e : QEntry) (s : State) : (cmdSetGrouping u_q e s).limitsOr s.limits = s.limits :=
    by unfold cmdSetGrouping; simp only [checked]; (repeat' split) <;> simp
@[simp] theorem execSetGrouping_limits (t : Instant) (q : QId) (s : State) : outLim s.limits (execSetGrouping t q s) = s.limits :=
    by unfold execSetGrouping; simp
@[simp] theorem State.deskewPorts_limits (s : State) : (State.deskewPorts s).limits = s.limits :=
    by unfold State.deskewPorts; (try dsimp only); (repeat' split) <;> simp
@[simp] theorem State.portEvent_limits (s : State) (lead : Fin 8) (toLine entered : Bool) (causes : Nat) : (State.portEvent s lead toLine entered causes).limits = s.limits :=
    by unfold State.portEvent; simp
@[simp] theorem State.judgeDir_limits (s : State) (lead : Fin 8) (toLine : Bool) : (State.judgeDir s lead toLine).limits = s.limits :=
    by unfold State.judgeDir; simp
@[simp] theorem State.judgePorts_limits (s : State) : (State.judgePorts s).limits = s.limits := by unfold State.judgePorts; simp
@[simp] theorem execPortFaultClear_limits (t : Instant) (port : Fin 8) (toLine : Bool) (s : State) : outLim s.limits (execPortFaultClear t port toLine s) = s.limits :=
    by unfold execPortFaultClear; dsimp only; (repeat' split) <;> simp
@[simp] theorem State.judgeLink_limits (s : State) (p : Fin 16) : (State.judgeLink s p).limits = s.limits :=
    by unfold State.judgeLink; dsimp only; (repeat' split) <;> simp
@[simp] theorem State.follow_limits (s : State) : (State.follow s).limits = s.limits := by unfold State.follow; simp
@[simp] theorem State.judgeRill_limits (s : State) : (State.judgeRill s).limits = s.limits := by unfold State.judgeRill; simp
@[simp] theorem State.breakFrame_limits (s : State) (r : LaneRef) : (State.breakFrame s r).limits = s.limits :=
    by unfold State.breakFrame; (repeat' split) <;> simp
@[simp] theorem State.laneEvent_limits (s : State) (r : LaneRef) (old : LaneState) : (State.laneEvent s r old).limits = s.limits :=
    by unfold State.laneEvent; (repeat' split) <;> simp
@[simp] theorem State.alignHost_limits (s : State) (n : Fin 16) : (State.alignHost s n).limits = s.limits :=
    by unfold State.alignHost; (try dsimp only); (repeat' split) <;> simp
@[simp] theorem State.alignTx_limits (s : State) (r : LaneRef) : (State.alignTx s r).limits = s.limits := by
  cases r <;> unfold State.alignTx <;> (try dsimp only) <;> (repeat' split) <;> simp
@[simp] theorem State.holdover_limits (s : State) (n : Fin 8) (lost : Bool) : (State.holdover s n lost).limits = s.limits :=
    by unfold State.holdover; simp
@[simp] theorem State.followClock_limits (s : State) (y0 : LaneRef) : (State.followClock s y0).limits = s.limits :=
    by unfold State.followClock; (repeat' split) <;> simp
@[simp] theorem State.leaveLocked_limits (s : State) (r : LaneRef) : (State.leaveLocked s r).limits = s.limits := by
  cases r <;> unfold State.leaveLocked <;> simp
@[simp] theorem State.toState_limits (s : State) (r : LaneRef) (st : LaneState) (stage : Stage) (exit : Nat) : (State.toState s r st stage exit).limits = s.limits :=
    by unfold State.toState; extract_lets old s1 s2; have h : s2.limits = s.limits := by simp [s2, s1]
       split <;> simp [h]
@[simp] theorem State.setSquelch_limits (s : State) (r : LaneRef) (f : Squelch → Squelch) : (State.setSquelch s r f).limits = s.limits :=
    by unfold State.setSquelch; simp
@[simp] theorem State.restartLane_limits (s : State) (r : LaneRef) (exit : Nat) : (State.restartLane s r exit).limits = s.limits :=
    by unfold State.restartLane; simp
@[simp] theorem State.lockLoss_limits (s : State) (r : LaneRef) (exit : Nat) : (State.lockLoss s r exit).limits = s.limits :=
    by unfold State.lockLoss; simp
@[simp] theorem State.rxBasic_limits (s : State) (n : Fin 8) (op el : Nat) (f : LineRxP → LineRxP) : (State.rxBasic s n op el f).limits = s.limits :=
    by unfold State.rxBasic; simp
@[simp] theorem State.rxExpert_limits (s : State) (n : Fin 8) (op el : Nat) (f : LineRxP → LineRxP) : (State.rxExpert s n op el f).limits = s.limits :=
    by unfold State.rxExpert; simp
@[simp] theorem State.txBasic_limits (s : State) (n : Fin 8) (op el : Nat) (f : LineTxP → LineTxP) : (State.txBasic s n op el f).limits = s.limits :=
    by unfold State.txBasic; simp
@[simp] theorem State.txExpert_limits (s : State) (n : Fin 8) (op el : Nat) (f : LineTxP → LineTxP) : (State.txExpert s n op el f).limits = s.limits :=
    by unfold State.txExpert; simp
@[simp] theorem cmdLineMode_limits (u_q : QId) (e : QEntry) (s : State) : (cmdLineMode u_q e s).limitsOr s.limits = s.limits :=
    by unfold cmdLineMode; simp only [checked]; (repeat' split) <;> first | (simp; done) | (simp only [Res.limitsOr_ok]; (repeat rw [forEach_limits]) <;> intros <;> simp)
@[simp] theorem execLineMode_limits (t : Instant) (q : QId) (s : State) : outLim s.limits (execLineMode t q s) = s.limits :=
    by unfold execLineMode; simp
@[simp] theorem cmdLineEnable_limits (u_q : QId) (e : QEntry) (s : State) : (cmdLineEnable u_q e s).limitsOr s.limits = s.limits :=
    by unfold cmdLineEnable; simp only [checked]; (repeat' split) <;> first | (simp; done) | (simp only [Res.limitsOr_ok, Res.limitsOr_clamped]; (repeat rw [forEach_limits]) <;> intros <;> simp)
@[simp] theorem execLineEnable_limits (t : Instant) (q : QId) (s : State) : outLim s.limits (execLineEnable t q s) = s.limits :=
    by unfold execLineEnable; simp
@[simp] theorem cmdLineState_limits (u_q : QId) (e : QEntry) (s : State) : (cmdLineState u_q e s).limitsOr s.limits = s.limits :=
    by unfold cmdLineState; simp only [checked]; (repeat' split) <;> simp
@[simp] theorem execLineState_limits (t : Instant) (q : QId) (s : State) : outLim s.limits (execLineState t q s) = s.limits :=
    by unfold execLineState; simp
@[simp] theorem cmdRxEq_limits (u_q : QId) (e : QEntry) (s : State) : (cmdRxEq u_q e s).limitsOr s.limits = s.limits :=
    by unfold cmdRxEq; simp only [checked]; (repeat' split) <;> simp
@[simp] theorem execRxEq_limits (t : Instant) (q : QId) (s : State) : outLim s.limits (execRxEq t q s) = s.limits := by unfold execRxEq; simp
@[simp] theorem cmdRxEqExpert_limits (u_q : QId) (e : QEntry) (s : State) : (cmdRxEqExpert u_q e s).limitsOr s.limits = s.limits :=
    by unfold cmdRxEqExpert; simp only [checked]; (repeat' split) <;> simp
@[simp] theorem execRxEqExpert_limits (t : Instant) (q : QId) (s : State) : outLim s.limits (execRxEqExpert t q s) = s.limits :=
    by unfold execRxEqExpert; simp
@[simp] theorem cmdRxGain_limits (u_q : QId) (e : QEntry) (s : State) : (cmdRxGain u_q e s).limitsOr s.limits = s.limits :=
    by unfold cmdRxGain; simp only [checked]; (repeat' split) <;> first | (simp; done) | (simp only [Res.limitsOr_ok, Res.limitsOr_clamped]; (repeat rw [forEach_limits]) <;> intros <;> simp)
@[simp] theorem execRxGain_limits (t : Instant) (q : QId) (s : State) : outLim s.limits (execRxGain t q s) = s.limits := by unfold execRxGain; simp
@[simp] theorem cmdRxGainExpert_limits (u_q : QId) (e : QEntry) (s : State) : (cmdRxGainExpert u_q e s).limitsOr s.limits = s.limits :=
    by unfold cmdRxGainExpert; simp only [checked]; (repeat' split) <;> simp
@[simp] theorem execRxGainExpert_limits (t : Instant) (q : QId) (s : State) : outLim s.limits (execRxGainExpert t q s) = s.limits :=
    by unfold execRxGainExpert; simp
@[simp] theorem cmdRxTiming_limits (u_q : QId) (e : QEntry) (s : State) : (cmdRxTiming u_q e s).limitsOr s.limits = s.limits :=
    by unfold cmdRxTiming; simp only [checked]; (repeat' split) <;> simp
@[simp] theorem execRxTiming_limits (t : Instant) (q : QId) (s : State) : outLim s.limits (execRxTiming t q s) = s.limits :=
    by unfold execRxTiming; simp
@[simp] theorem cmdRxTimingExpert_limits (u_q : QId) (e : QEntry) (s : State) : (cmdRxTimingExpert u_q e s).limitsOr s.limits = s.limits :=
    by unfold cmdRxTimingExpert; simp only [checked]; (repeat' split) <;> simp
@[simp] theorem execRxTimingExpert_limits (t : Instant) (q : QId) (s : State) : outLim s.limits (execRxTimingExpert t q s) = s.limits :=
    by unfold execRxTimingExpert; simp
@[simp] theorem cmdRxDecode_limits (u_q : QId) (e : QEntry) (s : State) : (cmdRxDecode u_q e s).limitsOr s.limits = s.limits :=
    by unfold cmdRxDecode; simp only [checked]; (repeat' split) <;> simp
@[simp] theorem execRxDecode_limits (t : Instant) (q : QId) (s : State) : outLim s.limits (execRxDecode t q s) = s.limits :=
    by unfold execRxDecode; simp
@[simp] theorem cmdRxDecodeExpert_limits (u_q : QId) (e : QEntry) (s : State) : (cmdRxDecodeExpert u_q e s).limitsOr s.limits = s.limits :=
    by unfold cmdRxDecodeExpert; simp only [checked]; (repeat' split) <;> simp
@[simp] theorem execRxDecodeExpert_limits (t : Instant) (q : QId) (s : State) : outLim s.limits (execRxDecodeExpert t q s) = s.limits :=
    by unfold execRxDecodeExpert; simp
@[simp] theorem cmdLockLossConfig_limits (u_q : QId) (e : QEntry) (s : State) : (cmdLockLossConfig u_q e s).limitsOr s.limits = s.limits :=
    by unfold cmdLockLossConfig; simp only [checked]; (repeat' split) <;> first | (simp; done) | (simp only [Res.limitsOr_ok, Res.limitsOr_clamped]; (repeat rw [forEach_limits]) <;> intros <;> simp)
@[simp] theorem execLockLossConfig_limits (t : Instant) (q : QId) (s : State) : outLim s.limits (execLockLossConfig t q s) = s.limits :=
    by unfold execLockLossConfig; simp
@[simp] theorem cmdLaneCalibrate_limits (u_q : QId) (e : QEntry) (s : State) : (cmdLaneCalibrate u_q e s).limitsOr s.limits = s.limits :=
    by unfold cmdLaneCalibrate; simp only [checked]; (repeat' split) <;> simp
@[simp] theorem execLaneCalibrate_limits (t : Instant) (q : QId) (s : State) : outLim s.limits (execLaneCalibrate t q s) = s.limits :=
    by unfold execLaneCalibrate; simp
@[simp] theorem State.applyCal_limits (s : State) (n : Fin 8) (kind : Nat) (m : CalMeasure) : (State.applyCal s n kind m).limits = s.limits :=
    by unfold State.applyCal; (repeat' split) <;> simp
@[simp] theorem State.completeCal_limits (s : State) (n : Fin 8) (st : Status) (payload : List Byte) : (State.completeCal s n st payload).limits = s.limits :=
    by unfold State.completeCal; (repeat' split) <;> simp
@[simp] theorem State.leaveCalibrating_limits (s : State) (n : Fin 8) : (State.leaveCalibrating s n).limits = s.limits :=
    by unfold State.leaveCalibrating; simp
@[simp] theorem execLaneCalibrationEnd_limits (t : Instant) (n : Fin 8) (m : CalMeasure) (s : State) : outLim s.limits (execLaneCalibrationEnd t n m s) = s.limits :=
    by unfold execLaneCalibrationEnd; dsimp only; (repeat' split) <;> simp
@[simp] theorem cmdRxMonitor_limits (u_q : QId) (e : QEntry) (s : State) : (cmdRxMonitor u_q e s).limitsOr s.limits = s.limits :=
    by unfold cmdRxMonitor; simp only [checked]; (repeat' split) <;> simp
@[simp] theorem execRxMonitor_limits (t : Instant) (q : QId) (s : State) : outLim s.limits (execRxMonitor t q s) = s.limits :=
    by unfold execRxMonitor; simp
@[simp] theorem startScan_limits (e : QEntry) (n : Fin 8) (phases step depth limit : Nat) (s : State) : (startScan e n phases step depth limit s).limitsOr s.limits = s.limits :=
    by unfold startScan; (repeat' split) <;> simp
@[simp] theorem cmdEyeScan_limits (u_q : QId) (e : QEntry) (s : State) : (cmdEyeScan u_q e s).limitsOr s.limits = s.limits :=
    by unfold cmdEyeScan; simp only [checked]; (repeat' split) <;> simp
@[simp] theorem execEyeScan_limits (t : Instant) (q : QId) (s : State) : outLim s.limits (execEyeScan t q s) = s.limits := by unfold execEyeScan; simp
@[simp] theorem cmdEyeScanExpert_limits (u_q : QId) (e : QEntry) (s : State) : (cmdEyeScanExpert u_q e s).limitsOr s.limits = s.limits :=
    by unfold cmdEyeScanExpert; simp only [checked]; (repeat' split) <;> simp
@[simp] theorem execEyeScanExpert_limits (t : Instant) (q : QId) (s : State) : outLim s.limits (execEyeScanExpert t q s) = s.limits :=
    by unfold execEyeScanExpert; simp
@[simp] theorem execEyeScanEnd_limits (t : Instant) (n : Fin 8) (errors : List Nat) (s : State) : outLim s.limits (execEyeScanEnd t n errors s) = s.limits :=
    by unfold execEyeScanEnd; (try dsimp only); (repeat' split) <;> simp
@[simp] theorem cmdLineCounters_limits (u_q : QId) (e : QEntry) (s : State) : (cmdLineCounters u_q e s).limitsOr s.limits = s.limits :=
    by unfold cmdLineCounters; simp only [checked]; (repeat' split) <;> first | (simp; done) | (simp only [Res.limitsOr_ok, Res.limitsOr_clamped]; (repeat rw [forEach_limits]) <;> intros <;> simp)
@[simp] theorem execLineCounters_limits (t : Instant) (q : QId) (s : State) : outLim s.limits (execLineCounters t q s) = s.limits :=
    by unfold execLineCounters; simp
@[simp] theorem cmdLineLoop_limits (u_q : QId) (e : QEntry) (s : State) : (cmdLineLoop u_q e s).limitsOr s.limits = s.limits :=
    by unfold cmdLineLoop; simp only [checked]; (repeat' split) <;> simp
@[simp] theorem execLineLoop_limits (t : Instant) (q : QId) (s : State) : outLim s.limits (execLineLoop t q s) = s.limits :=
    by unfold execLineLoop; simp
@[simp] theorem cmdTxSwing_limits (u_q : QId) (e : QEntry) (s : State) : (cmdTxSwing u_q e s).limitsOr s.limits = s.limits :=
    by unfold cmdTxSwing; simp only [checked]; (repeat' split) <;> simp
@[simp] theorem execTxSwing_limits (t : Instant) (q : QId) (s : State) : outLim s.limits (execTxSwing t q s) = s.limits := by unfold execTxSwing; simp
@[simp] theorem cmdTxSwingExpert_limits (u_q : QId) (e : QEntry) (s : State) : (cmdTxSwingExpert u_q e s).limitsOr s.limits = s.limits :=
    by unfold cmdTxSwingExpert; simp only [checked]; (repeat' split) <;> simp
@[simp] theorem execTxSwingExpert_limits (t : Instant) (q : QId) (s : State) : outLim s.limits (execTxSwingExpert t q s) = s.limits :=
    by unfold execTxSwingExpert; simp
@[simp] theorem cmdTxFfe_limits (u_q : QId) (e : QEntry) (s : State) : (cmdTxFfe u_q e s).limitsOr s.limits = s.limits :=
    by unfold cmdTxFfe; simp only [checked]; (repeat' split) <;> simp
@[simp] theorem execTxFfe_limits (t : Instant) (q : QId) (s : State) : outLim s.limits (execTxFfe t q s) = s.limits := by unfold execTxFfe; simp
@[simp] theorem cmdTxFfeExpert_limits (u_q : QId) (e : QEntry) (s : State) : (cmdTxFfeExpert u_q e s).limitsOr s.limits = s.limits :=
    by unfold cmdTxFfeExpert; simp only [checked]; (repeat' split) <;> simp
@[simp] theorem execTxFfeExpert_limits (t : Instant) (q : QId) (s : State) : outLim s.limits (execTxFfeExpert t q s) = s.limits :=
    by unfold execTxFfeExpert; simp
@[simp] theorem cmdTxPredist_limits (u_q : QId) (e : QEntry) (s : State) : (cmdTxPredist u_q e s).limitsOr s.limits = s.limits :=
    by unfold cmdTxPredist; simp only [checked]; (repeat' split) <;> first | (simp; done) | (simp only [Res.limitsOr_ok, Res.limitsOr_clamped]; (repeat rw [forEach_limits]) <;> intros <;> simp)
@[simp] theorem execTxPredist_limits (t : Instant) (q : QId) (s : State) : outLim s.limits (execTxPredist t q s) = s.limits :=
    by unfold execTxPredist; simp
@[simp] theorem cmdTxPredistExpert_limits (u_q : QId) (e : QEntry) (s : State) : (cmdTxPredistExpert u_q e s).limitsOr s.limits = s.limits :=
    by unfold cmdTxPredistExpert; simp only [checked]; (repeat' split) <;> simp
@[simp] theorem execTxPredistExpert_limits (t : Instant) (q : QId) (s : State) : outLim s.limits (execTxPredistExpert t q s) = s.limits :=
    by unfold execTxPredistExpert; simp
@[simp] theorem cmdTxSkew_limits (u_q : QId) (e : QEntry) (s : State) : (cmdTxSkew u_q e s).limitsOr s.limits = s.limits :=
    by unfold cmdTxSkew; simp only [checked]; (repeat' split) <;> first | (simp; done) | (simp only [Res.limitsOr_ok, Res.limitsOr_clamped]; (repeat rw [forEach_limits]) <;> intros <;> simp)
@[simp] theorem execTxSkew_limits (t : Instant) (q : QId) (s : State) : outLim s.limits (execTxSkew t q s) = s.limits := by unfold execTxSkew; simp
@[simp] theorem cmdTxSkewExpert_limits (u_q : QId) (e : QEntry) (s : State) : (cmdTxSkewExpert u_q e s).limitsOr s.limits = s.limits :=
    by unfold cmdTxSkewExpert; simp only [checked]; (repeat' split) <;> simp
@[simp] theorem execTxSkewExpert_limits (t : Instant) (q : QId) (s : State) : outLim s.limits (execTxSkewExpert t q s) = s.limits :=
    by unfold execTxSkewExpert; simp
@[simp] theorem cmdTxClockSource_limits (u_q : QId) (e : QEntry) (s : State) : (cmdTxClockSource u_q e s).limitsOr s.limits = s.limits :=
    by unfold cmdTxClockSource; simp only [checked]; (repeat' split) <;> first | (simp; done) | (simp only [Res.limitsOr_ok, Res.limitsOr_clamped]; (repeat rw [forEach_limits]) <;> intros <;> simp)
@[simp] theorem execTxClockSource_limits (t : Instant) (q : QId) (s : State) : outLim s.limits (execTxClockSource t q s) = s.limits :=
    by unfold execTxClockSource; simp
@[simp] theorem cmdErrorInject_limits (u_q : QId) (e : QEntry) (s : State) : (cmdErrorInject u_q e s).limitsOr s.limits = s.limits :=
    by unfold cmdErrorInject; simp only [checked]; (repeat' split) <;> simp
@[simp] theorem execErrorInject_limits (t : Instant) (q : QId) (s : State) : outLim s.limits (execErrorInject t q s) = s.limits :=
    by unfold execErrorInject; simp
@[simp] theorem cmdErrorInjectExpert_limits (u_q : QId) (e : QEntry) (s : State) : (cmdErrorInjectExpert u_q e s).limitsOr s.limits = s.limits :=
    by unfold cmdErrorInjectExpert; simp only [checked]; (repeat' split) <;> simp
@[simp] theorem execErrorInjectExpert_limits (t : Instant) (q : QId) (s : State) : outLim s.limits (execErrorInjectExpert t q s) = s.limits :=
    by unfold execErrorInjectExpert; simp
@[simp] theorem execTxDisableAssert_limits (t : Instant) (s : State) : outLim s.limits (execTxDisableAssert t s) = s.limits :=
    by unfold execTxDisableAssert; simp
@[simp] theorem execTxDisableRelease_limits (t : Instant) (s : State) : outLim s.limits (execTxDisableRelease t s) = s.limits :=
    by unfold execTxDisableRelease; simp
@[simp] theorem execGainLoopStep_limits (t : Instant) (n : Fin 8) (rms : Nat) (s : State) : outLim s.limits (execGainLoopStep t n rms s) = s.limits :=
    by unfold execGainLoopStep; dsimp only; (repeat' split) <;> simp
@[simp] theorem execAdcRotationMove_limits (t : Instant) (n : Fin 8) (result : Int × Int × Int) (s : State) : outLim s.limits (execAdcRotationMove t n result s) = s.limits :=
    by unfold execAdcRotationMove; dsimp only; (repeat' split) <;> simp
@[simp] theorem execLmsUpdate_limits (t : Instant) (n : Fin 8) (sums : List Int) (h1Sum h2Sum : Int) (s : State) : outLim s.limits (execLmsUpdate t n sums h1Sum h2Sum s) = s.limits :=
    by unfold execLmsUpdate; dsimp only; (repeat' split) <;> simp
@[simp] theorem State.hostrefBack_limits (s : State) (n : Fin 16) (hostref : Bool) : (State.hostrefBack s n hostref).limits = s.limits :=
    by unfold State.hostrefBack; (try dsimp only); (repeat' split) <;> simp
@[simp] theorem State.tryRestored_limits (s : State) (r : LaneRef) : (State.tryRestored s r).limits = s.limits := by unfold State.tryRestored; simp
@[simp] theorem State.trackClock_limits (s : State) (r : LaneRef) (cycles : List (Int × Nat)) : (State.trackClock s r cycles).limits = s.limits :=
    by unfold State.trackClock; (try dsimp only); (repeat' split) <;> simp
@[simp] theorem State.tryFrameLock_limits (s : State) (r : LaneRef) : (State.tryFrameLock s r).limits = s.limits :=
    by unfold State.tryFrameLock; (try dsimp only); (repeat' split) <;> simp
@[simp] theorem execCdrLockDeclare_limits (t : Instant) (of : LaneRef × List (Int × Nat)) (s : State) : outLim s.limits (execCdrLockDeclare t of s) = s.limits :=
    by unfold execCdrLockDeclare; (try dsimp only); (repeat' split) <;> simp
@[simp] theorem execCdrLockLoss_limits (t : Instant) (of : LaneRef × List (Int × Nat)) (s : State) : outLim s.limits (execCdrLockLoss t of s) = s.limits :=
    by unfold execCdrLockLoss; (try dsimp only); (repeat' split) <;> simp
@[simp] theorem execSignalQualified_limits (t : Instant) (of : LaneRef × Bool) (s : State) : outLim s.limits (execSignalQualified t of s) = s.limits :=
    by unfold execSignalQualified; (try dsimp only); (repeat' split) <;> simp
@[simp] theorem State.loseSignal_limits (s : State) (r : LaneRef) : (State.loseSignal s r).limits = s.limits := by unfold State.loseSignal; simp
@[simp] theorem execLossOfSignal_limits (t : Instant) (r : LaneRef) (optical : Bool) (s : State) : outLim s.limits (execLossOfSignal t r optical s) = s.limits :=
    by unfold execLossOfSignal; dsimp only; (repeat' split) <;> simp
@[simp] theorem execGainSettled_limits (t : Instant) (r : LaneRef) (s : State) : outLim s.limits (execGainSettled t r s) = s.limits :=
    by unfold execGainSettled; dsimp only; (repeat' split) <;> simp
@[simp] theorem execEqualiserConverged_limits (t : Instant) (r : LaneRef) (s : State) : outLim s.limits (execEqualiserConverged t r s) = s.limits :=
    by unfold execEqualiserConverged; dsimp only; (repeat' split) <;> simp
@[simp] theorem execMissingMarkerLockLoss_limits (t : Instant) (r : LaneRef) (s : State) : outLim s.limits (execMissingMarkerLockLoss t r s) = s.limits :=
    by unfold execMissingMarkerLockLoss; dsimp only; (repeat' split) <;> simp
@[simp] theorem State.tryLocked_limits (s : State) (r : LaneRef) : (State.tryLocked s r).limits = s.limits := by unfold State.tryLocked; simp
@[simp] theorem execInnerFailWindowEnd_limits (t : Instant) (r : LaneRef) (s : State) : outLim s.limits (execInnerFailWindowEnd t r s) = s.limits :=
    by unfold execInnerFailWindowEnd; (try dsimp only); (repeat' split) <;> simp
@[simp] theorem execLaneStateTimeout_limits (t : Instant) (r : LaneRef) (s : State) : outLim s.limits (execLaneStateTimeout t r s) = s.limits :=
    by unfold execLaneStateTimeout; dsimp only; (repeat' split) <;> simp
@[simp] theorem execStageSwitch_limits (t : Instant) (r : LaneRef) (tx : Bool) (s : State) : outLim s.limits (execStageSwitch t r tx s) = s.limits :=
    by unfold execStageSwitch; dsimp only; (repeat' split) <;> simp
@[simp] theorem State.carryTaps_limits (s : State) (n : Fin 8) : (State.carryTaps s n).limits = s.limits := by unfold State.carryTaps; simp
@[simp] theorem execStageClockReady_limits (t : Instant) (r : LaneRef) (s : State) : outLim s.limits (execStageClockReady t r s) = s.limits :=
    by unfold execStageClockReady; dsimp only; (repeat' split) <;> simp
@[simp] theorem State.txToFirst_limits (s : State) (r : LaneRef) : (State.txToFirst s r).limits = s.limits :=
    by unfold State.txToFirst; (try dsimp only); (repeat' split) <;> simp
@[simp] theorem execRestartEnd_limits (t : Instant) (r : LaneRef) (s : State) : outLim s.limits (execRestartEnd t r s) = s.limits :=
    by unfold execRestartEnd; dsimp only; (repeat' split) <;> simp
@[simp] theorem execTxStageFallback_limits (t : Instant) (r : LaneRef) (s : State) : outLim s.limits (execTxStageFallback t r s) = s.limits :=
    by unfold execTxStageFallback; dsimp only; (repeat' split) <;> simp
@[simp] theorem execTxTuningTimeout_limits (t : Instant) (n : Fin 8) (s : State) : outLim s.limits (execTxTuningTimeout t n s) = s.limits :=
    by unfold execTxTuningTimeout; dsimp only; (repeat' split) <;> simp
@[simp] theorem execTrafficBegin_limits (t : Instant) (n : Fin 8) (s : State) : outLim s.limits (execTrafficBegin t n s) = s.limits :=
    by unfold execTrafficBegin; dsimp only; (repeat' split) <;> simp
@[simp] theorem State.regroupClear_limits (s : State) (lead : Fin 8) : (State.regroupClear s lead).limits = s.limits :=
    by unfold State.regroupClear; (try dsimp only); (repeat' split) <;> first | (simp; done) | ((repeat rw [forEach_limits]) <;> intros <;> (repeat' split) <;> simp)
@[simp] theorem execReceiverForwardStart_limits (t : Instant) (n : Fin 8) (s : State) : outLim s.limits (execReceiverForwardStart t n s) = s.limits := by
  unfold execReceiverForwardStart; (try dsimp only); (repeat' split) <;> simp [State.forEach]
@[simp] theorem execLaneReportTimer_limits (t : Instant) (n : Fin 8) (farAdaptive : Bool) (errors skews : List Int) (s : State) : outLim s.limits (execLaneReportTimer t n farAdaptive errors skews s) = s.limits :=
    by
  unfold execLaneReportTimer; extract_lets s1 l; split
  · simp [s1]
  · simp [s1]
@[simp] theorem State.latchDelays_limits (s : State) (r : LaneRef) : (State.latchDelays s r).limits = s.limits :=
    by unfold State.latchDelays; (try dsimp only); (repeat' split) <;> simp
@[simp] theorem State.closeInterval_limits (s : State) (r : LaneRef) (status : Nat) : (State.closeInterval s r status).limits = s.limits :=
    by unfold State.closeInterval; simp
@[simp] theorem State.taken_limits (s : State) (r : LaneRef) : (State.taken s r).limits = s.limits := by unfold State.taken; simp
@[simp] theorem State.propose_limits (s : State) (r : LaneRef) : (State.propose s r).limits = s.limits := by unfold State.propose; simp
@[simp] theorem execHello_limits (t : Instant) (r : LaneRef) (s : State) : outLim s.limits (execHello t r s) = s.limits :=
    by unfold execHello; dsimp only; (repeat' split) <;> simp
@[simp] theorem State.agree_limits (s : State) (r : LaneRef) (g : StepNeg) : (State.agree s r g).limits = s.limits := by unfold State.agree; simp
@[simp] theorem execStepPropose_limits (t : Instant) (r : LaneRef) (s : State) : outLim s.limits (execStepPropose t r s) = s.limits :=
    by unfold execStepPropose; dsimp only; (repeat' split) <;> simp
@[simp] theorem execStepConfirm_limits (t : Instant) (r : LaneRef) (s : State) : outLim s.limits (execStepConfirm t r s) = s.limits :=
    by unfold execStepConfirm; dsimp only; (repeat' split) <;> simp
@[simp] theorem execTapRequest_limits (t : Instant) (r : LaneRef) (s : State) : outLim s.limits (execTapRequest t r s) = s.limits :=
    by unfold execTapRequest; dsimp only; (repeat' split) <;> simp
@[simp] theorem execTapReply_limits (t : Instant) (r : LaneRef) (s : State) : outLim s.limits (execTapReply t r s) = s.limits :=
    by unfold execTapReply; dsimp only; (repeat' split) <;> simp
@[simp] theorem execPdReport_limits (t : Instant) (n : Fin 8) (s : State) : outLim s.limits (execPdReport t n s) = s.limits :=
    by unfold execPdReport; dsimp only; (repeat' split) <;> simp
@[simp] theorem State.skewReport_limits (s : State) (n : Fin 8) (base b : Nat) : (State.skewReport s n base b).limits = s.limits :=
    by unfold State.skewReport; (try dsimp only); (repeat' split) <;> first | (simp; done) | (simp; (repeat rw [forEach_limits]) <;> intros <;> (repeat' split) <;> simp)
@[simp] theorem execSkewReportLo_limits (t : Instant) (n : Fin 8) (s : State) : outLim s.limits (execSkewReportLo t n s) = s.limits :=
    by unfold execSkewReportLo; dsimp only; (repeat' split) <;> simp
@[simp] theorem execSkewReportHi_limits (t : Instant) (n : Fin 8) (s : State) : outLim s.limits (execSkewReportHi t n s) = s.limits :=
    by unfold execSkewReportHi; dsimp only; (repeat' split) <;> simp
@[simp] theorem execTrafficStart_limits (t : Instant) (n : Fin 8) (s : State) : outLim s.limits (execTrafficStart t n s) = s.limits :=
    by unfold execTrafficStart; dsimp only; (repeat' split) <;> simp
@[simp] theorem State.matchLine_limits (s : State) (n : Fin 8) (k : Nat) (rs : List PairResult) : (State.matchLine s n k rs).limits = s.limits :=
    by unfold State.matchLine; (try dsimp only); (repeat' split) <;> simp
@[simp] theorem State.matchHost_limits (s : State) (n : Fin 8) (k : Nat) (rs : List PairResult) : (State.matchHost s n k rs).limits = s.limits :=
    by unfold State.matchHost; (try dsimp only); (repeat' split) <;> simp
@[simp] theorem State.joinFlows_limits (s : State) (n : Fin 8) : (State.joinFlows s n).limits = s.limits :=
    by unfold State.joinFlows; (try dsimp only); (repeat' split) <;> simp
@[simp] theorem State.replaceLine_limits (s : State) (n : Fin 8) (ps : List Nat) : (State.replaceLine s n ps).limits = s.limits :=
    by unfold State.replaceLine; (try dsimp only); (repeat' split) <;> simp
@[simp] theorem State.sendHost_limits (s : State) (n : Fin 8) : (State.sendHost s n).limits = s.limits :=
    by unfold State.sendHost; (try dsimp only); (repeat' split) <;> simp
@[simp] theorem State.loopHost_limits (s : State) (n : Fin 8) (pairs : List Nat) : (State.loopHost s n pairs).limits = s.limits :=
    by unfold State.loopHost; (try dsimp only); (repeat' split) <;> simp
@[simp] theorem State.takeHostPairs_limits (s : State) (n : Fin 8) (pairs : List Nat) : (State.takeHostPairs s n pairs).limits = s.limits :=
    by unfold State.takeHostPairs; (try dsimp only); (repeat' split) <;> simp
@[simp] theorem State.patchLine_limits (s : State) (lead : Fin 8) : (State.patchLine s lead).limits = s.limits :=
    by unfold State.patchLine; (try dsimp only); (repeat' split) <;> simp
@[simp] theorem State.patchHost_limits (s : State) (lead : Fin 8) : (State.patchHost s lead).limits = s.limits :=
    by unfold State.patchHost; (try dsimp only); (repeat' split) <;> simp
@[simp] theorem State.putFrame_limits (s : State) (r : LaneRef) (tx : LaneTx) (blocks : List Nat) (marker events : Nat) : (State.putFrame s r tx blocks marker events).limits = s.limits :=
    by unfold State.putFrame; (try dsimp only); (repeat' split) <;> simp
@[simp] theorem State.sendFrame_limits (s : State) (r : LaneRef) (marker : Nat) : (State.sendFrame s r marker).limits = s.limits :=
    by unfold State.sendFrame; (try dsimp only); (repeat' split) <;> simp
@[simp] theorem State.sendLooped_limits (s : State) (r : LaneRef) : (State.sendLooped s r).limits = s.limits :=
    by unfold State.sendLooped; (try dsimp only); (repeat' split) <;> simp
@[simp] theorem State.countFrame_limits (s : State) (n : Fin 8) (ws : List (Nat × Bool × Nat)) : (State.countFrame s n ws).limits = s.limits :=
    by unfold State.countFrame; (try dsimp only); (repeat' split) <;> simp
@[simp] theorem State.deliverPairs_limits (s : State) (n : Fin 8) (ps : List (Nat × Bool)) : (State.deliverPairs s n ps).limits = s.limits :=
    by unfold State.deliverPairs; (try dsimp only); (repeat' split) <;> simp
@[simp] theorem State.forwardFrame_limits (s : State) (n : Fin 8) (count : Nat) (ws : List (Nat × Bool × Nat)) : (State.forwardFrame s n count ws).limits = s.limits :=
    by unfold State.forwardFrame; (try dsimp only); (repeat' split) <;> simp
@[simp] theorem State.forwardS200_limits (s : State) (n : Fin 8) (ws : List (Nat × Bool × Nat)) : (State.forwardS200 s n ws).limits = s.limits :=
    by unfold State.forwardS200; (try dsimp only); (repeat' split) <;> simp
@[simp] theorem State.patchPassed_limits (s : State) (n : Fin 8) (count : Nat) : (State.patchPassed s n count).limits = s.limits :=
    by unfold State.patchPassed; (try dsimp only); (repeat' split) <;> simp
@[simp] theorem State.checkRelay_limits (s : State) (r : LaneRef) (count : Nat) (blocks : List Nat) : (State.checkRelay s r count blocks).limits = s.limits :=
    by unfold State.checkRelay; (try dsimp only); (repeat' split) <;> simp
@[simp] theorem State.receiveFrame_limits (s : State) (r : LaneRef) (count : Nat) (block : Nat) (rx : RxFrame) : (State.receiveFrame s r count block rx).limits = s.limits :=
    by unfold State.receiveFrame; (try dsimp only); (repeat' split) <;> simp
@[simp] theorem State.dataPayload_limits (s : State) (r : LaneRef) : (State.dataPayload s r).2.limits = s.limits :=
    by unfold State.dataPayload; (repeat' split) <;> simp
@[simp] theorem State.departTime_limits (s : State) (r : LaneRef) (q index : Nat) : (State.departTime s r q index).limits = s.limits :=
    by unfold State.departTime; (try dsimp only); (repeat' split) <;> simp
@[simp] theorem State.checkStep_limits (s : State) (r : LaneRef) : (State.checkStep s r).limits = s.limits :=
    by unfold State.checkStep; dsimp only; (repeat' split) <;> simp
@[simp] theorem State.endSuperframe_limits (s : State) (r : LaneRef) : (State.endSuperframe s r).limits = s.limits :=
    by unfold State.endSuperframe; simp
@[simp] theorem State.markerPayloadOut_limits (s : State) (r : LaneRef) (index : Nat) : (State.markerPayloadOut s r index).2.limits = s.limits :=
    by unfold State.markerPayloadOut; (try dsimp only); (repeat' split) <;> simp
@[simp] theorem State.sendSuperframe_limits (s : State) (r : LaneRef) (index : Nat) : (State.sendSuperframe s r index).limits = s.limits :=
    by unfold State.sendSuperframe; (try dsimp only); (repeat' split) <;> simp
@[simp] theorem State.takePairs_limits (s : State) (r : LaneRef) (host : List (List Nat)) : (State.takePairs s r host).limits = s.limits :=
    by unfold State.takePairs; (try dsimp only); (repeat' split) <;> simp
@[simp] theorem execTxMarker_limits (t : Instant) (of : LaneRef × TxFrame) (s : State) : outLim s.limits (execTxMarker t of s) = s.limits :=
    by unfold execTxMarker; (try dsimp only); (repeat' split) <;> simp
@[simp] theorem State.keepArrival_limits (s : State) (r : LaneRef) (a : MarkerStamp) : (State.keepArrival s r a).limits = s.limits :=
    by unfold State.keepArrival; (try dsimp only); (repeat' split) <;> simp
@[simp] theorem State.takeGood_limits (s : State) (r : LaneRef) (b index : Nat) : (State.takeGood s r b index).limits = s.limits :=
    by unfold State.takeGood; (try dsimp only); (repeat' split) <;> simp
@[simp] theorem State.proposeKnown_limits (s : State) (r : LaneRef) : (State.proposeKnown s r).limits = s.limits :=
    by unfold State.proposeKnown; (try dsimp only); (repeat' split) <;> simp
@[simp] theorem State.foundMarker_limits (s : State) (r : LaneRef) : (State.foundMarker s r).limits = s.limits := by unfold State.foundMarker; simp
@[simp] theorem State.reachMarker_limits (s : State) (r : LaneRef) (count block : Nat) (rx : RxFrame) : (State.reachMarker s r count block rx).limits = s.limits :=
    by unfold State.reachMarker; (try dsimp only); (repeat' split) <;> simp
@[simp] theorem execMarkerReceive_limits (t : Instant) (r : LaneRef) (block : Nat) (rx : RxFrame) (s : State) : outLim s.limits (execMarkerReceive t r block rx s) = s.limits :=
    by unfold execMarkerReceive; (try dsimp only); (repeat' split) <;> simp
@[simp] theorem execRillDataMarker_limits (t : Instant) (r : LaneRef) (s : State) : outLim s.limits (execRillDataMarker t r s) = s.limits :=
    by unfold execRillDataMarker; dsimp only; (repeat' split) <;> simp
@[simp] theorem State.takeDescription_limits (s : State) (r : LaneRef) (tp : Nat) (pair : Option (MarkerStamp × Nat)) : (State.takeDescription s r tp pair).limits = s.limits :=
    by unfold State.takeDescription; simp
@[simp] theorem State.takeTurn_limits (s : State) (r : LaneRef) (q tp : Nat) : (State.takeTurn s r q tp).limits = s.limits :=
    by unfold State.takeTurn; dsimp only; (repeat' split) <;> simp
@[simp] theorem State.countMarker_limits (s : State) (r : LaneRef) : (State.countMarker s r).limits = s.limits := by unfold State.countMarker; simp
@[simp] theorem State.asymCounted_limits (s : State) (r : LaneRef) : (State.asymCounted s r).limits = s.limits :=
    by unfold State.asymCounted; dsimp only; split <;> rfl
@[simp] theorem State.countAsym_limits (s : State) (n : Fin 8) (q : Nat) (d : Int) : (State.countAsym s n q d).limits = s.limits :=
    by unfold State.countAsym; dsimp only; (repeat' split) <;> simp
@[simp] theorem State.takeTp_limits (s : State) (r : LaneRef) (i : Inbox) (dep : Option (Int × MarkerStamp)) : (State.takeTp s r i dep).limits = s.limits :=
    by unfold State.takeTp; dsimp only; (repeat' split) <;> simp
@[simp] theorem State.takeSample_limits (s : State) (r : LaneRef) (dep : Option (Int × MarkerStamp)) : (State.takeSample s r dep).limits = s.limits :=
    by unfold State.takeSample; (repeat' split) <;> simp
@[simp] theorem State.takeAsym_limits (s : State) (r : LaneRef) (prev : Nat) (dep : Option (Int × MarkerStamp)) : (State.takeAsym s r prev dep).limits = s.limits :=
    by unfold State.takeAsym; (repeat' split) <;> simp
@[simp] theorem execTimeMarkerArrival_limits (t : Instant) (r : LaneRef) (s : State) : outLim s.limits (execTimeMarkerArrival t r s) = s.limits :=
    by unfold execTimeMarkerArrival; dsimp only; (repeat' split) <;> simp
@[simp] theorem cmdCalTableRead_limits (u_q : QId) (e : QEntry) (s : State) : (cmdCalTableRead u_q e s).limitsOr s.limits = s.limits :=
    by unfold cmdCalTableRead; simp only [checked]; (repeat' split) <;> simp
@[simp] theorem execCalTableRead_limits (t : Instant) (q : QId) (s : State) : outLim s.limits (execCalTableRead t q s) = s.limits :=
    by unfold execCalTableRead; simp
@[simp] theorem cmdXferStatus_limits (u_q : QId) (e : QEntry) (s : State) : (cmdXferStatus u_q e s).limitsOr s.limits = s.limits :=
    by unfold cmdXferStatus; simp only [checked]; (repeat' split) <;> simp
@[simp] theorem execXferStatus_limits (t : Instant) (q : QId) (s : State) : outLim s.limits (execXferStatus t q s) = s.limits :=
    by unfold execXferStatus; simp
@[simp] theorem cmdXferCal_limits (u_q : QId) (e : QEntry) (s : State) : (cmdXferCal u_q e s).limitsOr s.limits = s.limits :=
    by unfold cmdXferCal; simp only [checked]; (repeat' split) <;> simp
@[simp] theorem execXferCal_limits (t : Instant) (q : QId) (s : State) : outLim s.limits (execXferCal t q s) = s.limits := by unfold execXferCal; simp
@[simp] theorem State.completeXfer_limits (s : State) (n : Fin 8) (st : Status) (payload : List Byte) : (State.completeXfer s n st payload).limits = s.limits :=
    by unfold State.completeXfer; (repeat' split) <;> simp
@[simp] theorem State.releaseXfer_limits (s : State) (n : Fin 8) : (State.releaseXfer s n).limits = s.limits := by unfold State.releaseXfer; simp
@[simp] theorem State.endXfer_limits (s : State) (n : Fin 8) : (State.endXfer s n).limits = s.limits :=
    by unfold State.endXfer; (try dsimp only); (repeat' split) <;> simp
@[simp] theorem State.abandonXfer_limits (s : State) (n : Fin 8) : (State.abandonXfer s n).limits = s.limits := by unfold State.abandonXfer; simp
@[simp] theorem State.leaveXfer_limits (s : State) (r : LaneRef) : (State.leaveXfer s r).limits = s.limits := by cases r <;> simp [State.leaveXfer]
@[simp] theorem execXferCalPhaseEnd_limits (t : Instant) (n : Fin 8) (s : State) : outLim s.limits (execXferCalPhaseEnd t n s) = s.limits :=
    by unfold execXferCalPhaseEnd; (try dsimp only); (repeat' split) <;> simp
@[simp] theorem cmdXferCalExpert_limits (u_q : QId) (e : QEntry) (s : State) : (cmdXferCalExpert u_q e s).limitsOr s.limits = s.limits :=
    by unfold cmdXferCalExpert; simp only [checked]; (repeat' split) <;> simp
@[simp] theorem execXferCalExpert_limits (t : Instant) (q : QId) (s : State) : outLim s.limits (execXferCalExpert t q s) = s.limits :=
    by unfold execXferCalExpert; simp
@[simp] theorem cmdAsymmetry_limits (u_q : QId) (e : QEntry) (s : State) : (cmdAsymmetry u_q e s).limitsOr s.limits = s.limits :=
    by unfold cmdAsymmetry; simp only [checked]; (repeat' split) <;> first | (simp; done) | (simp only [Res.limitsOr_ok, Res.limitsOr_clamped]; (repeat rw [forEach_limits]) <;> intros <;> simp)
@[simp] theorem execAsymmetry_limits (t : Instant) (q : QId) (s : State) : outLim s.limits (execAsymmetry t q s) = s.limits :=
    by unfold execAsymmetry; simp
@[simp] theorem cmdAsymmetryExpert_limits (u_q : QId) (e : QEntry) (s : State) : (cmdAsymmetryExpert u_q e s).limitsOr s.limits = s.limits :=
    by unfold cmdAsymmetryExpert; simp only [checked]; (repeat' split) <;> simp
@[simp] theorem execAsymmetryExpert_limits (t : Instant) (q : QId) (s : State) : outLim s.limits (execAsymmetryExpert t q s) = s.limits :=
    by unfold execAsymmetryExpert; simp
@[simp] theorem execAsymEstimateRun_limits (t : Instant) (s : State) : outLim s.limits (execAsymEstimateRun t s) = s.limits :=
    by unfold execAsymEstimateRun; dsimp only; (repeat' split) <;> simp
@[simp] theorem execPtpEventMessage_limits (t : Instant) (lane : Fin 8) (hl : Fin 16) (toLine : Bool) (frame : List Byte) (lineAt hostAt : Crossing) (errored : Bool) (s : State) : outLim s.limits (execPtpEventMessage t lane hl toLine frame lineAt hostAt errored s) = s.limits :=
    by unfold execPtpEventMessage; (try dsimp only); (repeat' split) <;> simp
@[simp] theorem cmdPtpCorrConfig_limits (u_q : QId) (e : QEntry) (s : State) : (cmdPtpCorrConfig u_q e s).limitsOr s.limits = s.limits :=
    by unfold cmdPtpCorrConfig; simp only [checked]; (repeat' split) <;> simp
@[simp] theorem execPtpCorrConfig_limits (t : Instant) (q : QId) (s : State) : outLim s.limits (execPtpCorrConfig t q s) = s.limits :=
    by unfold execPtpCorrConfig; simp
@[simp] theorem cmdPtpCorrStatus_limits (u_q : QId) (e : QEntry) (s : State) : (cmdPtpCorrStatus u_q e s).limitsOr s.limits = s.limits :=
    by unfold cmdPtpCorrStatus; simp only [checked]; (repeat' split) <;> simp
@[simp] theorem execPtpCorrStatus_limits (t : Instant) (q : QId) (s : State) : outLim s.limits (execPtpCorrStatus t q s) = s.limits :=
    by unfold execPtpCorrStatus; simp
@[simp] theorem State.hostHold_limits (s : State) (k : Bank) (n : Fin 16) : (State.hostHold s k n).limits = s.limits :=
    by unfold State.hostHold; (try dsimp only); (repeat' split) <;> simp
@[simp] theorem State.hostTested_limits (s : State) (n : Fin 16) : (State.hostTested s n).limits = s.limits :=
    by unfold State.hostTested; (try dsimp only); (repeat' split) <;> simp
@[simp] theorem State.hostLeave_limits (s : State) (n : Fin 16) : (State.hostLeave s n).limits = s.limits :=
    by unfold State.hostLeave; (try dsimp only); (repeat' split) <;> simp
@[simp] theorem State.hostTo_limits (s : State) (n : Fin 16) (st : HostState) (rate exit : Nat) : (State.hostTo s n st rate exit).limits = s.limits :=
    by unfold State.hostTo; simp
@[simp] theorem cmdHostMode_limits (u_q : QId) (e : QEntry) (s : State) : (cmdHostMode u_q e s).limitsOr s.limits = s.limits :=
    by unfold cmdHostMode; simp only [checked]; (repeat' split) <;> first | (simp; done) | (simp only [Res.limitsOr_ok, Res.limitsOr_clamped]; (repeat rw [forEach_limits]) <;> intros <;> simp)
@[simp] theorem execHostMode_limits (t : Instant) (q : QId) (s : State) : outLim s.limits (execHostMode t q s) = s.limits :=
    by unfold execHostMode; simp
@[simp] theorem cmdHostState_limits (u_q : QId) (e : QEntry) (s : State) : (cmdHostState u_q e s).limitsOr s.limits = s.limits :=
    by unfold cmdHostState; simp only [checked]; (repeat' split) <;> simp
@[simp] theorem execHostState_limits (t : Instant) (q : QId) (s : State) : outLim s.limits (execHostState t q s) = s.limits :=
    by unfold execHostState; simp
@[simp] theorem cmdHostEq_limits (u_q : QId) (e : QEntry) (s : State) : (cmdHostEq u_q e s).limitsOr s.limits = s.limits :=
    by unfold cmdHostEq; simp only [checked]; (repeat' split) <;> first | (simp; done) | (simp only [Res.limitsOr_ok, Res.limitsOr_clamped]; (repeat rw [forEach_limits]) <;> intros <;> simp)
@[simp] theorem execHostEq_limits (t : Instant) (q : QId) (s : State) : outLim s.limits (execHostEq t q s) = s.limits := by unfold execHostEq; simp
@[simp] theorem cmdHostEqExpert_limits (u_q : QId) (e : QEntry) (s : State) : (cmdHostEqExpert u_q e s).limitsOr s.limits = s.limits :=
    by unfold cmdHostEqExpert; simp only [checked]; (repeat' split) <;> simp
@[simp] theorem execHostEqExpert_limits (t : Instant) (q : QId) (s : State) : outLim s.limits (execHostEqExpert t q s) = s.limits :=
    by unfold execHostEqExpert; simp
@[simp] theorem cmdHostLoop_limits (u_q : QId) (e : QEntry) (s : State) : (cmdHostLoop u_q e s).limitsOr s.limits = s.limits :=
    by unfold cmdHostLoop; simp only [checked]; (repeat' split) <;> simp
@[simp] theorem execHostLoop_limits (t : Instant) (q : QId) (s : State) : outLim s.limits (execHostLoop t q s) = s.limits :=
    by unfold execHostLoop; simp
@[simp] theorem cmdHostRef_limits (u_q : QId) (e : QEntry) (s : State) : (cmdHostRef u_q e s).limitsOr s.limits = s.limits :=
    by unfold cmdHostRef; simp only [checked]; (repeat' split) <;> first | (simp; done) | (simp only [Res.limitsOr_ok, Res.limitsOr_clamped]; (repeat rw [forEach_limits]) <;> intros <;> simp)
@[simp] theorem execHostRef_limits (t : Instant) (q : QId) (s : State) : outLim s.limits (execHostRef t q s) = s.limits := by unfold execHostRef; simp
@[simp] theorem cmdPortFaultMode_limits (u_q : QId) (e : QEntry) (s : State) : (cmdPortFaultMode u_q e s).limitsOr s.limits = s.limits :=
    by unfold cmdPortFaultMode; simp only [checked]; (repeat' split) <;> simp
@[simp] theorem execPortFaultMode_limits (t : Instant) (q : QId) (s : State) : outLim s.limits (execPortFaultMode t q s) = s.limits :=
    by unfold execPortFaultMode; simp
@[simp] theorem cmdHostCounters_limits (u_q : QId) (e : QEntry) (s : State) : (cmdHostCounters u_q e s).limitsOr s.limits = s.limits :=
    by unfold cmdHostCounters; simp only [checked]; (repeat' split) <;> first | (simp; done) | (simp only [Res.limitsOr_ok, Res.limitsOr_clamped]; (repeat rw [forEach_limits]) <;> intros <;> simp)
@[simp] theorem execHostCounters_limits (t : Instant) (q : QId) (s : State) : outLim s.limits (execHostCounters t q s) = s.limits :=
    by unfold execHostCounters; simp
@[simp] theorem execHostSignalDetect_limits (t : Instant) (n : Fin 16) (hostref : Bool) (s : State) : outLim s.limits (execHostSignalDetect t n hostref s) = s.limits :=
    by unfold execHostSignalDetect; dsimp only; (repeat' split) <;> simp
@[simp] theorem execHostTrainingComplete_limits (t : Instant) (n : Fin 16) (s : State) : outLim s.limits (execHostTrainingComplete t n s) = s.limits :=
    by unfold execHostTrainingComplete; dsimp only; (repeat' split) <;> simp
@[simp] theorem execHostRateStep_limits (t : Instant) (n : Fin 16) (s : State) : outLim s.limits (execHostRateStep t n s) = s.limits :=
    by unfold execHostRateStep; dsimp only; (repeat' split) <;> simp
@[simp] theorem execHostRxLocked_limits (t : Instant) (n : Fin 16) (s : State) : outLim s.limits (execHostRxLocked t n s) = s.limits :=
    by unfold execHostRxLocked; dsimp only; (repeat' split) <;> simp
@[simp] theorem State.hostAlign_limits (s : State) (lead : Fin 8) : (State.hostAlign s lead).limits = s.limits :=
    by unfold State.hostAlign; (try dsimp only); (repeat' split) <;> first | (simp; done) | (simp; (repeat rw [forEach_limits]) <;> intros <;> (repeat' split) <;> simp)
@[simp] theorem execHostAlignComplete_limits (t : Instant) (n : Fin 16) (badMap : Bool) (skew : Nat) (s : State) : outLim s.limits (execHostAlignComplete t n badMap skew s) = s.limits :=
    by unfold execHostAlignComplete; dsimp only; (repeat' split) <;> simp
@[simp] theorem execHostLaneLoss_limits (t : Instant) (n : Fin 16) (what : HostLoss) (s : State) : outLim s.limits (execHostLaneLoss t n what s) = s.limits :=
    by unfold execHostLaneLoss; dsimp only; (repeat' split) <;> simp
@[simp] theorem execHostRecoverRestored_limits (t : Instant) (n : Fin 16) (s : State) : outLim s.limits (execHostRecoverRestored t n s) = s.limits :=
    by unfold execHostRecoverRestored; dsimp only; (repeat' split) <;> simp
@[simp] theorem execHostLaneTimeout_limits (t : Instant) (n : Fin 16) (s : State) : outLim s.limits (execHostLaneTimeout t n s) = s.limits :=
    by unfold execHostLaneTimeout; dsimp only; (repeat' split) <;> simp
@[simp] theorem execHostTrainingRequest_limits (t : Instant) (n : Fin 16) (tap : Fin 5) (delta : Int) (s : State) : outLim s.limits (execHostTrainingRequest t n tap delta s) = s.limits :=
    by unfold execHostTrainingRequest; dsimp only; (repeat' split) <;> simp
@[simp] theorem execHostrefLost_limits (t : Instant) (s : State) : outLim s.limits (execHostrefLost t s) = s.limits :=
    by unfold execHostrefLost; dsimp only; (repeat' split) <;> first | (simp; done) | (simp only [outLim_next]; (repeat rw [forEach_limits]) <;> intros <;> simp)
@[simp] theorem State.markMatch_limits (s : State) (n : Fin 8) (toLine : Bool) : (State.markMatch s n toLine).limits = s.limits :=
    by unfold State.markMatch; (try dsimp only); (repeat' split) <;> simp
@[simp] theorem execMatchOverrun_limits (t : Instant) (n : Fin 8) (toLine : Bool) (s : State) : outLim s.limits (execMatchOverrun t n toLine s) = s.limits :=
    by unfold execMatchOverrun; simp
@[simp] theorem State.setPower_limits (s : State) (r : LaneRef) (p tg : LanePower) : (State.setPower s r p tg).limits = s.limits :=
    by unfold State.setPower; (repeat' split) <;> simp
@[simp] theorem State.abandonCal_limits (s : State) (n : Fin 8) : (State.abandonCal s n).limits = s.limits := by unfold State.abandonCal; simp
@[simp] theorem State.suspendLoop_limits (s : State) (y0 : LaneRef) : (State.suspendLoop s y0).limits = s.limits :=
    by unfold State.suspendLoop; (repeat' split) <;> simp
@[simp] theorem State.unalign_limits (s : State) (n : Fin 64) : (State.unalign s n).limits = s.limits := by unfold State.unalign; simp
@[simp] theorem State.toStill_limits (s : State) (r : LaneRef) : (State.toStill s r).limits = s.limits :=
    by unfold State.toStill; (repeat' split) <;> simp
@[simp] theorem State.toQuiet_limits (s : State) (r : LaneRef) : (State.toQuiet s r).limits = s.limits :=
    by unfold State.toQuiet; (repeat' split) <;> simp
@[simp] theorem State.sendPower_limits (s : State) (tg : LanePower) (r : LaneRef) : (State.sendPower s tg r).limits = s.limits :=
    by unfold State.sendPower; (repeat' split) <;> simp
@[simp] theorem State.commandPower_limits (s : State) (r : LaneRef) (p : LanePower) : (State.commandPower s r p).limits = s.limits :=
    by unfold State.commandPower; (repeat' split) <;> simp
@[simp] theorem cmdLanePower_limits (u_q : QId) (e : QEntry) (s : State) : (cmdLanePower u_q e s).limitsOr s.limits = s.limits :=
    by unfold cmdLanePower; simp only [checked]; (repeat' split) <;> simp
@[simp] theorem execLanePower_limits (t : Instant) (q : QId) (s : State) : outLim s.limits (execLanePower t q s) = s.limits :=
    by unfold execLanePower; simp
@[simp] theorem State.powerReplies_limits (s : State) : (State.powerReplies s).limits = s.limits := by unfold State.powerReplies; simp
@[simp] theorem execLanePowerEntryComplete_limits (t : Instant) (r : LaneRef) (s : State) : outLim s.limits (execLanePowerEntryComplete t r s) = s.limits :=
    by unfold execLanePowerEntryComplete; dsimp only; (repeat' split) <;> simp
@[simp] theorem State.leavePower_limits (s : State) (r : LaneRef) : (State.leavePower s r).limits = s.limits :=
    by unfold State.leavePower; (repeat' split) <;> simp
@[simp] theorem execLanePowerExitComplete_limits (t : Instant) (r : LaneRef) (s : State) : outLim s.limits (execLanePowerExitComplete t r s) = s.limits :=
    by unfold execLanePowerExitComplete; dsimp only; (repeat' split) <;> simp
@[simp] theorem State.servoEvent_limits (s : State) (old new : ServoState) (cause : Nat) (step : Int) : (State.servoEvent s old new cause step).limits = s.limits :=
    by unfold State.servoEvent; simp
@[simp] theorem State.servoTo_limits (s : State) (st : ServoState) (cause : Nat) : (State.servoTo s st cause).limits = s.limits :=
    by unfold State.servoTo; simp
@[simp] theorem State.slewBy_limits (s : State) (e : Int) : (State.slewBy s e).limits = s.limits := by unfold State.slewBy; simp
@[simp] theorem State.acquireBy_limits (s : State) (e : Int) (upstream : Bool) : (State.acquireBy s e upstream).limits = s.limits :=
    by unfold State.acquireBy; simp
@[simp] theorem State.lockedBy_limits (s : State) (e : Int) : (State.lockedBy s e).limits = s.limits := by unfold State.lockedBy; simp
@[simp] theorem State.servoOffset_limits (s : State) (e : Int) (upstream : Bool) : (State.servoOffset s e upstream).limits = s.limits :=
    by unfold State.servoOffset; dsimp only; (repeat' split) <;> simp
@[simp] theorem State.servoEmpty_limits (s : State) : (State.servoEmpty s).limits = s.limits := by unfold State.servoEmpty; simp
@[simp] theorem State.endInterval_limits (s : State) : (State.endInterval s).1.limits = s.limits := by unfold State.endInterval; simp
@[simp] theorem State.lineUpdate_limits (s : State) : (State.lineUpdate s).limits = s.limits :=
    by unfold State.lineUpdate; dsimp only; (repeat' split) <;> simp
@[simp] theorem State.stepTime_limits (s : State) (x : Int) : (State.stepTime s x).limits = s.limits :=
    by unfold State.stepTime; (try dsimp only); (repeat' split) <;> simp
@[simp] theorem State.logStep_limits (s : State) (x : Int) (origin : Nat) : (State.logStep s x origin).limits = s.limits :=
    by unfold State.logStep; (try dsimp only); (repeat' split) <;> simp
@[simp] theorem State.hostStepped_limits (s : State) (h : Nat × Int × Bool) : (State.hostStepped s h).limits = s.limits :=
    by unfold State.hostStepped; (try dsimp only); (repeat' split) <;> simp
@[simp] theorem State.stampChange_limits (s : State) (es : List (ServoState × ServoState × Nat)) : (State.stampChange s es).limits = s.limits :=
    by unfold State.stampChange; split <;> simp
@[simp] theorem State.servoStepped_limits (s : State) (p : PendingStep) (x : Int) : (State.servoStepped s p x).limits = s.limits :=
    by unfold State.servoStepped; simp
@[simp] theorem State.applySteps_limits (s : State) : (State.applySteps s).limits = s.limits :=
    by unfold State.applySteps; (try dsimp only); (repeat' split) <;> simp
@[simp] theorem execTimeStepApply_limits (t : Instant) (s : State) : outLim s.limits (execTimeStepApply t s) = s.limits :=
    by unfold execTimeStepApply; dsimp only; (repeat' split) <;> simp
@[simp] theorem State.judgeClk_limits (s : State) : (State.judgeClk s).limits = s.limits := by unfold State.judgeClk; simp
@[simp] theorem State.ppsEdge_limits (s : State) : (State.ppsEdge s).limits = s.limits := by unfold State.ppsEdge; simp
@[simp] theorem execPpsOutEdge_limits (t : Instant) (s : State) : outLim s.limits (execPpsOutEdge t s) = s.limits := by unfold execPpsOutEdge; simp
@[simp] theorem execPpsOutTrailing_limits (t : Instant) (s : State) : outLim s.limits (execPpsOutTrailing t s) = s.limits :=
    by unfold execPpsOutTrailing; simp
@[simp] theorem execTimeBusEpochMessage_limits (t : Instant) (n : Fin 64) (m : Nat × Int) (s : State) : outLim s.limits (execTimeBusEpochMessage t n m s) = s.limits :=
    by unfold execTimeBusEpochMessage; (try dsimp only); (repeat' split) <;> simp
@[simp] theorem cmdTimeGet_limits (u_q : QId) (e : QEntry) (s : State) : (cmdTimeGet u_q e s).limitsOr s.limits = s.limits :=
    by unfold cmdTimeGet; simp only [checked]; (repeat' split) <;> simp
@[simp] theorem execTimeGet_limits (t : Instant) (q : QId) (s : State) : outLim s.limits (execTimeGet t q s) = s.limits := by unfold execTimeGet; simp
@[simp] theorem cmdTimeSet_limits (u_q : QId) (e : QEntry) (s : State) : (cmdTimeSet u_q e s).limitsOr s.limits = s.limits :=
    by unfold cmdTimeSet; simp only [checked]; (repeat' split) <;> simp
@[simp] theorem execTimeSet_limits (t : Instant) (q : QId) (s : State) : outLim s.limits (execTimeSet t q s) = s.limits := by unfold execTimeSet; simp
@[simp] theorem cmdTimeStep_limits (u_q : QId) (e : QEntry) (s : State) : (cmdTimeStep u_q e s).limitsOr s.limits = s.limits :=
    by unfold cmdTimeStep; simp only [checked]; (repeat' split) <;> simp
@[simp] theorem execTimeStep_limits (t : Instant) (q : QId) (s : State) : outLim s.limits (execTimeStep t q s) = s.limits :=
    by unfold execTimeStep; simp
@[simp] theorem cmdServoSource_limits (q : QId) (e : QEntry) (s : State) : (cmdServoSource q e s).limitsOr s.limits = s.limits :=
    by unfold cmdServoSource; simp only [checked]; (repeat' split) <;> simp
@[simp] theorem execServoSource_limits (t : Instant) (q : QId) (s : State) : outLim s.limits (execServoSource t q s) = s.limits :=
    by unfold execServoSource; simp
@[simp] theorem cmdServoParams_limits (u_q : QId) (e : QEntry) (s : State) : (cmdServoParams u_q e s).limitsOr s.limits = s.limits :=
    by unfold cmdServoParams; simp only [checked]; (repeat' split) <;> simp
@[simp] theorem execServoParams_limits (t : Instant) (q : QId) (s : State) : outLim s.limits (execServoParams t q s) = s.limits :=
    by unfold execServoParams; simp
@[simp] theorem cmdServoParamsExpert_limits (u_q : QId) (e : QEntry) (s : State) : (cmdServoParamsExpert u_q e s).limitsOr s.limits = s.limits :=
    by
  unfold cmdServoParamsExpert checked; extract_lets m k rate w s1 s2 s3 s4 s5
  split
  · simp
  · split
    · simp
    · skip
      have hw : ∀ b n f s, (w b n f s).limits = s.limits := by intro b n f s; simp only [w]; split <;> simp
      have h4 : s4.limits = s.limits := by simp only [s4, s3, s2, s1, hw]
      have h5 : s5.limits = s.limits := by simp only [s5]; split <;> simp [h4]
      split <;> simp [h5]
@[simp] theorem execServoParamsExpert_limits (t : Instant) (q : QId) (s : State) : outLim s.limits (execServoParamsExpert t q s) = s.limits :=
    by unfold execServoParamsExpert; simp
@[simp] theorem cmdServoStatus_limits (u_q : QId) (e : QEntry) (s : State) : (cmdServoStatus u_q e s).limitsOr s.limits = s.limits :=
    by unfold cmdServoStatus; simp only [checked]; (repeat' split) <;> simp
@[simp] theorem execServoStatus_limits (t : Instant) (q : QId) (s : State) : outLim s.limits (execServoStatus t q s) = s.limits :=
    by unfold execServoStatus; simp
@[simp] theorem cmdTimerefConfig_limits (u_q : QId) (e : QEntry) (s : State) : (cmdTimerefConfig u_q e s).limitsOr s.limits = s.limits :=
    by unfold cmdTimerefConfig; simp only [checked]; (repeat' split) <;> simp
@[simp] theorem execTimerefConfig_limits (t : Instant) (q : QId) (s : State) : outLim s.limits (execTimerefConfig t q s) = s.limits :=
    by unfold execTimerefConfig; simp
@[simp] theorem cmdPpsInConfig_limits (u_q : QId) (e : QEntry) (s : State) : (cmdPpsInConfig u_q e s).limitsOr s.limits = s.limits :=
    by unfold cmdPpsInConfig; simp only [checked]; (repeat' split) <;> simp
@[simp] theorem execPpsInConfig_limits (t : Instant) (q : QId) (s : State) : outLim s.limits (execPpsInConfig t q s) = s.limits :=
    by unfold execPpsInConfig; simp
@[simp] theorem cmdPpsOutConfig_limits (u_q : QId) (e : QEntry) (s : State) : (cmdPpsOutConfig u_q e s).limitsOr s.limits = s.limits :=
    by unfold cmdPpsOutConfig; simp only [checked]; (repeat' split) <;> simp
@[simp] theorem execPpsOutConfig_limits (t : Instant) (q : QId) (s : State) : outLim s.limits (execPpsOutConfig t q s) = s.limits :=
    by unfold execPpsOutConfig; simp
@[simp] theorem cmdRefoutConfig_limits (u_q : QId) (e : QEntry) (s : State) : (cmdRefoutConfig u_q e s).limitsOr s.limits = s.limits :=
    by unfold cmdRefoutConfig; simp only [checked]; (repeat' split) <;> simp
@[simp] theorem execRefoutConfig_limits (t : Instant) (q : QId) (s : State) : outLim s.limits (execRefoutConfig t q s) = s.limits :=
    by unfold execRefoutConfig; simp
@[simp] theorem State.servoCommitted_limits (s : State) (old : ServoP) (source rateWord : Bool) : (State.servoCommitted s old source rateWord).limits = s.limits :=
    by unfold State.servoCommitted; (try dsimp only); (repeat' split) <;> simp
@[simp] theorem State.ppsCommitted_limits (s : State) (old : PpsP) (realign : Bool) : (State.ppsCommitted s old realign).limits = s.limits :=
    by unfold State.ppsCommitted; simp
@[simp] theorem State.undeliver_limits (s : State) (f : Frame) (reason : Nat) : (State.undeliver s f reason).limits = s.limits :=
    by unfold State.undeliver; simp
@[simp] theorem State.forward_limits (s : State) (f : Frame) (out : Fin 16) : (State.forward s f out).limits = s.limits :=
    by
  unfold State.forward; split
  · exact State.queueFrame_limits _ _ _ _ ‹_›
  · split <;> simp
@[simp] theorem State.markChild_limits (s : State) (p : Fin 16) (f : Frame) : (State.markChild s p f).limits = s.limits :=
    by unfold State.markChild; (try dsimp only); (repeat' split) <;> simp
@[simp] theorem State.acceptFrame_limits (s : State) (p : Fin 16) (f : Frame) : (State.acceptFrame s p f).limits = s.limits := by
  unfold State.acceptFrame; (try dsimp only); (repeat' split) <;> simp
@[simp] theorem execRillFrameReceive_limits (t : Instant) (p : Fin 16) (s : State) : outLim s.limits (execRillFrameReceive t p s) = s.limits :=
    by unfold execRillFrameReceive; dsimp only; (repeat' split) <;> simp
@[simp] theorem State.takeFrame_limits (s : State) (p : Fin 16) (mine : Frame → Bool) (act : Frame → State → State) (h : ∀ f s, (act f s).limits = s.limits) : (s.takeFrame p mine act).limits = s.limits := by
  unfold State.takeFrame; (repeat' split) <;> simp [h]
theorem State.takeFrame_locked (s : State) (p : Fin 16) (mine : Frame → Bool) (act : Frame → State → State) (hl : s.limits.locked = true) (h : ∀ f s, s.limits.locked = true → (act f s).limits = s.limits) : (s.takeFrame p mine act).limits = s.limits := by
  unfold State.takeFrame; (repeat' split) <;> simp [h, hl]
@[simp] theorem State.answerFrame_limits (s : State) (f : Frame) (ftype : Nat) (body : List Byte) : (State.answerFrame s f ftype body).limits = s.limits :=
    by unfold State.answerFrame; simp
@[simp] theorem State.nextXtag_limits (s : State) : (State.nextXtag s).2.limits = s.limits := by unfold State.nextXtag; simp
@[simp] theorem State.enqueueOwn_limits (s : State) (c : Fin 16) (f : Frame) : (State.enqueueOwn s c f).limits = s.limits :=
    by
  unfold State.enqueueOwn; split
  · simp
  · split
    · exact State.queueFrame_limits _ _ _ _ ‹_›
    · simp
theorem State.sendDown_limits (s : State) (hops route : Nat) (f : Frame) : ∀ x, (State.sendDown s hops route f) = some x → x.limits = s.limits :=
    by unfold State.sendDown; simp
@[simp] theorem State.sendAll_limits (s : State) (f : Frame) : (State.sendAll s f).limits = s.limits := by unfold State.sendAll; simp
@[simp] theorem State.drainOutbox_limits (s : State) : (State.drainOutbox s).limits = s.limits := by unfold State.drainOutbox; simp
@[simp] theorem takeCommand_limits (f : Frame) (s : State) : (takeCommand f s).limits = s.limits := by unfold takeCommand; (repeat' split) <;> simp
@[simp] theorem execRillCommand_limits (t : Instant) (p : Fin 16) (s : State) : outLim s.limits (execRillCommand t p s) = s.limits :=
    by unfold execRillCommand; simp
@[simp] theorem takeReply_limits (f : Frame) (s : State) : (takeReply f s).limits = s.limits := by unfold takeReply; (repeat' split) <;> simp
@[simp] theorem execRillReply_limits (t : Instant) (p : Fin 16) (s : State) : outLim s.limits (execRillReply t p s) = s.limits :=
    by unfold execRillReply; simp
@[simp] theorem takeEvent_limits (f : Frame) (s : State) : (takeEvent f s).limits = s.limits := by unfold takeEvent; simp
@[simp] theorem execRillEvent_limits (t : Instant) (p : Fin 16) (s : State) : outLim s.limits (execRillEvent t p s) = s.limits :=
    by unfold execRillEvent; simp
@[simp] theorem execProbe_limits (t : Instant) (p : Fin 16) (s : State) : outLim s.limits (execProbe t p s) = s.limits := by unfold execProbe; simp
@[simp] theorem takeAssign_limits (p : Fin 16) (f : Frame) (s : State) : (takeAssign p f s).limits = s.limits := by unfold takeAssign; simp
@[simp] theorem execAssign_limits (t : Instant) (p : Fin 16) (s : State) : outLim s.limits (execAssign t p s) = s.limits := by unfold execAssign; simp
@[simp] theorem cmdRoleSet_limits (u_q : QId) (e : QEntry) (s : State) : (cmdRoleSet u_q e s).limitsOr s.limits = s.limits :=
    by unfold cmdRoleSet; simp only [checked]; (repeat' split) <;> simp
@[simp] theorem execRoleSet_limits (t : Instant) (q : QId) (s : State) : outLim s.limits (execRoleSet t q s) = s.limits := by unfold execRoleSet; simp
@[simp] theorem cmdHierStatus_limits (u_q : QId) (e : QEntry) (s : State) : (cmdHierStatus u_q e s).limitsOr s.limits = s.limits :=
    by unfold cmdHierStatus; simp only [checked]; (repeat' split) <;> simp
@[simp] theorem execHierStatus_limits (t : Instant) (q : QId) (s : State) : outLim s.limits (execHierStatus t q s) = s.limits :=
    by unfold execHierStatus; simp
@[simp] theorem cmdRillConfig_limits (u_q : QId) (e : QEntry) (s : State) : (cmdRillConfig u_q e s).limitsOr s.limits = s.limits :=
    by unfold cmdRillConfig; simp only [checked]; (repeat' split) <;> simp
@[simp] theorem execRillConfig_limits (t : Instant) (q : QId) (s : State) : outLim s.limits (execRillConfig t q s) = s.limits :=
    by unfold execRillConfig; simp
@[simp] theorem cmdRillConfigExpert_limits (u_q : QId) (e : QEntry) (s : State) : (cmdRillConfigExpert u_q e s).limitsOr s.limits = s.limits :=
    by unfold cmdRillConfigExpert; simp only [checked]; (repeat' split) <;> simp
@[simp] theorem execRillConfigExpert_limits (t : Instant) (q : QId) (s : State) : outLim s.limits (execRillConfigExpert t q s) = s.limits :=
    by unfold execRillConfigExpert; simp
@[simp] theorem State.roleCommitted_limits (s : State) (old : RillP) : (State.roleCommitted s old).limits = s.limits :=
    by unfold State.roleCommitted; simp
@[simp] theorem State.modDisc_limits (s : State) (f : Discovery → Discovery) : (State.modDisc s f).limits = s.limits := by unfold State.modDisc; simp
@[simp] theorem State.probeLinks_limits (s : State) (y0 : Nat) : (State.probeLinks s y0).limits = s.limits :=
    by
  induction y0 generalizing s with
  | zero => rfl
  | succ k ih => unfold State.probeLinks; (try dsimp only); (repeat' split) <;> simp only [ih] <;> first | (simp; done) | (simp [State.sendDown_limits _ _ _ _ _ ‹State.sendDown _ _ _ _ = some _›]; done)
@[simp] theorem State.discoverOn_limits (s : State) (y0 : Nat) : (State.discoverOn s y0).limits = s.limits :=
    by
  induction y0 generalizing s with
  | zero => rfl
  | succ k ih => unfold State.discoverOn; (try dsimp only); (repeat' split) <;> simp [ih]
@[simp] theorem cmdDiscover_limits (u_q : QId) (e : QEntry) (s : State) : (cmdDiscover u_q e s).limitsOr s.limits = s.limits :=
    by unfold cmdDiscover; simp only [checked]; (repeat' split) <;> simp
@[simp] theorem execDiscover_limits (t : Instant) (q : QId) (s : State) : outLim s.limits (execDiscover t q s) = s.limits :=
    by unfold execDiscover; simp
@[simp] theorem State.recordDevice_limits (s : State) (serial route hops role : Nat) (id : Option Nat) : (State.recordDevice s serial route hops role id).limits = s.limits :=
    by unfold State.recordDevice; simp
@[simp] theorem State.autoAssign_limits (s : State) (serial route hops : Nat) : (State.autoAssign s serial route hops).limits = s.limits :=
    by unfold State.autoAssign; (try simp only [checked]); (try dsimp only); (repeat' split) <;> first | (simp; done) | simp [State.sendDown_limits _ _ _ _ _ ‹State.sendDown _ _ _ _ = some _›]
@[simp] theorem takeProbeAnswer_limits (f : Frame) (s : State) : (takeProbeAnswer f s).limits = s.limits :=
    by unfold takeProbeAnswer; (repeat' split) <;> simp
@[simp] theorem execProbeAnswer_limits (t : Instant) (p : Fin 16) (s : State) : outLim s.limits (execProbeAnswer t p s) = s.limits :=
    by unfold execProbeAnswer; simp
@[simp] theorem execProbeTimeout_limits (t : Instant) (s : State) : outLim s.limits (execProbeTimeout t s) = s.limits :=
    by unfold execProbeTimeout; simp
@[simp] theorem cmdWorkerAssign_limits (u_q : QId) (e : QEntry) (s : State) : (cmdWorkerAssign u_q e s).limitsOr s.limits = s.limits :=
    by unfold cmdWorkerAssign; (try simp only [checked]); (try dsimp only); (repeat' split) <;> first | (simp; done) | simp [State.sendDown_limits _ _ _ _ _ ‹State.sendDown _ _ _ _ = some _›]
@[simp] theorem execWorkerAssign_limits (t : Instant) (q : QId) (s : State) : outLim s.limits (execWorkerAssign t q s) = s.limits :=
    by unfold execWorkerAssign; simp
@[simp] theorem State.giveId_limits (s : State) (serial id : Nat) : (State.giveId s serial id).limits = s.limits :=
    by unfold State.giveId; (try dsimp only); (repeat' split) <;> simp
@[simp] theorem State.recordId_limits (s : State) (id hops route : Nat) : (State.recordId s id hops route).limits = s.limits := by unfold State.recordId; (repeat' split) <;> simp
@[simp] theorem takeAssignAnswer_limits (f : Frame) (s : State) : (takeAssignAnswer f s).limits = s.limits :=
    by unfold takeAssignAnswer; dsimp only; (repeat' split) <;> simp
@[simp] theorem execAssignAnswer_limits (t : Instant) (p : Fin 16) (s : State) : outLim s.limits (execAssignAnswer t p s) = s.limits :=
    by unfold execAssignAnswer; simp
@[simp] theorem cmdWorkerList_limits (u_q : QId) (e : QEntry) (s : State) : (cmdWorkerList u_q e s).limitsOr s.limits = s.limits :=
    by unfold cmdWorkerList; simp only [checked]; (repeat' split) <;> simp
@[simp] theorem execWorkerList_limits (t : Instant) (q : QId) (s : State) : outLim s.limits (execWorkerList t q s) = s.limits :=
    by unfold execWorkerList; simp
@[simp] theorem cmdTunnel_limits (u_q : QId) (e : QEntry) (s : State) : (cmdTunnel u_q e s).limitsOr s.limits = s.limits :=
    by unfold cmdTunnel; (try simp only [checked]); (try dsimp only); (repeat' split) <;> first | (simp; done) | simp [State.sendDown_limits _ _ _ _ _ ‹State.sendDown _ _ _ _ = some _›]
@[simp] theorem execTunnel_limits (t : Instant) (q : QId) (s : State) : outLim s.limits (execTunnel t q s) = s.limits := by unfold execTunnel; simp
@[simp] theorem execTunnelTimeout_limits (t : Instant) (s : State) : outLim s.limits (execTunnelTimeout t s) = s.limits :=
    by unfold execTunnelTimeout; simp
@[simp] theorem State.modEpoch_limits (s : State) (id : Nat) (f : EpochRecord → EpochRecord) : (State.modEpoch s id f).limits = s.limits :=
    by unfold State.modEpoch; simp
@[simp] theorem State.sendEpoch_limits (s : State) (id op w : Nat) (body : List Byte) : (State.sendEpoch s id op w body).limits = s.limits :=
    by unfold State.sendEpoch; (try simp only [checked]); (try dsimp only); (repeat' split) <;> first | (simp; done) | simp [State.sendDown_limits _ _ _ _ _ ‹State.sendDown _ _ _ _ = some _›]
@[simp] theorem State.castEpoch_limits (s : State) (id op : Nat) (time : FTime) : (State.castEpoch s id op time).limits = s.limits :=
    by unfold State.castEpoch; simp
@[simp] theorem State.epochResult_limits (s : State) (r : EpochRecord) (revert : Bool) : (State.epochResult s r revert).limits = s.limits :=
    by unfold State.epochResult; simp
@[simp] theorem State.epochOn_limits (s : State) (id : Nat) : (State.epochOn s id).limits = s.limits :=
    by unfold State.epochOn; (repeat' split) <;> simp
@[simp] theorem takeEpochAnswer_limits (f : Frame) (s : State) : (takeEpochAnswer f s).limits = s.limits := by unfold takeEpochAnswer; simp
@[simp] theorem execEpochAnswer_limits (t : Instant) (p : Fin 16) (s : State) : outLim s.limits (execEpochAnswer t p s) = s.limits :=
    by unfold execEpochAnswer; simp
@[simp] theorem cmdEpochStage_limits (u_q : QId) (e : QEntry) (s : State) : (cmdEpochStage u_q e s).limitsOr s.limits = s.limits :=
    by unfold cmdEpochStage; simp only [checked]; (repeat' split) <;> simp
@[simp] theorem execEpochStage_limits (t : Instant) (q : QId) (s : State) : outLim s.limits (execEpochStage t q s) = s.limits :=
    by unfold execEpochStage; simp
@[simp] theorem cmdEpochCommit_limits (u_q : QId) (e : QEntry) (s : State) : (cmdEpochCommit u_q e s).limitsOr s.limits = s.limits :=
    by unfold cmdEpochCommit; simp only [checked]; (repeat' split) <;> simp
@[simp] theorem execEpochCommit_limits (t : Instant) (q : QId) (s : State) : outLim s.limits (execEpochCommit t q s) = s.limits :=
    by unfold execEpochCommit; simp
@[simp] theorem cmdAbortEpoch_limits (u_q : QId) (e : QEntry) (s : State) : (cmdAbortEpoch u_q e s).limitsOr s.limits = s.limits :=
    by unfold cmdAbortEpoch; simp only [checked]; (repeat' split) <;> simp
@[simp] theorem execAbortEpoch_limits (t : Instant) (q : QId) (s : State) : outLim s.limits (execAbortEpoch t q s) = s.limits :=
    by unfold execAbortEpoch; simp
@[simp] theorem cmdRevertEpoch_limits (u_q : QId) (e : QEntry) (s : State) : (cmdRevertEpoch u_q e s).limitsOr s.limits = s.limits :=
    by unfold cmdRevertEpoch; simp only [checked]; (repeat' split) <;> simp
@[simp] theorem execRevertEpoch_limits (t : Instant) (q : QId) (s : State) : outLim s.limits (execRevertEpoch t q s) = s.limits :=
    by unfold execRevertEpoch; simp
@[simp] theorem cmdEpochStatus_limits (u_q : QId) (e : QEntry) (s : State) : (cmdEpochStatus u_q e s).limitsOr s.limits = s.limits :=
    by unfold cmdEpochStatus; simp only [checked]; (repeat' split) <;> simp
@[simp] theorem execEpochStatus_limits (t : Instant) (q : QId) (s : State) : outLim s.limits (execEpochStatus t q s) = s.limits :=
    by unfold execEpochStatus; simp
@[simp] theorem execEpochResend_limits (t : Instant) (id : Nat) (s : State) : outLim s.limits (execEpochResend t id s) = s.limits :=
    by unfold execEpochResend; dsimp only; (repeat' split) <;> simp
@[simp] theorem execEpochCommandDeadline_limits (t : Instant) (id : Nat) (s : State) : outLim s.limits (execEpochCommandDeadline t id s) = s.limits :=
    by unfold execEpochCommandDeadline; dsimp only; (repeat' split) <;> simp
@[simp] theorem execEpochResultTimeout_limits (t : Instant) (id : Nat) (s : State) : outLim s.limits (execEpochResultTimeout t id s) = s.limits :=
    by unfold execEpochResultTimeout; dsimp only; (repeat' split) <;> simp
@[simp] theorem State.epochLost_limits (s : State) (id op w : Nat) : (State.epochLost s id op w).limits = s.limits := by unfold State.epochLost; simp
@[simp] theorem cmdChannelSource_limits (u_q : QId) (e : QEntry) (s : State) : (cmdChannelSource u_q e s).limitsOr s.limits = s.limits :=
    by unfold cmdChannelSource; simp only [checked]; (repeat' split) <;> simp
@[simp] theorem execChannelSource_limits (t : Instant) (q : QId) (s : State) : outLim s.limits (execChannelSource t q s) = s.limits :=
    by unfold execChannelSource; simp
@[simp] theorem cmdDecimatorConfig_limits (u_q : QId) (e : QEntry) (s : State) : (cmdDecimatorConfig u_q e s).limitsOr s.limits = s.limits :=
    by unfold cmdDecimatorConfig; simp only [checked]; (repeat' split) <;> simp
@[simp] theorem execDecimatorConfig_limits (t : Instant) (q : QId) (s : State) : outLim s.limits (execDecimatorConfig t q s) = s.limits :=
    by unfold execDecimatorConfig; simp
@[simp] theorem cmdDecimatorConfigExpert_limits (u_q : QId) (e : QEntry) (s : State) : (cmdDecimatorConfigExpert u_q e s).limitsOr s.limits = s.limits :=
    by unfold cmdDecimatorConfigExpert; simp only [checked]; (repeat' split) <;> simp
@[simp] theorem execDecimatorConfigExpert_limits (t : Instant) (q : QId) (s : State) : outLim s.limits (execDecimatorConfigExpert t q s) = s.limits :=
    by unfold execDecimatorConfigExpert; simp
@[simp] theorem State.modBank_limits (s : State) (d : Fin 4) (f : FilterBank → FilterBank) : (State.modBank s d f).limits = s.limits :=
    by unfold State.modBank; simp
@[simp] theorem cmdFilterLoad_limits (u_q : QId) (e : QEntry) (s : State) : (cmdFilterLoad u_q e s).limitsOr s.limits = s.limits :=
    by unfold cmdFilterLoad; simp only [checked]; (repeat' split) <;> simp
@[simp] theorem execFilterLoad_limits (t : Instant) (q : QId) (s : State) : outLim s.limits (execFilterLoad t q s) = s.limits :=
    by unfold execFilterLoad; simp
@[simp] theorem cmdFilterLoadExpert_limits (u_q : QId) (e : QEntry) (s : State) : (cmdFilterLoadExpert u_q e s).limitsOr s.limits = s.limits :=
    by unfold cmdFilterLoadExpert; simp only [checked]; (repeat' split) <;> simp
@[simp] theorem execFilterLoadExpert_limits (t : Instant) (q : QId) (s : State) : outLim s.limits (execFilterLoadExpert t q s) = s.limits :=
    by unfold execFilterLoadExpert; simp
@[simp] theorem cmdMinmaxConfig_limits (u_q : QId) (e : QEntry) (s : State) : (cmdMinmaxConfig u_q e s).limitsOr s.limits = s.limits :=
    by unfold cmdMinmaxConfig; simp only [checked]; (repeat' split) <;> simp
@[simp] theorem execMinmaxConfig_limits (t : Instant) (q : QId) (s : State) : outLim s.limits (execMinmaxConfig t q s) = s.limits :=
    by unfold execMinmaxConfig; simp
@[simp] theorem cmdRecordConfig_limits (u_q : QId) (e : QEntry) (s : State) : (cmdRecordConfig u_q e s).limitsOr s.limits = s.limits :=
    by unfold cmdRecordConfig; simp only [checked]; (repeat' split) <;> simp
@[simp] theorem execRecordConfig_limits (t : Instant) (q : QId) (s : State) : outLim s.limits (execRecordConfig t q s) = s.limits :=
    by unfold execRecordConfig; simp
@[simp] theorem cmdTriggerConfig_limits (u_q : QId) (e : QEntry) (s : State) : (cmdTriggerConfig u_q e s).limitsOr s.limits = s.limits :=
    by unfold cmdTriggerConfig; simp only [checked]; (repeat' split) <;> simp
@[simp] theorem execTriggerConfig_limits (t : Instant) (q : QId) (s : State) : outLim s.limits (execTriggerConfig t q s) = s.limits :=
    by unfold execTriggerConfig; simp
@[simp] theorem cmdTriggerConfigExpert_limits (u_q : QId) (e : QEntry) (s : State) : (cmdTriggerConfigExpert u_q e s).limitsOr s.limits = s.limits :=
    by unfold cmdTriggerConfigExpert; simp only [checked]; (repeat' split) <;> simp
@[simp] theorem execTriggerConfigExpert_limits (t : Instant) (q : QId) (s : State) : outLim s.limits (execTriggerConfigExpert t q s) = s.limits :=
    by unfold execTriggerConfigExpert; simp
@[simp] theorem cmdTriggerCombine_limits (u_q : QId) (e : QEntry) (s : State) : (cmdTriggerCombine u_q e s).limitsOr s.limits = s.limits :=
    by unfold cmdTriggerCombine; simp only [checked]; (repeat' split) <;> simp
@[simp] theorem execTriggerCombine_limits (t : Instant) (q : QId) (s : State) : outLim s.limits (execTriggerCombine t q s) = s.limits :=
    by unfold execTriggerCombine; simp
@[simp] theorem State.saturate_limits (s : State) (src : Nat) (xs : List SrcSample) : (State.saturate s src xs).limits = s.limits :=
    by unfold State.saturate; (try dsimp only); (repeat' split) <;> simp
@[simp] theorem State.commitBlock_limits (s : State) (b : Block) (snap : Bank) (stamp : Stamp) : (State.commitBlock s b snap stamp).limits = s.limits :=
    by unfold State.commitBlock; simp
@[simp] theorem State.exchangeBlock_limits (s : State) (b : Block) (stamp : Stamp) : (State.exchangeBlock s b stamp).limits = s.limits :=
    by unfold State.exchangeBlock; simp
@[simp] theorem State.clearMarks_limits (s : State) (b : Block) : (State.clearMarks s b).limits = s.limits := by unfold State.clearMarks; simp
@[simp] theorem State.fire_limits (s : State) (n : Fin 4) (stamp : Stamp) : (State.fire s n stamp).limits = s.limits := by unfold State.fire; simp
@[simp] theorem State.feedUnit_limits (s : State) (n : Fin 4) (interp : Bool) (x : FTime × Int × Bool) : (State.feedUnit s n interp x).limits = s.limits :=
    by unfold State.feedUnit; (try dsimp only); (repeat' split) <;> simp
@[simp] theorem execTriggerFiring_limits (t : Instant) (n : Fin 4) (samples : List SrcSample) (s : State) : outLim s.limits (execTriggerFiring t n samples s) = s.limits :=
    by unfold execTriggerFiring; (try dsimp only); (repeat' split) <;> simp
@[simp] theorem execTriggerTimeoutFire_limits (t : Instant) (n : Fin 4) (s : State) : outLim s.limits (execTriggerTimeoutFire t n s) = s.limits :=
    by unfold execTriggerTimeoutFire; dsimp only; (repeat' split) <;> simp
@[simp] theorem State.trigPulse_limits (s : State) : (State.trigPulse s).limits = s.limits :=
    by unfold State.trigPulse; (try dsimp only); (repeat' split) <;> simp
@[simp] theorem State.recordTrigger_limits (s : State) (stamp : Stamp) (cause primary : Nat) (forced : Bool) : (State.recordTrigger s stamp cause primary forced).1.limits = s.limits :=
    by unfold State.recordTrigger; dsimp only; (repeat' split) <;> simp
@[simp] theorem execTriggerDecision_limits (t : Instant) (s : State) : outLim s.limits (execTriggerDecision t s) = s.limits :=
    by unfold execTriggerDecision; dsimp only; (repeat' split) <;> simp
@[simp] theorem cmdForceTrigger_limits (u_q : QId) (e : QEntry) (s : State) : (cmdForceTrigger u_q e s).limitsOr s.limits = s.limits :=
    by unfold cmdForceTrigger; simp only [checked]; (repeat' split) <;> simp
@[simp] theorem execForceTrigger_limits (t : Instant) (q : QId) (s : State) : outLim s.limits (execForceTrigger t q s) = s.limits :=
    by unfold execForceTrigger; simp
@[simp] theorem State.dropForced_limits (s : State) : (State.dropForced s).limits = s.limits :=
    by unfold State.dropForced; (try dsimp only); (repeat' split) <;> simp
@[simp] theorem State.disarmNow_limits (s : State) (cause : Nat) (cmds : List Nat) : (State.disarmNow s cause cmds).limits = s.limits :=
    by unfold State.disarmNow; simp
@[simp] theorem State.disarm_limits (s : State) (cause : Nat) (cmds : List Nat) : (State.disarm s cause cmds).limits = s.limits :=
    by unfold State.disarm; (repeat' split) <;> simp
@[simp] theorem cmdDisarm_limits (u_q : QId) (e : QEntry) (s : State) : (cmdDisarm u_q e s).limitsOr s.limits = s.limits :=
    by unfold cmdDisarm; simp only [checked]; (repeat' split) <;> simp
@[simp] theorem execDisarm_limits (t : Instant) (q : QId) (s : State) : outLim s.limits (execDisarm t q s) = s.limits := by unfold execDisarm; simp
@[simp] theorem execRecordComplete_limits (t : Instant) (data : List Captured) (s : State) : outLim s.limits (execRecordComplete t data s) = s.limits :=
    by unfold execRecordComplete; (try dsimp only); (repeat' split) <;> simp
@[simp] theorem State.overwrite_limits (s : State) (gone : List Nat) : (State.overwrite s gone).limits = s.limits := rfl
@[simp] theorem execRearm_limits (t : Instant) (s : State) : outLim s.limits (execRearm t s) = s.limits :=
    by unfold execRearm; dsimp only; (repeat' split) <;> simp
@[simp] theorem State.freeRecord_limits (s : State) (index : Nat) : (State.freeRecord s index).limits = s.limits :=
    by unfold State.freeRecord; (try dsimp only); (repeat' split) <;> simp
@[simp] theorem cmdRecordRead_limits (u_q : QId) (e : QEntry) (s : State) : (cmdRecordRead u_q e s).limitsOr s.limits = s.limits :=
    by unfold cmdRecordRead; simp only [checked]; (repeat' split) <;> simp
@[simp] theorem execRecordRead_limits (t : Instant) (q : QId) (s : State) : outLim s.limits (execRecordRead t q s) = s.limits :=
    by unfold execRecordRead; simp
@[simp] theorem cmdAcqStatus_limits (u_q : QId) (e : QEntry) (s : State) : (cmdAcqStatus u_q e s).limitsOr s.limits = s.limits :=
    by unfold cmdAcqStatus; simp only [checked]; (repeat' split) <;> simp
@[simp] theorem execAcqStatus_limits (t : Instant) (q : QId) (s : State) : outLim s.limits (execAcqStatus t q s) = s.limits :=
    by unfold execAcqStatus; simp
@[simp] theorem State.trimCarriage_limits (s : State) : (State.trimCarriage s).limits = s.limits := rfl
@[simp] theorem State.unpinTable_limits (s : State) (p : Block × Nat × Nat) : (State.unpinTable s p).limits = s.limits :=
    by unfold State.unpinTable; (try dsimp only); (repeat' split) <;> simp
@[simp] theorem State.releaseDue_limits (s : State) (b : Block) : (State.releaseDue s b).limits = s.limits := by unfold State.releaseDue; simp
@[simp] theorem State.commitShadow_limits (s : State) (b : Block) (stamp : Stamp) : (State.commitShadow s b stamp).limits = s.limits :=
    by unfold State.commitShadow; (try dsimp only); (repeat' split) <;> simp
@[simp] theorem State.armNow_limits (s : State) : (State.armNow s).limits = s.limits :=
    by unfold State.armNow; (try dsimp only); (repeat' split) <;> first | (simp; done) | (simp; (repeat rw [forEach_limits]) <;> intros <;> (repeat' split) <;> simp)
@[simp] theorem cmdArm_limits (u_q : QId) (e : QEntry) (s : State) : (cmdArm u_q e s).limitsOr s.limits = s.limits :=
    by unfold cmdArm; simp only [checked]; (repeat' split) <;> simp
@[simp] theorem execArm_limits (t : Instant) (q : QId) (s : State) : outLim s.limits (execArm t q s) = s.limits := by unfold execArm; simp
@[simp] theorem State.modSpw_limits (s : State) (f : Spillway → Spillway) : (State.modSpw s f).limits = s.limits := by unfold State.modSpw; simp
@[simp] theorem State.sendUnit_limits (s : State) (kind channel : Nat) (short : Bool) (payload : List Byte) (stamp : Stamp) (ecc : Bool) (pos : List Byte) : (State.sendUnit s kind channel short payload stamp ecc pos).limits = s.limits :=
    by unfold State.sendUnit; simp
@[simp] theorem State.sendEnd_limits (s : State) : (State.sendEnd s).limits = s.limits := by unfold State.sendEnd; simp
@[simp] theorem State.spwOff_limits (s : State) (cause : Nat) : (State.spwOff s cause).limits = s.limits := by unfold State.spwOff; simp
@[simp] theorem State.spwCut_limits (s : State) (cause : Nat) : (State.spwCut s cause).limits = s.limits := by unfold State.spwCut; simp
@[simp] theorem State.ringFull_limits (s : State) : (State.ringFull s).limits = s.limits := by unfold State.ringFull; simp
@[simp] theorem cmdSpillwayConfig_limits (u_q : QId) (e : QEntry) (s : State) : (cmdSpillwayConfig u_q e s).limitsOr s.limits = s.limits :=
    by unfold cmdSpillwayConfig; simp only [checked]; (repeat' split) <;> simp
@[simp] theorem execSpillwayConfig_limits (t : Instant) (q : QId) (s : State) : outLim s.limits (execSpillwayConfig t q s) = s.limits :=
    by unfold execSpillwayConfig; simp
@[simp] theorem cmdSpillwayStart_limits (u_q : QId) (e : QEntry) (s : State) : (cmdSpillwayStart u_q e s).limitsOr s.limits = s.limits :=
    by unfold cmdSpillwayStart; simp only [checked]; (repeat' split) <;> simp
@[simp] theorem execSpillwayStart_limits (t : Instant) (q : QId) (s : State) : outLim s.limits (execSpillwayStart t q s) = s.limits :=
    by unfold execSpillwayStart; simp
@[simp] theorem execSpillwayStartComplete_limits (t : Instant) (s : State) : outLim s.limits (execSpillwayStartComplete t s) = s.limits :=
    by unfold execSpillwayStartComplete; dsimp only; (repeat' split) <;> simp
@[simp] theorem cmdSpillwayStop_limits (u_q : QId) (e : QEntry) (s : State) : (cmdSpillwayStop u_q e s).limitsOr s.limits = s.limits :=
    by unfold cmdSpillwayStop; simp only [checked]; (repeat' split) <;> simp
@[simp] theorem execSpillwayStop_limits (t : Instant) (q : QId) (s : State) : outLim s.limits (execSpillwayStop t q s) = s.limits :=
    by unfold execSpillwayStop; simp
@[simp] theorem cmdSpillwayStatus_limits (u_q : QId) (e : QEntry) (s : State) : (cmdSpillwayStatus u_q e s).limitsOr s.limits = s.limits :=
    by unfold cmdSpillwayStatus; simp only [checked]; (repeat' split) <;> simp
@[simp] theorem execSpillwayStatus_limits (t : Instant) (q : QId) (s : State) : outLim s.limits (execSpillwayStatus t q s) = s.limits :=
    by unfold execSpillwayStatus; simp
@[simp] theorem State.sendStream_limits (s : State) (u : Captured) : (State.sendStream s u).limits = s.limits := by unfold State.sendStream; simp
@[simp] theorem State.sendDrain_limits (s : State) : (State.sendDrain s).limits = s.limits := by unfold State.sendDrain; (repeat' split) <;> simp
@[simp] theorem execSpillwayUnitSend_limits (t : Instant) (u : Option Captured) (s : State) : outLim s.limits (execSpillwayUnitSend t u s) = s.limits :=
    by unfold execSpillwayUnitSend; dsimp only; (repeat' split) <;> simp
@[simp] theorem execSpwFaultStop_limits (t : Instant) (high : Bool) (since : Nat) (s : State) : outLim s.limits (execSpwFaultStop t high since s) = s.limits :=
    by unfold execSpwFaultStop; (try dsimp only); (repeat' split) <;> simp
@[simp] theorem State.modConv_limits (s : State) (g : Fin 4) (f : GaugeConv → GaugeConv) : (State.modConv s g f).limits = s.limits :=
    by unfold State.modConv; simp
@[simp] theorem State.endPass_limits (s : State) (g : Fin 4) : (State.endPass s g).limits = s.limits :=
    by unfold State.endPass; (try dsimp only); (repeat' split) <;> simp
@[simp] theorem State.converterNext_limits (s : State) (g : Fin 4) (at' : Instant) : (State.converterNext s g at').limits = s.limits :=
    by unfold State.converterNext; dsimp only; (repeat' split) <;> simp
@[simp] theorem cmdGaugeSequence_limits (u_q : QId) (e : QEntry) (s : State) : (cmdGaugeSequence u_q e s).limitsOr s.limits = s.limits :=
    by unfold cmdGaugeSequence; simp only [checked]; (repeat' split) <;> simp
@[simp] theorem execGaugeSequence_limits (t : Instant) (q : QId) (s : State) : outLim s.limits (execGaugeSequence t q s) = s.limits :=
    by unfold execGaugeSequence; simp
@[simp] theorem cmdGaugeSequenceExpert_limits (u_q : QId) (e : QEntry) (s : State) : (cmdGaugeSequenceExpert u_q e s).limitsOr s.limits = s.limits :=
    by unfold cmdGaugeSequenceExpert; simp only [checked]; (repeat' split) <;> simp
@[simp] theorem execGaugeSequenceExpert_limits (t : Instant) (q : QId) (s : State) : outLim s.limits (execGaugeSequenceExpert t q s) = s.limits :=
    by unfold execGaugeSequenceExpert; simp
@[simp] theorem State.afterSlice_limits (s : State) (g : Fin 4) : (State.afterSlice s g).2.limits = s.limits :=
    by unfold State.afterSlice; (try dsimp only); (repeat' split) <;> simp
@[simp] theorem cmdGaugeInject_limits (u_q : QId) (e : QEntry) (s : State) : (cmdGaugeInject u_q e s).limitsOr s.limits = s.limits :=
    by unfold cmdGaugeInject; simp only [checked]; (repeat' split) <;> simp
@[simp] theorem execGaugeInject_limits (t : Instant) (q : QId) (s : State) : outLim s.limits (execGaugeInject t q s) = s.limits :=
    by unfold execGaugeInject; simp
@[simp] theorem cmdGaugeRun_limits (u_q : QId) (e : QEntry) (s : State) : (cmdGaugeRun u_q e s).limitsOr s.limits = s.limits :=
    by unfold cmdGaugeRun; simp only [checked]; (repeat' split) <;> simp
@[simp] theorem execGaugeRun_limits (t : Instant) (q : QId) (s : State) : outLim s.limits (execGaugeRun t q s) = s.limits :=
    by unfold execGaugeRun; simp
@[simp] theorem cmdGaugeRead_limits (u_q : QId) (e : QEntry) (s : State) : (cmdGaugeRead u_q e s).limitsOr s.limits = s.limits :=
    by unfold cmdGaugeRead; simp only [checked]; (repeat' split) <;> simp
@[simp] theorem execGaugeRead_limits (t : Instant) (q : QId) (s : State) : outLim s.limits (execGaugeRead t q s) = s.limits :=
    by unfold execGaugeRead; simp
@[simp] theorem State.modJets_limits (s : State) (j : Fin 24) (f : JetsChan → JetsChan) : (State.modJets s j f).limits = s.limits :=
    by unfold State.modJets; simp
@[simp] theorem State.parkJets_limits (s : State) : (State.parkJets s).limits = s.limits := by unfold State.parkJets; simp
@[simp] theorem cmdJetsConfig_limits (u_q : QId) (e : QEntry) (s : State) : (cmdJetsConfig u_q e s).limitsOr s.limits = s.limits :=
    by unfold cmdJetsConfig; simp only [checked]; (repeat' split) <;> simp
@[simp] theorem execJetsConfig_limits (t : Instant) (q : QId) (s : State) : outLim s.limits (execJetsConfig t q s) = s.limits :=
    by unfold execJetsConfig; simp
@[simp] theorem cmdJetsQueue_limits (u_q : QId) (e : QEntry) (s : State) : (cmdJetsQueue u_q e s).limitsOr s.limits = s.limits :=
    by unfold cmdJetsQueue; simp only [checked]; (repeat' split) <;> simp
@[simp] theorem execJetsQueue_limits (t : Instant) (q : QId) (s : State) : outLim s.limits (execJetsQueue t q s) = s.limits :=
    by unfold execJetsQueue; simp
@[simp] theorem cmdJetsEnable_limits (u_q : QId) (e : QEntry) (s : State) : (cmdJetsEnable u_q e s).limitsOr s.limits = s.limits :=
    by unfold cmdJetsEnable; simp only [checked]; (repeat' split) <;> first | (simp; done) | (simp only [Res.limitsOr_ok, Res.limitsOr_clamped]; (repeat rw [forEach_limits]) <;> intros <;> simp)
@[simp] theorem execJetsEnable_limits (t : Instant) (q : QId) (s : State) : outLim s.limits (execJetsEnable t q s) = s.limits :=
    by unfold execJetsEnable; simp
@[simp] theorem State.modPwm_limits (s : State) (n : Fin 8) (f : PwmUnit → PwmUnit) : (State.modPwm s n f).limits = s.limits :=
    by unfold State.modPwm; simp
@[simp] theorem State.modTimer_limits (s : State) (n : Fin 4) (f : TimerUnit → TimerUnit) : (State.modTimer s n f).limits = s.limits :=
    by unfold State.modTimer; simp
@[simp] theorem State.trigger_limits (s : State) (code : Nat) (at' : Instant) : (State.trigger s code at').limits = s.limits :=
    by unfold State.trigger; simp
@[simp] theorem State.startPeriod_limits (s : State) (n : Fin 8) (at' : Instant) : (State.startPeriod s n at').limits = s.limits :=
    by unfold State.startPeriod; simp
@[simp] theorem State.tickUsers_limits (s : State) (n : Fin 4) (at' : Instant) : (State.tickUsers s n at').limits = s.limits :=
    by unfold State.tickUsers; simp
@[simp] theorem State.pwmClamp_limits (s : State) (n : Fin 8) : (State.pwmClamp s n).1.limits = s.limits :=
    by unfold State.pwmClamp; dsimp only; (repeat' split) <;> simp
@[simp] theorem State.pwmDone_limits (s : State) (n : Fin 8) (l : Limits) : ((s.pwmDone n).limitsOr l = l) = (s.limits = l) := by unfold State.pwmDone; dsimp only; split <;> simp
@[simp] theorem cmdPwmConfig_limits (u_q : QId) (e : QEntry) (s : State) : (cmdPwmConfig u_q e s).limitsOr s.limits = s.limits :=
    by unfold cmdPwmConfig; simp only [checked]; (repeat' split) <;> simp
@[simp] theorem execPwmConfig_limits (t : Instant) (q : QId) (s : State) : outLim s.limits (execPwmConfig t q s) = s.limits :=
    by unfold execPwmConfig; simp
@[simp] theorem cmdPwmConfigExpert_limits (u_q : QId) (e : QEntry) (s : State) : (cmdPwmConfigExpert u_q e s).limitsOr s.limits = s.limits :=
    by unfold cmdPwmConfigExpert; simp only [checked]; (repeat' split) <;> simp
@[simp] theorem execPwmConfigExpert_limits (t : Instant) (q : QId) (s : State) : outLim s.limits (execPwmConfigExpert t q s) = s.limits :=
    by unfold execPwmConfigExpert; simp
@[simp] theorem cmdTimerConfig_limits (u_q : QId) (e : QEntry) (s : State) : (cmdTimerConfig u_q e s).limitsOr s.limits = s.limits :=
    by unfold cmdTimerConfig; simp only [checked]; (repeat' split) <;> simp
@[simp] theorem execTimerConfig_limits (t : Instant) (q : QId) (s : State) : outLim s.limits (execTimerConfig t q s) = s.limits :=
    by unfold execTimerConfig; simp
@[simp] theorem State.refreshGauge_limits (s : State) : (State.refreshGauge s).limits = s.limits := by unfold State.refreshGauge; simp
@[simp] theorem cmdHkCalibrateExpert_limits (u_q : QId) (e : QEntry) (s : State) : (cmdHkCalibrateExpert u_q e s).limitsOr s.limits = s.limits :=
    by unfold cmdHkCalibrateExpert; simp only [checked]; (repeat' split) <;> simp
@[simp] theorem execHkCalibrateExpert_limits (t : Instant) (q : QId) (s : State) : outLim s.limits (execHkCalibrateExpert t q s) = s.limits :=
    by unfold execHkCalibrateExpert; simp
@[simp] theorem cmdHkCalibrate_limits (u_q : QId) (e : QEntry) (s : State) : (cmdHkCalibrate u_q e s).limitsOr s.limits = s.limits :=
    by unfold cmdHkCalibrate; simp only [checked]; (repeat' split) <;> simp
@[simp] theorem execHkCalibrate_limits (t : Instant) (q : QId) (s : State) : outLim s.limits (execHkCalibrate t q s) = s.limits :=
    by unfold execHkCalibrate; simp
@[simp] theorem State.hkDone_limits (s : State) (k : HkCal) (tg range : Nat) (b : Block) (skips : Nat) (bad : Option (Fin 4)) (m : List (Int × Int)) : (State.hkDone s k tg range b skips bad m).limits = s.limits :=
    by unfold State.hkDone; simp
@[simp] theorem execHkCalibrationEnd_limits (t : Instant) (b : Block) (m : List (Int × Int)) (s : State) : outLim s.limits (execHkCalibrationEnd t b m s) = s.limits :=
    by unfold execHkCalibrationEnd; dsimp only; (repeat' split) <;> simp
@[simp] theorem State.noteFault_limits (s : State) (cls : Nat) : (State.noteFault s cls).limits = s.limits := by unfold State.noteFault; simp
@[simp] theorem State.logFault_limits (s : State) (cls source detail : Nat) : (State.logFault s cls source detail).limits = s.limits :=
    by unfold State.logFault; simp
@[simp] theorem State.logOnce_limits (s : State) (cls key source detail : Nat) : (State.logOnce s cls key source detail).limits = s.limits :=
    by unfold State.logOnce; simp
@[simp] theorem State.faultEvent_limits (s : State) (f : FaultRec) : (State.faultEvent s f).limits = s.limits := by unfold State.faultEvent; simp
@[simp] theorem State.paramFault_limits (s : State) (id : Nat) : (State.paramFault s id).limits = s.limits := by unfold State.paramFault; simp
@[simp] theorem State.modWorkerEpoch_limits (s : State) (id : Nat) (f : WorkerEpoch → WorkerEpoch) : (State.modWorkerEpoch s id f).limits = s.limits :=
    by unfold State.modWorkerEpoch; simp
@[simp] theorem State.tellManager_limits (s : State) (w : WorkerEpoch) (op : Nat) : (State.tellManager s w op).limits = s.limits :=
    by unfold State.tellManager; simp
@[simp] theorem State.epochCame_limits (s : State) (id op outcome failBlock : Nat) (stamp : Stamp) (blocks : List (Block × FTime)) : (State.epochCame s id op outcome failBlock stamp blocks).limits = s.limits :=
    by unfold State.epochCame; dsimp only; (repeat' split) <;> simp
@[simp] theorem State.interlockEvent_limits (s : State) (n : Fin 8) (ch bound : Nat) (g : GaugeLast) (atRelease : Bool) : (State.interlockEvent s n ch bound g atRelease).limits = s.limits :=
    by unfold State.interlockEvent; simp
@[simp] theorem State.releaseInterlock_limits (s : State) (n : Fin 8) : (State.releaseInterlock s n).limits = s.limits :=
    by unfold State.releaseInterlock; (repeat' split) <;> simp
@[simp] theorem State.lineTxValues_limits (s : State) (k0 : Bank) (n : Fin 8) : (State.lineTxValues s k0 n).limits = s.limits :=
    by unfold State.lineTxValues; simp
@[simp] theorem State.lineTxOn_limits (s : State) (n : Fin 8) : (State.lineTxOn s n).limits = s.limits :=
    by unfold State.lineTxOn; (try dsimp only); (repeat' split) <;> simp
@[simp] theorem State.lineTxActed_limits (s : State) (k0 : Bank) (n : Fin 8) : (State.lineTxActed s k0 n).limits = s.limits :=
    by unfold State.lineTxActed; simp
@[simp] theorem State.lineLoopOwner_limits (s : State) (n : Fin 8) (was eff : Nat) : (State.lineLoopOwner s n was eff).limits = s.limits :=
    by unfold State.lineLoopOwner; simp
@[simp] theorem State.lineRxActed_limits (s : State) (k0 : Bank) (n : Fin 8) : (State.lineRxActed s k0 n).limits = s.limits :=
    by unfold State.lineRxActed; simp
@[simp] theorem State.vanish_limits (s : State) (lead : Fin 8) : (State.vanish s lead).limits = s.limits := by unfold State.vanish; simp
@[simp] theorem State.regroup_limits (s : State) (g0 g : Nat) : (State.regroup s g0 g).limits = s.limits :=
    by
  unfold State.regroup; dsimp only
  rw [forEach_limits, forEach_limits]
  · intros; simp
  · intros; simp; rw [forEach_limits]; intros; simp
@[simp] theorem State.portActed_limits (s : State) (k0 : Bank) (p : Fin 8) : (State.portActed s k0 p).limits = s.limits :=
    by unfold State.portActed; simp
@[simp] theorem State.hostTaps_limits (s : State) (h : Fin 16) : (State.hostTaps s h).limits = s.limits := by unfold State.hostTaps; simp
@[simp] theorem State.hostRefActed_limits (s : State) (h : Fin 16) : (State.hostRefActed s h).limits = s.limits := by unfold State.hostRefActed; simp
@[simp] theorem State.relayStart_limits (s : State) (h : Fin 16) (exit : Nat) : (State.relayStart s h exit).limits = s.limits :=
    by unfold State.relayStart; (try dsimp only); (repeat' split) <;> simp
@[simp] theorem State.relayStop_limits (s : State) (h : Fin 16) : (State.relayStop s h).limits = s.limits := by unfold State.relayStop; simp
@[simp] theorem State.hostIdle_limits (s : State) (h : Fin 16) (relay changed : Bool) : (State.hostIdle s h relay changed).limits = s.limits := by
  unfold State.hostIdle; (repeat' split) <;> simp
@[simp] theorem State.hostStart_limits (s : State) (h : Fin 16) (changed : Bool) : (State.hostStart s h changed).limits = s.limits :=
    by unfold State.hostStart; (try dsimp only); (repeat' split) <;> simp
@[simp] theorem State.hostMoves_limits (s : State) (k0 : Bank) (h : Fin 16) : (State.hostMoves s k0 h).limits = s.limits :=
    by unfold State.hostMoves; simp
@[simp] theorem State.hostActed_limits (s : State) (k0 : Bank) (h : Fin 16) : (State.hostActed s k0 h).limits = s.limits :=
    by unfold State.hostActed; simp
@[simp] theorem State.syncOne_limits (s : State) (r : Fin 41) (fn : Function) (used : Bool) (detail : Nat) : (State.syncOne s r fn used detail).limits = s.limits :=
    by unfold State.syncOne; simp
@[simp] theorem State.syncOwners_limits (s : State) : (State.syncOwners s).limits = s.limits := by unfold State.syncOwners; simp
@[simp] theorem State.gaugeActed_limits (s : State) (k0 : Bank) (g : Fin 4) : (State.gaugeActed s k0 g).limits = s.limits :=
    by unfold State.gaugeActed; simp
@[simp] theorem State.jetsActed_limits (s : State) (k0 : Bank) (j : Fin 24) : (State.jetsActed s k0 j).limits = s.limits :=
    by unfold State.jetsActed; simp
@[simp] theorem State.pwmActed_limits (s : State) (n : Fin 8) : (State.pwmActed s n).limits = s.limits := by unfold State.pwmActed; simp
@[simp] theorem State.holdDuties_limits (s : State) (n : Fin 4) : (State.holdDuties s n).limits = s.limits :=
    by unfold State.holdDuties; rfl
@[simp] theorem State.timerActed_limits (s : State) (n : Fin 4) (at' : Instant) : (State.timerActed s n at').limits = s.limits :=
    by unfold State.timerActed; simp
@[simp] theorem State.commitActs_limits (s : State) (k0 : Bank) (at' : Instant) (y0 : Block) : (State.commitActs s k0 at' y0).limits = s.limits :=
    by unfold State.commitActs; (repeat' split) <;> simp
@[simp] theorem State.spendMarks_limits (s : State) (b : Block) : (State.spendMarks s b).limits = s.limits := by unfold State.spendMarks; simp
@[simp] theorem State.commitNow_limits (s : State) (b : Block) (snap : Bank) (at' : Instant) : (State.commitNow s b snap at').limits = s.limits :=
    by unfold State.commitNow; simp
@[simp] theorem State.revertNow_limits (s : State) (b : Block) : (State.revertNow s b).limits = s.limits := by unfold State.revertNow; simp
@[simp] theorem State.commitDone_limits (s : State) (c : Commit) (st : Status) (fail : Option Block) : (State.commitDone s c st fail).limits = s.limits :=
    by unfold State.commitDone; simp
@[simp] theorem State.dropCommit_limits (s : State) (id : Nat) : (State.dropCommit s id).limits = s.limits := by unfold State.dropCommit; simp
@[simp] theorem State.modCommit_limits (s : State) (id : Nat) (f : Commit → Commit) : (State.modCommit s id f).limits = s.limits :=
    by unfold State.modCommit; simp
@[simp] theorem State.openCommit_limits (s : State) (kind : CommitKind) (q : QId) (e : QEntry) (bs : List Block) (tc : FTime) : (State.openCommit s kind q e bs tc).limits = s.limits :=
    by unfold State.openCommit; simp
@[simp] theorem State.lockFor_limits (s : State) (bs : List Block) (cause : Nat) (q : QId) (tag : Nat) (hl : s.limits.locked = true) : (State.lockFor s bs cause q tag).limits = s.limits :=
    by unfold State.lockFor; simp [hl]
@[simp] theorem cmdApply_limits (q : QId) (e : QEntry) (s : State) (hl : s.limits.locked = true) : (cmdApply q e s).limitsOr s.limits = s.limits :=
    by unfold cmdApply; simp only [checked]; (repeat' split) <;> simp [hl]
@[simp] theorem execApply_limits (t : Instant) (q : QId) (s : State) (hl : s.limits.locked = true) : outLim s.limits (execApply t q s) = s.limits :=
    by unfold execApply; exact runCmd_locked _ _ _ _ _ _ hl (fun q e s h => by simp [h])
@[simp] theorem cmdCommit_limits (q : QId) (e : QEntry) (s : State) (hl : s.limits.locked = true) : (cmdCommit q e s).limitsOr s.limits = s.limits :=
    by unfold cmdCommit; simp only [checked]; (repeat' split) <;> simp [hl]
@[simp] theorem execCommit_limits (t : Instant) (q : QId) (s : State) (hl : s.limits.locked = true) : outLim s.limits (execCommit t q s) = s.limits :=
    by unfold execCommit; exact runCmd_locked _ _ _ _ _ _ hl (fun q e s h => by simp [h])
@[simp] theorem cmdCommitCancel_limits (u_q : QId) (e : QEntry) (s : State) : (cmdCommitCancel u_q e s).limitsOr s.limits = s.limits :=
    by unfold cmdCommitCancel; simp only [checked]; (repeat' split) <;> simp
@[simp] theorem execCommitCancel_limits (t : Instant) (q : QId) (s : State) : outLim s.limits (execCommitCancel t q s) = s.limits :=
    by unfold execCommitCancel; simp
@[simp] theorem State.failBefore_limits (s : State) (c : Commit) (st : Status) (b : Option Block) : (State.failBefore s c st b).limits = s.limits :=
    by unfold State.failBefore; simp
@[simp] theorem State.settleCommit_limits (s : State) (id : Nat) : (State.settleCommit s id).limits = s.limits :=
    by unfold State.settleCommit; (repeat' split) <;> simp
@[simp] theorem execSnapshotValidate_limits (t : Instant) (id : Nat) (bs : List Block) (s : State) : outLim s.limits (execSnapshotValidate t id bs s) = s.limits :=
    by unfold execSnapshotValidate; (try dsimp only); (repeat' split) <;> simp
@[simp] theorem execApplyTcReached_limits (t : Instant) (id : Nat) (s : State) : outLim s.limits (execApplyTcReached t id s) = s.limits :=
    by unfold execApplyTcReached; dsimp only; (repeat' split) <;> simp
@[simp] theorem execCommitValidationTimeout_limits (t : Instant) (id : Nat) (s : State) : outLim s.limits (execCommitValidationTimeout t id s) = s.limits :=
    by unfold execCommitValidationTimeout; dsimp only; (repeat' split) <;> simp
@[simp] theorem State.finish_limits (s : State) (c : Commit) : (State.finish s c).limits = s.limits :=
    by unfold State.finish; dsimp only; (repeat' split) <;> simp
@[simp] theorem State.settleFaults_limits (s : State) : (State.settleFaults s).limits = s.limits := by unfold State.settleFaults; simp
@[simp] theorem State.finishAll_limits (s : State) : (State.finishAll s).limits = s.limits := by unfold State.finishAll; simp
@[simp] theorem State.revertBlock_limits (s : State) (b : Block) : (State.revertBlock s b).limits = s.limits := by unfold State.revertBlock; simp
@[simp] theorem State.commitDue_limits (s : State) (b : Block) : (State.commitDue s b).limits = s.limits :=
    by unfold State.commitDue; dsimp only; (repeat' split) <;> simp
@[simp] theorem State.boundary_limits (s : State) (b : Block) : (State.boundary s b).limits = s.limits := by unfold State.boundary; simp
@[simp] theorem State.failCommit_limits (s : State) (id : Nat) (b : Block) : (State.failCommit s id b).limits = s.limits :=
    by unfold State.failCommit; simp
@[simp] theorem execBlockCommit_limits (t : Instant) (b : Block) (good : Bool) (s : State) : outLim s.limits (execBlockCommit t b good s) = s.limits :=
    by unfold execBlockCommit; dsimp only; (repeat' split) <;> simp
@[simp] theorem execBlockRevert_limits (t : Instant) (b : Block) (s : State) : outLim s.limits (execBlockRevert t b s) = s.limits :=
    by unfold execBlockRevert; dsimp only; (repeat' split) <;> simp
@[simp] theorem State.servoUpdate_limits (s : State) (upd : State → State) (h : ∀ s, (upd s).limits = s.limits) : (s.servoUpdate upd).limits = s.limits := by unfold State.servoUpdate; dsimp only; split <;> simp [h]
@[simp] theorem execServoUpdate_limits (t : Instant) (s : State) : outLim s.limits (execServoUpdate t s) = s.limits := by unfold execServoUpdate; simp
@[simp] theorem execServoEmptyUpdate_limits (t : Instant) (s : State) : outLim s.limits (execServoEmptyUpdate t s) = s.limits :=
    by unfold execServoEmptyUpdate; simp
@[simp] theorem execPpsInEdge_limits (t : Instant) (s : State) : outLim s.limits (execPpsInEdge t s) = s.limits :=
    by unfold execPpsInEdge; (try dsimp only); (repeat' split) <;> first | (simp; done) | (simp; (repeat rw [forEach_limits]) <;> intros <;> (repeat' split) <;> simp)
@[simp] theorem execPpsWindowMissed_limits (t : Instant) (s : State) : outLim s.limits (execPpsWindowMissed t s) = s.limits :=
    by unfold execPpsWindowMissed; dsimp only; (repeat' split) <;> simp
@[simp] theorem cmdSetRead_limits (u_q : QId) (e : QEntry) (s : State) : (cmdSetRead u_q e s).limitsOr s.limits = s.limits :=
    by unfold cmdSetRead; simp only [checked]; (repeat' split) <;> simp
@[simp] theorem execSetRead_limits (t : Instant) (q : QId) (s : State) : outLim s.limits (execSetRead t q s) = s.limits := by unfold execSetRead; simp
@[simp] theorem State.reloadShadow_limits (s : State) (b : Block) : (State.reloadShadow s b).limits = s.limits := by unfold State.reloadShadow; simp
@[simp] theorem cmdShadowReset_limits (u_q : QId) (e : QEntry) (s : State) : (cmdShadowReset u_q e s).limitsOr s.limits = s.limits :=
    by unfold cmdShadowReset; simp only [checked]; (repeat' split) <;> simp
@[simp] theorem execShadowReset_limits (t : Instant) (q : QId) (s : State) : outLim s.limits (execShadowReset t q s) = s.limits :=
    by unfold execShadowReset; simp
@[simp] theorem State.releaseBlock_limits (s : State) (x : Selection) (b : Block) : (State.releaseBlock s x b).1.limits = s.limits :=
    by unfold State.releaseBlock; (repeat' split) <;> simp
@[simp] theorem cmdExpertRelease_limits (u_q : QId) (e : QEntry) (s : State) : (cmdExpertRelease u_q e s).limitsOr s.limits = s.limits :=
    by unfold cmdExpertRelease; simp only [checked]; (repeat' split) <;> simp
@[simp] theorem execExpertRelease_limits (t : Instant) (q : QId) (s : State) : outLim s.limits (execExpertRelease t q s) = s.limits :=
    by unfold execExpertRelease; simp
@[simp] theorem cmdOwnerRelease_limits (u_q : QId) (e : QEntry) (s : State) : (cmdOwnerRelease u_q e s).limitsOr s.limits = s.limits :=
    by unfold cmdOwnerRelease; simp only [checked]; (repeat' split) <;> simp
@[simp] theorem execOwnerRelease_limits (t : Instant) (q : QId) (s : State) : outLim s.limits (execOwnerRelease t q s) = s.limits :=
    by unfold execOwnerRelease; simp
@[simp] theorem execTimerTick_limits (t : Instant) (n : Fin 4) (s : State) : outLim s.limits (execTimerTick t n s) = s.limits :=
    by unfold execTimerTick; dsimp only; (repeat' split) <;> simp
@[simp] theorem execGaugeTriggerEvent_limits (t : Instant) (g : Fin 4) (s : State) : outLim s.limits (execGaugeTriggerEvent t g s) = s.limits :=
    by unfold execGaugeTriggerEvent; dsimp only; (repeat' split) <;> simp
@[simp] theorem execGaugePassStart_limits (t : Instant) (g : Fin 4) (s : State) : outLim s.limits (execGaugePassStart t g s) = s.limits :=
    by unfold execGaugePassStart; dsimp only; (repeat' split) <;> simp
@[simp] theorem State.judgeInterlock_limits (s : State) (rs : List (Nat × GaugeLast)) (n : Fin 8) : (State.judgeInterlock s rs n).limits = s.limits :=
    by unfold State.judgeInterlock; (try dsimp only); (repeat' split) <;> simp
@[simp] theorem State.toCrossbar_limits (s : State) (g : Fin 4) (c : GaugeCur) (v : GaugeLast) : (State.toCrossbar s g c v).limits = s.limits :=
    by unfold State.toCrossbar; (try dsimp only); (repeat' split) <;> simp
@[simp] theorem State.gaugeResult_limits (s : State) (g : Fin 4) (c : GaugeCur) (raw : Int) : (State.gaugeResult s g c raw).limits = s.limits :=
    by unfold State.gaugeResult; (repeat' split) <;> simp
@[simp] theorem State.passEnd_limits (s : State) (g : Fin 4) (at' : Instant) : (State.passEnd s g at').limits = s.limits :=
    by unfold State.passEnd; simp
@[simp] theorem State.gaugeEnd_limits (s : State) (g : Fin 4) (raw : Int) : (State.gaugeEnd s g raw).1.limits = s.limits :=
    by unfold State.gaugeEnd; (try dsimp only); (repeat' split) <;> simp
@[simp] theorem State.gaugeEnds_limits (s : State) (rs : List (Fin 4 × Int)) : (State.gaugeEnds s rs).1.limits = s.limits := by
  induction rs generalizing s with
  | nil => rfl
  | cons x xs ih => simp only [State.gaugeEnds]; rw [ih]; simp
@[simp] theorem execGaugeResult_limits (t : Instant) (g : Fin 4) (raw : Int × List (Fin 4 × Int)) (s : State) : outLim s.limits (execGaugeResult t g raw s) = s.limits :=
    by unfold execGaugeResult; (try dsimp only); (repeat' split) <;> simp
@[simp] theorem execJetsTick_limits (t : Instant) (j : Fin 24) (s : State) : outLim s.limits (execJetsTick t j s) = s.limits :=
    by unfold execJetsTick; dsimp only; (repeat' split) <;> simp
@[simp] theorem execJetsDeglitchEnd_limits (t : Instant) (j : Fin 24) (s : State) : outLim s.limits (execJetsDeglitchEnd t j s) = s.limits :=
    by unfold execJetsDeglitchEnd; dsimp only; (repeat' split) <;> simp
@[simp] theorem execJetsParkTimer_limits (t : Instant) (j : Fin 24) (s : State) : outLim s.limits (execJetsParkTimer t j s) = s.limits :=
    by unfold execJetsParkTimer; dsimp only; (repeat' split) <;> simp
@[simp] theorem execPwmPeriodEnd_limits (t : Instant) (n : Fin 8) (s : State) : outLim s.limits (execPwmPeriodEnd t n s) = s.limits :=
    by unfold execPwmPeriodEnd; dsimp only; (repeat' split) <;> simp
@[simp] theorem execPwmCentreEvent_limits (t : Instant) (n : Fin 8) (s : State) : outLim s.limits (execPwmCentreEvent t n s) = s.limits :=
    by unfold execPwmCentreEvent; dsimp only; (repeat' split) <;> simp
@[simp] theorem State.dropHkCal_limits (s : State) (seq : Nat) : (State.dropHkCal s seq).limits = s.limits := by unfold State.dropHkCal; simp
@[simp] theorem State.undoPower_limits (s : State) (w : Nat) : (State.undoPower s w).limits = s.limits := by unfold State.undoPower; simp
@[simp] theorem State.dropAcqCommand_limits (s : State) (seq : Nat) : (State.dropAcqCommand s seq).limits = s.limits :=
    by unfold State.dropAcqCommand; simp
@[simp] theorem State.lanesBack_limits (s : State) : (State.lanesBack s).limits = s.limits := by unfold State.lanesBack; simp
@[simp] theorem State.abandonRun_limits (s : State) (e : QEntry) : (State.abandonRun s e).limits = s.limits :=
    by unfold State.abandonRun; dsimp only; (repeat' split) <;> simp
@[simp] theorem State.dropEpochs_limits (s : State) : (State.dropEpochs s).limits = s.limits := by unfold State.dropEpochs; simp
@[simp] theorem State.cancelCommits_limits (s : State) : (State.cancelCommits s).limits = s.limits := by unfold State.cancelCommits; simp
@[simp] theorem State.controlFault_limits (s : State) (cls detail : Nat) : (State.controlFault s cls detail).limits = s.limits :=
    by unfold State.controlFault; (try dsimp only); (repeat' split) <;> first | (simp; done) | (simp; (repeat rw [forEach_limits]) <;> intros <;> (repeat' split) <;> simp)
@[simp] theorem State.restartFirmware_limits (s : State) : (State.restartFirmware s).limits = s.limits := by unfold State.restartFirmware; simp
@[simp] theorem execFaultRecoveryComplete_limits (t : Instant) (s : State) : outLim s.limits (execFaultRecoveryComplete t s) = s.limits :=
    by unfold execFaultRecoveryComplete; dsimp only; (repeat' split) <;> simp
@[simp] theorem execWatchdogExpiry_limits (t : Instant) (s : State) : outLim s.limits (execWatchdogExpiry t s) = s.limits :=
    by unfold execWatchdogExpiry; dsimp only; (repeat' split) <;> simp
@[simp] theorem State.clockLoss_limits (s : State) (n : Nat) : (State.clockLoss s n).limits = s.limits := by unfold State.clockLoss; simp
@[simp] theorem State.refclkLoss_limits (s : State) : (State.refclkLoss s).limits = s.limits :=
    by unfold State.refclkLoss; (try dsimp only); (repeat' split) <;> simp
@[simp] theorem execReferenceLost_limits (t : Instant) (timeref : Bool) (s : State) : outLim s.limits (execReferenceLost t timeref s) = s.limits :=
    by unfold execReferenceLost; (repeat' split) <;> simp
@[simp] theorem execReferenceQualified_limits (t : Instant) (timeref : Bool) (s : State) : outLim s.limits (execReferenceQualified t timeref s) = s.limits :=
    by unfold execReferenceQualified; (repeat' split) <;> simp
@[simp] theorem execClockLoss_limits (t : Instant) (n : Fin 64) (s : State) : outLim s.limits (execClockLoss t n s) = s.limits :=
    by unfold execClockLoss; dsimp only; (repeat' split) <;> simp
@[simp] theorem execClockRestored_limits (t : Instant) (n : Fin 64) (s : State) : outLim s.limits (execClockRestored t n s) = s.limits :=
    by unfold execClockRestored; dsimp only; (repeat' split) <;> simp
@[simp] theorem execSupplyFault_limits (t : Instant) (rails : Nat) (s : State) : outLim s.limits (execSupplyFault t rails s) = s.limits :=
    by unfold execSupplyFault; dsimp only; (repeat' split) <;> simp
@[simp] theorem State.thermalTrip_limits (s : State) (sensor : Nat) : (State.thermalTrip s sensor).limits = s.limits :=
    by unfold State.thermalTrip; simp
@[simp] theorem execThermalMonitorRead_limits (t : Instant) (readings : List Int) (s : State) : outLim s.limits (execThermalMonitorRead t readings s) = s.limits :=
    by unfold execThermalMonitorRead; dsimp only; (repeat' split) <;> simp
@[simp] theorem State.residueNoted_limits (s : State) (b : Block) : (State.residueNoted s b).limits = s.limits := by unfold State.residueNoted; simp
@[simp] theorem State.markPairs_limits (s : State) (n : Fin 8) (toLine two : Bool) : (State.markPairs s n toLine two).limits = s.limits :=
    by unfold State.markPairs; (try dsimp only); (repeat' split) <;> simp
@[simp] theorem State.markInner_limits (s : State) (n : Fin 8) (blocks : List Nat) : (State.markInner s n blocks).limits = s.limits :=
    by unfold State.markInner; (try dsimp only); (repeat' split) <;> simp
@[simp] theorem State.countRecent_limits (s : State) (n : Fin 8) : (State.countRecent s n).limits = s.limits :=
    by unfold State.countRecent; (repeat' split) <;> simp
@[simp] theorem State.bypassCycle_limits (s : State) (n : Fin 8) (symbol : Nat) : (State.bypassCycle s n symbol).limits = s.limits :=
    by unfold State.bypassCycle; (try dsimp only); (repeat' split) <;> simp
@[simp] theorem execResidueMismatch_limits (t : Instant) (p : ResiduePlace) (s : State) : outLim s.limits (execResidueMismatch t p s) = s.limits :=
    by unfold execResidueMismatch; (repeat' split) <;> simp
@[simp] theorem execEccCorrectable_limits (t : Instant) (array : Nat) (cistern : Bool) (s : State) : outLim s.limits (execEccCorrectable t array cistern s) = s.limits :=
    by unfold execEccCorrectable; simp
@[simp] theorem State.dataFault_limits (s : State) (key : Nat) : (State.dataFault s key).limits = s.limits := by unfold State.dataFault; simp
@[simp] theorem State.snapshotFault_limits (s : State) (id : Nat) (b : Block) : (State.snapshotFault s id b).limits = s.limits :=
    by unfold State.snapshotFault; (repeat' split) <;> simp
@[simp] theorem State.reloadCal_limits (s : State) (n : Fin 8) (b : Block) (f : Lane → Lane) : (State.reloadCal s n b f).limits = s.limits :=
    by unfold State.reloadCal; simp
@[simp] theorem execEccUncorrectable_limits (t : Instant) (place : EccPlace) (s : State) : outLim s.limits (execEccUncorrectable t place s) = s.limits :=
    by unfold execEccUncorrectable; (repeat' split) <;> simp
@[simp] theorem execScrubPass_limits (t : Instant) (s : State) : outLim s.limits (execScrubPass t s) = s.limits := by unfold execScrubPass; simp
@[simp] theorem State.dropPeriodic_limits (s : State) : (State.dropPeriodic s).limits = s.limits := by unfold State.dropPeriodic; simp
@[simp] theorem State.startDemand_limits (s : State) (id : Nat) (cmd : Nat × Nat) : (State.startDemand s id cmd).limits = s.limits :=
    by unfold State.startDemand; (try dsimp only); (repeat' split) <;> simp
@[simp] theorem cmdBistRun_limits (u_q : QId) (e : QEntry) (s : State) : (cmdBistRun u_q e s).limitsOr s.limits = s.limits :=
    by unfold cmdBistRun; simp only [checked]; (repeat' split) <;> simp
@[simp] theorem execBistRun_limits (t : Instant) (q : QId) (s : State) : outLim s.limits (execBistRun t q s) = s.limits := by unfold execBistRun; simp
@[simp] theorem cmdBistResult_limits (u_q : QId) (e : QEntry) (s : State) : (cmdBistResult u_q e s).limitsOr s.limits = s.limits :=
    by unfold cmdBistResult; simp only [checked]; (repeat' split) <;> simp
@[simp] theorem execBistResult_limits (t : Instant) (q : QId) (s : State) : outLim s.limits (execBistResult t q s) = s.limits :=
    by unfold execBistResult; simp
@[simp] theorem cmdBistSchedule_limits (u_q : QId) (e : QEntry) (s : State) : (cmdBistSchedule u_q e s).limitsOr s.limits = s.limits :=
    by unfold cmdBistSchedule; simp only [checked]; (repeat' split) <;> simp
@[simp] theorem execBistSchedule_limits (t : Instant) (q : QId) (s : State) : outLim s.limits (execBistSchedule t q s) = s.limits :=
    by unfold execBistSchedule; simp
@[simp] theorem cmdBistAbort_limits (u_q : QId) (e : QEntry) (s : State) : (cmdBistAbort u_q e s).limitsOr s.limits = s.limits :=
    by unfold cmdBistAbort; simp only [checked]; (repeat' split) <;> simp
@[simp] theorem execBistAbort_limits (t : Instant) (q : QId) (s : State) : outLim s.limits (execBistAbort t q s) = s.limits :=
    by unfold execBistAbort; simp
@[simp] theorem State.startPeriodic_limits (s : State) (id : Nat) : (State.startPeriodic s id).limits = s.limits := by unfold State.startPeriodic; simp
@[simp] theorem execCisternTestSchedule_limits (t : Instant) (bulk : Bool) (s : State) : outLim s.limits (execCisternTestSchedule t bulk s) = s.limits :=
    by unfold execCisternTestSchedule; dsimp only; (repeat' split) <;> simp
@[simp] theorem execRotationStep_limits (t : Instant) (s : State) : outLim s.limits (execRotationStep t s) = s.limits :=
    by unfold execRotationStep; dsimp only; (repeat' split) <;> simp
@[simp] theorem State.swapEngine_limits (s : State) (k : Takeover) (spare old : Fin 9) (matches' : Bool) : (State.swapEngine s k spare old matches').limits = s.limits :=
    by unfold State.swapEngine; (repeat' split) <;> simp
@[simp] theorem execEngineSwap_limits (t : Instant) (matches' : Bool) (s : State) : outLim s.limits (execEngineSwap t matches' s) = s.limits :=
    by unfold execEngineSwap; dsimp only; (repeat' split) <;> simp
@[simp] theorem State.beginGauge_limits (s : State) (id : Nat) : (State.beginGauge s id).limits = s.limits :=
    by unfold State.beginGauge; (repeat' split) <;> simp
@[simp] theorem execBistSliceEnd_limits (t : Instant) (id : Nat) (failure : Option Nat) (s : State) : outLim s.limits (execBistSliceEnd t id failure s) = s.limits :=
    by unfold execBistSliceEnd; dsimp only; (repeat' split) <;> simp
@[simp] theorem State.alwaysOn_limits (s old : State) : (State.alwaysOn s old).limits = s.limits := by unfold State.alwaysOn; simp
@[simp] theorem execPowerOn_limits (t : Instant) (s : State) : outLim s.limits (execPowerOn t s) = s.limits :=
    by unfold execPowerOn; dsimp only; (repeat' split) <;> simp
@[simp] theorem execRailInWindow_limits (t : Instant) (r : Fin 8) (bypass : Bool) (s : State) : outLim s.limits (execRailInWindow t r bypass s) = s.limits :=
    by unfold execRailInWindow; dsimp only; (repeat' split) <;> simp
@[simp] theorem execShutdownRestart_limits (t : Instant) (s : State) : outLim s.limits (execShutdownRestart t s) = s.limits :=
    by unfold execShutdownRestart; dsimp only; (repeat' split) <;> simp
@[simp] theorem execResetRelease_limits (t : Instant) (saddr : Bool) (s : State) : outLim s.limits (execResetRelease t saddr s) = s.limits :=
    by unfold execResetRelease; dsimp only; (repeat' split) <;> simp
@[simp] theorem execIslandClockSwitch_limits (t : Instant) (n : Fin 64) (s : State) : outLim s.limits (execIslandClockSwitch t n s) = s.limits :=
    by unfold execIslandClockSwitch; dsimp only; (repeat' split) <;> simp
@[simp] theorem State.holdOff_limits (s : State) (r : LaneRef) : (State.holdOff s r).limits = s.limits :=
    by unfold State.holdOff; (repeat' split) <;> simp
@[simp] theorem State.letGo_limits (s : State) (r : LaneRef) : (State.letGo s r).limits = s.limits := by unfold State.letGo; (repeat' split) <;> simp
@[simp] theorem State.takeStep_limits (s : State) (k : Nat) : (State.takeStep s k).limits = s.limits := by unfold State.takeStep; simp
@[simp] theorem State.undoStep_limits (s : State) (k : Nat) : (State.undoStep s k).limits = s.limits := by unfold State.undoStep; simp
@[simp] theorem State.shedStage_limits (s : State) (y0 : Nat) : (State.shedStage s y0).limits = s.limits :=
    by unfold State.shedStage; (repeat' split) <;> simp
@[simp] theorem State.resumeGauge_limits (s : State) : (State.resumeGauge s).limits = s.limits := by unfold State.resumeGauge; simp
@[simp] theorem State.setStage_limits (s : State) (n : Nat) : (State.setStage s n).limits = s.limits :=
    by unfold State.setStage; dsimp only; split <;> simp
@[simp] theorem restoreTo_limits (y0 : Nat) (y1 : State) : (restoreTo y0 y1).limits = y1.limits :=
    by
  induction y0 with
  | zero => simp [restoreTo]
  | succ k ih => unfold restoreTo; split <;> simp [ih]
@[simp] theorem State.shedEvent_limits (s : State) (shed : Bool) : (State.shedEvent s shed).limits = s.limits := by unfold State.shedEvent; simp
@[simp] theorem execSupplyComparatorUpdate_limits (t : Instant) (vin : Nat) (s : State) : outLim s.limits (execSupplyComparatorUpdate t vin s) = s.limits :=
    by unfold execSupplyComparatorUpdate; dsimp only; (repeat' split) <;> simp
@[simp] theorem execShedStep_limits (t : Instant) (s : State) : outLim s.limits (execShedStep t s) = s.limits :=
    by unfold execShedStep; dsimp only; (repeat' split) <;> simp
@[simp] theorem cmdShedConfig_limits (u_q : QId) (e : QEntry) (s : State) : (cmdShedConfig u_q e s).limitsOr s.limits = s.limits :=
    by unfold cmdShedConfig; simp only [checked]; (repeat' split) <;> simp
@[simp] theorem execShedConfig_limits (t : Instant) (q : QId) (s : State) : outLim s.limits (execShedConfig t q s) = s.limits :=
    by unfold execShedConfig; simp
@[simp] theorem cmdShedConfigExpert_limits (u_q : QId) (e : QEntry) (s : State) : (cmdShedConfigExpert u_q e s).limitsOr s.limits = s.limits :=
    by unfold cmdShedConfigExpert; simp only [checked]; (repeat' split) <;> simp
@[simp] theorem execShedConfigExpert_limits (t : Instant) (q : QId) (s : State) : outLim s.limits (execShedConfigExpert t q s) = s.limits :=
    by unfold execShedConfigExpert; simp
@[simp] theorem cmdPowerStatus_limits (u_q : QId) (e : QEntry) (s : State) : (cmdPowerStatus u_q e s).limitsOr s.limits = s.limits :=
    by unfold cmdPowerStatus; simp only [checked]; (repeat' split) <;> simp
@[simp] theorem execPowerStatus_limits (t : Instant) (q : QId) (s : State) : outLim s.limits (execPowerStatus t q s) = s.limits :=
    by unfold execPowerStatus; simp
@[simp] theorem cmdWakeConfig_limits (u_q : QId) (e : QEntry) (s : State) : (cmdWakeConfig u_q e s).limitsOr s.limits = s.limits :=
    by unfold cmdWakeConfig; simp only [checked]; (repeat' split) <;> simp
@[simp] theorem execWakeConfig_limits (t : Instant) (q : QId) (s : State) : outLim s.limits (execWakeConfig t q s) = s.limits :=
    by unfold execWakeConfig; simp
@[simp] theorem State.prepare_limits (s : State) (lanes : Bool) : (State.prepare s lanes).limits = s.limits := by unfold State.prepare; simp
@[simp] theorem cmdPowerEnter_limits (q : QId) (e : QEntry) (s : State) : (cmdPowerEnter q e s).limitsOr s.limits = s.limits :=
    by unfold cmdPowerEnter; simp only [checked]; (repeat' split) <;> simp
@[simp] theorem execPowerEnter_limits (t : Instant) (q : QId) (s : State) : outLim s.limits (execPowerEnter t q s) = s.limits :=
    by unfold execPowerEnter; simp
@[simp] theorem execSleepRequest_limits (t : Instant) (s : State) : outLim s.limits (execSleepRequest t s) = s.limits :=
    by unfold execSleepRequest; dsimp only; (repeat' split) <;> simp
@[simp] theorem State.islandsOff_limits (s : State) (off : Nat → Bool) : (State.islandsOff s off).limits = s.limits := by unfold State.islandsOff; simp
@[simp] theorem State.toSleep_limits (s : State) : (State.toSleep s).limits = s.limits := by unfold State.toSleep; simp
@[simp] theorem State.toDeep_limits (s : State) (hl : s.limits.locked = true) : (State.toDeep s).limits = s.limits := by unfold State.toDeep; simp [hl]
@[simp] theorem State.startWake_limits (s : State) (origin sources stage : Nat) (recovery cancelled : Bool) : (State.startWake s origin sources stage recovery cancelled).limits = s.limits :=
    by unfold State.startWake; simp
@[simp] theorem State.cancelEntry_limits (s : State) (sources : Nat) : (State.cancelEntry s sources).limits = s.limits :=
    by unfold State.cancelEntry; (repeat' split) <;> simp
@[simp] theorem State.activity_limits (s : State) (src : Nat) : (State.activity s src).limits = s.limits :=
    by unfold State.activity; dsimp only; (repeat' split) <;> simp
@[simp] theorem execWakeSource_limits (t : Instant) (src : Fin 4) (active : Bool) (s : State) : outLim s.limits (execWakeSource t src active s) = s.limits :=
    by unfold execWakeSource; (repeat' split) <;> simp
@[simp] theorem execAlwaysOnTimer_limits (t : Instant) (s : State) : outLim s.limits (execAlwaysOnTimer t s) = s.limits :=
    by unfold execAlwaysOnTimer; dsimp only; (repeat' split) <;> simp
@[simp] theorem execPowerStateEntry_limits (t : Instant) (s : State) (hl : s.limits.locked = true) : outLim s.limits (execPowerStateEntry t s) = s.limits :=
    by unfold execPowerStateEntry; dsimp only; (repeat' split) <;> simp [hl]
@[simp] theorem State.getStuck_limits (s : State) (hl : s.limits.locked = true) : (State.getStuck s).limits = s.limits :=
    by unfold State.getStuck; simp [hl]
@[simp] theorem execWakeStageComplete_limits (t : Instant) (s : State) : outLim s.limits (execWakeStageComplete t s) = s.limits :=
    by unfold execWakeStageComplete; dsimp only; (repeat' split) <;> simp
@[simp] theorem execWakeStageTimeout_limits (t : Instant) (rails : Nat) (s : State) : outLim s.limits (execWakeStageTimeout t rails s) = s.limits :=
    by unfold execWakeStageTimeout; dsimp only; (repeat' split) <;> simp
@[simp] theorem execWakeRetry_limits (t : Instant) (s : State) (hl : s.limits.locked = true) : outLim s.limits (execWakeRetry t s) = s.limits :=
    by unfold execWakeRetry; dsimp only; (repeat' split) <;> simp [hl]
@[simp] theorem State.wakeEvent_limits (s : State) (w : Wake) : (State.wakeEvent s w).limits = s.limits := by unfold State.wakeEvent; simp
@[simp] theorem State.wakeFailEvent_limits (s : State) (f : WakeFailure) : (State.wakeFailEvent s f).limits = s.limits :=
    by unfold State.wakeFailEvent; simp
@[simp] theorem execCommandReady_limits (t : Instant) (s : State) : outLim s.limits (execCommandReady t s) = s.limits :=
    by unfold execCommandReady; dsimp only; (repeat' split) <;> simp
@[simp] theorem cmdPowerRecover_limits (u_q : QId) (e : QEntry) (s : State) : (cmdPowerRecover u_q e s).limitsOr s.limits = s.limits :=
    by unfold cmdPowerRecover; simp only [checked]; (repeat' split) <;> simp
@[simp] theorem execPowerRecover_limits (t : Instant) (q : QId) (s : State) : outLim s.limits (execPowerRecover t q s) = s.limits :=
    by unfold execPowerRecover; simp
@[simp] theorem execRecoveryWindowExpiry_limits (t : Instant) (s : State) (hl : s.limits.locked = true) : outLim s.limits (execRecoveryWindowExpiry t s) = s.limits :=
    by unfold execRecoveryWindowExpiry; dsimp only; (repeat' split) <;> simp [hl]
@[simp] theorem execPrivateWrite_limits (t : Instant) (addr : Nat) (hdr : Option Nat) (err : Bool) (bytes : List Byte) (s : State) : outLim s.limits (execPrivateWrite t addr hdr err bytes s) = s.limits :=
    by unfold execPrivateWrite; simp
@[simp] theorem execPrivateRead_limits (t : Instant) (addr : Nat) (hdr : Option Nat) (n : Nat) (s : State) : outLim s.limits (execPrivateRead t addr hdr n s) = s.limits :=
    by unfold execPrivateRead; simp
@[simp] theorem State.queueConfig_limits (s : State) (x : Image) : (State.queueConfig s x).limits = s.limits := by unfold State.queueConfig; simp
@[simp] theorem execBootRomRun_limits (t : Instant) (s : State) : outLim s.limits (execBootRomRun t s) = s.limits :=
    by unfold execBootRomRun; (try dsimp only); (repeat' split) <;> first | (simp; done) | (simp; (repeat rw [forEach_limits]) <;> intros <;> (repeat' split) <;> simp)
@[simp] theorem State.confirm_limits (s : State) : (State.confirm s).limits = s.limits := by unfold State.confirm; (repeat' split) <;> simp
@[simp] theorem execBootDone_limits (t : Instant) (s : State) : outLim s.limits (execBootDone t s) = s.limits :=
    by unfold execBootDone; dsimp only; (repeat' split) <;> simp
@[simp] theorem cmdUpdateBegin_limits (u_q : QId) (e : QEntry) (s : State) : (cmdUpdateBegin u_q e s).limitsOr s.limits = s.limits :=
    by unfold cmdUpdateBegin; simp only [checked]; (repeat' split) <;> simp
@[simp] theorem execUpdateBegin_limits (t : Instant) (q : QId) (s : State) : outLim s.limits (execUpdateBegin t q s) = s.limits :=
    by unfold execUpdateBegin; simp
@[simp] theorem cmdUpdateChunk_limits (u_q : QId) (e : QEntry) (s : State) : (cmdUpdateChunk u_q e s).limitsOr s.limits = s.limits :=
    by unfold cmdUpdateChunk; simp only [checked]; (repeat' split) <;> simp
@[simp] theorem execUpdateChunk_limits (t : Instant) (q : QId) (s : State) : outLim s.limits (execUpdateChunk t q s) = s.limits :=
    by unfold execUpdateChunk; simp
@[simp] theorem State.closeReception_limits (s : State) (i : Fin 4) (bytes : Nat) (key : Option (Fin 4)) (sigOk digestOk : Bool) : (State.closeReception s i bytes key sigOk digestOk).2.2.limits = s.limits :=
    by unfold State.closeReception; simp
@[simp] theorem cmdUpdateEnd_limits (key : Option (Fin 4)) (sigOk digestOk : Bool) (u_q : QId) (e : QEntry) (s : State) : (cmdUpdateEnd key sigOk digestOk u_q e s).limitsOr s.limits = s.limits :=
    by
  unfold cmdUpdateEnd; simp only [checked]; (repeat' split) <;> first
    | (simp; done)
    | (have := congrArg (fun x => x.2.2.limits) ‹State.closeReception _ _ _ _ _ _ = _›; simpa using this.symm)
@[simp] theorem execUpdateEnd_limits (t : Instant) (q : QId) (key : Option (Fin 4)) (sigOk digestOk : Bool) (s : State) : outLim s.limits (execUpdateEnd t q key sigOk digestOk s) = s.limits :=
    by unfold execUpdateEnd; simp
@[simp] theorem State.logAuth_limits (s : State) (op step : Nat) : (State.logAuth s op step).limits = s.limits := by unfold State.logAuth; simp
@[simp] theorem State.restartNow_limits (s : State) : (State.restartNow s).limits = s.limits := by unfold State.restartNow; simp
@[simp] theorem cmdUpdateActivate_limits (u_q : QId) (e : QEntry) (s : State) : (cmdUpdateActivate u_q e s).limitsOr s.limits = s.limits :=
    by unfold cmdUpdateActivate; simp only [checked]; (repeat' split) <;> simp
@[simp] theorem execUpdateActivate_limits (t : Instant) (q : QId) (s : State) : outLim s.limits (execUpdateActivate t q s) = s.limits :=
    by unfold execUpdateActivate; simp
@[simp] theorem cmdIdentify_limits (u_q : QId) (e : QEntry) (s : State) : (cmdIdentify u_q e s).limitsOr s.limits = s.limits :=
    by unfold cmdIdentify; simp only [checked]; (repeat' split) <;> simp
@[simp] theorem execIdentify_limits (t : Instant) (q : QId) (s : State) : outLim s.limits (execIdentify t q s) = s.limits :=
    by unfold execIdentify; simp
@[simp] theorem cmdAttest_limits (sig : List Byte) (u_q : QId) (e : QEntry) (s : State) : (cmdAttest sig u_q e s).limitsOr s.limits = s.limits :=
    by unfold cmdAttest; simp only [checked]; (repeat' split) <;> simp
@[simp] theorem execAttest_limits (t : Instant) (q : QId) (sig : List Byte) (s : State) : outLim s.limits (execAttest t q sig s) = s.limits :=
    by unfold execAttest; simp
@[simp] theorem cmdCertRead_limits (u_q : QId) (e : QEntry) (s : State) : (cmdCertRead u_q e s).limitsOr s.limits = s.limits :=
    by unfold cmdCertRead; simp only [checked]; (repeat' split) <;> simp
@[simp] theorem execCertRead_limits (t : Instant) (q : QId) (s : State) : outLim s.limits (execCertRead t q s) = s.limits :=
    by unfold execCertRead; simp
@[simp] theorem cmdKeyRevoke_limits (keyOk sigOk : Bool) (u_q : QId) (e : QEntry) (s : State) : (cmdKeyRevoke keyOk sigOk u_q e s).limitsOr s.limits = s.limits :=
    by unfold cmdKeyRevoke; simp only [checked]; (repeat' split) <;> simp
@[simp] theorem execKeyRevoke_limits (t : Instant) (q : QId) (keyOk sigOk : Bool) (s : State) : outLim s.limits (execKeyRevoke t q keyOk sigOk s) = s.limits :=
    by unfold execKeyRevoke; simp
@[simp] theorem cmdLogRead_limits (u_q : QId) (e : QEntry) (s : State) : (cmdLogRead u_q e s).limitsOr s.limits = s.limits :=
    by unfold cmdLogRead; simp only [checked]; (repeat' split) <;> simp
@[simp] theorem execLogRead_limits (t : Instant) (q : QId) (s : State) : outLim s.limits (execLogRead t q s) = s.limits := by unfold execLogRead; simp
@[simp] theorem execLogFlashCopy_limits (t : Instant) (s : State) : outLim s.limits (execLogFlashCopy t s) = s.limits :=
    by unfold execLogFlashCopy; dsimp only; (repeat' split) <;> simp
@[simp] theorem cmdDebugUnlock_limits (keyOk sigOk : Bool) (u_q : QId) (e : QEntry) (s : State) : (cmdDebugUnlock keyOk sigOk u_q e s).limitsOr s.limits = s.limits :=
    by unfold cmdDebugUnlock; simp only [checked]; (repeat' split) <;> simp
@[simp] theorem execDebugUnlock_limits (t : Instant) (q : QId) (keyOk sigOk : Bool) (s : State) : outLim s.limits (execDebugUnlock t q keyOk sigOk s) = s.limits :=
    by unfold execDebugUnlock; simp
@[simp] theorem execDebugPortAccess_limits (t : Instant) (op : DebugOp) (s : State) : outLim s.limits (execDebugPortAccess t op s) = s.limits :=
    by unfold execDebugPortAccess; dsimp only; (repeat' split) <;> simp
@[simp] theorem execCmisRead_limits (t : Instant) (off : Fin 256) (n : Nat) (s : State) : outLim s.limits (execCmisRead t off n s) = s.limits :=
    by unfold execCmisRead; dsimp only; (repeat' split) <;> simp
@[simp] theorem State.cmisPut_limits (s : State) (off : Nat) (v : Byte) : (State.cmisPut s off v).limits = s.limits :=
    by unfold State.cmisPut; (repeat' split) <;> simp
@[simp] theorem execCmisWrite_limits (t : Instant) (off : Fin 256) (bytes : List Byte) (s : State) : outLim s.limits (execCmisWrite t off bytes s) = s.limits :=
    by unfold execCmisWrite; dsimp only; (repeat' split) <;> simp
@[simp] theorem cmdCmisProfile_limits (u_q : QId) (e : QEntry) (s : State) : (cmdCmisProfile u_q e s).limitsOr s.limits = s.limits :=
    by unfold cmdCmisProfile; simp only [checked]; (repeat' split) <;> simp
@[simp] theorem execCmisProfile_limits (t : Instant) (q : QId) (s : State) : outLim s.limits (execCmisProfile t q s) = s.limits :=
    by unfold execCmisProfile; simp
@[simp] theorem execLpmodeChange_limits (t : Instant) (level : Bool) (s : State) : outLim s.limits (execLpmodeChange t level s) = s.limits :=
    by unfold execLpmodeChange; simp
@[simp] theorem State.modCast_limits (s : State) (f : FwBroadcast → FwBroadcast) : (State.modCast s f).limits = s.limits :=
    by unfold State.modCast; simp
@[simp] theorem State.setLastFw_limits (s : State) (w code : Nat) : (State.setLastFw s w code).limits = s.limits := by unfold State.setLastFw; simp
@[simp] theorem State.fwOver_limits (s : State) (w code : Nat) (record : Bool) : (State.fwOver s w code record).limits = s.limits :=
    by unfold State.fwOver; simp
@[simp] theorem State.fwLost_limits (s : State) (w : Nat) : (State.fwLost s w).limits = s.limits := by unfold State.fwLost; (repeat' split) <;> simp
@[simp] theorem State.sendFw_limits (s : State) (op w : Nat) (body : List Byte) : (State.sendFw s op w body).limits = s.limits :=
    by unfold State.sendFw; (try simp only [checked]); (try dsimp only); (repeat' split) <;> first | (simp; done) | simp [State.sendDown_limits _ _ _ _ _ ‹State.sendDown _ _ _ _ = some _›]
@[simp] theorem State.castBlocks_limits (s : State) (b : FwBroadcast) : (State.castBlocks s b).limits = s.limits := by unfold State.castBlocks; simp
@[simp] theorem State.fwRound_limits (s : State) (b : FwBroadcast) : (State.fwRound s b).limits = s.limits := by unfold State.fwRound; simp
@[simp] theorem State.fwOn_limits (s : State) (y0 : Nat) : (State.fwOn s y0).limits = s.limits :=
    by
  induction y0 generalizing s with
  | zero => rfl
  | succ k ih => unfold State.fwOn; (try dsimp only); (repeat' split) <;> simp [ih]
@[simp] theorem cmdFwBroadcast_limits (u_q : QId) (e : QEntry) (s : State) : (cmdFwBroadcast u_q e s).limitsOr s.limits = s.limits :=
    by unfold cmdFwBroadcast; simp only [checked]; (repeat' split) <;> simp
@[simp] theorem execFwBroadcast_limits (t : Instant) (q : QId) (s : State) : outLim s.limits (execFwBroadcast t q s) = s.limits :=
    by unfold execFwBroadcast; simp
@[simp] theorem execFwSelectTimeout_limits (t : Instant) (s : State) : outLim s.limits (execFwSelectTimeout t s) = s.limits :=
    by unfold execFwSelectTimeout; dsimp only; (repeat' split) <;> simp
@[simp] theorem takeFwAnswer_limits (f : Frame) (s : State) : (takeFwAnswer f s).limits = s.limits := by unfold takeFwAnswer; (repeat' split) <;> simp
@[simp] theorem execFwAnswer_limits (t : Instant) (p : Fin 16) (s : State) : outLim s.limits (execFwAnswer t p s) = s.limits :=
    by unfold execFwAnswer; simp
@[simp] theorem takeSelect_limits (f : Frame) (s : State) : (takeSelect f s).limits = s.limits := by unfold takeSelect; simp
@[simp] theorem execFwSelect_limits (t : Instant) (p : Fin 16) (s : State) : outLim s.limits (execFwSelect t p s) = s.limits :=
    by unfold execFwSelect; simp
@[simp] theorem takeBlock_limits (f : Frame) (s : State) : (takeBlock f s).limits = s.limits := by unfold takeBlock; (repeat' split) <;> simp
@[simp] theorem execFwBlock_limits (t : Instant) (p : Fin 16) (s : State) : outLim s.limits (execFwBlock t p s) = s.limits :=
    by unfold execFwBlock; simp
@[simp] theorem takeQuery_limits (f : Frame) (s : State) : (takeQuery f s).limits = s.limits := by unfold takeQuery; (repeat' split) <;> simp
@[simp] theorem execFwQuery_limits (t : Instant) (p : Fin 16) (s : State) : outLim s.limits (execFwQuery t p s) = s.limits :=
    by unfold execFwQuery; simp
@[simp] theorem takeEnd_limits (key : Option (Fin 4)) (sigOk digestOk : Bool) (f : Frame) (s : State) : (takeEnd key sigOk digestOk f s).limits = s.limits :=
    by unfold takeEnd; (repeat' split) <;> simp
@[simp] theorem execFwEnd_limits (t : Instant) (p : Fin 16) (key : Option (Fin 4)) (sigOk digestOk : Bool) (s : State) : outLim s.limits (execFwEnd t p key sigOk digestOk s) = s.limits :=
    by unfold execFwEnd; simp
@[simp] theorem State.lost_limits (s : State) (xtag : Nat) : (State.lost s xtag).limits = s.limits := by unfold State.lost; (repeat' split) <;> simp
@[simp] theorem execUndelivered_limits (t : Instant) (p : Fin 16) (s : State) : outLim s.limits (execUndelivered t p s) = s.limits :=
    by unfold execUndelivered; simp
@[simp] theorem State.settleFrame_limits (s : State) (f : Frame) (reason : Nat) : (State.settleFrame s f reason).limits = s.limits :=
    by unfold State.settleFrame; simp
@[simp] theorem State.settleLink_limits (s : State) (p : Fin 16) (reason : Nat) : (State.settleLink s p reason).limits = s.limits :=
    by unfold State.settleLink; simp
@[simp] theorem execAck_limits (t : Instant) (p : Fin 16) (s : State) : outLim s.limits (execAck t p s) = s.limits :=
    by unfold execAck; dsimp only; (repeat' split) <;> simp
@[simp] theorem execRillAckTimeout_limits (t : Instant) (p : Fin 16) (s : State) : outLim s.limits (execRillAckTimeout t p s) = s.limits :=
    by unfold execRillAckTimeout; dsimp only; (repeat' split) <;> simp
@[simp] theorem execRillBusyResend_limits (t : Instant) (p : Fin 16) (s : State) : outLim s.limits (execRillBusyResend t p s) = s.limits :=
    by unfold execRillBusyResend; dsimp only; (repeat' split) <;> simp
@[simp] theorem execRillBusyLimit_limits (t : Instant) (p : Fin 16) (s : State) : outLim s.limits (execRillBusyLimit t p s) = s.limits :=
    by unfold execRillBusyLimit; dsimp only; (repeat' split) <;> simp
@[simp] theorem execRillLinkDownTimeout_limits (t : Instant) (p : Fin 16) (s : State) : outLim s.limits (execRillLinkDownTimeout t p s) = s.limits :=
    by unfold execRillLinkDownTimeout; simp
@[simp] theorem State.answerEpoch_limits (s : State) (f : Frame) (w : WorkerEpoch) (op : Nat) : (State.answerEpoch s f w op).limits = s.limits :=
    by unfold State.answerEpoch; simp
@[simp] theorem State.answerCurrent_limits (s : State) (f : Frame) (id op : Nat) : (State.answerCurrent s f id op).limits = s.limits :=
    by unfold State.answerCurrent; (repeat' split) <;> simp
@[simp] theorem State.epochAnswer_limits (s : State) (f : Frame) (id op : Nat) (g : WorkerEpoch → WorkerEpoch) : (State.epochAnswer s f id op g).limits = s.limits :=
    by unfold State.epochAnswer; dsimp only; (repeat' split) <;> simp
@[simp] theorem State.unstage_limits (s : State) (id : Nat) : (State.unstage s id).limits = s.limits :=
    by unfold State.unstage; (repeat' split) <;> simp
@[simp] theorem State.setRecord_limits (s : State) (w : WorkerEpoch) : (State.setRecord s w).limits = s.limits := by unfold State.setRecord; simp
@[simp] theorem State.stageNow_limits (s : State) (f : Frame) (status : Nat) : (State.stageNow s f status).limits = s.limits :=
    by unfold State.stageNow; dsimp only; (repeat' split) <;> simp
@[simp] theorem takeStage_limits (f : Frame) (s : State) : (takeStage f s).limits = s.limits := by unfold takeStage; (repeat' split) <;> simp
@[simp] theorem execEpStage_limits (t : Instant) (p : Fin 16) (s : State) : outLim s.limits (execEpStage t p s) = s.limits :=
    by unfold execEpStage; dsimp only; (repeat' split) <;> simp
@[simp] theorem takeEpCommit_limits (f : Frame) (s : State) (hl : s.limits.locked = true) : (takeEpCommit f s).limits = s.limits :=
    by unfold takeEpCommit; dsimp only; (repeat' split) <;> simp [hl]
@[simp] theorem execEpCommit_limits (t : Instant) (p : Fin 16) (s : State) (hl : s.limits.locked = true) : outLim s.limits (execEpCommit t p s) = s.limits :=
    by unfold execEpCommit; simp only [outLim_next]; rw [State.takeFrame_locked _ _ _ _ (by simp [hl]) (fun f s h => by simp [h])]; simp
@[simp] theorem takeEpAbort_limits (f : Frame) (s : State) : (takeEpAbort f s).limits = s.limits :=
    by unfold takeEpAbort; dsimp only; (repeat' split) <;> simp
@[simp] theorem execEpAbort_limits (t : Instant) (p : Fin 16) (s : State) : outLim s.limits (execEpAbort t p s) = s.limits :=
    by unfold execEpAbort; simp
@[simp] theorem takeEpRevert_limits (f : Frame) (s : State) : (takeEpRevert f s).limits = s.limits :=
    by unfold takeEpRevert; dsimp only; (repeat' split) <;> simp
@[simp] theorem execEpRevert_limits (t : Instant) (p : Fin 16) (s : State) : outLim s.limits (execEpRevert t p s) = s.limits :=
    by unfold execEpRevert; simp
@[simp] theorem execEpQuery_limits (t : Instant) (p : Fin 16) (s : State) : outLim s.limits (execEpQuery t p s) = s.limits :=
    by unfold execEpQuery; simp
@[simp] theorem execEpochTcReached_limits (t : Instant) (id : Nat) (s : State) : outLim s.limits (execEpochTcReached t id s) = s.limits :=
    by unfold execEpochTcReached; dsimp only; (repeat' split) <;> simp
@[simp] theorem execEpochStagingExpiry_limits (t : Instant) (id : Nat) (s : State) : outLim s.limits (execEpochStagingExpiry t id s) = s.limits :=
    by unfold execEpochStagingExpiry; dsimp only; (repeat' split) <;> simp
@[simp] theorem State.timeOut_limits (s : State) (e : QEntry) : (State.timeOut s e).limits = s.limits :=
    by unfold State.timeOut; (repeat' split) <;> simp
@[simp] theorem execCommandTimeout_limits (t : Instant) (q : QId) (s : State) : outLim s.limits (execCommandTimeout t q s) = s.limits :=
    by unfold execCommandTimeout; dsimp only; (repeat' split) <;> simp

end Sys2Proof.Machine
end

