-- ==== Sys2Proof/WellFormed.lean ====
section
/-! DEFINITION. Which operands the rows' own fields can carry.  Every constructor is listed: a row with no check takes every operand
of its type. -/
namespace Sys2Proof
open Machine

/-- A 7-bit address, where a CCC names one (R54, R57). -/
def anyAddr (addr : Option Nat) : Bool := match addr with | some a => decide (a < 128) | none => true

/-- The operands of a row are ones its fields can carry: 7-bit addresses, bytes and half words of the CCCs, a 96-byte signature, one
list of samples a channel, blocks of 144 bits, codeword pairs of 10,880 bits, places within a superframe, 13 temperature readings, a mask of 8
rails, a VIN of 16 bits of mV. -/
def Instr.wellFormed (i : Instr) : Bool :=
  match i with
  | .privateWrite _ addr hdr _ _ => decide (addr < 128) && (match hdr with | some c => decide (c < 256) | none => true)
  | .privateRead _ addr hdr _ => decide (addr < 128) && (match hdr with | some c => decide (c < 256) | none => true)
  | .entdaa _ given => (match given with | some a => decide (a < 128) | none => true)
  | .setdasa _ static addr => decide (static < 128 ∧ addr < 128)
  | .setnewda _ addr new => decide (addr < 128 ∧ new < 128)
  | .getpid _ addr => decide (addr < 128)
  | .getbcr _ addr => decide (addr < 128)
  | .getdcr _ addr => decide (addr < 128)
  | .getstatus _ addr => decide (addr < 128)
  | .getmwl _ addr => decide (addr < 128)
  | .setmwl _ addr v => decide (addr < 128 ∧ v < 65536)
  | .getmrl _ addr => decide (addr < 128)
  | .setmrl _ addr v ibi => decide (addr < 128 ∧ v < 65536 ∧ ibi < 256)
  | .enec _ addr ev => anyAddr addr && decide (ev < 256)
  | .disec _ addr ev => anyAddr addr && decide (ev < 256)
  | .rstactNoReset _ c => match c with | .rstact addr action => anyAddr addr && decide (action < 256 ∧ action ≠ 1 ∧ action ≠ 2) | .direct addr => anyAddr (some addr) | .broadcast => true
  | .rstactTransferReset _ addr => anyAddr addr
  | .rstactFullReset _ addr => anyAddr addr
  | .attest _ _ sig => decide (sig.length = 96)
  | .recordComplete _ data => decide (data.map Captured.channel).Nodup
  | .markerReceive _ _ block rx => decide (block < 2 ^ 144) && rx.blocks.all fun b => decide (b < 2 ^ 144)
  | .txMarker _ r => r.2.host.all fun ps => ps.all fun p => decide (p < 2 ^ 10880)
  | .residueMismatch _ p => match p with | .lineRx _ symbol | .lineTx _ symbol => decide (symbol < 147600) | .hostRx _ _ | .hostTx _ => true
  | .eccUncorrectable _ place => match place with
    | .engine _ bit => decide (bit < 147600)
    | .buffer .. | .capture .. | .rill .. | .shadow .. | .snapshot .. | .active .. | .previous .. | .adcEntry .. | .gainEntry ..
    | .dacEntry .. | .delayTable .. | .gaugeSet .. | .jetsSet .. | .filter .. | .jetsQueue .. | .gaugeFifo .. | .mgmt => true
  | .thermalMonitorRead _ readings => decide (readings.length = 13)
  | .supplyFault _ rails => decide (rails < 256)
  | .supplyComparatorUpdate _ vin => decide (vin < 65536)
  | .supplyShutdown _ rails => decide (rails < 256)
  | .wakeStageTimeout _ rails => decide (rails < 256)
  | .ibiRetry .. | .rstdaa .. | .enthdr0 .. | .cmisRead .. | .cmisWrite .. | .identify .. | .getStatus .. | .abort .. | .echo ..
  | .setNotify .. | .apply .. | .commit .. | .commitCancel .. | .setRead .. | .shadowReset .. | .sessionExpert .. | .sessionBasic ..
  | .expertRelease .. | .limitSet .. | .limitLock .. | .limitRead .. | .ownerRead .. | .ownerRelease .. | .setGrouping ..
  | .lineMode .. | .lineEnable .. | .lineState .. | .rxEq .. | .rxEqExpert .. | .rxGain .. | .rxGainExpert .. | .rxTiming ..
  | .rxTimingExpert .. | .rxDecode .. | .rxDecodeExpert .. | .lockLossConfig .. | .txSwing .. | .txSwingExpert .. | .txFfe ..
  | .txFfeExpert .. | .txPredist .. | .txPredistExpert .. | .txSkew .. | .txSkewExpert .. | .txClockSource .. | .laneCalibrate ..
  | .laneCalibrationEnd .. | .calTableRead .. | .rxMonitor .. | .eyeScan .. | .eyeScanExpert .. | .eyeScanEnd .. | .lineCounters ..
  | .errorInject .. | .errorInjectExpert .. | .lineLoop .. | .hostMode .. | .hostState .. | .hostEq .. | .hostEqExpert ..
  | .hostLoop .. | .hostRef .. | .portFaultMode .. | .hostCounters .. | .timeGet .. | .timeSet .. | .timeStep .. | .servoSource ..
  | .servoParams .. | .servoParamsExpert .. | .servoStatus .. | .timerefConfig .. | .ppsOutConfig .. | .refoutConfig ..
  | .ppsInConfig .. | .xferStatus .. | .xferCal .. | .xferCalPhaseEnd .. | .xferCalExpert .. | .asymmetry .. | .asymmetryExpert ..
  | .ptpCorrConfig .. | .ptpCorrStatus .. | .roleSet .. | .hierStatus .. | .discover .. | .probeTimeout .. | .workerAssign ..
  | .workerList .. | .tunnel .. | .tunnelTimeout .. | .epochStage .. | .epochCommit .. | .abortEpoch .. | .revertEpoch ..
  | .epochStatus .. | .epochResend .. | .epochResultTimeout .. | .fwBroadcast .. | .rillConfig .. | .rillConfigExpert ..
  | .acqStatus .. | .channelSource .. | .decimatorConfig .. | .decimatorConfigExpert .. | .filterLoad .. | .filterLoadExpert ..
  | .minmaxConfig .. | .triggerConfig .. | .triggerConfigExpert .. | .triggerCombine .. | .recordConfig .. | .arm .. | .disarm ..
  | .forceTrigger .. | .recordRead .. | .spillwayConfig .. | .spillwayStart .. | .spillwayStop .. | .spillwayStatus ..
  | .gaugeSequence .. | .gaugeSequenceExpert .. | .gaugeInject .. | .gaugeRun .. | .gaugeRead .. | .jetsConfig .. | .jetsQueue ..
  | .jetsEnable .. | .pwmConfig .. | .pwmConfigExpert .. | .timerConfig .. | .hkCalibrate .. | .hkCalibrationEnd ..
  | .hkCalibrateExpert .. | .bistRun .. | .bistResult .. | .bistSchedule .. | .bistAbort .. | .powerEnter .. | .powerRecover ..
  | .lanePower .. | .wakeConfig .. | .shedConfig .. | .shedConfigExpert .. | .powerStatus .. | .updateBegin .. | .updateChunk ..
  | .updateEnd .. | .updateActivate .. | .certRead .. | .logRead .. | .debugUnlock .. | .keyRevoke .. | .cmisProfile ..
  | .debugPortAccess .. | .commandTimeout .. | .snapshotValidate .. | .applyTcReached .. | .commitValidationTimeout ..
  | .blockCommit .. | .blockRevert .. | .islandClockSwitch .. | .timeBusEpochMessage .. | .gainLoopStep .. | .adcRotationMove ..
  | .lmsUpdate .. | .cdrLockDeclare .. | .cdrLockLoss .. | .signalQualified .. | .lossOfSignal .. | .gainSettled ..
  | .equaliserConverged .. | .innerFailWindowEnd .. | .missingMarkerLockLoss .. | .laneStateTimeout .. | .stageSwitch ..
  | .stageClockReady .. | .restartEnd .. | .txStageFallback .. | .timeMarkerArrival .. | .hello .. | .stepPropose ..
  | .stepConfirm .. | .tapRequest .. | .tapReply .. | .pdReport .. | .skewReportLo .. | .skewReportHi .. | .trafficStart ..
  | .laneReportTimer .. | .txTuningTimeout .. | .trafficBegin .. | .receiverForwardStart .. | .rillDataMarker .. | .txDisableAssert ..
  | .txDisableRelease .. | .eccCorrectable .. | .scrubPass .. | .hostSignalDetect ..
  | .hostTrainingComplete .. | .hostRateStep .. | .hostRxLocked .. | .hostAlignComplete .. | .hostLaneLoss ..
  | .hostRecoverRestored .. | .hostLaneTimeout .. | .hostrefLost .. | .matchOverrun .. | .portFaultClear .. | .ptpEventMessage ..
  | .lanePowerExitComplete .. | .referenceLost .. | .referenceQualified .. | .servoUpdate .. | .servoEmptyUpdate .. | .ppsInEdge ..
  | .ppsWindowMissed .. | .timeStepApply .. | .ppsOutEdge .. | .ppsOutTrailing .. | .asymEstimateRun .. | .rillFrameReceive ..
  | .ack .. | .rillCommand .. | .rillReply .. | .rillEvent .. | .probe .. | .probeAnswer .. | .assign .. | .assignAnswer ..
  | .epStage .. | .epCommit .. | .epAbort .. | .epRevert .. | .epQuery .. | .epochAnswer .. | .epochTcReached ..
  | .epochStagingExpiry .. | .fwSelect .. | .fwBlock .. | .fwQuery .. | .fwEnd .. | .fwAnswer .. | .undelivered ..
  | .rillAckTimeout .. | .rillBusyResend .. | .rillBusyLimit .. | .rillLinkDownTimeout .. | .triggerFiring .. | .triggerTimeoutFire ..
  | .triggerDecision .. | .rearm .. | .spillwayStartComplete .. | .spillwayUnitSend .. | .spwFaultStop ..
  | .timerTick .. | .gaugeTriggerEvent .. | .gaugePassStart .. | .gaugeResult .. | .jetsTick .. | .jetsDeglitchEnd ..
  | .jetsParkTimer .. | .pwmPeriodEnd .. | .pwmCentreEvent .. | .rotationStep .. | .engineSwap .. | .bistSliceEnd ..
  | .cisternTestSchedule .. | .watchdogExpiry .. | .clockLoss .. | .faultRecoveryComplete .. | .shedStep .. | .uvloFall ..
  | .powerOn .. | .railInWindow .. | .railStartTimeout .. | .shutdownRestart .. | .resetNAssert .. | .resetRelease .. | .bootRomRun ..
  | .bootDone .. | .logFlashCopy .. | .sleepRequest .. | .powerStateEntry .. | .wakeSource .. | .alwaysOnTimer ..
  | .wakeStageComplete .. | .wakeRetry .. | .commandReady .. | .recoveryWindowExpiry .. | .hostTrainingRequest ..
  | .lanePowerEntryComplete .. | .clockRestored .. | .epochCommandDeadline .. | .fwSelectTimeout .. | .lpmodeChange .. => true

end Sys2Proof
end

