-- ==== Sys2Proof/Tests/Slice0.lean ====
section
/-! SUPPORT. Tests of the model: ill-formed operands, values worked out from the manual, and, for every statement, a state and
operands that meet its hypotheses together. -/
namespace Sys2Proof.Tests
open Sys2Proof Sys2Proof.Machine

set_option maxRecDepth 20000

/-! ### States to test on -/

/-- A device that has booted and runs. -/
def tRun : State :=
  { State.reset with
    sys := { State.reset.sys with booted := true, pstate := 0, islands := Vector.replicate 64 true }
    tb := { State.reset.tb with running := true, counter := secs 1000 * 2 ^ 48 } }

/-- The same with dynamic address 8. -/
def tAddr : State := { tRun with bus := { tRun.bus with dynAddr := some 8 } }

/-- The running device with its limits locked. -/
def tLimits : State := { tRun with limits := { tRun.limits with locked := true } }

/-- A device in SLEEP. -/
def tAsleep : State := { tAddr with sys := { tAddr.sys with pstate := 2 } }

/-- A command with an opcode and a payload, tag 7. -/
def tCmd (op : Nat) (p : List Byte) : Cmd := { op, expert := bit op 11, barrier := false, noReply := false, tag := 7, payload := p }

/-- An expert session is open in Q0 and in Q2. -/
def expertOpen (s : State) : State := { s with q := { s.q with expert0 := true, expert2 := true } }

/-- A state with one more command received in a queue. -/
def received (s : State) (q : QId) (op : Nat) (p : List Byte) : State := s.receive q (tCmd op p) (0, 0, 0)

/-- Q0 holds its 16 commands. -/
def tFull : State := (List.range 16).foldl (fun s _ => received s .q0 0x1003 []) tAddr

/-- Eight rejections wait. -/
def tRejected : State := (List.range 8).foldl (fun s _ => s.reject .badCrc 7 0x1003 0) tAddr

/-- One reply of 16 bytes waits. -/
def tHeadPacket : Packet := { kind := .reply, epoch := 0, status := 0, tag := 7, code := 0x1003, queue := 0, payload := [], entry := none, int := true }

/-- One reply of 16 bytes waits, and an IBI is requested. -/
def tWaiting : State := { tAddr with bus := { tAddr.bus with stream := [tHeadPacket], ibiReq := true } }

/-- What a row answers, when it goes on. -/
def after (o : Host.Outcome State Fault Refusal) : State := match o with | .next s => s | _ => State.reset

/-- A command received alone in a queue is ready and meets a condition. -/
def met (s : State) (t : Instant) (q : QId) (op : Nat) (inQ1 : Bool) (p : List Byte) (pre : QId → QEntry → State → Bool) : Bool :=
  let s := received s q op p
  match (s.advanceTo t).acceptable q with
  | some e => decide (Ready s t q op inQ1 e) && pre q (s.accepted t e) (s.running t q e)
  | none => false

/-- The test `met` is what the statements about commands suppose: some entry is ready and meets the condition.  Outside Q2 every reply
fits. -/
theorem met_ready {s : State} {t : Instant} {q : QId} {op : Nat} {inQ1 : Bool} {p : List Byte} {pre : QId → QEntry → State → Bool}
    (h : met s t q op inQ1 p pre = true) (hq : q ≠ .q2) :
    ∃ e, Ready (received s q op p) t q op inQ1 e ∧ pre q ((received s q op p).accepted t e) ((received s q op p).running t q e) = true ∧
      ∀ r, Fits q r := by
  unfold met at h
  dsimp only at h
  split at h
  · simp only [Bool.and_eq_true, decide_eq_true_eq] at h
    exact ⟨_, h.1, h.2, fun _ c => absurd c hq⟩
  · cases h


/-- Every lane is in L2. -/
def allL2 (s : State) : State :=
  { s with
    lanes := vmap s.lanes fun _ l => { l with acq := { l.acq with power := .l2, powerTarget := .l2 } }
    hosts := vmap s.hosts fun _ h => { h with power := .l2, powerTarget := .l2 } }

/-- A COMMIT, not yet validated, of a Jets output enabled with a sample clock out of range. -/
def tBad : State :=
  { tRun with commits := [{ id := 0, kind := .commit, queue := .q0, tag := 7, seq := 0, blocks := [⟨.jets 0, false, none, false⟩]
                            snap := { tRun.shadow with jets := upd tRun.shadow.jets 0 fun p => { p with enable := true, div := 2 } }, tc := 65536000000009999, at' := 0
                            settled := false, cancelled := false, failed := none, last := ⟨0, false⟩ }] }

/-- Port 0 has no cause of a fault toward the line any more. -/
def tClear : State :=
  { tRun with hosts := vmap tRun.hosts fun _ h => { h with state := .active }
              ports := upd tRun.ports 0 fun p => { p with toLine := { p.toLine with faulted := true, clearSince := some 0 } } }

/-- A device in a role of the Rill tree. -/
def tRole (r : Role) : State := { tRun with active := { tRun.active with rill := { tRun.active.rill with role := r } } }

/-- A frame: its type, its direction, whether broadcast, hops, hops made, and body; route by port 3. -/
def tFrame (ftype : Nat) (up bcast : Bool) (hops hopPtr : Nat) (body : List Byte) : Frame :=
  { ftype, hops, hopPtr, up, bcast, route := 3, body }

/-- The same with a frame accepted on port 3. -/
def tTaken (s : State) (f : Frame) : State := s.modLink 3 fun l => { l with accepted := some f }

/-- A frame accepted on port 3 is of the kind that a row takes up. -/
def takesUp (f : Frame) (mine : Frame → Bool) : Bool := decide ((tTaken tRun f).rill.links[(3 : Fin 16)].accepted = some f) && mine f

/-- A link changed. -/
def tLink (s : State) (f : Link → Link) : State := s.modLink 3 f

/-- The bytes of a frame, received whole on port 3. -/
def tCame (bs : List Byte) : State := tLink (tRole .worker) fun l => { l with rxFrame := some bs }

/-- A link carries Rill and has one frame sent and not acknowledged. -/
def tSent : State := tLink tRun fun l => { l with lane := some 3, window := [(tFrame 1 false false 1 0 [], 0)], sendIdx := 1 }

/-- A manager whose port 3 names a link, with one worker known behind it. -/
def tManager : State :=
  { tRole .manager with lanes := upd tRun.lanes 3 fun l => { l with rx := { l.rx with peer := some 5 } }, rill := { (tRole .manager).rill with table := [{ serial := 5, route := 3, hops := 1, role := 1, present := true, id := some 6, lastFw := 0 }] } }

/-- An epoch's record. -/
def tRecord : EpochRecord := { id := 1, outcomes := [(6, 1)] }

/-- The manager holds a record. -/
def tEpoch (r : EpochRecord) : State := { tManager with rill := { tManager.rill with epochs := [r] } }

/-- The pending commit of an epoch, of one block. -/
def tStagedCommit : Commit :=
  { id := 0, kind := .epoch, queue := .q2, tag := 0, seq := 9, blocks := [⟨.rill, true, none, false⟩], snap := tRun.shadow, tc := 65536000000000, at' := 0
    settled := true, cancelled := false, failed := none, last := ⟨0, false⟩ }

/-- A worker's record, and its pending commit of one block. -/
def tStaged (outcome : Nat) : State :=
  { tRole .worker with
    commits := [tStagedCommit]
    rill := { (tRole .worker).rill with workerEpochs := [{ noRecord 1 with outcome, commit := some 0 }] } }

/-- An FW_BROADCAST whose SELECT went out at 0. -/
def tCast : State := { tManager with rill := { tManager.rill with fw := some { seq := 0, slot := 0, bytes := [], selecting := [(6, 0)] } } }

/-- The manager's slot A holds a verified image. -/
def tImage : State := tManager.modFw fun f => f.modSlot 0 fun x => { x with verified := true, data := [(0, 1), (1, 2)] }

/-- A DISCOVER accepted at 0. -/
def tOverEntry : QEntry := { cmd := tCmd 0x5010 (leBytes 4 9), seq := 0, local' := false, phase := .running, acceptedAt := 0, stamp := 0 }

/-- It has run since. -/
def tOver : State := { tManager with q := { tManager.q with q0 := [tOverEntry] } }

/-- Acquisition is armed, channel 0 takes line lane 0 through decimator 1. -/
def tSampling : State :=
  { tRun with active := { tRun.active with channel := upd tRun.active.channel 0 fun p => { p with source := 0x10, decim := 1 } }, acq := { tRun.acq with state := .armed } }

/-- EVT0 is the pulse output's, which uses it. -/
def tPulsing : State :=
  { tRun with owners := tRun.owners.set 0 { fn := .auxPps }, active := { tRun.active with pps := { tRun.active.pps with enable := true, evtMask := 1 } } }

/-- Trigger unit 0 is set, in the shadow sets, to watch line lane 0. -/
def tToArm : State :=
  { tRun with shadow := { tRun.shadow with weir := { tRun.shadow.weir with units := upd tRun.shadow.weir.units 0 fun p => { p with src := 0x10, cond := 1 } } } }

/-- EVT0, which a trigger would pulse, is the pulse output's. -/
def tArmBusy : State :=
  { tPulsing with shadow := { tRun.shadow with weir := { tRun.shadow.weir with evtMask := 1 } } }

/-- A record without a channel. -/
def tRecordOf : Record := { index := 0, slot := 0, cause := 1, primary := 0, forced := false, stamp := ⟨5, true⟩, dead := 0, missed := 0 }

/-- That record is in POST. -/
def tPost : State := { tRun with acq := { tRun.acq with state := .post, cur := some tRecordOf } }

/-- The same with a record limit. -/
def tLimit (n : Nat) : State := { tPost with active := { tPost.active with weir := { tPost.active.weir with recordLimit := n } } }

/-- Armed, unit 0 waits for a falling crossing after the rising one at 5. -/
def tWatching : State :=
  { tRun with
    active := { tRun.active with weir := { tRun.active.weir with units := upd tRun.active.weir.units 0 fun p => { p with cond := 4 } } }
    acq := { tRun.acq with state := .armed, units := upd tRun.acq.units 0 fun u => { u with rise := some 5 } } }

/-- The same, of a line lane that is stopped. -/
def tWatchingStopped : State :=
  { tWatching with active := { tWatching.active with weir := { tWatching.active.weir with units := upd tWatching.active.weir.units 0 fun p => { p with src := 0x10 } } } }

/-- A firing of unit 0. -/
def tFiring : Firing := { unit := 0, stamp := ⟨5, true⟩, decided := false }

/-- It waits for Weir, which combines its units by AND. -/
def tFired : State :=
  { tRun with
    active := { tRun.active with weir := { tRun.active.weir with unitMask := 1, and' := true } }
    acq := { tRun.acq with state := .armed, firings := [tFiring] } }

/-- A FORCE_TRIGGER waits for it. -/
def tForced : State := { tFired with acq := { tFired.acq with firings := [{ tFiring with forced := some 7 }] } }

/-- The same, with unit 1 to join it. -/
def tFiredAlone : State := { tFired with active := { tFired.active with weir := { tFired.active.weir with unitMask := 3 } } }

/-- Two burst channels are set to take line lane 0 whole. -/
def tTooFast : State :=
  { tRun with shadow := { tRun.shadow with channel := (upd (upd tRun.shadow.channel 0 fun p => { p with source := 0x10, decim := 0xF, burst := true, post := 16 }) 1
      fun p => { p with source := 0x10, decim := 0xF, burst := true, post := 16 }) } }

/-- The record port changed. -/
def tSpw (f : Spillway → Spillway) : State := { tRun with acq := { tRun.acq with spw := f tRun.acq.spw } }

/-- A ring is set in the shadow sets. -/
def tRing : State :=
  { tRun with shadow := { tRun.shadow with spillway := { base := 8, size := 64, noWrap := false } }
              acq := { tRun.acq with spw := { tRun.acq.spw with fault := false } } }

/-- And its channel 0 is to stream line lane 0 whole. -/
def tRingFast : State :=
  { tRing with shadow := { tRing.shadow with channel := upd tRing.shadow.channel 0 fun p => { p with source := 0x10, decim := 0xF, stream := true } } }

/-- The port, which streams channel 0, is stopping. -/
def tEnding : State :=
  { tSpw (fun w => { w with state := .stopping }) with
    active := { tRun.active with channel := upd tRun.active.channel 0 fun p => { p with source := 0x40, decim := 0xF, stream := true } } }

/-- The limits of Jets channel 3 are 0 and 9. -/
def tHeld : State :=
  { tRun with limits := { tRun.limits with jetsMin := tRun.limits.jetsMin.set 3 0, jetsMax := tRun.limits.jetsMax.set 3 9 } }

/-- PWM unit 1 has a duty limit. -/
def tPwm (n : Nat) : State := { tRun with limits := { tRun.limits with pwmMax := tRun.limits.pwmMax.set 1 n } }

/-- Converter 1, whose sequence runs, changed. -/
def tConv (f : GaugeConv → GaugeConv) : State :=
  { tRun with
    active := { tRun.active with gauge := upd tRun.active.gauge 1 fun p => { p with run := true } }
    hk := { tRun.hk with gauge := upd tRun.hk.gauge 1 f } }

/-- Jets channel 3 changed. -/
def tJet (f : JetsChan → JetsChan) : State := { tRun with hk := { tRun.hk with jets := upd tRun.hk.jets 3 f } }

/-- PWM unit 1 changed. -/
def tPwmU (f : PwmUnit → PwmUnit) : State := { tRun with hk := { tRun.hk with pwm := upd tRun.hk.pwm 1 f } }

/-- Timer 0 runs with a period of 2. -/
def tTimer : State :=
  { tRun with
    active := { tRun.active with timer := upd tRun.active.timer 0 fun p => { p with enable := true, period := 2, align := false } }
    hk := { tRun.hk with timer := upd tRun.hk.timer 0 fun u => { u with running := true, start := 0 } } }

/-- A periodic test of the burst region, some slices done. -/
def tTestRun (n : Nat) : TestRun := { id := 0x30, cmd := none, periodic := true, start := 0, stamp := ⟨0, false⟩, verdict := none, slices := n }

/-- The schedule runs. -/
def tTesting : State := tRun.modBist fun b => { b with enable := true }

/-- That test is in progress. -/
def tTest (n : Nat) : State := tTesting.modBist fun b => { b with runs := [tTestRun n] }

/-- Lane 0 is LOCKED, its last marker at 12 µs. -/
def tLocked : State :=
  { tTesting with lanes := upd tRun.lanes 0 fun l => { l with acq := { l.acq with state := .locked }, rx := { l.rx with markAt := some (usec 12) } } }

/-- A takeover of lane 0 by rotation. -/
def tTake : Takeover := { lane := 0, kind := .periodic, start := 0 }

/-- It is in progress. -/
def tSwap : State := tLocked.modBist fun b => { b with takeover := some tTake }

/-- Line lane 0 is on its way from a power state to another. -/
def tPowering (p tg : LanePower) : State :=
  { tRun with lanes := upd tRun.lanes 0 fun l => { l with acq := { l.acq with power := p, powerTarget := tg, powerSince := 0 } } }

/-- Slot B is open for an image of 512 bytes. -/
def tOpen : State := tRun.modFw fun f => f.open' 1 512 false

/-- It is open for an image of no bytes. -/
def tOpen0 : State := tRun.modFw fun f => f.open' 1 0 false

/-- It has received the header of an image without a body. -/
def tReceived : State :=
  tRun.modFw fun f => (f.open' 1 512 false).modSlot 1 fun x => { x with data := offsets 0 (leBytes 4 0x3208A55A ++ leBytes 4 0x30101 ++ List.replicate 504 0) }

/-- An image that verifies. -/
def tImageOf : Image :=
  { headerOk := true, config := false, options := 3, version := 2, rollback := 0, keySlot := some 0, sigOk := true, digestOk := true, digest := [], body := [] }

/-- Slot B holds it. -/
def tUpdate : State := tRun.modFw fun f => { (f.modSlot 1 fun x => { x with image := some tImageOf, verified := true }) with keys := Vector.replicate 4 true }

/-- The boot ROM is due. -/
def tPowered : State := (tRun.modFw fun f => { f with romDue := some .reset }).modPow fun p => { p with held := false, powered := true }

/-- A boot has come to its end. -/
def tBooting : State := tRun.modFw fun f => { f with boot := some (.reset, 0) }

/-- Two keys are programmed, and the debug scope is not open. -/
def tKeys : State := tRun.modFw fun f => { f with keys := f.keys.set 2 true, runSlot := none }

/-- The debug port is unlocked for every scope. -/
def tDebug : State := (tRun.modFw fun f => { f with dbgScope := some 7 }).modPow fun p => { p with held := false }

/-- A log entry of severity 2. -/
def tEntry : LogEntry :=
  { seq := 0, code := 0x0507, cls := 0, severity := 2, inFlash := false, source := 0xFFFF, boot := 0, stamp := ⟨0, false⟩, timeValid := false, detail := [], at' := 0 }

/-- It waits for its copy. -/
def tLogged : State := (tRun.modSys fun y => { y with log := [tEntry] }).modPow fun p => { p with held := false }

/-- The processor runs, out of reset. -/
def tAlive : State := tRun.modPow fun p => { p with held := false }

/-- A discovery is running. -/
def tDiscovering : State :=
  tManager.modRill fun r => { r with discovery := some { seq := 0, maxHops := 1, autoAssign := false, depth := 1, frontier := [], next := [], outstanding := [], assigning := [], fresh := 0, assigned := 0, unreachable := 0, loops := 0, tableFull := false, deeper := false } }

/-! ### Operands that the checks refuse -/

theorem test_ill_addresses :
    (Instr.privateWrite 0 128 none false []).wellFormed = false ∧ (Instr.privateWrite 0 8 (some 256) false []).wellFormed = false ∧
      (Instr.privateRead 0 128 none 1).wellFormed = false ∧ (Instr.privateRead 0 8 (some 256) 1).wellFormed = false ∧
      (Instr.entdaa 0 (some 128)).wellFormed = false ∧ (Instr.setdasa 0 128 8).wellFormed = false ∧ (Instr.setdasa 0 8 128).wellFormed = false ∧
      (Instr.setnewda 0 128 8).wellFormed = false ∧ (Instr.setnewda 0 8 128).wellFormed = false := by decide

theorem test_ill_getters :
    (Instr.getpid 0 128).wellFormed = false ∧ (Instr.getbcr 0 128).wellFormed = false ∧ (Instr.getdcr 0 128).wellFormed = false ∧
      (Instr.getstatus 0 128).wellFormed = false ∧ (Instr.getmwl 0 128).wellFormed = false ∧ (Instr.getmrl 0 128).wellFormed = false := by decide

theorem test_ill_setters :
    (Instr.setmwl 0 128 1).wellFormed = false ∧ (Instr.setmwl 0 8 65536).wellFormed = false ∧ (Instr.setmrl 0 128 1 1).wellFormed = false ∧
      (Instr.setmrl 0 8 65536 1).wellFormed = false ∧ (Instr.setmrl 0 8 1 256).wellFormed = false ∧ (Instr.enec 0 (some 128) 1).wellFormed = false ∧
      (Instr.enec 0 none 256).wellFormed = false ∧ (Instr.disec 0 (some 128) 1).wellFormed = false ∧ (Instr.disec 0 none 256).wellFormed = false := by decide

theorem test_ill_rstact :
    (Instr.rstactNoReset 0 (.rstact (some 128) 0)).wellFormed = false ∧ (Instr.rstactNoReset 0 (.rstact none 2)).wellFormed = false ∧
      (Instr.rstactNoReset 0 (.rstact none 256)).wellFormed = false ∧ (Instr.rstactNoReset 0 (.direct 128)).wellFormed = false ∧
      (Instr.rstactTransferReset 0 (some 128)).wellFormed = false ∧
      (Instr.rstactFullReset 0 (some 128)).wellFormed = false := by decide

theorem test_ill_words :
    (Instr.markerReceive 0 (.line 0) (2 ^ 144) ⟨0, [], [], [], false⟩).wellFormed = false ∧
      (Instr.markerReceive 0 (.relay 0) 0 ⟨0, [], [], [2 ^ 144], false⟩).wellFormed = false ∧
      (Instr.residueMismatch 0 (.lineRx 0 147600)).wellFormed = false ∧
      (Instr.residueMismatch 0 (.lineTx 0 147600)).wellFormed = false ∧
      (Instr.eccUncorrectable 0 (.engine 0 147600)).wellFormed = false := by decide

theorem test_bypass_levels :
    (List.range 4).map (bypassCode false) = [-127, -42, 42, 127] ∧ [0, 3].map (bypassCode true) = [-127, 127] := by decide

theorem test_ill_pairs : (Instr.txMarker 0 (.line 0, ⟨0, [[2 ^ 10880]]⟩)).wellFormed = false := by decide +kernel

theorem test_ill_measures :
    (Instr.attest 0 .q0 []).wellFormed = false ∧ (Instr.recordComplete 0 [⟨3, []⟩, ⟨3, []⟩]).wellFormed = false ∧
      (Instr.thermalMonitorRead 0 []).wellFormed = false ∧ (Instr.supplyFault 0 256).wellFormed = false ∧
      (Instr.supplyComparatorUpdate 0 65536).wellFormed = false ∧ (Instr.supplyShutdown 0 256).wellFormed = false ∧
      (Instr.wakeStageTimeout 0 256).wellFormed = false := by decide

/-- What the checks let through. -/
theorem test_well_formed :
    (Instr.privateWrite 0 8 none false [1]).wellFormed = true ∧ (Instr.setmrl 0 8 1040 5).wellFormed = true ∧
      (Instr.supplyShutdown 0 255).wellFormed = true ∧ (Instr.apply 0 .q0).wellFormed = true := by decide

/-! ### Values that the manual gives -/

/-- R69: the check value of the CRC-32C. -/
theorem test_crc32c : crc32c [0x31, 0x32, 0x33, 0x34, 0x35, 0x36, 0x37, 0x38, 0x39] = 0xE3069283 := by decide

/-- R260: 1,000 s + 250 ns + 0x8000, in byte order. -/
theorem test_time_bytes :
    timeWords (secs 1000 + nsec 250 + 0x8000) = [0x00, 0x80, 0xFA, 0x00, 0x00, 0x00, 0xE8, 0x03, 0x00, 0x00, 0x00, 0x00] := by decide

/-- R530: halves go away from zero. -/
theorem test_round : roundDiv 5 2 = 3 ∧ roundDiv (-5) 2 = -3 := by decide

/-- The example of chapter 2: the first 16 bytes of a barrier APPLY of LN2 and LN3 transmit. -/
theorem test_apply_packet :
    ((Cmd.bytes 0 { op := 0x1010, expert := false, barrier := true, noReply := false, tag := 0x0102, payload := [2, 0, 0, 0, 2, 1, 3, 1] }).take 16) =
      [0xA5, 0x40, 0x08, 0x00, 0x10, 0x10, 0x02, 0x01, 0x02, 0x00, 0x00, 0x00, 0x02, 0x01, 0x03, 0x01] := by decide

/-- The example of chapter 2: the header of its reply of 28 bytes. -/
theorem test_apply_reply :
    ((Packet.bytes { kind := .reply, epoch := 0, status := 0, tag := 0x0102, code := 0x1010, queue := 0, payload := List.replicate 28 0, entry := none
                     int := false }).take 12) = [0x5A, 0, 0, 0, 2, 1, 0x10, 0x10, 0x1C, 0, 0, 0] := by decide

/-- The example of chapter 5: the marker that closes superframe 4,000 of LN2 is a time marker, and its leading 32 bits. -/
theorem test_marker : markerType 4000 = .time ∧ markerBlock 4000 2 5 / 2 ^ 112 = 0x6F1A7D02 ∧ trafficStart (4001 - 64) = 4005 := by decide

/-- The example of chapter 5: the symbols of the sync pattern at stage C. -/
theorem test_symbols : pamSymbols 8 0x6F1A = [1, 3, 2, 2, 0, 1, 3, 3] := by decide

/-- The example of chapter 5: one error in bit 143 is corrected; with another in bit 8 the word is an inner failure. -/
theorem test_inner : syndrome (2 ^ 143) = 0xB1 ∧ hardDecode (2 ^ 143) = some 0 ∧ syndrome (2 ^ 143 + 2 ^ 8) = 0xB2 ∧ hardDecode (2 ^ 143 + 2 ^ 8) = none := by
  decide

/-- The example of chapter 7: e = +2.000 ns in LOCKED makes F 0x453C_D624. -/
theorem test_slew :
    (slew { source := .line } (-1407374884 / 2 ^ 48) 131072).1 = -1371330084 / 2 ^ 48 ∧
      (slew { source := .line } (-1407374884 / 2 ^ 48) 131072).2.1 = 0x453CD624 := by
  have h : tu { source := .line } = 2199023255552 / 25 := by simp [tu]; norm_num
  have hr : roundRat (((-1161614884 : Int) : Rat)) = -1161614884 := by simp [roundRat, roundDiv]
  have hx : (2 : Rat) ^ 48 * (8388608 / 16777216 * ((131072 : Int) / (2199023255552 / 25)) +
      (-1407374884 / 2 ^ 48 + 1441792 / 16777216 * ((131072 : Int) / (2199023255552 / 25)))) = ((-1161614884 : Int) : Rat) := by norm_num
  refine ⟨?_, ?_⟩
  · simp only [slew, h]; norm_num
  · simp only [slew, h]
    rw [show ((0x800000 : Nat) : Rat) = 8388608 by norm_num, show ((0x160000 : Nat) : Rat) = 1441792 by norm_num, hx, hr]; decide

/-- The example of chapter 8, in units of 0.1 ps: TURN_C, L_SUM and twice the offset. -/
theorem test_offset :
    turnOf 1520000000 1489280012 30000 23750 = 30773738 ∧ lSumOf 2010027500 1000000000 25000 28750 30773738 = 979200012 ∧
      sampleOf 2010027500 1520000000 25000 30000 979200012 (-12) = 2 * 372500 := by decide

/-- The example of chapter 11: FALL of a duty of 30 % at a period of 500. -/
theorem test_fall : roundDivN (19661 * 500) 65536 = 150 := by decide

/-! ### The cases of a frame that a row takes up -/

/-- A frame accepted on port 3 of a device in a role. -/
def tMeets (r : Role) (f : Frame) : Bool :=
  decide ((tTaken (tRole r) f).rill.links[(3 : Fin 16)].accepted = some f ∧ (tTaken (tRole r) f).active.rill.role = r)

theorem test_frame_up_here : tMeets .manager (tFrame 2 true false 1 1 []) = true ∧ (tFrame 2 true false 1 1 []).up = true := by decide
theorem test_frame_down_here :
    tMeets .worker (tFrame 1 false false 1 1 []) = true ∧ (tFrame 1 false false 1 1 []).hops ≤ (tFrame 1 false false 1 1 []).hopPtr := by decide
theorem test_frame_broadcast : tMeets .worker (tFrame 8 false true 1 0 []) = true ∧ (tFrame 8 false true 1 0 []).bcast = true := by decide
theorem test_frame_transit :
    tMeets .worker (tFrame 1 false false 2 1 []) = true ∧ (tFrame 1 false false 2 1 []).hopPtr < (tFrame 1 false false 2 1 []).hops := by decide
theorem test_frame_up_transit : tMeets .worker (tFrame 2 true false 2 1 []) = true ∧ (tFrame 2 true false 2 1 []).up = true := by decide

/-! ### States and operands that meet the statements' hypotheses -/

theorem witness_CccReads_1 :
    ((tAddr).bus.dynAddr = some 8) ∧ ((tAddr).sys.pow.held = false) := by decide

theorem witness_CccReads_2 :
    ((tAddr).bus.dynAddr = some 8) ∧ ((tAddr).sys.pow.held = false) := by decide

theorem witness_CccReads_3 :
    ((tAddr).bus.dynAddr = some 8) ∧ ((tAddr).sys.pow.held = false) := by decide

theorem witness_CccReads_4 :
    ((tAddr).bus.dynAddr = some 8) ∧ ((tAddr).sys.pow.held = false) := by decide

theorem witness_CccReads_5 :
    ((tAddr).bus.dynAddr = some 8) ∧ ((tAddr).sys.pow.held = false) := by decide

theorem witness_CccReads_6 :
    ((tAddr).bus.dynAddr = some 8) ∧ ((tAddr).sys.pow.held = false) := by decide

theorem witness_CccReads_7 :
    (tAddr.bus.dynAddr ≠ some 9) := by decide

theorem witness_CccWrites_1 :
    ((tAddr).bus.dynAddr = some 8) ∧ ((tAddr).sys.pow.held = false) := by decide

theorem witness_CccWrites_2 :
    ((tAddr).bus.dynAddr = some 8) ∧ ((tAddr).sys.pow.held = false) := by decide

theorem witness_CccWrites_3 :
    ((tAddr).bus.dynAddr = some 8) ∧ ((tAddr).sys.pow.held = false) := by decide

theorem witness_CccWrites_4 :
    ((tAddr).bus.dynAddr = some 8) ∧ ((tAddr).sys.pow.held = false) := by decide

theorem witness_CccWrites_5 :
    ((tAddr).bus.dynAddr = some 8) ∧ ((tAddr).sys.pow.held = false) := by decide

theorem witness_CccWrites_6 :
    ((tAddr).bus.dynAddr = some 8) ∧ ((tAddr).sys.pow.held = false) := by decide

theorem witness_CccWrites_7 :
    ((tAddr).bus.dynAddr = some 8) ∧ ((tAddr).sys.pow.held = false) := by decide

theorem witness_CccWrites_8 :
    (1 ≠ 0) := by decide

theorem witness_CccWrites_9 :
    (tAddr.sys.pow.held = false) := by decide

theorem witness_CccWrites_10 :
    (tAddr.sys.pow.held = false) := by decide

theorem witness_AddressGiven_1 :
    (tRun.bus.dynAddr = none) ∧ (tRun.sys.pow.held = false) := by decide

theorem witness_AddressGiven_2 :
    (tRun.bus.dynAddr = none) ∧ (tRun.sys.pow.held = false) := by decide

theorem witness_AddressGiven_3 :
    (tAddr.bus.dynAddr = some 8) ∧ (tAddr.sys.pow.held = false) := by decide

theorem witness_AddressGiven_4 :
    (tAddr.bus.dynAddr = some 8) := by decide

theorem witness_PacketChecks_1 :
    (tAddr.takes 8) ∧ (((([1, 2, 3] : List Byte).take tAddr.bus.mwl).length < 8 ∨ bits (wordAt (([1, 2, 3] : List Byte).take tAddr.bus.mwl) 0) 0 8 ≠ 0xA5)) := by decide

theorem witness_PacketChecks_2 :
    (tAddr.takes 8) ∧ (8 ≤ (([0xA5, 0, 0, 0, 0, 0, 0, 0] : List Byte).take tAddr.bus.mwl).length) ∧ (bits (wordAt (([0xA5, 0, 0, 0, 0, 0, 0, 0] : List Byte).take tAddr.bus.mwl) 0) 0 8 = 0xA5) ∧ ((1024 < bits (wordAt (([0xA5, 0, 0, 0, 0, 0, 0, 0] : List Byte).take tAddr.bus.mwl) 0) 16 16 ∨ (([0xA5, 0, 0, 0, 0, 0, 0, 0] : List Byte).take tAddr.bus.mwl).length ≠ 12 + 4 * ceilDiv (bits (wordAt (([0xA5, 0, 0, 0, 0, 0, 0, 0] : List Byte).take tAddr.bus.mwl) 0) 16 16) 4 ∨ tAddr.bus.mwl < ([0xA5, 0, 0, 0, 0, 0, 0, 0] : List Byte).length)) := by decide

theorem witness_PacketChecks_3 :
    (tAddr.takes 8) ∧ (8 ≤ (([0xA5, 0, 0, 0, 0, 0, 0, 0, 0, 0, 0, 0] : List Byte).take tAddr.bus.mwl).length) ∧ (bits (wordAt (([0xA5, 0, 0, 0, 0, 0, 0, 0, 0, 0, 0, 0] : List Byte).take tAddr.bus.mwl) 0) 0 8 = 0xA5) ∧ (bits (wordAt (([0xA5, 0, 0, 0, 0, 0, 0, 0, 0, 0, 0, 0] : List Byte).take tAddr.bus.mwl) 0) 16 16 ≤ 1024 ∧ (([0xA5, 0, 0, 0, 0, 0, 0, 0, 0, 0, 0, 0] : List Byte).take tAddr.bus.mwl).length = 12 + 4 * ceilDiv (bits (wordAt (([0xA5, 0, 0, 0, 0, 0, 0, 0, 0, 0, 0, 0] : List Byte).take tAddr.bus.mwl) 0) 16 16) 4 ∧ ([0xA5, 0, 0, 0, 0, 0, 0, 0, 0, 0, 0, 0] : List Byte).length ≤ tAddr.bus.mwl) ∧ (ofLe ((([0xA5, 0, 0, 0, 0, 0, 0, 0, 0, 0, 0, 0] : List Byte).take tAddr.bus.mwl).drop ((([0xA5, 0, 0, 0, 0, 0, 0, 0, 0, 0, 0, 0] : List Byte).take tAddr.bus.mwl).length - 4)) ≠ crc32c ((([0xA5, 0, 0, 0, 0, 0, 0, 0, 0, 0, 0, 0] : List Byte).take tAddr.bus.mwl).take ((([0xA5, 0, 0, 0, 0, 0, 0, 0, 0, 0, 0, 0] : List Byte).take tAddr.bus.mwl).length - 4))) := by decide

theorem witness_PacketChecks_4 :
    (tAddr.takes 8) ∧ (8 ≤ (((tCmd 0x1003 []).bytes 2).take tAddr.bus.mwl).length) ∧ (bits (wordAt (((tCmd 0x1003 []).bytes 2).take tAddr.bus.mwl) 0) 0 8 = 0xA5) ∧ (bits (wordAt (((tCmd 0x1003 []).bytes 2).take tAddr.bus.mwl) 0) 16 16 ≤ 1024 ∧ (((tCmd 0x1003 []).bytes 2).take tAddr.bus.mwl).length = 12 + 4 * ceilDiv (bits (wordAt (((tCmd 0x1003 []).bytes 2).take tAddr.bus.mwl) 0) 16 16) 4 ∧ ((tCmd 0x1003 []).bytes 2).length ≤ tAddr.bus.mwl) ∧ (ofLe ((((tCmd 0x1003 []).bytes 2).take tAddr.bus.mwl).drop ((((tCmd 0x1003 []).bytes 2).take tAddr.bus.mwl).length - 4)) = crc32c ((((tCmd 0x1003 []).bytes 2).take tAddr.bus.mwl).take ((((tCmd 0x1003 []).bytes 2).take tAddr.bus.mwl).length - 4))) ∧ ((1 < bits (wordAt (((tCmd 0x1003 []).bytes 2).take tAddr.bus.mwl) 0) 8 4 ∨ bit (wordAt (((tCmd 0x1003 []).bytes 2).take tAddr.bus.mwl) 0) 12 = true)) := by decide

theorem witness_PacketChecks_5 :
    (tFull.takes 8) ∧ (8 ≤ (((tCmd 0x1003 []).bytes 0).take tFull.bus.mwl).length) ∧ (bits (wordAt (((tCmd 0x1003 []).bytes 0).take tFull.bus.mwl) 0) 0 8 = 0xA5) ∧ (bits (wordAt (((tCmd 0x1003 []).bytes 0).take tFull.bus.mwl) 0) 16 16 ≤ 1024 ∧ (((tCmd 0x1003 []).bytes 0).take tFull.bus.mwl).length = 12 + 4 * ceilDiv (bits (wordAt (((tCmd 0x1003 []).bytes 0).take tFull.bus.mwl) 0) 16 16) 4 ∧ ((tCmd 0x1003 []).bytes 0).length ≤ tFull.bus.mwl) ∧ (ofLe ((((tCmd 0x1003 []).bytes 0).take tFull.bus.mwl).drop ((((tCmd 0x1003 []).bytes 0).take tFull.bus.mwl).length - 4)) = crc32c ((((tCmd 0x1003 []).bytes 0).take tFull.bus.mwl).take ((((tCmd 0x1003 []).bytes 0).take tFull.bus.mwl).length - 4))) ∧ (bits (wordAt (((tCmd 0x1003 []).bytes 0).take tFull.bus.mwl) 0) 8 4 ≤ 1 ∧ bit (wordAt (((tCmd 0x1003 []).bytes 0).take tFull.bus.mwl) 0) 12 = false) ∧ (16 ≤ (tFull.q.get (if bits (wordAt (((tCmd 0x1003 []).bytes 0).take tFull.bus.mwl) 0) 8 4 = 0 then QId.q0 else .q1)).length) := by decide

theorem witness_PacketChecks_6 :
    (tAddr.takes 8) ∧ (8 ≤ (((tCmd 0x1003 []).bytes 1).take tAddr.bus.mwl).length) ∧ (bits (wordAt (((tCmd 0x1003 []).bytes 1).take tAddr.bus.mwl) 0) 0 8 = 0xA5) ∧ (bits (wordAt (((tCmd 0x1003 []).bytes 1).take tAddr.bus.mwl) 0) 16 16 ≤ 1024 ∧ (((tCmd 0x1003 []).bytes 1).take tAddr.bus.mwl).length = 12 + 4 * ceilDiv (bits (wordAt (((tCmd 0x1003 []).bytes 1).take tAddr.bus.mwl) 0) 16 16) 4 ∧ ((tCmd 0x1003 []).bytes 1).length ≤ tAddr.bus.mwl) ∧ (ofLe ((((tCmd 0x1003 []).bytes 1).take tAddr.bus.mwl).drop ((((tCmd 0x1003 []).bytes 1).take tAddr.bus.mwl).length - 4)) = crc32c ((((tCmd 0x1003 []).bytes 1).take tAddr.bus.mwl).take ((((tCmd 0x1003 []).bytes 1).take tAddr.bus.mwl).length - 4))) ∧ (bits (wordAt (((tCmd 0x1003 []).bytes 1).take tAddr.bus.mwl) 0) 8 4 ≤ 1 ∧ bit (wordAt (((tCmd 0x1003 []).bytes 1).take tAddr.bus.mwl) 0) 12 = false) ∧ ((tAddr.q.get (if bits (wordAt (((tCmd 0x1003 []).bytes 1).take tAddr.bus.mwl) 0) 8 4 = 0 then QId.q0 else .q1)).length < 16) := by decide

theorem witness_PacketRoundTrip_1 :
    (1 ≤ 1) ∧ ((tCmd 0x2841 [1, 2, 3, 4, 5]).op < 65536) ∧ ((tCmd 0x2841 [1, 2, 3, 4, 5]).tag < 65536) ∧ ((tCmd 0x2841 [1, 2, 3, 4, 5]).payload.length ≤ 1024) := by decide

theorem witness_RejectionPacket_1 :
    (tAddr.waiting .rejection < 8) := by decide

theorem witness_RejectionPacket_2 :
    (8 ≤ tRejected.waiting .rejection) := by decide

theorem witness_PrivateRead_1 :
    (tWaiting.bus.dynAddr = some 8) ∧ (tWaiting.sys.booted = true) ∧ (tWaiting.sys.pstate ≤ 1) ∧ (tWaiting.streamBytes ≠ []) := by decide

theorem witness_PrivateRead_2 :
    (tWaiting.bus.dynAddr = some 8) ∧ (tWaiting.sys.booted = true) ∧ (tWaiting.sys.pstate ≤ 1) ∧ (tWaiting.bus.stream = tHeadPacket :: ([] : List Packet)) ∧ (tWaiting.bus.readPos + 4 < tHeadPacket.bytes.length) ∧ (4 ≤ tWaiting.bus.mrl) := by decide

theorem witness_PrivateRead_3 :
    (tWaiting.bus.dynAddr = some 8) ∧ (tWaiting.sys.booted = true) ∧ (tWaiting.sys.pstate ≤ 1) ∧ (tWaiting.bus.stream = tHeadPacket :: ([] : List Packet)) ∧ (tWaiting.bus.readPos < tHeadPacket.bytes.length) ∧ (tWaiting.bus.readPos + 16 = tHeadPacket.bytes.length) ∧ (16 ≤ tWaiting.bus.mrl) := by decide

theorem witness_PrivateRead_4 :
    (tAddr.sys.pstate ≤ 1) ∧ (tAddr.streamBytes = []) := by decide

theorem witness_IbiAnswered_1 :
    ((tWaiting.advanceTo 3).ibiCode = some 0xA1) := by decide

theorem witness_IbiAnswered_2 :
    ((tWaiting.advanceTo 3).ibiCode = some 0xA1) := by decide

theorem witness_CmisWindow_1 :
    (tRun.cmisOpen = true) := by decide

theorem witness_CmisWindow_2 :
    (State.reset.bootDone = false) := by decide

theorem witness_CmisWindow_3 :
    (tRun.cmisOpen = true) ∧ (tRun.bootDone = true) := by decide

theorem witness_CmisWindow_4 :
    (tRun.bootDone = true) ∧ (tRun.sys.fw.cmisKey 30 = some 30) ∧ (cmisWritable 30 = true) ∧ (30 ≠ 126) ∧ (30 ≠ 127) := by decide

theorem witness_CmisWindow_5 :
    ((tRun.modSys fun y => { y with booted := false }).cmisOpen = true) ∧ ((tRun.modSys fun y => { y with booted := false }).bootDone = false) ∧ (([1, 2] : List Byte).length ≤ 8) := by decide

theorem witness_CmisWindow_6 :
    (tAsleep.sys.pstate = 2 ∨ tAsleep.sys.pstate = 3 ∨ tAsleep.sys.pow.held = true) := by decide

theorem witness_StatusReads_1 :
    met (tRun) 5 .q1 0x1001 true (leBytes 4 3) (fun _ e _ => decide (e.len = 4 ∧ rsvHigh (e.w 0) 2 = true)) = true := by decide

theorem witness_StatusReads_2 :
    met (tRun) 5 .q0 0x1003 true [1, 2, 3] (fun _ _ _ => decide (True)) = true := by decide

theorem witness_StatusReads_3 :
    met (tRun) 5 .q0 0x1032 true (leBytes 4 0x0001) (fun _ e _ => decide (e.len = 4 ∧ rsvHigh (e.w 0) 16 = true ∧ (limitScope (bits (e.w 0) 0 8)).any (fun x => decide (bits (e.w 0) 8 8 < x.1)) = true)) = true := by decide

theorem witness_StatusReads_4 :
    met (tRun) 5 .q0 0x1040 true (leBytes 4 0x10) (fun _ e _ => decide (e.len = 4 ∧ rsvHigh (e.w 0) 8 = true ∧ (resourceIndex (bits (e.w 0) 0 8)).isSome = true)) = true := by decide

theorem witness_SystemWrites_1 :
    met (tRun) 5 .q0 0x1004 false (leBytes 4 5 ++ leBytes 4 2) (fun _ e _ => decide (e.len = 8 ∧ rsvHigh (e.w 0) 14 = true ∧ rsvHigh (e.w 1) 3 = true)) = true := by decide

theorem witness_SystemWrites_2 :
    met (tRun) 5 .q0 0x1020 false [] (fun _ e _ => decide (e.len = 0)) = true := by decide

theorem witness_SystemWrites_3 :
    met (tRun) 5 .q0 0x1021 false [] (fun _ e _ => decide (e.len = 0)) = true := by decide

theorem witness_SystemWrites_4 :
    met (tRun) 5 .q0 0x1030 false (leBytes 4 0x0301 ++ leBytes 4 0x20001000 ++ leBytes 12 0) (fun _ e s => decide (e.len = 20 ∧ s.limits.locked = false ∧ limitOk (bits (e.w 0) 0 8) (e.w 1) (e.w 2) (e.w 3) (e.w 4) = true ∧ rsvHigh (e.w 0) 16 = true ∧ (limitScope (bits (e.w 0) 0 8)).any (fun x => !x.2 && decide (bits (e.w 0) 8 8 < x.1)) = true)) = true := by decide

theorem witness_SystemWrites_5 :
    met (tRun) 5 .q0 0x1030 false (leBytes 4 0xFF01 ++ leBytes 4 0x20001000 ++ leBytes 12 0) (fun _ e s => decide (e.len = 20 ∧ s.limits.locked = false ∧ limitOk (bits (e.w 0) 0 8) (e.w 1) (e.w 2) (e.w 3) (e.w 4) = true ∧ rsvHigh (e.w 0) 16 = true ∧ bits (e.w 0) 8 8 = 0xFF ∧ (limitScope (bits (e.w 0) 0 8)).any (fun x => !x.2) = true)) = true := by decide

theorem witness_SystemWrites_6 :
    met (tRun) 5 .q0 0x1050 false (leBytes 4 2) (fun _ e _ => decide (e.len = 4 ∧ rsvHigh (e.w 0) 2 = true)) = true := by decide

theorem witness_LimitsLock_1 :
    met (tRun) 5 .q0 0x1031 false [] (fun _ e s => decide (e.len = 0 ∧ s.limits.locked = false)) = true := by decide

theorem witness_LimitsLock_2 :
    met ({ tRun with limits := { tRun.limits with locked := true } }) 5 .q0 0x1031 false [] (fun _ e s => decide (e.len = 0 ∧ s.limits.locked = true)) = true := by decide

theorem witness_LimitsLock_3 :
    met ({ tRun with limits := { tRun.limits with locked := true } }) 5 .q0 0x1030 false (leBytes 4 0x0301 ++ leBytes 4 0x20001000 ++ leBytes 12 0) (fun _ e s => decide (e.len = 20 ∧ s.limits.locked = true ∧ limitOk (bits (e.w 0) 0 8) (e.w 1) (e.w 2) (e.w 3) (e.w 4) = true ∧ rsvHigh (e.w 0) 16 = true ∧ (limitScope (bits (e.w 0) 0 8)).any (fun x => !x.2 && decide (bits (e.w 0) 8 8 < x.1)) = true)) = true := by decide

theorem witness_AbortDiscards_1 :
    met (tRun.receive .q0 (tCmd 0x1003 []) (0, 0, 0)) 5 .q1 0x1002 true (leBytes 4 1) (fun _ e _ => decide (e.len = 4 ∧ rsv (e.w 0) 1 15 = true)) = true := by decide

theorem witness_IdentityReads_1 :
    met (tRun) 5 .q1 0x1000 true [] (fun _ e _ => decide (e.len = 0)) = true := by decide

theorem witness_IdentityReads_2 :
    ((List.replicate 96 (0 : Byte)).length = 96) ∧ met (tRun) 5 .q0 0xA010 false (leBytes 32 5) (fun _ e _ => decide (e.len = 32)) = true := by decide

theorem witness_IdentityReads_3 :
    (met tRun 5 .q0 0xA011 true (leBytes 8 1) (fun _ e _ => decide (e.len = 8 ∧ rsvHigh (e.w 0) 10 = true ∧ 1 ≤ bits (e.w 0) 0 10 ∧ bits (e.w 0) 0 10 ≤ 1012 ∧ e.w 1 = 0)) = true) ∧ 0 < certTotal := ⟨by decide, Nat.succ_pos _⟩

theorem witness_IdentityReads_4 :
    met (tRun.logEntry 0x0501 0 0 0xFFFF []) 5 .q0 0xA020 true (leBytes 8 0x200) (fun _ e _ => decide (e.len = 8 ∧ rsv (e.w 0) 1 7 = true ∧ rsvHigh (e.w 0) 13 = true ∧ 1 ≤ bits (e.w 0) 8 5 ∧ bits (e.w 0) 8 5 ≤ 21)) = true := by decide

theorem witness_LineLaneWrites_1 :
    met (tRun) 5 .q0 0x2000 false (leBytes 4 0x103) (fun _ e _ => decide (e.len = 4 ∧ rsv (e.w 0) 9 3 = true ∧ rsvHigh (e.w 0) 12 = true)) = true := by decide

theorem witness_LineLaneWrites_2 :
    met (tRun) 5 .q0 0x2001 false (leBytes 4 0x10101) (fun _ e _ => decide (e.len = 4 ∧ rsvHigh (e.w 0) 24 = true)) = true := by decide

theorem witness_LineLaneWrites_3 :
    met (tRun) 5 .q0 0x2011 false (leBytes 4 0x2005) (fun _ e _ => decide (e.len = 4 ∧ rsvHigh (e.w 0) 16 = true ∧ 16 ≤ bits (e.w 0) 8 8 ∧ bits (e.w 0) 8 8 ≤ 80)) = true := by decide

theorem witness_LineLaneWrites_4 :
    met (tRun) 5 .q0 0x2014 false (leBytes 4 0x640001 ++ leBytes 4 0xFF ++ leBytes 4 0x20001 ++ leBytes 4 9) (fun _ e _ => decide (e.len = 16 ∧ rsv (e.w 0) 8 8 = true ∧ rsv (e.w 1) 8 8 = true ∧ rsvHigh (e.w 3) 16 = true ∧ channelOk (bits (e.w 1) 0 8) = true ∧ (bits (e.w 1) 0 8 = 0xFF ∨ bits (e.w 1) 16 16 ≠ 0) ∧ bits (e.w 2) 0 16 < bits (e.w 2) 16 16)) = true := by decide

theorem witness_LineLaneWrites_5 :
    met (tRun) 5 .q0 0x2022 false (leBytes 4 0x101) (fun _ e _ => decide (e.len = 4 ∧ rsvHigh (e.w 0) 9 = true)) = true := by decide

theorem witness_LineLaneWrites_6 :
    met (tRun) 5 .q0 0x2024 false (leBytes 4 0x301) (fun _ e _ => decide (e.len = 4 ∧ rsvHigh (e.w 0) 12 = true)) = true := by decide

theorem witness_LineLaneExpertWrites_1 :
    met (expertOpen tRun) 5 .q0 0x2811 false (leBytes 4 0x480001) (fun _ e _ => decide (e.len = 4 ∧ bits (e.w 0) 16 7 ≤ 72 ∧ rsv (e.w 0) 8 8 = true ∧ rsvHigh (e.w 0) 23 = true)) = true := by decide

theorem witness_LineLaneExpertWrites_2 :
    met (expertOpen tRun) 5 .q0 0x2812 false (leBytes 4 0xC20001 ++ leBytes 4 0) (fun _ e _ => decide (e.len = 8 ∧ 2 ≤ bits (e.w 0) 16 4 ∧ 6 ≤ bits (e.w 0) 21 5 ∧ bits (e.w 0) 21 5 ≤ 24 ∧ -32 ≤ toSigned 7 (bits (e.w 1) 0 7) ∧ toSigned 7 (bits (e.w 1) 0 7) ≤ 31 ∧ rsv (e.w 0) 8 8 = true ∧ rsv (e.w 0) 20 1 = true ∧ rsvHigh (e.w 0) 26 = true ∧ rsvHigh (e.w 1) 7 = true ∧ e.lanes ≠ [])) = true := by decide

theorem witness_LineLaneExpertWrites_3 :
    met (expertOpen tRun) 5 .q0 0x2813 false (leBytes 4 0x1060001) (fun _ e _ => decide (e.len = 4 ∧ bits (e.w 0) 16 3 ≤ 6 ∧ 1 ≤ bits (e.w 0) 24 8 ∧ rsv (e.w 0) 8 8 = true ∧ rsv (e.w 0) 19 5 = true)) = true := by decide

theorem witness_LineLaneExpertWrites_4 :
    met (expertOpen tRun) 5 .q0 0x2823 false (leBytes 4 0x50001) (fun _ e _ => decide (e.len = 4 ∧ -4096 ≤ toSigned 14 (bits (e.w 0) 16 14) ∧ toSigned 14 (bits (e.w 0) 16 14) ≤ 4096 ∧ rsv (e.w 0) 8 8 = true ∧ rsvHigh (e.w 0) 30 = true ∧ e.lanes ≠ [])) = true := by decide

theorem witness_LineLaneExpertWrites_5 :
    met (expertOpen tRun) 5 .q0 0x2822 false (leBytes 68 1) (fun _ e _ => decide (e.len = 68 ∧ rsvHigh (e.w 0) 8 = true ∧ ∀ j : Fin 64, -64 ≤ toSigned 8 (fieldAt e.cmd.payload (4 + j.val) 1) ∧ toSigned 8 (fieldAt e.cmd.payload (4 + j.val) 1) ≤ 63)) = true := by decide

theorem witness_LineLaneBasicPinned_1 :
    met (tRun) 5 .q0 0x2012 false (leBytes 4 0x101) (fun _ e _ => decide (e.len = 4 ∧ bits (e.w 0) 8 2 ≤ 2 ∧ rsv (e.w 0) 10 6 = true ∧ rsv (e.w 0) 20 1 = true ∧ rsvHigh (e.w 0) 26 = true ∧ e.lanes ≠ [])) = true := by decide

theorem witness_LineLaneBasicPinned_2 :
    met (tRun) 5 .q0 0x2013 false (leBytes 4 0x101) (fun _ e _ => decide (e.len = 4 ∧ rsv (e.w 0) 9 7 = true ∧ rsv (e.w 0) 19 5 = true)) = true := by decide

theorem witness_LineLaneBasicPinned_3 :
    met (tRun) 5 .q0 0x2020 false (leBytes 4 0x19001) (fun _ e s => decide (e.len = 4 ∧ 300 ≤ bits (e.w 0) 8 10 ∧ bits (e.w 0) 8 10 ≤ 900 ∧ rsvHigh (e.w 0) 18 = true ∧ e.lanes ≠ [] ∧ (e.lanes.any fun n => decide (maxFs s.limits.txSwing[n] < roundDivN (bits (e.w 0) 8 10 * 16) 15) && !s.shadow.pinned (.lineTx n) 0x2820 128) = false)) = true := by decide

theorem witness_LineLaneBasicPinned_4 :
    met ({ tRun with limits := { tRun.limits with txSwing := Vector.replicate 8 300 } }) 5 .q0 0x2020 false (leBytes 4 0x19001) (fun _ e s => decide (e.len = 4 ∧ 300 ≤ bits (e.w 0) 8 10 ∧ bits (e.w 0) 8 10 ≤ 900 ∧ rsvHigh (e.w 0) 18 = true ∧ e.lanes ≠ [] ∧ (e.lanes.any fun n => decide (maxFs s.limits.txSwing[n] < roundDivN (bits (e.w 0) 8 10 * 16) 15) && !s.shadow.pinned (.lineTx n) 0x2820 128) = true)) = true := by decide

theorem witness_LineLaneBasicPinned_5 :
    met (tRun) 5 .q0 0x2023 false (leBytes 4 1) (fun _ e _ => decide (e.len = 4 ∧ rsv (e.w 0) 9 7 = true ∧ rsvHigh (e.w 0) 16 = true ∧ e.lanes ≠ [] ∧ bit (e.w 0) 8 = false)) = true := by decide

theorem witness_LineLaneBasicPinned_6 :
    met (tRun) 5 .q0 0x2023 false (leBytes 4 0x101) (fun _ e _ => decide (e.len = 4 ∧ rsv (e.w 0) 9 7 = true ∧ rsvHigh (e.w 0) 16 = true ∧ e.lanes ≠ [] ∧ bit (e.w 0) 8 = true)) = true := by decide

theorem witness_LineTapsAndTests_1 :
    met (expertOpen tRun) 5 .q0 0x2810 false (leBytes 4 0x80001 ++ leBytes 4 0x100A ++ leBytes 4 0 ++ leBytes 12 5 ++ leBytes 192 7) (fun _ e _ => decide (e.len = 216 ∧ 4 ≤ bits (e.w 0) 16 6 ∧ bits (e.w 0) 16 6 ≤ 47 ∧ 6 ≤ bits (e.w 1) 0 5 ∧ bits (e.w 1) 0 5 ≤ 24 ∧ (bits (e.w 1) 8 5 = 0 ∨ (12 ≤ bits (e.w 1) 8 5 ∧ bits (e.w 1) 8 5 ≤ 30)) ∧ rsv (e.w 0) 8 8 = true ∧ rsv (e.w 0) 22 10 = true ∧ rsv (e.w 1) 5 3 = true ∧ rsv (e.w 1) 13 3 = true ∧ rsvHigh (e.w 1) 26 = true ∧ rsv (e.w 2) 10 6 = true ∧ rsvHigh (e.w 2) 17 = true ∧ ((List.range 96).all fun j => rsv (fieldAt e.cmd.payload (24 + 2 * j) 2) 12 4) = true ∧ e.lanes ≠ [])) = true := by decide

theorem witness_LineTapsAndTests_2 :
    met (expertOpen tRun) 5 .q0 0x2820 false (leBytes 4 0x5000001) (fun _ e s => decide (e.len = 4 ∧ 320 ≤ bits (e.w 0) 18 10 ∧ bits (e.w 0) 18 10 ≤ 960 ∧ rsv (e.w 0) 8 10 = true ∧ rsvHigh (e.w 0) 28 = true ∧ e.lanes ≠ [] ∧ (e.lanes.any fun n => decide (maxFs s.limits.txSwing[n] < bits (e.w 0) 18 10)) = false)) = true := by decide

theorem witness_LineTapsAndTests_3 :
    met (expertOpen { tRun with limits := { tRun.limits with txSwing := Vector.replicate 8 300 } }) 5 .q0 0x2820 false (leBytes 4 0x7000001) (fun _ e s => decide (e.len = 4 ∧ 320 ≤ bits (e.w 0) 18 10 ∧ bits (e.w 0) 18 10 ≤ 960 ∧ rsv (e.w 0) 8 10 = true ∧ rsvHigh (e.w 0) 28 = true ∧ e.lanes ≠ [] ∧ (e.lanes.any fun n => decide (maxFs s.limits.txSwing[n] < bits (e.w 0) 18 10)) = true)) = true := by decide

theorem witness_LineTapsAndTests_4 :
    met (tRun) 5 .q0 0x2021 false (leBytes 4 0x501) (fun _ e s => decide (e.len = 4 ∧ rsvHigh (e.w 0) 11 = true ∧ e.lanes ≠ [] ∧ (e.lanes.all fun n => tapsValid ((s.forEach e.lanes fun n s => (s.modShadow (Bank.tx n fun x => { x with preset := bits (e.w 0) 8 3 })).forEach (List.finRange 7) fun j s => s.txBasic n 0x2821 j.val fun x => { x with taps := x.taps.set j (presetTaps (bits (e.w 0) 8 3))[j] }).shadow.lineTx[n].taps)) = true)) = true := by decide

theorem witness_LineTapsAndTests_5 :
    met (expertOpen tRun) 5 .q0 0x2821 false (leBytes 4 1 ++ leBytes 2 0 ++ leBytes 2 0 ++ leBytes 2 256 ++ leBytes 10 0) (fun _ e _ => decide (e.len = 20 ∧ rsv (e.w 0) 8 24 = true ∧ ((List.range 8).all fun j => rsv (fieldAt e.cmd.payload (4 + 2 * j) 2) 10 6) = true ∧ rsvHigh (e.w 4) 16 = true ∧ tapsValid (ffeTapsOf e.cmd.payload) = true ∧ e.lanes ≠ [])) = true := by decide

theorem witness_LineTapsAndTests_6 :
    met (tRun) 5 .q0 0x2051 false (leBytes 16 0x301) (fun _ e _ => decide (e.len = 16 ∧ bits (e.w 0) 8 3 ≤ 5 ∧ rsvHigh (e.w 0) 15 = true ∧ rsv (e.w 2) 11 5 = true ∧ rsvHigh (e.w 3) 5 = true)) = true := by decide

theorem witness_LineTapsAndTests_7 :
    met (expertOpen tRun) 5 .q0 0x2851 false (leBytes 4 0x1801 ++ leBytes 4 0 ++ leBytes 4 0x10005 ++ leBytes 4 0) (fun _ e _ => decide (e.len = 16 ∧ bits (e.w 0) 11 3 ≤ 4 ∧ rsv (e.w 0) 8 3 = true ∧ rsvHigh (e.w 0) 15 = true ∧ rsv (e.w 2) 11 5 = true ∧ rsvHigh (e.w 3) 5 = true ∧ (bits (e.w 0) 11 3 = 3 → 1 ≤ bits (e.w 2) 0 11 ∧ bits (e.w 2) 0 11 ≤ 1024 ∧ 1 ≤ bits (e.w 2) 16 16) ∧ (bits (e.w 0) 11 3 = 4 → 1 ≤ bits (e.w 3) 0 5 ∧ bits (e.w 3) 0 5 ≤ 16))) = true := by decide

theorem witness_LineTapsAndTests_8 :
    met (tRun) 5 .q0 0x2060 false (leBytes 4 0x102) (fun _ e _ => decide (e.len = 4 ∧ bits (e.w 0) 0 3 < 8 ∧ rsv (e.w 0) 3 5 = true ∧ rsvHigh (e.w 0) 10 = true)) = true := by decide

theorem witness_LineTapsAndTests_9 :
    met (tRun) 5 .q0 0x2010 false (leBytes 4 0x10C0201) (fun _ e _ => decide (e.len = 4 ∧ bits (e.w 0) 8 3 ≤ 5 ∧ (bits (e.w 0) 16 6 = 0 ∨ (4 ≤ bits (e.w 0) 16 6 ∧ bits (e.w 0) 16 6 ≤ 47)) ∧ bits (e.w 0) 24 2 ≤ 2 ∧ rsv (e.w 0) 11 5 = true ∧ rsv (e.w 0) 22 2 = true ∧ rsvHigh (e.w 0) 26 = true ∧ e.lanes ≠ [])) = true := by decide

theorem witness_LaneReads_1 :
    met (tRun) 5 .q1 0x2002 true (leBytes 4 3) (fun _ e _ => decide (e.len = 4 ∧ rsvHigh (e.w 0) 8 = true)) = true := by decide

theorem witness_LaneReads_2 :
    met (tRun) 5 .q1 0x2040 true (leBytes 4 3) (fun _ e _ => decide (e.len = 4 ∧ bits (e.w 0) 0 3 < 8 ∧ rsvHigh (e.w 0) 3 = true)) = true := by decide

theorem witness_LaneReads_3 :
    met (tRun) 5 .q1 0x2050 true (leBytes 4 0x70103) (fun _ e _ => decide (e.len = 4 ∧ rsvHigh (e.w 0) 19 = true ∧ (bits (e.w 0) 16 2 = 0 → maskIdx 8 (bits (e.w 0) 8 8) = []) ∧ 16 + 48 * e.lanes.length + (maskIdx 8 (bits (e.w 0) 8 8)).length * (4 + 96 * (if bits (e.w 0) 16 2 = 3 then 2 else 1)) ≤ 1024)) = true := by decide

theorem witness_LaneBringUp_1 :
    (((tRun.modLane (.line 0) fun l => { l with acq := { l.acq with state := .dark }, tx := { l.tx with clocked := true } }).advanceTo 3).lanes[(0 : Fin 8)].acq.state = .dark) ∧ (((tRun.modLane (.line 0) fun l => { l with acq := { l.acq with state := .dark }, tx := { l.tx with clocked := true } }).advanceTo 3).opticalBelow (0 : Fin 8) ((tRun.modLane (.line 0) fun l => { l with acq := { l.acq with state := .dark }, tx := { l.tx with clocked := true } }).advanceTo 3).active.lineRx[(0 : Fin 8)].losDeassert = false) ∧ (((tRun.modLane (.line 0) fun l => { l with acq := { l.acq with state := .dark }, tx := { l.tx with clocked := true } }).advanceTo 3).laneRuns (.line (0 : Fin 8)) = true) := by decide

theorem witness_LaneBringUp_2 :
    (((tRun.modLane (.relay 0) fun l => { l with acq := { l.acq with state := .dark } }).advanceTo 3).relays[(0 : Fin 16)].acq.state = .dark) ∧ (((tRun.modLane (.relay 0) fun l => { l with acq := { l.acq with state := .dark } }).advanceTo 3).laneRuns (.relay (0 : Fin 16)) = true) := by decide

theorem witness_LaneBringUp_3 :
    (((tRun.modLane (.line 0) fun l => { l with acq := { l.acq with state := .signal, gainQuiet := 16 } }).advanceTo 3).lanes[(0 : Fin 8)].acq.state = .signal) ∧ (16 ≤ ((tRun.modLane (.line 0) fun l => { l with acq := { l.acq with state := .signal, gainQuiet := 16 } }).advanceTo 3).lanes[(0 : Fin 8)].acq.gainQuiet) := by decide

theorem witness_LaneBringUp_4 :
    (((tRun.modLane (.relay 0) fun l => { l with acq := { l.acq with state := .signal } }).advanceTo 3).relays[(0 : Fin 16)].acq.state = .signal) := by decide

theorem witness_LaneBringUp_5 :
    ((((tRun.modLane (.line 0) fun l => { l with acq := { l.acq with state := .cdrLock } }).advanceTo 3).lane (LaneRef.line 0)).receiving = true) ∧ ((((tRun.modLane (.line 0) fun l => { l with acq := { l.acq with state := .cdrLock } }).advanceTo 3).lane (LaneRef.line 0)).acq.state ≠ .dark) ∧ ((((tRun.modLane (.line 0) fun l => { l with acq := { l.acq with state := .cdrLock } }).advanceTo 3).lane (LaneRef.line 0)).eq.locks (((tRun.modLane (.line 0) fun l => { l with acq := { l.acq with state := .cdrLock } }).advanceTo 3).gainsInForce (LaneRef.line 0)).1 (((tRun.modLane (.line 0) fun l => { l with acq := { l.acq with state := .cdrLock } }).advanceTo 3).gainsInForce (LaneRef.line 0)).2 (List.replicate 4096 ((0, 0) : Int × Nat)) = true) := by decide

theorem witness_LaneBringUp_6 :
    ((((tRun.modLane (.line 0) fun l => { l with acq := { l.acq with state := .cdrLock } }).advanceTo 3).lane (LaneRef.line 0)).receiving = true) ∧ ((((tRun.modLane (.line 0) fun l => { l with acq := { l.acq with state := .cdrLock } }).advanceTo 3).lane (LaneRef.line 0)).acq.state ≠ .dark) ∧ ((((tRun.modLane (.line 0) fun l => { l with acq := { l.acq with state := .cdrLock } }).advanceTo 3).lane (LaneRef.line 0)).eq.locks (((tRun.modLane (.line 0) fun l => { l with acq := { l.acq with state := .cdrLock } }).advanceTo 3).gainsInForce (LaneRef.line 0)).1 (((tRun.modLane (.line 0) fun l => { l with acq := { l.acq with state := .cdrLock } }).advanceTo 3).gainsInForce (LaneRef.line 0)).2 ([] : List (Int × Nat)) = false) := by decide

theorem witness_LaneBringUp_7 :
    ((((tRun.modLane (.line 0) fun l => { l with acq := { l.acq with state := .cdrLock, cdrLock := true } }).advanceTo 3).lane (LaneRef.line 0)).acq.state = .cdrLock) ∧ ((((tRun.modLane (.line 0) fun l => { l with acq := { l.acq with state := .cdrLock, cdrLock := true } }).advanceTo 3).lane (LaneRef.line 0)).acq.cdrLock = true) := by decide

theorem witness_LaneBringUp_8 :
    ((((tRun.modLane (.line 0) fun l => { l with acq := { l.acq with state := .cdrLock, cdrLock := false } }).advanceTo 3).lane (LaneRef.line 0)).acq.state = .cdrLock) ∧ ((((tRun.modLane (.line 0) fun l => { l with acq := { l.acq with state := .cdrLock, cdrLock := false } }).advanceTo 3).lane (LaneRef.line 0)).acq.cdrLock = false) := by decide

theorem witness_LaneBringUp_9 :
    ((((tRun.modLane (.line 0) fun l => { l with acq := { l.acq with state := .step }, tx := { l.tx with markAt := some 3, count := 9, step := some ({ proposer := true, target := .b, txAt := 9, rxAt := some 20, agreed := true, txDone := false, rxDone := false, msgSeq := 0 } : StepNeg) } }).advanceTo 3).lane (LaneRef.line 0)).tx.step = some ({ proposer := true, target := .b, txAt := 9, rxAt := some 20, agreed := true, txDone := false, rxDone := false, msgSeq := 0 } : StepNeg)) ∧ ((((tRun.modLane (.line 0) fun l => { l with acq := { l.acq with state := .step }, tx := { l.tx with markAt := some 3, count := 9, step := some ({ proposer := true, target := .b, txAt := 9, rxAt := some 20, agreed := true, txDone := false, rxDone := false, msgSeq := 0 } : StepNeg) } }).advanceTo 3).lane (LaneRef.line 0)).acq.state = .step) ∧ (({ proposer := true, target := .b, txAt := 9, rxAt := some 20, agreed := true, txDone := false, rxDone := false, msgSeq := 0 } : StepNeg).agreed = true) ∧ (({ proposer := true, target := .b, txAt := 9, rxAt := some 20, agreed := true, txDone := false, rxDone := false, msgSeq := 0 } : StepNeg).txDone = false) ∧ ((((tRun.modLane (.line 0) fun l => { l with acq := { l.acq with state := .step }, tx := { l.tx with markAt := some 3, count := 9, step := some ({ proposer := true, target := .b, txAt := 9, rxAt := some 20, agreed := true, txDone := false, rxDone := false, msgSeq := 0 } : StepNeg) } }).advanceTo 3).lane (LaneRef.line 0)).tx.count = ({ proposer := true, target := .b, txAt := 9, rxAt := some 20, agreed := true, txDone := false, rxDone := false, msgSeq := 0 } : StepNeg).txAt) ∧ ((((tRun.modLane (.line 0) fun l => { l with acq := { l.acq with state := .step }, tx := { l.tx with markAt := some 3, count := 9, step := some ({ proposer := true, target := .b, txAt := 9, rxAt := some 20, agreed := true, txDone := false, rxDone := false, msgSeq := 0 } : StepNeg) } }).advanceTo 3).lane (LaneRef.line 0)).tx.markAt = some ((tRun.modLane (.line 0) fun l => { l with acq := { l.acq with state := .step }, tx := { l.tx with markAt := some 3, count := 9, step := some ({ proposer := true, target := .b, txAt := 9, rxAt := some 20, agreed := true, txDone := false, rxDone := false, msgSeq := 0 } : StepNeg) } }).advanceTo 3).now) := by decide

theorem witness_LaneBringUp_10 :
    ((((tRun.modLane (.line 0) fun l => { l with acq := { l.acq with state := .step }, rx := { l.rx with count := 19, markAt := some 3 }, tx := { l.tx with count := 9, step := some ({ proposer := true, target := .b, txAt := 9, rxAt := some 20, agreed := true, txDone := false, rxDone := false, msgSeq := 0 } : StepNeg) } }).advanceTo 3).lane (LaneRef.line 0)).tx.step = some ({ proposer := true, target := .b, txAt := 9, rxAt := some 20, agreed := true, txDone := false, rxDone := false, msgSeq := 0 } : StepNeg)) ∧ ((((tRun.modLane (.line 0) fun l => { l with acq := { l.acq with state := .step }, rx := { l.rx with count := 19, markAt := some 3 }, tx := { l.tx with count := 9, step := some ({ proposer := true, target := .b, txAt := 9, rxAt := some 20, agreed := true, txDone := false, rxDone := false, msgSeq := 0 } : StepNeg) } }).advanceTo 3).lane (LaneRef.line 0)).acq.state = .step) ∧ (({ proposer := true, target := .b, txAt := 9, rxAt := some 20, agreed := true, txDone := false, rxDone := false, msgSeq := 0 } : StepNeg).agreed = true) ∧ (({ proposer := true, target := .b, txAt := 9, rxAt := some 20, agreed := true, txDone := false, rxDone := false, msgSeq := 0 } : StepNeg).rxDone = false) ∧ (({ proposer := true, target := .b, txAt := 9, rxAt := some 20, agreed := true, txDone := false, rxDone := false, msgSeq := 0 } : StepNeg).rxAt = some (nextCount (((tRun.modLane (.line 0) fun l => { l with acq := { l.acq with state := .step }, rx := { l.rx with count := 19, markAt := some 3 }, tx := { l.tx with count := 9, step := some ({ proposer := true, target := .b, txAt := 9, rxAt := some 20, agreed := true, txDone := false, rxDone := false, msgSeq := 0 } : StepNeg) } }).advanceTo 3).lane (LaneRef.line 0)).rx.count)) ∧ ((((tRun.modLane (.line 0) fun l => { l with acq := { l.acq with state := .step }, rx := { l.rx with count := 19, markAt := some 3 }, tx := { l.tx with count := 9, step := some ({ proposer := true, target := .b, txAt := 9, rxAt := some 20, agreed := true, txDone := false, rxDone := false, msgSeq := 0 } : StepNeg) } }).advanceTo 3).lane (LaneRef.line 0)).rx.markAt = some ((tRun.modLane (.line 0) fun l => { l with acq := { l.acq with state := .step }, rx := { l.rx with count := 19, markAt := some 3 }, tx := { l.tx with count := 9, step := some ({ proposer := true, target := .b, txAt := 9, rxAt := some 20, agreed := true, txDone := false, rxDone := false, msgSeq := 0 } : StepNeg) } }).advanceTo 3).now) := by decide

theorem witness_LaneBringUp_11 :
    (((tRun.modLane (.line 0) fun l => { l with acq := { l.acq with state := .step }, tx := { l.tx with count := 9, step := some ({ proposer := true, target := .b, txAt := 9, rxAt := some 20, agreed := true, txDone := true, rxDone := true, msgSeq := 0 } : StepNeg) } }).advanceTo 3).lanes[(0 : Fin 8)].tx.step = some ({ proposer := true, target := .b, txAt := 9, rxAt := some 20, agreed := true, txDone := true, rxDone := true, msgSeq := 0 } : StepNeg)) ∧ (((tRun.modLane (.line 0) fun l => { l with acq := { l.acq with state := .step }, tx := { l.tx with count := 9, step := some ({ proposer := true, target := .b, txAt := 9, rxAt := some 20, agreed := true, txDone := true, rxDone := true, msgSeq := 0 } : StepNeg) } }).advanceTo 3).lanes[(0 : Fin 8)].acq.state = .step) ∧ (({ proposer := true, target := .b, txAt := 9, rxAt := some 20, agreed := true, txDone := true, rxDone := true, msgSeq := 0 } : StepNeg).txDone = true) ∧ (({ proposer := true, target := .b, txAt := 9, rxAt := some 20, agreed := true, txDone := true, rxDone := true, msgSeq := 0 } : StepNeg).rxDone = true) := by decide

theorem witness_LaneBringUp_12 :
    (((tRun.modLane (.relay 0) fun l => { l with acq := { l.acq with state := .step }, tx := { l.tx with count := 9, step := some ({ proposer := true, target := .b, txAt := 9, rxAt := some 20, agreed := true, txDone := true, rxDone := true, msgSeq := 0 } : StepNeg) } }).advanceTo 3).relays[(0 : Fin 16)].tx.step = some ({ proposer := true, target := .b, txAt := 9, rxAt := some 20, agreed := true, txDone := true, rxDone := true, msgSeq := 0 } : StepNeg)) ∧ (((tRun.modLane (.relay 0) fun l => { l with acq := { l.acq with state := .step }, tx := { l.tx with count := 9, step := some ({ proposer := true, target := .b, txAt := 9, rxAt := some 20, agreed := true, txDone := true, rxDone := true, msgSeq := 0 } : StepNeg) } }).advanceTo 3).relays[(0 : Fin 16)].acq.state = .step) ∧ (({ proposer := true, target := .b, txAt := 9, rxAt := some 20, agreed := true, txDone := true, rxDone := true, msgSeq := 0 } : StepNeg).txDone = true) ∧ (({ proposer := true, target := .b, txAt := 9, rxAt := some 20, agreed := true, txDone := true, rxDone := true, msgSeq := 0 } : StepNeg).rxDone = true) := by decide

theorem witness_LaneBringUp_13 :
    ((((tRun.modLane (.line 0) fun l => { l with tx := { l.tx with restart := 1, markAt := some 3 } }).advanceTo 3).lane (LaneRef.line 0)).tx.restart = 1) ∧ ((((tRun.modLane (.line 0) fun l => { l with tx := { l.tx with restart := 1, markAt := some 3 } }).advanceTo 3).lane (LaneRef.line 0)).tx.markAt = some ((tRun.modLane (.line 0) fun l => { l with tx := { l.tx with restart := 1, markAt := some 3 } }).advanceTo 3).now) := by decide

theorem witness_LaneBringUp_14 :
    ((((tRun.modLane (.line 0) fun l => { l with tx := { l.tx with fallback := true, markAt := some 3 } }).advanceTo 3).lane (LaneRef.line 0)).tx.fallback = true) ∧ ((((tRun.modLane (.line 0) fun l => { l with tx := { l.tx with fallback := true, markAt := some 3 } }).advanceTo 3).lane (LaneRef.line 0)).tx.restart = 0) ∧ ((((tRun.modLane (.line 0) fun l => { l with tx := { l.tx with fallback := true, markAt := some 3 } }).advanceTo 3).lane (LaneRef.line 0)).tx.markAt = some ((tRun.modLane (.line 0) fun l => { l with tx := { l.tx with fallback := true, markAt := some 3 } }).advanceTo 3).now) := by decide

theorem witness_LaneBringUp_15 :
    (((tRun.modLane (.line 0) fun l => { l with acq := { l.acq with state := .negotiate, stage := .c }, tx := { l.tx with tuneSince := some 0 } }).advanceTo (msec 401)).lanes[(0 : Fin 8)].tx.tuneSince = some 0) ∧ (((tRun.modLane (.line 0) fun l => { l with acq := { l.acq with state := .negotiate, stage := .c }, tx := { l.tx with tuneSince := some 0 } }).advanceTo (msec 401)).lanes[(0 : Fin 8)].acq.state = .negotiate) ∧ (((tRun.modLane (.line 0) fun l => { l with acq := { l.acq with state := .negotiate, stage := .c }, tx := { l.tx with tuneSince := some 0 } }).advanceTo (msec 401)).lanes[(0 : Fin 8)].acq.stage = .c) ∧ (((tRun.modLane (.line 0) fun l => { l with acq := { l.acq with state := .negotiate, stage := .c }, tx := { l.tx with tuneSince := some 0 } }).advanceTo (msec 401)).pastLane (.line (0 : Fin 8)) .c (0 + msec 400) = true) := by decide

theorem witness_LaneBringUp_16 :
    (((tRun.modLane (.line 0) fun l => { l with tx := { l.tx with st := some 0, stage := .c } }).advanceTo 3).lanes[(0 : Fin 8)].tx.st = some ((tRun.modLane (.line 0) fun l => { l with tx := { l.tx with st := some 0, stage := .c } }).advanceTo 3).lanes[(0 : Fin 8)].tx.count) ∧ (((tRun.modLane (.line 0) fun l => { l with tx := { l.tx with st := some 0, stage := .c } }).advanceTo 3).lanes[(0 : Fin 8)].tx.stage = .c) := by decide

theorem witness_LaneBringUp_17 :
    (((tRun.modLane (.line 0) fun l => { l with acq := { l.acq with state := .locked }, rx := { l.rx with count := 4, farSt := some 5 } }).advanceTo 3).lanes[(0 : Fin 8)].acq.state = .locked) ∧ (((tRun.modLane (.line 0) fun l => { l with acq := { l.acq with state := .locked }, rx := { l.rx with count := 4, farSt := some 5 } }).advanceTo 3).lanes[(0 : Fin 8)].rx.forwarding = false) ∧ ((((tRun.modLane (.line 0) fun l => { l with acq := { l.acq with state := .locked }, rx := { l.rx with count := 4, farSt := some 5 } }).advanceTo 3).lanes[(0 : Fin 8)].acq.stage = .s200 ∨ (nextCount ((tRun.modLane (.line 0) fun l => { l with acq := { l.acq with state := .locked }, rx := { l.rx with count := 4, farSt := some 5 } }).advanceTo 3).lanes[(0 : Fin 8)].rx.count % 5 = 0 ∧ ((tRun.modLane (.line 0) fun l => { l with acq := { l.acq with state := .locked }, rx := { l.rx with count := 4, farSt := some 5 } }).advanceTo 3).lanes[(0 : Fin 8)].rx.farSt.any (fun st => ((tRun.modLane (.line 0) fun l => { l with acq := { l.acq with state := .locked }, rx := { l.rx with count := 4, farSt := some 5 } }).advanceTo 3).lanes[(0 : Fin 8)].rx.begun || ((tRun.modLane (.line 0) fun l => { l with acq := { l.acq with state := .locked }, rx := { l.rx with count := 4, farSt := some 5 } }).advanceTo 3).lanes[(0 : Fin 8)].rx.stReached || begunBy st (nextCount ((tRun.modLane (.line 0) fun l => { l with acq := { l.acq with state := .locked }, rx := { l.rx with count := 4, farSt := some 5 } }).advanceTo 3).lanes[(0 : Fin 8)].rx.count)) = true))) := by decide

theorem witness_LaneLosses_1 :
    ((((tRun.modLane (.line 0) fun l => { l with acq := { l.acq with state := .locked } }).advanceTo 3).lane (LaneRef.line 0)).acq.state ≠ .dark) ∧ ((((tRun.modLane (.line 0) fun l => { l with acq := { l.acq with state := .locked } }).advanceTo 3).lane (LaneRef.line 0)).acq.state ≠ .disabled) ∧ ((((tRun.modLane (.line 0) fun l => { l with acq := { l.acq with state := .locked } }).advanceTo 3).lane (LaneRef.line 0)).acq.state ≠ .still) ∧ ((((tRun.modLane (.line 0) fun l => { l with acq := { l.acq with state := .locked } }).advanceTo 3).lane (LaneRef.line 0)).acq.state ≠ .calibrating) := by decide

theorem witness_LaneLosses_2 :
    ((((tRun.modLane (.line 0) fun l => { l with acq := { l.acq with state := .dark } }).advanceTo 3).lane (LaneRef.line 0)).acq.state = .dark ∨ (((tRun.modLane (.line 0) fun l => { l with acq := { l.acq with state := .dark } }).advanceTo 3).lane (LaneRef.line 0)).acq.state = .disabled ∨ (((tRun.modLane (.line 0) fun l => { l with acq := { l.acq with state := .dark } }).advanceTo 3).lane (LaneRef.line 0)).acq.state = .still ∨ (((tRun.modLane (.line 0) fun l => { l with acq := { l.acq with state := .dark } }).advanceTo 3).lane (LaneRef.line 0)).acq.state = .calibrating) := by decide

theorem witness_LaneLosses_3 :
    (({ tRun with active := { tRun.active with lineRx := upd tRun.active.lineRx 0 fun p => { p with optChannel := 0, optScale := 1, losAssert := 1 } }, hk := { tRun.hk with last := upd tRun.hk.last 0 fun _ => [{ code := 3, at' := 0, stamp := ⟨0, true⟩ }] } }.advanceTo 3).opticalBelow (0 : Fin 8) ({ tRun with active := { tRun.active with lineRx := upd tRun.active.lineRx 0 fun p => { p with optChannel := 0, optScale := 1, losAssert := 1 } }, hk := { tRun.hk with last := upd tRun.hk.last 0 fun _ => [{ code := 3, at' := 0, stamp := ⟨0, true⟩ }] } }.advanceTo 3).active.lineRx[(0 : Fin 8)].losAssert = true) := by decide

theorem witness_LaneLosses_4 :
    ((((tRun.modLane (.line 0) fun l => { l with acq := { l.acq with state := .cdrLock, cdrLock := true } }).advanceTo 3).lane (LaneRef.line 0)).acq.state = .cdrLock) ∧ ((((tRun.modLane (.line 0) fun l => { l with acq := { l.acq with state := .cdrLock, cdrLock := true } }).advanceTo 3).lane (LaneRef.line 0)).acq.cdrLock = true) ∧ (cdrLost (List.replicate 4096 ((0, 268435457) : Int × Nat)) = true) := by decide

theorem witness_LaneLosses_5 :
    ((((tRun.modLane (.line 0) fun l => { l with acq := { l.acq with state := .locked, cdrLock := true } }).advanceTo 3).lane (LaneRef.line 0)).acq.state ≠ .cdrLock) ∧ ((((tRun.modLane (.line 0) fun l => { l with acq := { l.acq with state := .locked, cdrLock := true } }).advanceTo 3).lane (LaneRef.line 0)).receiving = true) ∧ ((((tRun.modLane (.line 0) fun l => { l with acq := { l.acq with state := .locked, cdrLock := true } }).advanceTo 3).lane (LaneRef.line 0)).acq.cdrLock = true) ∧ (cdrLost (List.replicate 4096 ((0, 268435457) : Int × Nat)) = true) := by decide

theorem witness_LaneLosses_6 :
    ((if ((tRun.modLane (.line 0) fun l => { l with acq := { l.acq with state := .locked }, rx := { l.rx with missing := 8 } }).advanceTo 3).isS200 (LaneRef.line 0) then max 1 Config.s200LossMarkers else 8) ≤ (((tRun.modLane (.line 0) fun l => { l with acq := { l.acq with state := .locked }, rx := { l.rx with missing := 8 } }).advanceTo 3).lane (LaneRef.line 0)).rx.missing) ∧ ((((tRun.modLane (.line 0) fun l => { l with acq := { l.acq with state := .locked }, rx := { l.rx with missing := 8 } }).advanceTo 3).lane (LaneRef.line 0)).acq.state = .locked) := by decide

theorem witness_LaneLosses_7 :
    ((if ((tRun.modLane (.line 0) fun l => { l with acq := { l.acq with state := .step }, rx := { l.rx with missing := 8 } }).advanceTo 3).isS200 (LaneRef.line 0) then max 1 Config.s200LossMarkers else 8) ≤ (((tRun.modLane (.line 0) fun l => { l with acq := { l.acq with state := .step }, rx := { l.rx with missing := 8 } }).advanceTo 3).lane (LaneRef.line 0)).rx.missing) ∧ ((((tRun.modLane (.line 0) fun l => { l with acq := { l.acq with state := .step }, rx := { l.rx with missing := 8 } }).advanceTo 3).lane (LaneRef.line 0)).acq.state = .negotiate ∨ (((tRun.modLane (.line 0) fun l => { l with acq := { l.acq with state := .step }, rx := { l.rx with missing := 8 } }).advanceTo 3).lane (LaneRef.line 0)).acq.state = .step) := by decide

theorem witness_LaneLosses_8 :
    (((tRun.modLane (.line 0) fun l => { l with acq := { l.acq with state := .locked, stage := .c, winFrames := 64 } }).advanceTo 3).counting (LaneRef.line 0) = true) ∧ (((tRun.modLane (.line 0) fun l => { l with acq := { l.acq with state := .locked, stage := .c, winFrames := 64 } }).advanceTo 3).windowFails (LaneRef.line 0) = some 0) ∧ ((((tRun.modLane (.line 0) fun l => { l with acq := { l.acq with state := .locked, stage := .c, winFrames := 64 } }).advanceTo 3).lane (LaneRef.line 0)).acq.state = .locked) := by decide

theorem witness_LaneLosses_9 :
    (((tRun.modLane (.line 0) fun l => { l with acq := { l.acq with state := .negotiate, stage := .c, winFrames := 64 } }).advanceTo 3).counting (LaneRef.line 0) = true) ∧ (((tRun.modLane (.line 0) fun l => { l with acq := { l.acq with state := .negotiate, stage := .c, winFrames := 64 } }).advanceTo 3).windowFails (LaneRef.line 0) = some 0) ∧ ((((tRun.modLane (.line 0) fun l => { l with acq := { l.acq with state := .negotiate, stage := .c, winFrames := 64 } }).advanceTo 3).lane (LaneRef.line 0)).acq.state ≠ .locked) := by decide

theorem witness_LaneLosses_10 :
    (stateTimeout (LaneRef.line 0) (((tRun.modLane (.line 0) fun l => { l with acq := { l.acq with state := .frameLock } }).advanceTo (msec 3)).lane (LaneRef.line 0)).acq.state (((tRun.modLane (.line 0) fun l => { l with acq := { l.acq with state := .frameLock } }).advanceTo (msec 3)).lane (LaneRef.line 0)).acq.stage = some ((msec 2), LaneState.cdrLock)) ∧ (((tRun.modLane (.line 0) fun l => { l with acq := { l.acq with state := .frameLock } }).advanceTo (msec 3)).pastLane (LaneRef.line 0) (((tRun.modLane (.line 0) fun l => { l with acq := { l.acq with state := .frameLock } }).advanceTo (msec 3)).lane (LaneRef.line 0)).acq.stage ((((tRun.modLane (.line 0) fun l => { l with acq := { l.acq with state := .frameLock } }).advanceTo (msec 3)).lane (LaneRef.line 0)).acq.timer + (msec 2)) = true) ∧ ((((tRun.modLane (.line 0) fun l => { l with acq := { l.acq with state := .frameLock } }).advanceTo (msec 3)).lane (LaneRef.line 0)).acq.holding = false) ∧ ((((tRun.modLane (.line 0) fun l => { l with acq := { l.acq with state := .frameLock } }).advanceTo (msec 3)).lane (LaneRef.line 0)).acq.state ≠ .retrain) := by decide

theorem witness_LaneLosses_11 :
    ((((tRun.modLane (.line 0) fun l => { l with acq := { l.acq with state := .retrain } }).advanceTo (msec 3)).lane (LaneRef.line 0)).acq.state = .retrain) ∧ (((tRun.modLane (.line 0) fun l => { l with acq := { l.acq with state := .retrain } }).advanceTo (msec 3)).pastLane (LaneRef.line 0) (((tRun.modLane (.line 0) fun l => { l with acq := { l.acq with state := .retrain } }).advanceTo (msec 3)).lane (LaneRef.line 0)).acq.stage ((((tRun.modLane (.line 0) fun l => { l with acq := { l.acq with state := .retrain } }).advanceTo (msec 3)).lane (LaneRef.line 0)).acq.timer + msec 2) = true) ∧ ((((tRun.modLane (.line 0) fun l => { l with acq := { l.acq with state := .retrain } }).advanceTo (msec 3)).lane (LaneRef.line 0)).acq.holding = false) := by decide

theorem witness_LaneAdapts_1 :
    (((tRun.modLane (.line 0) fun l => { l with acq := { l.acq with state := .signal }, tx := { l.tx with markAt := some 3 }, eq := { l.eq with gain := 3 } }).advanceTo 3).lanes[(0 : Fin 8)].receiving = true) ∧ (((tRun.modLane (.line 0) fun l => { l with acq := { l.acq with state := .signal }, tx := { l.tx with markAt := some 3 }, eq := { l.eq with gain := 3 } }).advanceTo 3).atMarker (.line (0 : Fin 8)) = true) ∧ (((tRun.modLane (.line 0) fun l => { l with acq := { l.acq with state := .signal }, tx := { l.tx with markAt := some 3 }, eq := { l.eq with gain := 3 } }).advanceTo 3).lanes[(0 : Fin 8)].acq.gainAt ≠ some ((tRun.modLane (.line 0) fun l => { l with acq := { l.acq with state := .signal }, tx := { l.tx with markAt := some 3 }, eq := { l.eq with gain := 3 } }).advanceTo 3).now) ∧ (((tRun.modLane (.line 0) fun l => { l with acq := { l.acq with state := .signal }, tx := { l.tx with markAt := some 3 }, eq := { l.eq with gain := 3 } }).advanceTo 3).active.pinned (.lineRx (0 : Fin 8)) 0x2811 128 = false) ∧ (rmsLow ((tRun.modLane (.line 0) fun l => { l with acq := { l.acq with state := .signal }, tx := { l.tx with markAt := some 3 }, eq := { l.eq with gain := 3 } }).advanceTo 3).active.lineRx[(0 : Fin 8)].targetRms 1 = true) ∧ (((tRun.modLane (.line 0) fun l => { l with acq := { l.acq with state := .signal }, tx := { l.tx with markAt := some 3 }, eq := { l.eq with gain := 3 } }).advanceTo 3).lanes[(0 : Fin 8)].eq.gain < 72) := by decide

theorem witness_LaneAdapts_2 :
    (((tRun.modLane (.line 0) fun l => { l with acq := { l.acq with state := .signal }, tx := { l.tx with markAt := some 3 }, eq := { l.eq with gain := 72 } }).advanceTo 3).lanes[(0 : Fin 8)].receiving = true) ∧ (((tRun.modLane (.line 0) fun l => { l with acq := { l.acq with state := .signal }, tx := { l.tx with markAt := some 3 }, eq := { l.eq with gain := 72 } }).advanceTo 3).atMarker (.line (0 : Fin 8)) = true) ∧ (((tRun.modLane (.line 0) fun l => { l with acq := { l.acq with state := .signal }, tx := { l.tx with markAt := some 3 }, eq := { l.eq with gain := 72 } }).advanceTo 3).lanes[(0 : Fin 8)].acq.gainAt ≠ some ((tRun.modLane (.line 0) fun l => { l with acq := { l.acq with state := .signal }, tx := { l.tx with markAt := some 3 }, eq := { l.eq with gain := 72 } }).advanceTo 3).now) ∧ (((tRun.modLane (.line 0) fun l => { l with acq := { l.acq with state := .signal }, tx := { l.tx with markAt := some 3 }, eq := { l.eq with gain := 72 } }).advanceTo 3).active.pinned (.lineRx (0 : Fin 8)) 0x2811 128 = false) ∧ (rmsLow ((tRun.modLane (.line 0) fun l => { l with acq := { l.acq with state := .signal }, tx := { l.tx with markAt := some 3 }, eq := { l.eq with gain := 72 } }).advanceTo 3).active.lineRx[(0 : Fin 8)].targetRms 1 = true) ∧ (72 ≤ ((tRun.modLane (.line 0) fun l => { l with acq := { l.acq with state := .signal }, tx := { l.tx with markAt := some 3 }, eq := { l.eq with gain := 72 } }).advanceTo 3).lanes[(0 : Fin 8)].eq.gain) := by decide

theorem witness_LaneAdapts_3 :
    (((tRun.modLane (.line 0) fun l => { l with acq := { l.acq with state := .signal }, tx := { l.tx with markAt := some 3 }, eq := { l.eq with gain := 3 } }).advanceTo 3).lanes[(0 : Fin 8)].receiving = true) ∧ (((tRun.modLane (.line 0) fun l => { l with acq := { l.acq with state := .signal }, tx := { l.tx with markAt := some 3 }, eq := { l.eq with gain := 3 } }).advanceTo 3).atMarker (.line (0 : Fin 8)) = true) ∧ (((tRun.modLane (.line 0) fun l => { l with acq := { l.acq with state := .signal }, tx := { l.tx with markAt := some 3 }, eq := { l.eq with gain := 3 } }).advanceTo 3).lanes[(0 : Fin 8)].acq.gainAt ≠ some ((tRun.modLane (.line 0) fun l => { l with acq := { l.acq with state := .signal }, tx := { l.tx with markAt := some 3 }, eq := { l.eq with gain := 3 } }).advanceTo 3).now) ∧ (((tRun.modLane (.line 0) fun l => { l with acq := { l.acq with state := .signal }, tx := { l.tx with markAt := some 3 }, eq := { l.eq with gain := 3 } }).advanceTo 3).active.pinned (.lineRx (0 : Fin 8)) 0x2811 128 = false) ∧ (rmsLow ((tRun.modLane (.line 0) fun l => { l with acq := { l.acq with state := .signal }, tx := { l.tx with markAt := some 3 }, eq := { l.eq with gain := 3 } }).advanceTo 3).active.lineRx[(0 : Fin 8)].targetRms 100000 = false) ∧ (rmsHigh ((tRun.modLane (.line 0) fun l => { l with acq := { l.acq with state := .signal }, tx := { l.tx with markAt := some 3 }, eq := { l.eq with gain := 3 } }).advanceTo 3).active.lineRx[(0 : Fin 8)].targetRms 100000 = true) ∧ (0 < ((tRun.modLane (.line 0) fun l => { l with acq := { l.acq with state := .signal }, tx := { l.tx with markAt := some 3 }, eq := { l.eq with gain := 3 } }).advanceTo 3).lanes[(0 : Fin 8)].eq.gain) := by decide

theorem witness_LaneAdapts_4 :
    (((tRun.modLane (.line 0) fun l => { l with acq := { l.acq with state := .signal }, tx := { l.tx with markAt := some 3 }, eq := { l.eq with gain := 0 } }).advanceTo 3).lanes[(0 : Fin 8)].receiving = true) ∧ (((tRun.modLane (.line 0) fun l => { l with acq := { l.acq with state := .signal }, tx := { l.tx with markAt := some 3 }, eq := { l.eq with gain := 0 } }).advanceTo 3).atMarker (.line (0 : Fin 8)) = true) ∧ (((tRun.modLane (.line 0) fun l => { l with acq := { l.acq with state := .signal }, tx := { l.tx with markAt := some 3 }, eq := { l.eq with gain := 0 } }).advanceTo 3).lanes[(0 : Fin 8)].acq.gainAt ≠ some ((tRun.modLane (.line 0) fun l => { l with acq := { l.acq with state := .signal }, tx := { l.tx with markAt := some 3 }, eq := { l.eq with gain := 0 } }).advanceTo 3).now) ∧ (((tRun.modLane (.line 0) fun l => { l with acq := { l.acq with state := .signal }, tx := { l.tx with markAt := some 3 }, eq := { l.eq with gain := 0 } }).advanceTo 3).active.pinned (.lineRx (0 : Fin 8)) 0x2811 128 = false) ∧ (rmsLow ((tRun.modLane (.line 0) fun l => { l with acq := { l.acq with state := .signal }, tx := { l.tx with markAt := some 3 }, eq := { l.eq with gain := 0 } }).advanceTo 3).active.lineRx[(0 : Fin 8)].targetRms 100000 = false) ∧ (rmsHigh ((tRun.modLane (.line 0) fun l => { l with acq := { l.acq with state := .signal }, tx := { l.tx with markAt := some 3 }, eq := { l.eq with gain := 0 } }).advanceTo 3).active.lineRx[(0 : Fin 8)].targetRms 100000 = true) ∧ (((tRun.modLane (.line 0) fun l => { l with acq := { l.acq with state := .signal }, tx := { l.tx with markAt := some 3 }, eq := { l.eq with gain := 0 } }).advanceTo 3).lanes[(0 : Fin 8)].eq.gain = 0) := by decide

theorem witness_LaneAdapts_5 :
    (((tRun.modLane (.line 0) fun l => { l with acq := { l.acq with state := .signal }, tx := { l.tx with markAt := some 3 }, eq := { l.eq with gain := 3 } }).advanceTo 3).lanes[(0 : Fin 8)].receiving = true) ∧ (((tRun.modLane (.line 0) fun l => { l with acq := { l.acq with state := .signal }, tx := { l.tx with markAt := some 3 }, eq := { l.eq with gain := 3 } }).advanceTo 3).atMarker (.line (0 : Fin 8)) = true) ∧ (((tRun.modLane (.line 0) fun l => { l with acq := { l.acq with state := .signal }, tx := { l.tx with markAt := some 3 }, eq := { l.eq with gain := 3 } }).advanceTo 3).lanes[(0 : Fin 8)].acq.gainAt ≠ some ((tRun.modLane (.line 0) fun l => { l with acq := { l.acq with state := .signal }, tx := { l.tx with markAt := some 3 }, eq := { l.eq with gain := 3 } }).advanceTo 3).now) ∧ (((tRun.modLane (.line 0) fun l => { l with acq := { l.acq with state := .signal }, tx := { l.tx with markAt := some 3 }, eq := { l.eq with gain := 3 } }).advanceTo 3).active.pinned (.lineRx (0 : Fin 8)) 0x2811 128 = false) ∧ (rmsLow ((tRun.modLane (.line 0) fun l => { l with acq := { l.acq with state := .signal }, tx := { l.tx with markAt := some 3 }, eq := { l.eq with gain := 3 } }).advanceTo 3).active.lineRx[(0 : Fin 8)].targetRms (256 * tRun.active.lineRx[0].targetRms) = false) ∧ (rmsHigh ((tRun.modLane (.line 0) fun l => { l with acq := { l.acq with state := .signal }, tx := { l.tx with markAt := some 3 }, eq := { l.eq with gain := 3 } }).advanceTo 3).active.lineRx[(0 : Fin 8)].targetRms (256 * tRun.active.lineRx[0].targetRms) = false) := by decide

theorem witness_LaneAdapts_6 :
    (({ (tRun.modLane (.line 0) fun l => { l with acq := { l.acq with state := .signal }, tx := { l.tx with markAt := some 3 } }) with active := tRun.active.addPin (.lineRx 0) 0x2811 128 }.advanceTo 3).lanes[(0 : Fin 8)].receiving = true) ∧ (({ (tRun.modLane (.line 0) fun l => { l with acq := { l.acq with state := .signal }, tx := { l.tx with markAt := some 3 } }) with active := tRun.active.addPin (.lineRx 0) 0x2811 128 }.advanceTo 3).atMarker (.line (0 : Fin 8)) = true) ∧ (({ (tRun.modLane (.line 0) fun l => { l with acq := { l.acq with state := .signal }, tx := { l.tx with markAt := some 3 } }) with active := tRun.active.addPin (.lineRx 0) 0x2811 128 }.advanceTo 3).lanes[(0 : Fin 8)].acq.gainAt ≠ some ({ (tRun.modLane (.line 0) fun l => { l with acq := { l.acq with state := .signal }, tx := { l.tx with markAt := some 3 } }) with active := tRun.active.addPin (.lineRx 0) 0x2811 128 }.advanceTo 3).now) ∧ (({ (tRun.modLane (.line 0) fun l => { l with acq := { l.acq with state := .signal }, tx := { l.tx with markAt := some 3 } }) with active := tRun.active.addPin (.lineRx 0) 0x2811 128 }.advanceTo 3).active.pinned (.lineRx (0 : Fin 8)) 0x2811 128 = true) := by decide

theorem witness_LaneAdapts_7 :
    (((tRun.modLane (.line 0) fun l => { l with acq := { l.acq with state := .signal }, tx := { l.tx with markAt := some (msec 8) } }).advanceTo (msec 8)).lanes[(0 : Fin 8)].receiving = true) ∧ (((tRun.modLane (.line 0) fun l => { l with acq := { l.acq with state := .signal }, tx := { l.tx with markAt := some (msec 8) } }).advanceTo (msec 8)).lanes[(0 : Fin 8)].cal.retired = false) ∧ (((tRun.modLane (.line 0) fun l => { l with acq := { l.acq with state := .signal }, tx := { l.tx with markAt := some (msec 8) } }).advanceTo (msec 8)).scanning (0 : Fin 8) = false) ∧ (((tRun.modLane (.line 0) fun l => { l with acq := { l.acq with state := .signal }, tx := { l.tx with markAt := some (msec 8) } }).advanceTo (msec 8)).lanes[(0 : Fin 8)].cal.movedAt + msec 8 ≤ ((tRun.modLane (.line 0) fun l => { l with acq := { l.acq with state := .signal }, tx := { l.tx with markAt := some (msec 8) } }).advanceTo (msec 8)).now) ∧ (((tRun.modLane (.line 0) fun l => { l with acq := { l.acq with state := .signal }, tx := { l.tx with markAt := some (msec 8) } }).advanceTo (msec 8)).atMarker (.line (0 : Fin 8)) = true) ∧ (parkedOk ((1, 2, 3) : Int × Int × Int) = true) := by decide

theorem witness_LaneAdapts_8 :
    (((tRun.modLane (.line 0) fun l => { l with acq := { l.acq with state := .signal }, tx := { l.tx with markAt := some (msec 8) } }).advanceTo (msec 8)).lanes[(0 : Fin 8)].receiving = true) ∧ (((tRun.modLane (.line 0) fun l => { l with acq := { l.acq with state := .signal }, tx := { l.tx with markAt := some (msec 8) } }).advanceTo (msec 8)).lanes[(0 : Fin 8)].cal.retired = false) ∧ (((tRun.modLane (.line 0) fun l => { l with acq := { l.acq with state := .signal }, tx := { l.tx with markAt := some (msec 8) } }).advanceTo (msec 8)).scanning (0 : Fin 8) = false) ∧ (((tRun.modLane (.line 0) fun l => { l with acq := { l.acq with state := .signal }, tx := { l.tx with markAt := some (msec 8) } }).advanceTo (msec 8)).lanes[(0 : Fin 8)].cal.movedAt + msec 8 ≤ ((tRun.modLane (.line 0) fun l => { l with acq := { l.acq with state := .signal }, tx := { l.tx with markAt := some (msec 8) } }).advanceTo (msec 8)).now) ∧ (((tRun.modLane (.line 0) fun l => { l with acq := { l.acq with state := .signal }, tx := { l.tx with markAt := some (msec 8) } }).advanceTo (msec 8)).atMarker (.line (0 : Fin 8)) = true) ∧ (parkedOk ((1000, 2, 3) : Int × Int × Int) = false) := by decide

theorem witness_LaneAdapts_9 :
    ((((tRun.modLane (.line 0) fun l => { l with acq := { l.acq with state := .locked } }).advanceTo 3).lanes[(0 : Fin 8)].acq.state = .cdrLock ∨ ((tRun.modLane (.line 0) fun l => { l with acq := { l.acq with state := .locked } }).advanceTo 3).lanes[(0 : Fin 8)].acq.state = .frameLock ∨ ((tRun.modLane (.line 0) fun l => { l with acq := { l.acq with state := .locked } }).advanceTo 3).lanes[(0 : Fin 8)].acq.state = .negotiate ∨ ((tRun.modLane (.line 0) fun l => { l with acq := { l.acq with state := .locked } }).advanceTo 3).lanes[(0 : Fin 8)].acq.state = .step ∨ ((tRun.modLane (.line 0) fun l => { l with acq := { l.acq with state := .locked } }).advanceTo 3).lanes[(0 : Fin 8)].acq.state = .locked ∨ ((tRun.modLane (.line 0) fun l => { l with acq := { l.acq with state := .locked } }).advanceTo 3).lanes[(0 : Fin 8)].acq.state = .retrain)) ∧ (((tRun.modLane (.line 0) fun l => { l with acq := { l.acq with state := .locked } }).advanceTo 3).active.lineRx[(0 : Fin 8)].adapt ≠ 2) := by decide

theorem witness_LaneAdapts_10 :
    met ((tRun.modLane (.line 0) fun l => { l with acq := { l.acq with state := .dark } })) 5 .q0 0x2030 false (leBytes 4 0x100) (fun _ e s => decide (e.len = 4 ∧ bits (e.w 0) 0 3 < 8 ∧ rsv (e.w 0) 3 5 = true ∧ rsvHigh (e.w 0) 16 = true ∧ calKinds.contains (bits (e.w 0) 8 8) = true ∧ (idx? 8 (bits (e.w 0) 0 3)).all (fun n => s.calReady n (bits (e.w 0) 8 8)) = true)) = true := by decide

theorem witness_LaneAdapts_11 :
    (((tRun.modLane (.line 0) fun l => { l with acq := { l.acq with state := .calibrating, calKind := 1 } }).advanceTo (usec 1800)).lanes[(0 : Fin 8)].acq.state = .calibrating) ∧ (((tRun.modLane (.line 0) fun l => { l with acq := { l.acq with state := .calibrating, calKind := 1 } }).advanceTo (usec 1800)).lanes[(0 : Fin 8)].acq.since + usec 1800 ≤ ((tRun.modLane (.line 0) fun l => { l with acq := { l.acq with state := .calibrating, calKind := 1 } }).advanceTo (usec 1800)).now) ∧ (calBad ((tRun.modLane (.line 0) fun l => { l with acq := { l.acq with state := .calibrating, calKind := 1 } }).advanceTo (usec 1800)).lanes[(0 : Fin 8)].acq.calKind (([], [], []) : CalMeasure) = none) ∧ ((((tRun.modLane (.line 0) fun l => { l with acq := { l.acq with state := .calibrating, calKind := 1 } }).advanceTo (usec 1800)).calEntry (0 : Fin 8)).all (fun x => ((tRun.modLane (.line 0) fun l => { l with acq := { l.acq with state := .calibrating, calKind := 1 } }).advanceTo (usec 1800)).inOrder x.1) = true) := by decide

theorem witness_LaneAdapts_12 :
    (((tRun.modLane (.line 0) fun l => { l with acq := { l.acq with state := .calibrating, calKind := 1 } }).advanceTo (usec 1800)).lanes[(0 : Fin 8)].acq.state = .calibrating) ∧ (((tRun.modLane (.line 0) fun l => { l with acq := { l.acq with state := .calibrating, calKind := 1 } }).advanceTo (usec 1800)).lanes[(0 : Fin 8)].acq.since + usec 1800 ≤ ((tRun.modLane (.line 0) fun l => { l with acq := { l.acq with state := .calibrating, calKind := 1 } }).advanceTo (usec 1800)).now) ∧ (calBad ((tRun.modLane (.line 0) fun l => { l with acq := { l.acq with state := .calibrating, calKind := 1 } }).advanceTo (usec 1800)).lanes[(0 : Fin 8)].acq.calKind (([1000], [], []) : CalMeasure) = some 0) ∧ ((((tRun.modLane (.line 0) fun l => { l with acq := { l.acq with state := .calibrating, calKind := 1 } }).advanceTo (usec 1800)).calEntry (0 : Fin 8)).all (fun x => ((tRun.modLane (.line 0) fun l => { l with acq := { l.acq with state := .calibrating, calKind := 1 } }).advanceTo (usec 1800)).inOrder x.1) = true) := by decide

theorem witness_LaneAdapts_13 :
    met ((tRun.modLane (.line 0) fun l => { l with acq := { l.acq with state := .locked } })) 5 .q0 0x2041 false (leBytes 8 0) (fun _ e s => decide (e.len = 8 ∧ bits (e.w 0) 0 3 < 8 ∧ rsv (e.w 0) 3 5 = true ∧ rsv (e.w 0) 15 1 = true ∧ rsv (e.w 0) 20 4 = true ∧ rsvHigh (e.w 0) 29 = true ∧ rsvHigh (e.w 1) 16 = true ∧ (idx? 8 (bits (e.w 0) 0 3)).all (fun n => decide (s.lanes[n].acq.state = .locked ∧ s.lanes[n].cal.retired = false) && !s.scanning n) = true)) = true := by decide

theorem witness_LaneAdapts_14 :
    met (expertOpen (tRun.modLane (.line 0) fun l => { l with acq := { l.acq with state := .locked } })) 5 .q0 0x2841 false (leBytes 4 0x14020800 ++ leBytes 4 5) (fun _ e s => decide (e.len = 8 ∧ bits (e.w 0) 0 3 < 8 ∧ rsv (e.w 0) 3 5 = true ∧ rsv (e.w 0) 15 1 = true ∧ rsv (e.w 0) 20 4 = true ∧ rsvHigh (e.w 0) 29 = true ∧ rsvHigh (e.w 1) 16 = true ∧ 1 ≤ bits (e.w 0) 8 7 ∧ bits (e.w 0) 8 7 ≤ 64 ∧ 1 ≤ bits (e.w 0) 16 4 ∧ bits (e.w 0) 16 4 ≤ 8 ∧ bits (e.w 0) 8 7 * bits (e.w 0) 16 4 ≤ 64 ∧ 16 ≤ bits (e.w 0) 24 5 ∧ bits (e.w 0) 24 5 ≤ 28 ∧ 1 ≤ bits (e.w 1) 0 16 ∧ (idx? 8 (bits (e.w 0) 0 3)).all (fun n => scanFits s.active.lineRx[n].s200 (bits (e.w 0) 8 7) (bits (e.w 0) 24 5) && decide (s.lanes[n].acq.state = .locked ∧ s.lanes[n].cal.retired = false) && !s.scanning n) = true)) = true := by decide

theorem witness_LaneAdapts_15 :
    (({ (tRun.modLane (.line 0) fun l => { l with acq := { l.acq with state := .locked, stage := .c } }) with scans := [({ seq := 1, lane := 0, phases := 1, step := 2, depth := 16, limit := 10, startAt := 0 } : EyeScan)] }.advanceTo (secs 9)).scans.find? (fun y => decide (y.lane = (0 : Fin 8))) = some ({ seq := 1, lane := 0, phases := 1, step := 2, depth := 16, limit := 10, startAt := 0 } : EyeScan)) ∧ (({ seq := 1, lane := 0, phases := 1, step := 2, depth := 16, limit := 10, startAt := 0 } : EyeScan).stopAt = none) ∧ (({ seq := 1, lane := 0, phases := 1, step := 2, depth := 16, limit := 10, startAt := 0 } : EyeScan).startAt + scanTime (if ({ (tRun.modLane (.line 0) fun l => { l with acq := { l.acq with state := .locked, stage := .c } }) with scans := [({ seq := 1, lane := 0, phases := 1, step := 2, depth := 16, limit := 10, startAt := 0 } : EyeScan)] }.advanceTo (secs 9)).isS200 (.line (0 : Fin 8)) then .s200 else .c) ({ seq := 1, lane := 0, phases := 1, step := 2, depth := 16, limit := 10, startAt := 0 } : EyeScan).phases ({ seq := 1, lane := 0, phases := 1, step := 2, depth := 16, limit := 10, startAt := 0 } : EyeScan).depth ≤ ({ (tRun.modLane (.line 0) fun l => { l with acq := { l.acq with state := .locked, stage := .c } }) with scans := [({ seq := 1, lane := 0, phases := 1, step := 2, depth := 16, limit := 10, startAt := 0 } : EyeScan)] }.advanceTo (secs 9)).now) := by decide

theorem witness_LaneAdapts_16 :
    (({ tRun with scans := [({ seq := 1, lane := 0, phases := 1, step := 2, depth := 16, limit := 10, startAt := 0, stopAt := some 1 } : EyeScan)] }.advanceTo 3).scans.find? (fun y => decide (y.lane = (0 : Fin 8))) = some ({ seq := 1, lane := 0, phases := 1, step := 2, depth := 16, limit := 10, startAt := 0, stopAt := some 1 } : EyeScan)) ∧ (({ seq := 1, lane := 0, phases := 1, step := 2, depth := 16, limit := 10, startAt := 0, stopAt := some 1 } : EyeScan).stopAt = some 1) := by decide

theorem witness_LaneAdapts_17 :
    ((((tRun.modLane (.line 0) fun l => { l with acq := { l.acq with state := .locked, stage := .c } }).advanceTo (secs 1)).pdReports (0 : Fin 8) = true ∨ ((tRun.modLane (.line 0) fun l => { l with acq := { l.acq with state := .locked, stage := .c } }).advanceTo (secs 1)).skewReports (0 : Fin 8) = true)) ∧ (((tRun.modLane (.line 0) fun l => { l with acq := { l.acq with state := .locked, stage := .c } }).advanceTo (secs 1)).lanes[(0 : Fin 8)].tx.reportAt + secs 1 ≤ ((tRun.modLane (.line 0) fun l => { l with acq := { l.acq with state := .locked, stage := .c } }).advanceTo (secs 1)).now) := by decide

theorem witness_MessagesAct_1 :
    (((tRun.modLane (.line 0) fun l => { l with rx := { l.rx with inbox := some ({ count := 8, payload := pack [(5, 64), (0, 24), (1, 8)], arrival := ⟨0, true⟩, at' := 0, step := 0 } : Inbox) } }).advanceTo 3).message (LaneRef.line 0) 1 = some ({ count := 8, payload := pack [(5, 64), (0, 24), (1, 8)], arrival := ⟨0, true⟩, at' := 0, step := 0 } : Inbox)) := by decide

theorem witness_MessagesAct_2 :
    (((tRun.modLane (.line 0) fun l => { l with acq := { l.acq with state := .negotiate, stage := .a }, tx := { l.tx with squelch := { l.tx.squelch with notEnabled := false, txDisable := false } }, rx := { l.rx with inbox := some ({ count := 8, payload := pack [(2 ^ 62 + 100 * 2 ^ 48, 64), (0, 24), (2, 8)], arrival := ⟨0, true⟩, at' := 0, step := 0 } : Inbox) } }).advanceTo 3).message (LaneRef.line 0) 2 = some ({ count := 8, payload := pack [(2 ^ 62 + 100 * 2 ^ 48, 64), (0, 24), (2, 8)], arrival := ⟨0, true⟩, at' := 0, step := 0 } : Inbox)) ∧ ((((tRun.modLane (.line 0) fun l => { l with acq := { l.acq with state := .negotiate, stage := .a }, tx := { l.tx with squelch := { l.tx.squelch with notEnabled := false, txDisable := false } }, rx := { l.rx with inbox := some ({ count := 8, payload := pack [(2 ^ 62 + 100 * 2 ^ 48, 64), (0, 24), (2, 8)], arrival := ⟨0, true⟩, at' := 0, step := 0 } : Inbox) } }).advanceTo 3).taken (LaneRef.line 0)).mayStep (LaneRef.line 0) = true) ∧ (bits (ctlBody ({ count := 8, payload := pack [(2 ^ 62 + 100 * 2 ^ 48, 64), (0, 24), (2, 8)], arrival := ⟨0, true⟩, at' := 0, step := 0 } : Inbox).payload) 62 2 = ((((tRun.modLane (.line 0) fun l => { l with acq := { l.acq with state := .negotiate, stage := .a }, tx := { l.tx with squelch := { l.tx.squelch with notEnabled := false, txDisable := false } }, rx := { l.rx with inbox := some ({ count := 8, payload := pack [(2 ^ 62 + 100 * 2 ^ 48, 64), (0, 24), (2, 8)], arrival := ⟨0, true⟩, at' := 0, step := 0 } : Inbox) } }).advanceTo 3).taken (LaneRef.line 0)).lane (LaneRef.line 0)).acq.stage.up.code) ∧ (((((tRun.modLane (.line 0) fun l => { l with acq := { l.acq with state := .negotiate, stage := .a }, tx := { l.tx with squelch := { l.tx.squelch with notEnabled := false, txDisable := false } }, rx := { l.rx with inbox := some ({ count := 8, payload := pack [(2 ^ 62 + 100 * 2 ^ 48, 64), (0, 24), (2, 8)], arrival := ⟨0, true⟩, at' := 0, step := 0 } : Inbox) } }).advanceTo 3).taken (LaneRef.line 0)).lane (LaneRef.line 0)).rx.peer ≠ some (((tRun.modLane (.line 0) fun l => { l with acq := { l.acq with state := .negotiate, stage := .a }, tx := { l.tx with squelch := { l.tx.squelch with notEnabled := false, txDisable := false } }, rx := { l.rx with inbox := some ({ count := 8, payload := pack [(2 ^ 62 + 100 * 2 ^ 48, 64), (0, 24), (2, 8)], arrival := ⟨0, true⟩, at' := 0, step := 0 } : Inbox) } }).advanceTo 3).taken (LaneRef.line 0)).sys.serial) := by decide

theorem witness_MessagesAct_3 :
    (((tRun.modLane (.line 0) fun l => { l with acq := { l.acq with state := .negotiate, stage := .a }, tx := { l.tx with squelch := { l.tx.squelch with notEnabled := false, txDisable := false }, step := some ({ proposer := true, target := .b, txAt := 100, rxAt := none, agreed := false, txDone := false, rxDone := false, msgSeq := 0 } : StepNeg) }, rx := { l.rx with peer := some tRun.sys.serial, inbox := some ({ count := 8, payload := pack [(2 ^ 62 + 100 * 2 ^ 48, 64), (0, 24), (2, 8)], arrival := ⟨0, true⟩, at' := 0, step := 0 } : Inbox) } }).advanceTo 3).message (LaneRef.line 0) 2 = some ({ count := 8, payload := pack [(2 ^ 62 + 100 * 2 ^ 48, 64), (0, 24), (2, 8)], arrival := ⟨0, true⟩, at' := 0, step := 0 } : Inbox)) ∧ ((((tRun.modLane (.line 0) fun l => { l with acq := { l.acq with state := .negotiate, stage := .a }, tx := { l.tx with squelch := { l.tx.squelch with notEnabled := false, txDisable := false }, step := some ({ proposer := true, target := .b, txAt := 100, rxAt := none, agreed := false, txDone := false, rxDone := false, msgSeq := 0 } : StepNeg) }, rx := { l.rx with peer := some tRun.sys.serial, inbox := some ({ count := 8, payload := pack [(2 ^ 62 + 100 * 2 ^ 48, 64), (0, 24), (2, 8)], arrival := ⟨0, true⟩, at' := 0, step := 0 } : Inbox) } }).advanceTo 3).taken (LaneRef.line 0)).mayStep (LaneRef.line 0) = true) ∧ (bits (ctlBody ({ count := 8, payload := pack [(2 ^ 62 + 100 * 2 ^ 48, 64), (0, 24), (2, 8)], arrival := ⟨0, true⟩, at' := 0, step := 0 } : Inbox).payload) 62 2 = ((((tRun.modLane (.line 0) fun l => { l with acq := { l.acq with state := .negotiate, stage := .a }, tx := { l.tx with squelch := { l.tx.squelch with notEnabled := false, txDisable := false }, step := some ({ proposer := true, target := .b, txAt := 100, rxAt := none, agreed := false, txDone := false, rxDone := false, msgSeq := 0 } : StepNeg) }, rx := { l.rx with peer := some tRun.sys.serial, inbox := some ({ count := 8, payload := pack [(2 ^ 62 + 100 * 2 ^ 48, 64), (0, 24), (2, 8)], arrival := ⟨0, true⟩, at' := 0, step := 0 } : Inbox) } }).advanceTo 3).taken (LaneRef.line 0)).lane (LaneRef.line 0)).acq.stage.up.code) ∧ (((((tRun.modLane (.line 0) fun l => { l with acq := { l.acq with state := .negotiate, stage := .a }, tx := { l.tx with squelch := { l.tx.squelch with notEnabled := false, txDisable := false }, step := some ({ proposer := true, target := .b, txAt := 100, rxAt := none, agreed := false, txDone := false, rxDone := false, msgSeq := 0 } : StepNeg) }, rx := { l.rx with peer := some tRun.sys.serial, inbox := some ({ count := 8, payload := pack [(2 ^ 62 + 100 * 2 ^ 48, 64), (0, 24), (2, 8)], arrival := ⟨0, true⟩, at' := 0, step := 0 } : Inbox) } }).advanceTo 3).taken (LaneRef.line 0)).lane (LaneRef.line 0)).rx.peer = some (((tRun.modLane (.line 0) fun l => { l with acq := { l.acq with state := .negotiate, stage := .a }, tx := { l.tx with squelch := { l.tx.squelch with notEnabled := false, txDisable := false }, step := some ({ proposer := true, target := .b, txAt := 100, rxAt := none, agreed := false, txDone := false, rxDone := false, msgSeq := 0 } : StepNeg) }, rx := { l.rx with peer := some tRun.sys.serial, inbox := some ({ count := 8, payload := pack [(2 ^ 62 + 100 * 2 ^ 48, 64), (0, 24), (2, 8)], arrival := ⟨0, true⟩, at' := 0, step := 0 } : Inbox) } }).advanceTo 3).taken (LaneRef.line 0)).sys.serial) ∧ (((((tRun.modLane (.line 0) fun l => { l with acq := { l.acq with state := .negotiate, stage := .a }, tx := { l.tx with squelch := { l.tx.squelch with notEnabled := false, txDisable := false }, step := some ({ proposer := true, target := .b, txAt := 100, rxAt := none, agreed := false, txDone := false, rxDone := false, msgSeq := 0 } : StepNeg) }, rx := { l.rx with peer := some tRun.sys.serial, inbox := some ({ count := 8, payload := pack [(2 ^ 62 + 100 * 2 ^ 48, 64), (0, 24), (2, 8)], arrival := ⟨0, true⟩, at' := 0, step := 0 } : Inbox) } }).advanceTo 3).taken (LaneRef.line 0)).lane (LaneRef.line 0)).tx.step = some ({ proposer := true, target := .b, txAt := 100, rxAt := none, agreed := false, txDone := false, rxDone := false, msgSeq := 0 } : StepNeg)) ∧ (({ proposer := true, target := .b, txAt := 100, rxAt := none, agreed := false, txDone := false, rxDone := false, msgSeq := 0 } : StepNeg).proposer = true) ∧ (({ proposer := true, target := .b, txAt := 100, rxAt := none, agreed := false, txDone := false, rxDone := false, msgSeq := 0 } : StepNeg).txAt = bits (ctlBody ({ count := 8, payload := pack [(2 ^ 62 + 100 * 2 ^ 48, 64), (0, 24), (2, 8)], arrival := ⟨0, true⟩, at' := 0, step := 0 } : Inbox).payload) 48 13) := by decide

theorem witness_MessagesAct_4 :
    (((tRun.modLane (.line 0) fun l => { l with acq := { l.acq with state := .negotiate, stage := .a }, tx := { l.tx with squelch := { l.tx.squelch with notEnabled := false, txDisable := false }, count := 20, step := some ({ proposer := true, target := .b, txAt := 100, rxAt := none, agreed := false, txDone := false, rxDone := false, msgSeq := 0 } : StepNeg) }, rx := { l.rx with inbox := some ({ count := 8, payload := pack [(2 ^ 62 + 100 * 2 ^ 48 + 70 * 2 ^ 32, 64), (0, 24), (3, 8)], arrival := ⟨0, true⟩, at' := 0, step := 0 } : Inbox) } }).advanceTo 3).message (LaneRef.line 0) 3 = some ({ count := 8, payload := pack [(2 ^ 62 + 100 * 2 ^ 48 + 70 * 2 ^ 32, 64), (0, 24), (3, 8)], arrival := ⟨0, true⟩, at' := 0, step := 0 } : Inbox)) ∧ (((((tRun.modLane (.line 0) fun l => { l with acq := { l.acq with state := .negotiate, stage := .a }, tx := { l.tx with squelch := { l.tx.squelch with notEnabled := false, txDisable := false }, count := 20, step := some ({ proposer := true, target := .b, txAt := 100, rxAt := none, agreed := false, txDone := false, rxDone := false, msgSeq := 0 } : StepNeg) }, rx := { l.rx with inbox := some ({ count := 8, payload := pack [(2 ^ 62 + 100 * 2 ^ 48 + 70 * 2 ^ 32, 64), (0, 24), (3, 8)], arrival := ⟨0, true⟩, at' := 0, step := 0 } : Inbox) } }).advanceTo 3).taken (LaneRef.line 0)).lane (LaneRef.line 0)).tx.step = some ({ proposer := true, target := .b, txAt := 100, rxAt := none, agreed := false, txDone := false, rxDone := false, msgSeq := 0 } : StepNeg)) ∧ ((((tRun.modLane (.line 0) fun l => { l with acq := { l.acq with state := .negotiate, stage := .a }, tx := { l.tx with squelch := { l.tx.squelch with notEnabled := false, txDisable := false }, count := 20, step := some ({ proposer := true, target := .b, txAt := 100, rxAt := none, agreed := false, txDone := false, rxDone := false, msgSeq := 0 } : StepNeg) }, rx := { l.rx with inbox := some ({ count := 8, payload := pack [(2 ^ 62 + 100 * 2 ^ 48 + 70 * 2 ^ 32, 64), (0, 24), (3, 8)], arrival := ⟨0, true⟩, at' := 0, step := 0 } : Inbox) } }).advanceTo 3).taken (LaneRef.line 0)).mayStep (LaneRef.line 0) = true) ∧ (({ proposer := true, target := .b, txAt := 100, rxAt := none, agreed := false, txDone := false, rxDone := false, msgSeq := 0 } : StepNeg).proposer = true) ∧ (({ proposer := true, target := .b, txAt := 100, rxAt := none, agreed := false, txDone := false, rxDone := false, msgSeq := 0 } : StepNeg).agreed = false) ∧ (bits (ctlBody ({ count := 8, payload := pack [(2 ^ 62 + 100 * 2 ^ 48 + 70 * 2 ^ 32, 64), (0, 24), (3, 8)], arrival := ⟨0, true⟩, at' := 0, step := 0 } : Inbox).payload) 62 2 = ({ proposer := true, target := .b, txAt := 100, rxAt := none, agreed := false, txDone := false, rxDone := false, msgSeq := 0 } : StepNeg).target.code) ∧ (bits (ctlBody ({ count := 8, payload := pack [(2 ^ 62 + 100 * 2 ^ 48 + 70 * 2 ^ 32, 64), (0, 24), (3, 8)], arrival := ⟨0, true⟩, at' := 0, step := 0 } : Inbox).payload) 48 13 = ({ proposer := true, target := .b, txAt := 100, rxAt := none, agreed := false, txDone := false, rxDone := false, msgSeq := 0 } : StepNeg).txAt) := by decide

theorem witness_MessagesAct_5 :
    (((tRun.modLane (.relay 0) fun l => { l with acq := { l.acq with state := .negotiate, stage := .c }, rx := { l.rx with inbox := some ({ count := 8, payload := pack [(2 ^ 56, 64), (0, 24), (4, 8)], arrival := ⟨0, true⟩, at' := 0, step := 0 } : Inbox) } }).advanceTo 3).message (LaneRef.relay 0) 4 = some ({ count := 8, payload := pack [(2 ^ 56, 64), (0, 24), (4, 8)], arrival := ⟨0, true⟩, at' := 0, step := 0 } : Inbox)) ∧ (((((tRun.modLane (.relay 0) fun l => { l with acq := { l.acq with state := .negotiate, stage := .c }, rx := { l.rx with inbox := some ({ count := 8, payload := pack [(2 ^ 56, 64), (0, 24), (4, 8)], arrival := ⟨0, true⟩, at' := 0, step := 0 } : Inbox) } }).advanceTo 3).taken (LaneRef.relay 0)).lane (LaneRef.relay 0)).acq.state = .negotiate) ∧ (((((tRun.modLane (.relay 0) fun l => { l with acq := { l.acq with state := .negotiate, stage := .c }, rx := { l.rx with inbox := some ({ count := 8, payload := pack [(2 ^ 56, 64), (0, 24), (4, 8)], arrival := ⟨0, true⟩, at' := 0, step := 0 } : Inbox) } }).advanceTo 3).taken (LaneRef.relay 0)).lane (LaneRef.relay 0)).acq.stage = .c) ∧ (((((tRun.modLane (.relay 0) fun l => { l with acq := { l.acq with state := .negotiate, stage := .c }, rx := { l.rx with inbox := some ({ count := 8, payload := pack [(2 ^ 56, 64), (0, 24), (4, 8)], arrival := ⟨0, true⟩, at' := 0, step := 0 } : Inbox) } }).advanceTo 3).taken (LaneRef.relay 0)).declinesTaps (LaneRef.relay 0) || ((((tRun.modLane (.relay 0) fun l => { l with acq := { l.acq with state := .negotiate, stage := .c }, rx := { l.rx with inbox := some ({ count := 8, payload := pack [(2 ^ 56, 64), (0, 24), (4, 8)], arrival := ⟨0, true⟩, at' := 0, step := 0 } : Inbox) } }).advanceTo 3).taken (LaneRef.relay 0)).lane (LaneRef.relay 0)).tx.tuned) = true) := by decide

theorem witness_MessagesAct_6 :
    (({ (tRun.modLane (.line 0) fun l => { l with acq := { l.acq with state := .negotiate, stage := .c }, rx := { l.rx with inbox := some ({ count := 8, payload := pack [(2 ^ 56 + 1 * 2 ^ 53, 64), (0, 24), (4, 8)], arrival := ⟨0, true⟩, at' := 0, step := 0 } : Inbox) } }) with active := { tRun.active with lineTx := upd tRun.active.lineTx 0 fun p => { p with preset := 0 } } }.advanceTo 3).message (.line (0 : Fin 8)) 4 = some ({ count := 8, payload := pack [(2 ^ 56 + 1 * 2 ^ 53, 64), (0, 24), (4, 8)], arrival := ⟨0, true⟩, at' := 0, step := 0 } : Inbox)) ∧ ((({ (tRun.modLane (.line 0) fun l => { l with acq := { l.acq with state := .negotiate, stage := .c }, rx := { l.rx with inbox := some ({ count := 8, payload := pack [(2 ^ 56 + 1 * 2 ^ 53, 64), (0, 24), (4, 8)], arrival := ⟨0, true⟩, at' := 0, step := 0 } : Inbox) } }) with active := { tRun.active with lineTx := upd tRun.active.lineTx 0 fun p => { p with preset := 0 } } }.advanceTo 3).taken (.line (0 : Fin 8))).lanes[(0 : Fin 8)].acq.state = .negotiate) ∧ ((({ (tRun.modLane (.line 0) fun l => { l with acq := { l.acq with state := .negotiate, stage := .c }, rx := { l.rx with inbox := some ({ count := 8, payload := pack [(2 ^ 56 + 1 * 2 ^ 53, 64), (0, 24), (4, 8)], arrival := ⟨0, true⟩, at' := 0, step := 0 } : Inbox) } }) with active := { tRun.active with lineTx := upd tRun.active.lineTx 0 fun p => { p with preset := 0 } } }.advanceTo 3).taken (.line (0 : Fin 8))).lanes[(0 : Fin 8)].acq.stage = .c) ∧ (((({ (tRun.modLane (.line 0) fun l => { l with acq := { l.acq with state := .negotiate, stage := .c }, rx := { l.rx with inbox := some ({ count := 8, payload := pack [(2 ^ 56 + 1 * 2 ^ 53, 64), (0, 24), (4, 8)], arrival := ⟨0, true⟩, at' := 0, step := 0 } : Inbox) } }) with active := { tRun.active with lineTx := upd tRun.active.lineTx 0 fun p => { p with preset := 0 } } }.advanceTo 3).taken (.line (0 : Fin 8))).declinesTaps (.line (0 : Fin 8)) || (({ (tRun.modLane (.line 0) fun l => { l with acq := { l.acq with state := .negotiate, stage := .c }, rx := { l.rx with inbox := some ({ count := 8, payload := pack [(2 ^ 56 + 1 * 2 ^ 53, 64), (0, 24), (4, 8)], arrival := ⟨0, true⟩, at' := 0, step := 0 } : Inbox) } }) with active := { tRun.active with lineTx := upd tRun.active.lineTx 0 fun p => { p with preset := 0 } } }.advanceTo 3).taken (.line (0 : Fin 8))).lanes[(0 : Fin 8)].tx.tuned) = false) := by decide

theorem witness_MessagesAct_7 :
    (((tRun.modLane (.line 0) fun l => { l with acq := { l.acq with state := .negotiate, stage := .c }, rx := { l.rx with inbox := some ({ count := 8, payload := pack [(2 ^ 55, 64), (0, 24), (5, 8)], arrival := ⟨0, true⟩, at' := 0, step := 0 } : Inbox) } }).advanceTo 3).message (LaneRef.line 0) 5 = some ({ count := 8, payload := pack [(2 ^ 55, 64), (0, 24), (5, 8)], arrival := ⟨0, true⟩, at' := 0, step := 0 } : Inbox)) ∧ (((((tRun.modLane (.line 0) fun l => { l with acq := { l.acq with state := .negotiate, stage := .c }, rx := { l.rx with inbox := some ({ count := 8, payload := pack [(2 ^ 55, 64), (0, 24), (5, 8)], arrival := ⟨0, true⟩, at' := 0, step := 0 } : Inbox) } }).advanceTo 3).taken (LaneRef.line 0)).lane (LaneRef.line 0)).acq.state = .negotiate) ∧ (((((tRun.modLane (.line 0) fun l => { l with acq := { l.acq with state := .negotiate, stage := .c }, rx := { l.rx with inbox := some ({ count := 8, payload := pack [(2 ^ 55, 64), (0, 24), (5, 8)], arrival := ⟨0, true⟩, at' := 0, step := 0 } : Inbox) } }).advanceTo 3).taken (LaneRef.line 0)).lane (LaneRef.line 0)).acq.stage = .c) ∧ (((((tRun.modLane (.line 0) fun l => { l with acq := { l.acq with state := .negotiate, stage := .c }, rx := { l.rx with inbox := some ({ count := 8, payload := pack [(2 ^ 55, 64), (0, 24), (5, 8)], arrival := ⟨0, true⟩, at' := 0, step := 0 } : Inbox) } }).advanceTo 3).taken (LaneRef.line 0)).lane (LaneRef.line 0)).tx.tuneDone = false) := by decide

theorem witness_MessagesAct_8 :
    (({ (tRun.modLane (.line 0) fun l => { l with acq := { l.acq with state := .locked }, rx := { l.rx with inbox := some ({ count := 8, payload := pack [(2 ^ 58, 64), (0, 24), (6, 8)], arrival := ⟨0, true⟩, at' := 0, step := 0 } : Inbox) } }) with active := { tRun.active with lineTx := upd tRun.active.lineTx 0 fun p => { p with pdAdaptive := true } } }.advanceTo 3).message (.line (0 : Fin 8)) 6 = some ({ count := 8, payload := pack [(2 ^ 58, 64), (0, 24), (6, 8)], arrival := ⟨0, true⟩, at' := 0, step := 0 } : Inbox)) ∧ ((({ (tRun.modLane (.line 0) fun l => { l with acq := { l.acq with state := .locked }, rx := { l.rx with inbox := some ({ count := 8, payload := pack [(2 ^ 58, 64), (0, 24), (6, 8)], arrival := ⟨0, true⟩, at' := 0, step := 0 } : Inbox) } }) with active := { tRun.active with lineTx := upd tRun.active.lineTx 0 fun p => { p with pdAdaptive := true } } }.advanceTo 3).taken (.line (0 : Fin 8))).lanes[(0 : Fin 8)].acq.state = .locked) ∧ ((({ (tRun.modLane (.line 0) fun l => { l with acq := { l.acq with state := .locked }, rx := { l.rx with inbox := some ({ count := 8, payload := pack [(2 ^ 58, 64), (0, 24), (6, 8)], arrival := ⟨0, true⟩, at' := 0, step := 0 } : Inbox) } }) with active := { tRun.active with lineTx := upd tRun.active.lineTx 0 fun p => { p with pdAdaptive := true } } }.advanceTo 3).taken (.line (0 : Fin 8))).active.lineTx[(0 : Fin 8)].pdAdaptive = true) ∧ ((({ (tRun.modLane (.line 0) fun l => { l with acq := { l.acq with state := .locked }, rx := { l.rx with inbox := some ({ count := 8, payload := pack [(2 ^ 58, 64), (0, 24), (6, 8)], arrival := ⟨0, true⟩, at' := 0, step := 0 } : Inbox) } }) with active := { tRun.active with lineTx := upd tRun.active.lineTx 0 fun p => { p with pdAdaptive := true } } }.advanceTo 3).taken (.line (0 : Fin 8))).active.lineTx[(0 : Fin 8)].s200 = false) ∧ ((({ (tRun.modLane (.line 0) fun l => { l with acq := { l.acq with state := .locked }, rx := { l.rx with inbox := some ({ count := 8, payload := pack [(2 ^ 58, 64), (0, 24), (6, 8)], arrival := ⟨0, true⟩, at' := 0, step := 0 } : Inbox) } }) with active := { tRun.active with lineTx := upd tRun.active.lineTx 0 fun p => { p with pdAdaptive := true } } }.advanceTo 3).taken (.line (0 : Fin 8))).active.pinned (.lineTx (0 : Fin 8)) 0x2822 0 = false) ∧ ((({ (tRun.modLane (.line 0) fun l => { l with acq := { l.acq with state := .locked }, rx := { l.rx with inbox := some ({ count := 8, payload := pack [(2 ^ 58, 64), (0, 24), (6, 8)], arrival := ⟨0, true⟩, at' := 0, step := 0 } : Inbox) } }) with active := { tRun.active with lineTx := upd tRun.active.lineTx 0 fun p => { p with pdAdaptive := true } } }.advanceTo 3).taken (.line (0 : Fin 8))).shadow.pinned (.lineTx (0 : Fin 8)) 0x2822 0 = false) := by decide

theorem witness_MessagesAct_9 :
    (((tRun.modLane (.line 0) fun l => { l with rx := { l.rx with inbox := some ({ count := 8, payload := pack [(5, 64), (0, 24), (7, 8)], arrival := ⟨0, true⟩, at' := 0, step := 0 } : Inbox) } }).advanceTo 3).message (.line (0 : Fin 8)) 7 = some ({ count := 8, payload := pack [(5, 64), (0, 24), (7, 8)], arrival := ⟨0, true⟩, at' := 0, step := 0 } : Inbox)) := by decide

theorem witness_MessagesAct_10 :
    (((tRun.modLane (.line 0) fun l => { l with rx := { l.rx with inbox := some ({ count := 8, payload := pack [(5, 64), (0, 24), (8, 8)], arrival := ⟨0, true⟩, at' := 0, step := 0 } : Inbox) } }).advanceTo 3).message (.line (0 : Fin 8)) 8 = some ({ count := 8, payload := pack [(5, 64), (0, 24), (8, 8)], arrival := ⟨0, true⟩, at' := 0, step := 0 } : Inbox)) := by decide

theorem witness_MessagesAct_11 :
    (((tRun.modLane (.line 0) fun l => { l with rx := { l.rx with inbox := some ({ count := 8, payload := pack [(77 * 2 ^ 48, 64), (0, 24), (9, 8)], arrival := ⟨0, true⟩, at' := 0, step := 0 } : Inbox) } }).advanceTo 3).message (.line (0 : Fin 8)) 9 = some ({ count := 8, payload := pack [(77 * 2 ^ 48, 64), (0, 24), (9, 8)], arrival := ⟨0, true⟩, at' := 0, step := 0 } : Inbox)) := by decide

theorem witness_MarkersPass_1 :
    ((((tRun.modLane (.line 0) fun l => { l with acq := { l.acq with state := .locked } }).advanceTo 3).lane (LaneRef.line 0)).seesMarkers = true) ∧ (((tRun.modLane (.line 0) fun l => { l with acq := { l.acq with state := .locked } }).advanceTo 3).judge (LaneRef.line 0) 0 ({ pos := 0, cycles := [], samples := [], blocks := [], found := false } : RxFrame).found = .missing) := by decide

theorem witness_MarkersPass_2 :
    ((((tRun.modLane (.line 0) fun l => { l with acq := { l.acq with state := .locked } }).advanceTo 3).lane (LaneRef.line 0)).seesMarkers = true) ∧ (((tRun.modLane (.line 0) fun l => { l with acq := { l.acq with state := .locked } }).advanceTo 3).judge (LaneRef.line 0) (0x6F1A * 2 ^ 128) ({ pos := 0, cycles := [], samples := [], blocks := [], found := false } : RxFrame).found = .corrupt) := by decide

theorem witness_MarkersPass_3 :
    ((((tRun.modLane (.line 0) fun l => { l with acq := { l.acq with state := .locked } }).advanceTo 3).lane (LaneRef.line 0)).seesMarkers = true) ∧ (((tRun.modLane (.line 0) fun l => { l with acq := { l.acq with state := .locked } }).advanceTo 3).judge (LaneRef.line 0) (markerBlock 5 0 77) ({ pos := 0, cycles := [], samples := [], blocks := [], found := false } : RxFrame).found = .good) ∧ (markerType (markerCount (markerBlock 5 0 77)) ≠ .control) := by decide

theorem witness_MarkersPass_4 :
    ((((tRun.modLane (.line 0) fun l => { l with acq := { l.acq with state := .locked } }).advanceTo 3).lane (LaneRef.line 0)).seesMarkers = true) ∧ (((tRun.modLane (.line 0) fun l => { l with acq := { l.acq with state := .locked } }).advanceTo 3).judge (LaneRef.line 0) (markerBlock 8 0 (2 ^ 81)) ({ pos := 0, cycles := [], samples := [], blocks := [], found := false } : RxFrame).found = .good) ∧ (markerType (markerCount (markerBlock 8 0 (2 ^ 81))) = .control) ∧ (bit (markerPayload (markerBlock 8 0 (2 ^ 81))) 81 = true) := by decide

theorem witness_MarkersPass_5 :
    ((((tRun.modLane (.line 0) fun l => { l with acq := { l.acq with state := .locked } }).advanceTo 3).lane (LaneRef.line 0)).seesMarkers = true) ∧ (((tRun.modLane (.line 0) fun l => { l with acq := { l.acq with state := .locked } }).advanceTo 3).judge (LaneRef.line 0) (markerBlock 8 0 0) ({ pos := 0, cycles := [], samples := [], blocks := [], found := false } : RxFrame).found = .good) ∧ (markerType (markerCount (markerBlock 8 0 0)) = .control) ∧ (bit (markerPayload (markerBlock 8 0 0)) 81 = false) := by decide

theorem witness_MarkersPass_6 :
    ((((tRun.modLane (.line 0) fun l => { l with acq := { l.acq with state := .signal } }).advanceTo 3).lane (LaneRef.line 0)).seesMarkers = false) := by decide

theorem witness_MarkersPass_7 :
    (((tRun.modLane (.line 0) fun l => { l with tx := { l.tx with clocked := true, count := 8, stage := .a } }).advanceTo 3).sendsNow (LaneRef.line 0) = true) := by decide

theorem witness_MarkersPass_8 :
    (((tRun.modLane (.line 0) fun l => { l with tx := { l.tx with clocked := false } }).advanceTo 3).sendsNow (LaneRef.line 0) = false) := by decide

theorem witness_MarkersPass_9 :
    ((tRun.modLane (.line 0) fun l => { l with tx := { l.tx with clocked := true, count := 8, stage := .a } }).sendsNow (LaneRef.line 0) = true) ∧ ((tRun.modLane (.line 0) fun l => { l with tx := { l.tx with clocked := true, count := 8, stage := .a } }).farLoop (LaneRef.line 0) = false) ∧ (((tRun.modLane (.line 0) fun l => { l with tx := { l.tx with clocked := true, count := 8, stage := .a } }).lane (LaneRef.line 0)).tx.stage ≠ .s200) := by decide

theorem witness_MarkersPass_10 :
    ({ (tRun.modLane (.line 0) fun l => { l with acq := { l.acq with state := .locked }, tx := { l.tx with clocked := true } }) with active := { tRun.active with lineRx := upd tRun.active.lineRx 0 fun p => { p with loop := 3 }, lineTx := upd tRun.active.lineTx 0 fun p => { p with loop := 3 } } }.sendsNow (LaneRef.line 0) = true) ∧ ({ (tRun.modLane (.line 0) fun l => { l with acq := { l.acq with state := .locked }, tx := { l.tx with clocked := true } }) with active := { tRun.active with lineRx := upd tRun.active.lineRx 0 fun p => { p with loop := 3 }, lineTx := upd tRun.active.lineTx 0 fun p => { p with loop := 3 } } }.farLoop (LaneRef.line 0) = true) := by decide

theorem witness_MarkersPass_11 :
    ((tRun.modLane (.line 0) fun l => { l with tx := { l.tx with clocked := true, count := 8, stage := .s200 } }).sendsNow (LaneRef.line 0) = true) ∧ ((tRun.modLane (.line 0) fun l => { l with tx := { l.tx with clocked := true, count := 8, stage := .s200 } }).farLoop (LaneRef.line 0) = false) ∧ (((tRun.modLane (.line 0) fun l => { l with tx := { l.tx with clocked := true, count := 8, stage := .s200 } }).lane (LaneRef.line 0)).tx.stage = .s200) := by decide

theorem witness_MarkersPass_12 :
    ((((tRun.modLane (.line 0) fun l => { l with rx := { l.rx with inbox := some ({ count := 3, payload := 5, arrival := ⟨0, true⟩, at' := 0, step := 0 } : Inbox) } }).advanceTo 3).lane (LaneRef.line 0)).rx.inbox = some ({ count := 3, payload := 5, arrival := ⟨0, true⟩, at' := 0, step := 0 } : Inbox)) ∧ (markerType ({ count := 3, payload := 5, arrival := ⟨0, true⟩, at' := 0, step := 0 } : Inbox).count = .data) := by decide

theorem witness_MarkersPass_13 :
    ((((tRun.modLane (.line 0) fun l => { l with rx := { l.rx with inbox := some ({ count := 16, payload := 5, arrival := ⟨0, true⟩, at' := 0, step := 0 } : Inbox) } }).advanceTo 3).lane (LaneRef.line 0)).rx.inbox = some ({ count := 16, payload := 5, arrival := ⟨0, true⟩, at' := 0, step := 0 } : Inbox)) ∧ (markerType ({ count := 16, payload := 5, arrival := ⟨0, true⟩, at' := 0, step := 0 } : Inbox).count = .time) := by decide

theorem witness_MarkersPass_14 :
    (bit ({ count := 32, payload := 2 ^ 33, arrival := ⟨900, true⟩, at' := 0, step := 0 } : Inbox).payload 33 = true) ∧ (((tRun.modLane (.relay 0) fun l => { l with time := { l.time with lastArrival := some ⟨1, ⟨800, true⟩, 0, 0⟩ } }).lane (LaneRef.relay 0)).time.lastArrival = some (⟨1, ⟨800, true⟩, 0, 0⟩ : MarkerStamp)) ∧ ((⟨1, ⟨800, true⟩, 0, 0⟩ : MarkerStamp).q = (({ count := 32, payload := 2 ^ 33, arrival := ⟨900, true⟩, at' := 0, step := 0 } : Inbox).count / 16 + 499) % 500) ∧ ((⟨1, ⟨800, true⟩, 0, 0⟩ : MarkerStamp).stamp.valid = true) := by decide

theorem witness_MarkersPass_15 :
    ((tRun.modLane (.relay 0) fun l => { l with acq := { l.acq with state := .locked }, time := { l.time with lSum := some (0, 0) } }).roundTrip (LaneRef.relay 0) = some 0) ∧ ((tRun.modLane (.relay 0) fun l => { l with acq := { l.acq with state := .locked }, time := { l.time with lSum := some (0, 0) } }).eligible (LaneRef.relay 0) = true) ∧ ((⟨1, ⟨800, true⟩, 0, 0⟩ : MarkerStamp).step = (tRun.modLane (.relay 0) fun l => { l with acq := { l.acq with state := .locked }, time := { l.time with lSum := some (0, 0) } }).tb.steps) := by decide

theorem witness_TransferCommands_1 :
    met (tRun) 5 .q0 0x2031 true (leBytes 4 0x1200) (fun _ e s => decide (e.len = 4 ∧ rsv (e.w 0) 3 5 = true ∧ rsvHigh (e.w 0) 16 = true ∧ (s.calTable (0 : Fin 8) (bits (e.w 0) 8 8)).isSome = true ∧ idx? 8 (bits (e.w 0) 0 3) = some (0 : Fin 8))) = true := by decide

theorem witness_TransferCommands_2 :
    met (tRun) 5 .q0 0x4030 true (leBytes 4 0x103) (fun _ e _ => decide (e.len = 4 ∧ rsvHigh (e.w 0) 12 = true)) = true := by decide

theorem witness_TransferCommands_3 :
    met ({ tRun with active := { tRun.active with lineTx := upd tRun.active.lineTx 0 fun p => { p with txEn := true }, lineRx := upd tRun.active.lineRx 0 fun p => { p with rxEn := true } } }) 5 .q0 0x4031 false (leBytes 4 0) (fun _ e s => decide (idx? 8 (bits (e.w 0) 0 3) = some (0 : Fin 8) ∧ e.len = 4 ∧ rsvHigh (e.w 0) 3 = true ∧ s.owners[lineLoopRes (0 : Fin 8)].fn = .none ∧ s.active.lineTx[(0 : Fin 8)].s200 = false ∧ s.active.lineRx[(0 : Fin 8)].s200 = false ∧ s.active.lineTx[(0 : Fin 8)].txEn = true ∧ s.active.lineRx[(0 : Fin 8)].rxEn = true ∧ s.active.lineRx[(0 : Fin 8)].loop = 0 ∧ s.intPinned (0 : Fin 8) = false ∧ s.lanes[(0 : Fin 8)].acq.power = .l0)) = true := by decide

theorem witness_TransferCommands_4 :
    met (expertOpen tRun) 5 .q0 0x4831 false (leBytes 4 0x300 ++ leBytes 16 77) (fun _ e _ => decide (idx? 8 (bits (e.w 0) 0 3) = some (0 : Fin 8) ∧ e.len = 20 ∧ rsv (e.w 0) 3 5 = true ∧ rsvHigh (e.w 0) 10 = true ∧ -131072 ≤ toSigned 32 (e.w 1) ∧ toSigned 32 (e.w 1) ≤ 131072 ∧ -131072 ≤ toSigned 32 (e.w 2) ∧ toSigned 32 (e.w 2) ≤ 131072 ∧ e.w 3 ≤ 6553600 ∧ e.w 4 ≤ 6553600)) = true := by decide

theorem witness_TransferCommands_5 :
    met (tRun) 5 .q0 0x4032 false (leBytes 4 0x103 ++ leBytes 32 0) (fun _ e _ => decide (e.len = 36 ∧ rsvHigh (e.w 0) 10 = true)) = true := by decide

theorem witness_TransferCommands_6 :
    met (expertOpen tRun) 5 .q0 0x4832 false (leBytes 8 0x500000003) (fun _ e _ => decide (e.len = 8 ∧ rsvHigh (e.w 0) 5 = true ∧ -65536000 ≤ toSigned 32 (e.w 1) ∧ toSigned 32 (e.w 1) ≤ 65536000 ∧ bit (e.w 0) 4 = false ∧ idx? 8 (bits (e.w 0) 0 4) = some (3 : Fin 8))) = true := by decide

theorem witness_TransferCommands_7 :
    met (expertOpen tRun) 5 .q0 0x4832 false (leBytes 8 0x50000001f) (fun _ e _ => decide (e.len = 8 ∧ rsvHigh (e.w 0) 5 = true ∧ -65536000 ≤ toSigned 32 (e.w 1) ∧ toSigned 32 (e.w 1) ≤ 65536000 ∧ bit (e.w 0) 4 = true ∧ idx? 16 (bits (e.w 0) 0 4) = some (15 : Fin 16))) = true := by decide

theorem witness_TransferCommands_8 :
    (((tRun.modLane (.line 0) fun l => { l with time := { l.time with xfer := some .claim } }).advanceTo 3).lanes[(0 : Fin 8)].time.xfer = some .claim) ∧ (((tRun.modLane (.line 0) fun l => { l with time := { l.time with xfer := some .claim } }).advanceTo 3).lanes[(0 : Fin 8)].acq.state ≠ .still) := by decide

theorem witness_TransferCommands_9 :
    (((tRun.modLane (.line 0) fun l => { l with acq := { l.acq with state := .still }, time := { l.time with xfer := some .claim } }).advanceTo 3).lanes[(0 : Fin 8)].time.xfer = some .claim) ∧ (((tRun.modLane (.line 0) fun l => { l with acq := { l.acq with state := .still }, time := { l.time with xfer := some .claim } }).advanceTo 3).lanes[(0 : Fin 8)].acq.state = .still) := by decide

theorem witness_TransferCommands_10 :
    (((tRun.modLane (.line 0) fun l => { l with acq := { l.acq with state := .locked, stage := .c }, time := { l.time with xfer := some .bringUp } }).advanceTo 3).lanes[(0 : Fin 8)].time.xfer = some .bringUp) ∧ (((tRun.modLane (.line 0) fun l => { l with acq := { l.acq with state := .locked, stage := .c }, time := { l.time with xfer := some .bringUp } }).advanceTo 3).lanes[(0 : Fin 8)].acq.state = .locked) ∧ (((tRun.modLane (.line 0) fun l => { l with acq := { l.acq with state := .locked, stage := .c }, time := { l.time with xfer := some .bringUp } }).advanceTo 3).lanes[(0 : Fin 8)].acq.stage = .c) := by decide

theorem witness_TransferCommands_11 :
    (((tRun.modLane (.line 0) fun l => { l with time := { l.time with xfer := some .measure, loopCnt := 65536 } }).advanceTo 3).lanes[(0 : Fin 8)].time.xfer = some .measure) ∧ (((tRun.modLane (.line 0) fun l => { l with time := { l.time with xfer := some .measure, loopCnt := 65536 } }).advanceTo 3).lanes[(0 : Fin 8)].time.loopCnt = 65536) := by decide

theorem witness_TransferCommands_12 :
    (((tRun.modLane (.line 0) fun l => { l with time := { l.time with xfer := some .measure, loopCnt := 65535 } }).advanceTo 3).lanes[(0 : Fin 8)].time.xfer = some .measure) ∧ (((tRun.modLane (.line 0) fun l => { l with time := { l.time with xfer := some .measure, loopCnt := 65535 } }).advanceTo 3).lanes[(0 : Fin 8)].time.loopCnt ≠ 65536) := by decide

theorem witness_TransferCommands_13 :
    (((tRun.modLane (.line 0) fun l => { l with time := { l.time with xfer := some .release } }).advanceTo 3).lanes[(0 : Fin 8)].time.xfer = some .release) ∧ (loopOk ((tRun.modLane (.line 0) fun l => { l with time := { l.time with xfer := some .release } }).advanceTo 3).lanes[(0 : Fin 8)].time ((tRun.modLane (.line 0) fun l => { l with time := { l.time with xfer := some .release } }).advanceTo 3).lanes[(0 : Fin 8)].time.loopMeas ((tRun.modLane (.line 0) fun l => { l with time := { l.time with xfer := some .release } }).advanceTo 3).lanes[(0 : Fin 8)].time.loopTemp = true) := by decide

theorem witness_TransferCommands_14 :
    (((tRun.modLane (.line 0) fun l => { l with time := { l.time with xfer := some .release, loopMeas := 40000000 } }).advanceTo 3).lanes[(0 : Fin 8)].time.xfer = some .release) ∧ (loopOk ((tRun.modLane (.line 0) fun l => { l with time := { l.time with xfer := some .release, loopMeas := 40000000 } }).advanceTo 3).lanes[(0 : Fin 8)].time ((tRun.modLane (.line 0) fun l => { l with time := { l.time with xfer := some .release, loopMeas := 40000000 } }).advanceTo 3).lanes[(0 : Fin 8)].time.loopMeas ((tRun.modLane (.line 0) fun l => { l with time := { l.time with xfer := some .release, loopMeas := 40000000 } }).advanceTo 3).lanes[(0 : Fin 8)].time.loopTemp = false) := by decide

theorem witness_TransferCommands_15 :
    ((tRun.modLane (.line 0) fun l => { l with acq := { l.acq with state := .locked } }).lanes[(0 : Fin 8)].acq.state ≠ .disabled) ∧ ((tRun.modLane (.line 0) fun l => { l with acq := { l.acq with state := .locked } }).lanes[(0 : Fin 8)].acq.state ≠ .still) := by decide

theorem witness_TransferCommands_16 :
    ((tRun.lanes[(0 : Fin 8)].acq.state = .disabled ∨ tRun.lanes[(0 : Fin 8)].acq.state = .still)) := by decide

theorem witness_TransferCommands_17 :
    (2 ^ 18 ≤ { tRun with tb := { tRun.tb with asymMarkers := 262144 } }.tb.asymMarkers) := by decide

theorem witness_RailsAndReset_1 :
    ((tRun.modPow fun p => { p with powered := false }).sys.pow.powered = false) := by decide

theorem witness_RailsAndReset_2 :
    ((tRun.modPow fun p => { p with powered := true, railOk := Vector.replicate 8 false, starting := some (1, 0) }).sys.pow.powered = true) ∧ ((tRun.modPow fun p => { p with powered := true, railOk := Vector.replicate 8 false, starting := some (1, 0) }).sys.pow.isOff = false) ∧ ((tRun.modPow fun p => { p with powered := true, railOk := Vector.replicate 8 false, starting := some (1, 0) }).sys.pow.railOk[(6 : Fin 8)] = false) ∧ ((tRun.modPow fun p => { p with powered := true, railOk := Vector.replicate 8 false, starting := some (1, 0) }).sys.pow.starting = some (1, 0)) ∧ (railOrder[1]? = some (6 : Fin 8)) ∧ (0 ≤ max (tRun.modPow fun p => { p with powered := true, railOk := Vector.replicate 8 false, starting := some (1, 0) }).now 3) := by decide

theorem witness_RailsAndReset_3 :
    ((tRun.modPow fun p => { p with powered := true, railOk := Vector.replicate 8 false, starting := none }).sys.pow.powered = true) ∧ ((tRun.modPow fun p => { p with powered := true, railOk := Vector.replicate 8 false, starting := none }).sys.pow.isOff = false) ∧ ((tRun.modPow fun p => { p with powered := true, railOk := Vector.replicate 8 false, starting := none }).sys.pow.railOk[(6 : Fin 8)] = false) ∧ ((tRun.modPow fun p => { p with powered := true, railOk := Vector.replicate 8 false, starting := none }).sys.pow.starting = none) := by decide

theorem witness_RailsAndReset_4 :
    ((tRun.modPow fun p => { p with powered := true, railOk := Vector.replicate 8 false, starting := some (0, 0), bypass := true }).sys.pow.powered = true) ∧ ((tRun.modPow fun p => { p with powered := true, railOk := Vector.replicate 8 false, starting := some (0, 0), bypass := true }).sys.pow.isOff = false) ∧ ((tRun.modPow fun p => { p with powered := true, railOk := Vector.replicate 8 false, starting := some (0, 0), bypass := true }).sys.pow.railOk[(1 : Fin 8)] = false) ∧ ((tRun.modPow fun p => { p with powered := true, railOk := Vector.replicate 8 false, starting := some (0, 0), bypass := true }).sys.pow.starting = some (0, 0)) ∧ (¬ (railOrder[0]? = some (1 : Fin 8) ∧ 0 ≤ max (tRun.modPow fun p => { p with powered := true, railOk := Vector.replicate 8 false, starting := some (0, 0), bypass := true }).now 3)) ∧ ((tRun.modPow fun p => { p with powered := true, railOk := Vector.replicate 8 false, starting := some (0, 0), bypass := true }).sys.pow.makes (1 : Fin 8) = false) := by decide

theorem witness_RailsAndReset_5 :
    ((tRun.modPow fun p => { p with powered := true }).sys.pow.powered = true) ∧ ((tRun.modPow fun p => { p with powered := true }).sys.pow.isOff = false) := by decide

theorem witness_RailsAndReset_6 :
    ((tRun.modPow fun p => { p with powered := true, starting := some (2, 0) }).sys.pow.starting = some (2, 0)) ∧ (((tRun.modPow fun p => { p with powered := true, starting := some (2, 0) }).advanceTo (msec 3)).past 1310720 1 (0 + msec 2) = true) := by decide

theorem witness_RailsAndReset_7 :
    ((tRun.modPow fun p => { p with powered := true, isOff := true, shutdowns := [0] }).sys.pow.isOff = true) ∧ ((tRun.modPow fun p => { p with powered := true, isOff := true, shutdowns := [0] }).sys.pow.stuckOff = false) ∧ ((tRun.modPow fun p => { p with powered := true, isOff := true, shutdowns := [0] }).sys.pow.shutdowns.headD 0 + msec 10 ≤ max (tRun.modPow fun p => { p with powered := true, isOff := true, shutdowns := [0] }).now (msec 10)) := by decide

theorem witness_RailsAndReset_8 :
    ((tRun.modPow fun p => { p with powered := true }).sys.pow.powered = true) ∧ ((tRun.modPow fun p => { p with powered := true }).sys.pow.stuckOff = false) := by decide

theorem witness_RailsAndReset_9 :
    ((tRun.modPow fun p => { p with powered := true, stuckOff := true }).sys.pow.powered = true) ∧ ((tRun.modPow fun p => { p with powered := true, stuckOff := true }).sys.pow.stuckOff = true) := by decide

theorem witness_RailsAndReset_10 :
    ((tRun.modPow fun p => { p with powered := false }).sys.pow.powered = false) := by decide

theorem witness_RailsAndReset_11 :
    ((tAddr.advanceTo 3).reached (some 9 : Option Nat) = false) := by decide

theorem witness_RailsAndReset_12 :
    ((tAddr.advanceTo 3).reached (some 8 : Option Nat) = true) := by decide

theorem witness_RailsAndReset_13 :
    ((tRun.modPow fun p => { p with powered := true, held := true, railOk := Vector.replicate 8 true }).sys.pow.held = true) ∧ ((tRun.modPow fun p => { p with powered := true, held := true, railOk := Vector.replicate 8 true }).sys.pow.powered = true) ∧ ((tRun.modPow fun p => { p with powered := true, held := true, railOk := Vector.replicate 8 true }).sys.pow.isOff = false) ∧ (∀ x : Fin 8, (tRun.modPow fun p => { p with powered := true, held := true, railOk := Vector.replicate 8 true }).sys.pow.railOk[x] = true ∧ (tRun.modPow fun p => { p with powered := true, held := true, railOk := Vector.replicate 8 true }).sys.pow.railAt[x] + msec 1 ≤ max (tRun.modPow fun p => { p with powered := true, held := true, railOk := Vector.replicate 8 true }).now (msec 1)) := by decide

theorem witness_RailsAndReset_14 :
    ({ (tRun.modPow fun p => { p with powered := true, held := false }) with tb := State.reset.tb }.sys.pow.held = false) ∧ ({ (tRun.modPow fun p => { p with powered := true, held := false }) with tb := State.reset.tb }.sys.pow.powered = true) ∧ ({ (tRun.modPow fun p => { p with powered := true, held := false }) with tb := State.reset.tb }.sys.pstate ≤ 1) ∧ ({ (tRun.modPow fun p => { p with powered := true, held := false }) with tb := State.reset.tb }.tb.running = false) ∧ (({ (tRun.modPow fun p => { p with powered := true, held := false }) with tb := State.reset.tb }.advanceTo 3).absentIsland 43 = false) := by decide

theorem witness_RailsAndReset_15 :
    ((tRun.modPow fun p => { p with powered := true, held := false }).sys.pow.held = false) ∧ ((tRun.modPow fun p => { p with powered := true, held := false }).sys.pow.powered = true) ∧ ((tRun.modPow fun p => { p with powered := true, held := false }).sys.pstate ≤ 1) ∧ ((tRun.modPow fun p => { p with powered := true, held := false }).lanes[(2 : Fin 8)].acq.power ≠ .l2) := by decide

theorem witness_RailsAndReset_16 :
    ({ (tRun.modPow fun p => { p with powered := true, held := false }) with active := { tRun.active with host := upd tRun.active.host 2 fun h => { h with relay := true, enable := true } } }.sys.pow.held = false) ∧ ({ (tRun.modPow fun p => { p with powered := true, held := false }) with active := { tRun.active with host := upd tRun.active.host 2 fun h => { h with relay := true, enable := true } } }.sys.pow.powered = true) ∧ ({ (tRun.modPow fun p => { p with powered := true, held := false }) with active := { tRun.active with host := upd tRun.active.host 2 fun h => { h with relay := true, enable := true } } }.sys.pstate ≤ 1) ∧ ({ (tRun.modPow fun p => { p with powered := true, held := false }) with active := { tRun.active with host := upd tRun.active.host 2 fun h => { h with relay := true, enable := true } } }.active.host[(2 : Fin 16)].relay = true) ∧ ({ (tRun.modPow fun p => { p with powered := true, held := false }) with active := { tRun.active with host := upd tRun.active.host 2 fun h => { h with relay := true, enable := true } } }.active.host[(2 : Fin 16)].enable = true) ∧ ({ (tRun.modPow fun p => { p with powered := true, held := false }) with active := { tRun.active with host := upd tRun.active.host 2 fun h => { h with relay := true, enable := true } } }.hosts[(2 : Fin 16)].power ≠ .l2) := by decide

theorem witness_RailsAndReset_17 :
    ((tRun.modPow fun p => { p with powered := true, held := false }).sys.pow.held = false) ∧ ((tRun.modPow fun p => { p with powered := true, held := false }).sys.pow.powered = true) ∧ ((tRun.modPow fun p => { p with powered := true, held := false }).sys.pstate ≤ 1) ∧ (((tRun.modPow fun p => { p with powered := true, held := false }).advanceTo 3).absentIsland (45 : Fin 64) = false) ∧ ((45 : Fin 64) ≠ 43) ∧ (8 ≤ (45 : Fin 64).val) ∧ ((45 : Fin 64).val < 17 ∨ 33 ≤ (45 : Fin 64).val) := by decide

theorem witness_RailsAndReset_18 :
    (((tRun.modSys fun y => { y with optionW := true }).advanceTo 3).absentIsland (41 : Fin 64) = true) := by decide

theorem witness_Shedding_1 :
    ((tRun.modPow fun p => { p with powered := true, held := false, vinPrev := none }).sys.pow.held = false) ∧ ((tRun.modPow fun p => { p with powered := true, held := false, vinPrev := none }).sys.pow.powered = true) ∧ ((tRun.modPow fun p => { p with powered := true, held := false, vinPrev := none }).sys.pstate ≤ 1) ∧ ((tRun.modPow fun p => { p with powered := true, held := false, vinPrev := none }).sys.pow.vinPrev = none) := by decide

theorem witness_Shedding_2 :
    ({ (tRun.modPow fun p => { p with powered := true, held := false, vinPrev := some 4000 }) with active := { tRun.active with sluice := { tRun.active.sluice with shed := #v[0, 500, 0, 0, 0, 300] } } }.sys.pow.held = false) ∧ ({ (tRun.modPow fun p => { p with powered := true, held := false, vinPrev := some 4000 }) with active := { tRun.active with sluice := { tRun.active.sluice with shed := #v[0, 500, 0, 0, 0, 300] } } }.sys.pow.powered = true) ∧ ({ (tRun.modPow fun p => { p with powered := true, held := false, vinPrev := some 4000 }) with active := { tRun.active with sluice := { tRun.active.sluice with shed := #v[0, 500, 0, 0, 0, 300] } } }.sys.pstate ≤ 1) ∧ ({ (tRun.modPow fun p => { p with powered := true, held := false, vinPrev := some 4000 }) with active := { tRun.active with sluice := { tRun.active.sluice with shed := #v[0, 500, 0, 0, 0, 300] } } }.sys.pow.vinPrev = some 4000) ∧ ((let s1 := (({ (tRun.modPow fun p => { p with powered := true, held := false, vinPrev := some 4000 }) with active := { tRun.active with sluice := { tRun.active.sluice with shed := #v[0, 500, 0, 0, 0, 300] } } }.advanceTo 3).boundary .sluice).modPow fun p => { p with vin := 4000, vinPrev := some 4000 }; s1.sys.shedStage < s1.active.sluice.deepest 4000 4000)) := by decide

theorem witness_Shedding_3 :
    ({ ((tRun.modSys fun y => { y with shedStage := 2 }).modPow fun p => { p with powered := true, held := false, vinPrev := some 6000 }) with active := { tRun.active with sluice := { tRun.active.sluice with shed := #v[0, 500, 0, 0, 0, 300] } } }.sys.pow.held = false) ∧ ({ ((tRun.modSys fun y => { y with shedStage := 2 }).modPow fun p => { p with powered := true, held := false, vinPrev := some 6000 }) with active := { tRun.active with sluice := { tRun.active.sluice with shed := #v[0, 500, 0, 0, 0, 300] } } }.sys.pow.powered = true) ∧ ({ ((tRun.modSys fun y => { y with shedStage := 2 }).modPow fun p => { p with powered := true, held := false, vinPrev := some 6000 }) with active := { tRun.active with sluice := { tRun.active.sluice with shed := #v[0, 500, 0, 0, 0, 300] } } }.sys.pstate ≤ 1) ∧ ({ ((tRun.modSys fun y => { y with shedStage := 2 }).modPow fun p => { p with powered := true, held := false, vinPrev := some 6000 }) with active := { tRun.active with sluice := { tRun.active.sluice with shed := #v[0, 500, 0, 0, 0, 300] } } }.sys.pow.vinPrev = some 6000) ∧ ((let s1 := (({ ((tRun.modSys fun y => { y with shedStage := 2 }).modPow fun p => { p with powered := true, held := false, vinPrev := some 6000 }) with active := { tRun.active with sluice := { tRun.active.sluice with shed := #v[0, 500, 0, 0, 0, 300] } } }.advanceTo (msec 1)).boundary .sluice).modPow fun p => { p with vin := 6000, vinPrev := some 6000 }; s1.active.sluice.deepest 6000 6000 ≤ s1.sys.shedStage ∧ 0 < s1.sys.shedStage ∧ s1.sys.pow.shedAt + msec 1 ≤ s1.now ∧ s1.active.sluice.restores s1.sys.shedStage 6000 6000 = true ∧ s1.sys.pow.step = none)) := by decide

theorem witness_Shedding_4 :
    ({ ((tRun.modSys fun y => { y with shedStage := 6 }).modPow fun p => { p with powered := true, held := false, vinPrev := some 6000, step := some 0 }) with active := { tRun.active with sluice := { tRun.active.sluice with shed := #v[0, 500, 0, 0, 0, 300] } } }.sys.pow.held = false) ∧ ({ ((tRun.modSys fun y => { y with shedStage := 6 }).modPow fun p => { p with powered := true, held := false, vinPrev := some 6000, step := some 0 }) with active := { tRun.active with sluice := { tRun.active.sluice with shed := #v[0, 500, 0, 0, 0, 300] } } }.sys.pow.powered = true) ∧ ({ ((tRun.modSys fun y => { y with shedStage := 6 }).modPow fun p => { p with powered := true, held := false, vinPrev := some 6000, step := some 0 }) with active := { tRun.active with sluice := { tRun.active.sluice with shed := #v[0, 500, 0, 0, 0, 300] } } }.sys.pstate ≤ 1) ∧ ({ ((tRun.modSys fun y => { y with shedStage := 6 }).modPow fun p => { p with powered := true, held := false, vinPrev := some 6000, step := some 0 }) with active := { tRun.active with sluice := { tRun.active.sluice with shed := #v[0, 500, 0, 0, 0, 300] } } }.sys.pow.vinPrev = some 6000) ∧ ((let s1 := (({ ((tRun.modSys fun y => { y with shedStage := 6 }).modPow fun p => { p with powered := true, held := false, vinPrev := some 6000, step := some 0 }) with active := { tRun.active with sluice := { tRun.active.sluice with shed := #v[0, 500, 0, 0, 0, 300] } } }.advanceTo (msec 1)).boundary .sluice).modPow fun p => { p with vin := 6000, vinPrev := some 6000 }; s1.active.sluice.deepest 6000 6000 ≤ s1.sys.shedStage ∧ 0 < s1.sys.shedStage ∧ s1.sys.pow.shedAt + msec 1 ≤ s1.now ∧ s1.active.sluice.restores s1.sys.shedStage 6000 6000 = true ∧ s1.sys.pow.step = some 0)) := by decide

theorem witness_Shedding_5 :
    ({ ((tRun.modSys fun y => { y with shedStage := 6 }).modPow fun p => { p with powered := true, held := false, vinPrev := some 6000, step := some 4 }) with active := { tRun.active with sluice := { tRun.active.sluice with shed := #v[0, 500, 0, 0, 0, 300] } } }.sys.pow.held = false) ∧ ({ ((tRun.modSys fun y => { y with shedStage := 6 }).modPow fun p => { p with powered := true, held := false, vinPrev := some 6000, step := some 4 }) with active := { tRun.active with sluice := { tRun.active.sluice with shed := #v[0, 500, 0, 0, 0, 300] } } }.sys.pow.powered = true) ∧ ({ ((tRun.modSys fun y => { y with shedStage := 6 }).modPow fun p => { p with powered := true, held := false, vinPrev := some 6000, step := some 4 }) with active := { tRun.active with sluice := { tRun.active.sluice with shed := #v[0, 500, 0, 0, 0, 300] } } }.sys.pstate ≤ 1) ∧ ({ ((tRun.modSys fun y => { y with shedStage := 6 }).modPow fun p => { p with powered := true, held := false, vinPrev := some 6000, step := some 4 }) with active := { tRun.active with sluice := { tRun.active.sluice with shed := #v[0, 500, 0, 0, 0, 300] } } }.sys.pow.vinPrev = some 6000) ∧ ((let s1 := (({ ((tRun.modSys fun y => { y with shedStage := 6 }).modPow fun p => { p with powered := true, held := false, vinPrev := some 6000, step := some 4 }) with active := { tRun.active with sluice := { tRun.active.sluice with shed := #v[0, 500, 0, 0, 0, 300] } } }.advanceTo (msec 1)).boundary .sluice).modPow fun p => { p with vin := 6000, vinPrev := some 6000 }; s1.active.sluice.deepest 6000 6000 ≤ s1.sys.shedStage ∧ 0 < s1.sys.shedStage ∧ s1.sys.pow.shedAt + msec 1 ≤ s1.now ∧ s1.active.sluice.restores s1.sys.shedStage 6000 6000 = true ∧ s1.sys.pow.step = some (3 + 1))) := by decide

theorem witness_Shedding_6 :
    ({ ((tRun.modSys fun y => { y with shedStage := 6 }).modPow fun p => { p with step := some 2 }) with active := { tRun.active with sluice := { tRun.active.sluice with shed := #v[0, 500, 0, 0, 0, 300] } } }.sys.pow.step = some 2) ∧ ({ ((tRun.modSys fun y => { y with shedStage := 6 }).modPow fun p => { p with step := some 2 }) with active := { tRun.active with sluice := { tRun.active.sluice with shed := #v[0, 500, 0, 0, 0, 300] } } }.sys.shedStage = 6) ∧ (2 < 8) ∧ ({ ((tRun.modSys fun y => { y with shedStage := 6 }).modPow fun p => { p with step := some 2 }) with active := { tRun.active with sluice := { tRun.active.sluice with shed := #v[0, 500, 0, 0, 0, 300] } } }.sys.pow.shedAt + usec 100 ≤ max { ((tRun.modSys fun y => { y with shedStage := 6 }).modPow fun p => { p with step := some 2 }) with active := { tRun.active with sluice := { tRun.active.sluice with shed := #v[0, 500, 0, 0, 0, 300] } } }.now (usec 100)) ∧ ({ ((tRun.modSys fun y => { y with shedStage := 6 }).modPow fun p => { p with step := some 2 }) with active := { tRun.active with sluice := { tRun.active.sluice with shed := #v[0, 500, 0, 0, 0, 300] } } }.sys.pow.vin < { ((tRun.modSys fun y => { y with shedStage := 6 }).modPow fun p => { p with step := some 2 }) with active := { tRun.active with sluice := { tRun.active.sluice with shed := #v[0, 500, 0, 0, 0, 300] } } }.active.sluice.level 6) := by decide

theorem witness_Shedding_7 :
    met (tRun) 5 .q0 0x9010 false (leBytes 4 1200) (fun _ e _ => decide (e.len = 4 ∧ 300 ≤ e.w 0 ∧ e.w 0 ≤ 4200)) = true := by decide

theorem witness_Shedding_8 :
    met (expertOpen tRun) 5 .q0 0x9810 false (leBytes 4 0 ++ leBytes 2 900 ++ leBytes 2 800 ++ leBytes 8 0 ++ leBytes 6 0x0A0A0A0A0A0A ++ leBytes 2 0) (fun _ e _ => decide (e.len = 24 ∧ e.w 0 = 0 ∧ rsvHigh (e.w 5) 16 = true ∧ shedOk ((List.range 6).map fun i => fieldAt e.cmd.payload (4 + 2 * i) 2) = true ∧ ∀ i : Fin 6, 5 ≤ fieldAt e.cmd.payload (16 + i.val) 1 ∧ fieldAt e.cmd.payload (16 + i.val) 1 ≤ 100)) = true := by decide

theorem witness_Shedding_9 :
    met (tRun) 5 .q0 0x9011 true [] (fun _ e _ => decide (e.len = 0)) = true := by decide

theorem witness_PowerStates_1 :
    met (tRun) 5 .q0 0x9003 false (leBytes 8 1) (fun _ e _ => decide (e.len = 8 ∧ rsvHigh (e.w 0) 1 = true)) = true := by decide

theorem witness_PowerStates_2 :
    met (tRun) 5 .q0 0x9000 true (leBytes 4 0x101) (fun _ e s => decide (e.len = 4 ∧ bits (e.w 0) 0 2 = 1 ∧ rsv (e.w 0) 2 6 = true ∧ rsvHigh (e.w 0) 12 = true ∧ s.enterRefused e.seq 1 (bits (e.w 0) 8 4) = false)) = true := by decide

theorem witness_PowerStates_3 :
    met (tRun) 5 .q0 0x9000 true (leBytes 4 0x102) (fun _ e s => decide (e.len = 4 ∧ 2 ≤ bits (e.w 0) 0 2 ∧ rsv (e.w 0) 2 6 = true ∧ rsvHigh (e.w 0) 12 = true ∧ s.enterRefused e.seq (bits (e.w 0) 0 2) (bits (e.w 0) 8 4) = false)) = true := by decide

theorem witness_PowerStates_4 :
    met ((tRun.modPow fun p => { p with entry := some ({ queue := .q0, seq := 0, target := 1, at' := 0, replied := true, request := none } : PowerEntry) })) 5 .q0 0x9000 true (leBytes 4 0x102) (fun _ e s => decide (e.len = 4 ∧ bits (e.w 0) 0 2 ≠ 0 ∧ rsv (e.w 0) 2 6 = true ∧ rsvHigh (e.w 0) 12 = true ∧ s.enterRefused e.seq (bits (e.w 0) 0 2) (bits (e.w 0) 8 4) = true)) = true := by decide

theorem witness_PowerStates_5 :
    ((allL2 (tRun.modPow fun p => { p with entry := some ({ queue := .q0, seq := 0, target := 1, at' := 0, replied := false, request := none } : PowerEntry) })).sys.pow.entry = some ({ queue := .q0, seq := 0, target := 1, at' := 0, replied := false, request := none } : PowerEntry)) ∧ (({ queue := .q0, seq := 0, target := 1, at' := 0, replied := false, request := none } : PowerEntry).request = none) ∧ (({ queue := .q0, seq := 0, target := 1, at' := 0, replied := false, request := none } : PowerEntry).target = 1) ∧ (({ queue := .q0, seq := 0, target := 1, at' := 0, replied := false, request := none } : PowerEntry).replied = false) ∧ ((((allL2 (tRun.modPow fun p => { p with entry := some ({ queue := .q0, seq := 0, target := 1, at' := 0, replied := false, request := none } : PowerEntry) })).advanceTo 3).forEach allLanes fun r x => x.sendPower .l2 r).prepared = true) := by decide

theorem witness_PowerStates_6 :
    ((allL2 (tRun.modPow fun p => { p with entry := some ({ queue := .q0, seq := 0, target := 2, at' := 0, replied := true, request := none } : PowerEntry) })).sys.pow.entry = some ({ queue := .q0, seq := 0, target := 2, at' := 0, replied := true, request := none } : PowerEntry)) ∧ (({ queue := .q0, seq := 0, target := 2, at' := 0, replied := true, request := none } : PowerEntry).request = none) ∧ (2 ≤ ({ queue := .q0, seq := 0, target := 2, at' := 0, replied := true, request := none } : PowerEntry).target) ∧ (({ queue := .q0, seq := 0, target := 2, at' := 0, replied := true, request := none } : PowerEntry).replied = true) ∧ ((((allL2 (tRun.modPow fun p => { p with entry := some ({ queue := .q0, seq := 0, target := 2, at' := 0, replied := true, request := none } : PowerEntry) })).advanceTo (msec 1)).queueOf ({ queue := .q0, seq := 0, target := 2, at' := 0, replied := true, request := none } : PowerEntry).seq).isNone = true ∨ ((allL2 (tRun.modPow fun p => { p with entry := some ({ queue := .q0, seq := 0, target := 2, at' := 0, replied := true, request := none } : PowerEntry) })).advanceTo (msec 1)).pastMgmt (({ queue := .q0, seq := 0, target := 2, at' := 0, replied := true, request := none } : PowerEntry).at' + msec 1) = true) ∧ ((((allL2 (tRun.modPow fun p => { p with entry := some ({ queue := .q0, seq := 0, target := 2, at' := 0, replied := true, request := none } : PowerEntry) })).advanceTo (msec 1)).forEach allLanes fun r x => x.sendPower .l2 r).prepared = true) := by decide

theorem witness_PowerStates_7 :
    ((tRun.modPow fun p => { p with entry := some ({ queue := .q0, seq := 0, target := 3, at' := 0, replied := true, request := some 0 } : PowerEntry) }).sys.pow.entry = some ({ queue := .q0, seq := 0, target := 3, at' := 0, replied := true, request := some 0 } : PowerEntry)) ∧ (({ queue := .q0, seq := 0, target := 3, at' := 0, replied := true, request := some 0 } : PowerEntry).request = some 0) ∧ (0 + nsec 160 ≤ max (tRun.modPow fun p => { p with entry := some ({ queue := .q0, seq := 0, target := 3, at' := 0, replied := true, request := some 0 } : PowerEntry) }).now (nsec 160)) := by decide

theorem witness_PowerStates_8 :
    (tAsleep.bus.dynAddr.isSome = true) := by decide

theorem witness_PowerStates_9 :
    (tAsleep.sys.pow.wakeEdge = false) := by decide

theorem witness_PowerStates_10 :
    ((tRun.modPow fun p => { p with wakeEdge := true, wakeN := true }).sys.pow.wakeEdge = true) ∧ ((tRun.modPow fun p => { p with wakeEdge := true, wakeN := true }).sys.pow.wakeN = true) := by decide

theorem witness_PowerStates_11 :
    ((tRun.modPow fun p => { p with timerUp := true }).sys.pow.timerUp = true) := by decide

theorem witness_PowerStates_12 :
    ((tAsleep.modPow fun p => { p with mask := 1 }).sys.pow.entry = none) ∧ ((tAsleep.modPow fun p => { p with mask := 1 }).sys.pow.wake = none) ∧ ((tAsleep.modPow fun p => { p with mask := 1 }).sys.pow.retryOf = none) ∧ ((tAsleep.modPow fun p => { p with mask := 1 }).sys.pow.stuck = false) ∧ (bit (tAsleep.modPow fun p => { p with mask := 1 }).sys.pow.mask 0 = true) ∧ ((tAsleep.modPow fun p => { p with mask := 1 }).sys.pstate = 2 ∨ (tAsleep.modPow fun p => { p with mask := 1 }).sys.pstate = 3) := by decide

theorem witness_PowerStates_13 :
    ((tAsleep.modSys fun y => { y with pstate := 1, pow := { y.pow with mask := 2 } }).sys.pow.entry = none) ∧ ((tAsleep.modSys fun y => { y with pstate := 1, pow := { y.pow with mask := 2 } }).sys.pow.wake = none) ∧ ((tAsleep.modSys fun y => { y with pstate := 1, pow := { y.pow with mask := 2 } }).sys.pow.retryOf = none) ∧ ((tAsleep.modSys fun y => { y with pstate := 1, pow := { y.pow with mask := 2 } }).sys.pow.stuck = false) ∧ (bit (tAsleep.modSys fun y => { y with pstate := 1, pow := { y.pow with mask := 2 } }).sys.pow.mask 1 = true) ∧ ((tAsleep.modSys fun y => { y with pstate := 1, pow := { y.pow with mask := 2 } }).sys.pstate = 1) := by decide

theorem witness_PowerStates_14 :
    ((tRun.modPow fun p => { p with timerFrom := some 0, timerMs := 5 }).sys.pow.timerFrom = some 0) ∧ (1000 * 0 + 999 * msec (tRun.modPow fun p => { p with timerFrom := some 0, timerMs := 5 }).sys.pow.timerMs ≤ 1000 * max (tRun.modPow fun p => { p with timerFrom := some 0, timerMs := 5 }).now (msec 5)) := by decide

theorem witness_PowerStates_15 :
    ((tRun.modPow fun p => { p with wake := some ({ origin := 2, sources := 1, stage := 2, stageAt := 0, retry := 0, recovery := false, cancelled := false } : Wake) }).sys.pow.wake = some ({ origin := 2, sources := 1, stage := 2, stageAt := 0, retry := 0, recovery := false, cancelled := false } : Wake)) ∧ (1 ≤ ({ origin := 2, sources := 1, stage := 2, stageAt := 0, retry := 0, recovery := false, cancelled := false } : Wake).stage) ∧ (({ origin := 2, sources := 1, stage := 2, stageAt := 0, retry := 0, recovery := false, cancelled := false } : Wake).stage ≤ 3) ∧ (¬ (({ origin := 2, sources := 1, stage := 2, stageAt := 0, retry := 0, recovery := false, cancelled := false } : Wake).stage = 3 ∧ ({ origin := 2, sources := 1, stage := 2, stageAt := 0, retry := 0, recovery := false, cancelled := false } : Wake).origin = 3)) := by decide

theorem witness_PowerStates_16 :
    ((tRun.modPow fun p => { p with wake := some ({ origin := 3, sources := 1, stage := 3, stageAt := 0, retry := 0, recovery := false, cancelled := false } : Wake) }).sys.pow.wake = some ({ origin := 3, sources := 1, stage := 3, stageAt := 0, retry := 0, recovery := false, cancelled := false } : Wake)) ∧ (({ origin := 3, sources := 1, stage := 3, stageAt := 0, retry := 0, recovery := false, cancelled := false } : Wake).stage = 3) ∧ (({ origin := 3, sources := 1, stage := 3, stageAt := 0, retry := 0, recovery := false, cancelled := false } : Wake).origin = 3) := by decide

theorem witness_PowerStates_17 :
    ((tRun.modPow fun p => { p with wake := some ({ origin := 2, sources := 1, stage := 1, stageAt := 0, retry := 0, recovery := false, cancelled := false } : Wake) }).sys.pow.wake = some ({ origin := 2, sources := 1, stage := 1, stageAt := 0, retry := 0, recovery := false, cancelled := false } : Wake)) ∧ (1 ≤ ({ origin := 2, sources := 1, stage := 1, stageAt := 0, retry := 0, recovery := false, cancelled := false } : Wake).stage) ∧ (({ origin := 2, sources := 1, stage := 1, stageAt := 0, retry := 0, recovery := false, cancelled := false } : Wake).stage ≤ 3) ∧ (((tRun.modPow fun p => { p with wake := some ({ origin := 2, sources := 1, stage := 1, stageAt := 0, retry := 0, recovery := false, cancelled := false } : Wake) }).advanceTo (msec 3)).pastAlwaysOn (({ origin := 2, sources := 1, stage := 1, stageAt := 0, retry := 0, recovery := false, cancelled := false } : Wake).stageAt + msec 2) = true) := by decide

theorem witness_PowerStates_18 :
    ((tRun.modPow fun p => { p with retryOf := some (0, ({ origin := 2, sources := 1, stage := 1, stageAt := 0, retry := 0, recovery := false, cancelled := false } : Wake)) }).sys.pow.retryOf = some (0, ({ origin := 2, sources := 1, stage := 1, stageAt := 0, retry := 0, recovery := false, cancelled := false } : Wake))) ∧ (0 + msec 10 ≤ max (tRun.modPow fun p => { p with retryOf := some (0, ({ origin := 2, sources := 1, stage := 1, stageAt := 0, retry := 0, recovery := false, cancelled := false } : Wake)) }).now (msec 10)) := by decide

theorem witness_PowerStates_19 :
    ({ tRun with sys := { tRun.sys with pstate := 2, pow := { tRun.sys.pow with wake := some ({ origin := 2, sources := 1, stage := 4, stageAt := 0, retry := 0, recovery := false, cancelled := false } : Wake) } } }.sys.pow.wake = some ({ origin := 2, sources := 1, stage := 4, stageAt := 0, retry := 0, recovery := false, cancelled := false } : Wake)) ∧ (({ origin := 2, sources := 1, stage := 4, stageAt := 0, retry := 0, recovery := false, cancelled := false } : Wake).stage = 4) ∧ (({ origin := 2, sources := 1, stage := 4, stageAt := 0, retry := 0, recovery := false, cancelled := false } : Wake).origin ≠ 3 ∨ ({ origin := 2, sources := 1, stage := 4, stageAt := 0, retry := 0, recovery := false, cancelled := false } : Wake).cancelled = true ∨ { tRun with sys := { tRun.sys with pstate := 2, pow := { tRun.sys.pow with wake := some ({ origin := 2, sources := 1, stage := 4, stageAt := 0, retry := 0, recovery := false, cancelled := false } : Wake) } } }.sys.booted = true) := by decide

theorem witness_PowerStates_20 :
    met (tRun) 5 .q0 0x9001 true [] (fun _ e s => decide (e.len = 0 ∧ s.sys.pow.restricted = none ∧ s.sys.pstate ≠ 1)) = true := by decide

theorem witness_PowerStates_21 :
    met ((tRun.modSys fun y => { y with pstate := 1 })) 5 .q0 0x9001 true [] (fun _ e s => decide (e.len = 0 ∧ s.sys.pow.restricted = none ∧ s.sys.pstate = 1)) = true := by decide

theorem witness_PowerStates_22 :
    met ((tRun.modPow fun p => { p with restricted := some 0, wake := some ({ origin := 3, sources := 1, stage := 5, stageAt := 0, retry := 0, recovery := true, cancelled := false } : Wake) })) 5 .q0 0x9001 true [] (fun _ e s => decide (e.len = 0 ∧ s.sys.pow.restricted ≠ none)) = true := by decide

theorem witness_PowerStates_23 :
    ((tRun.modPow fun p => { p with restricted := some 0 }).sys.pow.restricted = some 0) ∧ (((tRun.modPow fun p => { p with restricted := some 0 }).advanceTo (secs 2)).pastMgmt (0 + secs 1) = true) := by decide

theorem witness_TimeCommands_1 :
    met (tRun) 5 .q0 0x4000 true [] (fun _ e _ => decide (e.len = 0)) = true := by decide

theorem witness_TimeCommands_2 :
    met (tRun) 5 .q0 0x4001 false (leBytes 16 0) (fun _ e _ => decide (e.len = 16 ∧ e.time 0 = some 0 ∧ rsvHigh (e.w 3) 1 = true ∧ bit (e.w 3) 0 = false)) = true := by decide

theorem witness_TimeCommands_3 :
    met ({ tRun with active := { tRun.active with servo := { tRun.active.servo with ppsIn := true } } }) 5 .q0 0x4001 false (leBytes 12 0 ++ leBytes 4 1) (fun _ e s => decide (e.len = 16 ∧ (e.time 0).isSome = true ∧ rsvHigh (e.w 3) 1 = true ∧ bit (e.w 3) 0 = true ∧ s.active.servo.ppsIn = true)) = true := by decide

theorem witness_TimeCommands_4 :
    met (tRun) 5 .q0 0x4001 false (leBytes 12 0 ++ leBytes 4 1) (fun _ e s => decide (e.len = 16 ∧ (e.time 0).isSome = true ∧ rsvHigh (e.w 3) 1 = true ∧ bit (e.w 3) 0 = true ∧ s.active.servo.ppsIn = false)) = true := by decide

theorem witness_TimeCommands_5 :
    met (expertOpen tRun) 5 .q0 0x4801 false (leBytes 12 77) (fun _ e _ => decide (e.len = 12 ∧ e.step = some 77)) = true := by decide

theorem witness_TimeCommands_6 :
    met (tRun) 5 .q0 0x4010 false (leBytes 4 0x101) (fun q e s => decide (e.len = 4 ∧ rsv (e.w 0) 2 6 = true ∧ rsvHigh (e.w 0) 20 = true ∧ bits (e.w 0) 0 2 ≠ 3 ∧ (bits (e.w 0) 0 2 = 1 → (bits (e.w 0) 8 8 ≠ 0 ↔ bit (e.w 0) 19 = false)) ∧ (s.active.rill.role = .worker → s.active.rill.timeFollow = true → q = .q3))) = true := by decide

theorem witness_TimeCommands_7 :
    met (tRun) 5 .q0 0x4011 false (leBytes 4 2) (fun _ e _ => decide (e.len = 4 ∧ bits (e.w 0) 0 3 ≤ 3 ∧ rsv (e.w 0) 3 5 = true ∧ rsv (e.w 0) 13 3 = true ∧ rsvHigh (e.w 0) 20 = true)) = true := by decide

theorem witness_TimeCommands_8 :
    met ({ expertOpen tRun with limits := { tRun.limits with maxStep := 1000 } }) 5 .q0 0x4811 false (leBytes 4 0xF0400 ++ leBytes 4 5 ++ leBytes 4 6 ++ leBytes 4 100 ++ leBytes 4 9 ++ leBytes 8 77) (fun _ e s => decide (e.len = 28 ∧ rsv (e.w 0) 0 8 = true ∧ rsv (e.w 0) 13 3 = true ∧ rsvHigh (e.w 0) 20 = true ∧ rsvHigh (e.w 1) 24 = true ∧ rsvHigh (e.w 2) 24 = true ∧ (bit (bits (e.w 0) 16 4) 0 = true → 4 ≤ bits (e.w 0) 8 5 ∧ bits (e.w 0) 8 5 ≤ 16) ∧ (bit (bits (e.w 0) 16 4) 1 = true → e.w 1 ≠ 0) ∧ (bit (bits (e.w 0) 16 4) 2 = true → 1 ≤ e.w 3 ∧ e.w 3 ≤ 1000000000 ∧ 1 ≤ e.w 4 ∧ e.w 4 ≤ 1000000) ∧ (bit (bits (e.w 0) 16 4) 3 = true → (toSigned 64 (fieldAt e.cmd.payload 20 8)).natAbs ≤ rateBound) ∧ ¬ (bit (bits (e.w 0) 16 4) 2 = true ∧ s.limits.maxStep < e.w 3))) = true := by decide

theorem witness_TimeCommands_9 :
    met ({ expertOpen tRun with limits := { tRun.limits with maxStep := 1000 } }) 5 .q0 0x4811 false (leBytes 4 0xF0400 ++ leBytes 4 5 ++ leBytes 4 6 ++ leBytes 4 1001 ++ leBytes 4 9 ++ leBytes 8 77) (fun _ e s => decide (e.len = 28 ∧ rsv (e.w 0) 0 8 = true ∧ rsv (e.w 0) 13 3 = true ∧ rsvHigh (e.w 0) 20 = true ∧ rsvHigh (e.w 1) 24 = true ∧ rsvHigh (e.w 2) 24 = true ∧ (bit (bits (e.w 0) 16 4) 0 = true → 4 ≤ bits (e.w 0) 8 5 ∧ bits (e.w 0) 8 5 ≤ 16) ∧ (bit (bits (e.w 0) 16 4) 1 = true → e.w 1 ≠ 0) ∧ (bit (bits (e.w 0) 16 4) 2 = true → 1 ≤ e.w 3 ∧ e.w 3 ≤ 1000000000 ∧ 1 ≤ e.w 4 ∧ e.w 4 ≤ 1000000) ∧ (bit (bits (e.w 0) 16 4) 3 = true → (toSigned 64 (fieldAt e.cmd.payload 20 8)).natAbs ≤ rateBound) ∧ (bit (bits (e.w 0) 16 4) 2 = true ∧ s.limits.maxStep < e.w 3))) = true := by decide

theorem witness_TimeCommands_10 :
    met (tRun) 5 .q0 0x4012 true [] (fun _ e _ => decide (e.len = 0)) = true := by decide

theorem witness_TimeCommands_11 :
    met (tRun) 5 .q0 0x4020 false (leBytes 4 3) (fun _ e _ => decide (e.len = 4 ∧ rsvHigh (e.w 0) 2 = true)) = true := by decide

theorem witness_TimeCommands_12 :
    met (tRun) 5 .q0 0x4023 false (leBytes 8 3) (fun _ e _ => decide (e.len = 8 ∧ rsvHigh (e.w 0) 2 = true)) = true := by decide

theorem witness_TimeCommands_13 :
    met (tRun) 5 .q0 0x4021 false (leBytes 4 5 ++ leBytes 4 10 ++ leBytes 8 0) (fun _ e _ => decide (e.len = 16 ∧ rsv (e.w 0) 4 4 = true ∧ rsvHigh (e.w 0) 16 = true ∧ bits (e.w 0) 2 2 ≠ 3 ∧ 10 ≤ e.w 1 ∧ e.w 1 ≤ 50000000 ∧ -((msec 500 : Nat) : Int) ≤ toSigned 64 (fieldAt e.cmd.payload 8 8) ∧ toSigned 64 (fieldAt e.cmd.payload 8 8) < ((msec 500 : Nat) : Int))) = true := by decide

theorem witness_TimeCommands_14 :
    met (tRun) 5 .q0 0x4022 false (leBytes 4 5) (fun _ e _ => decide (e.len = 4 ∧ rsvHigh (e.w 0) 3 = true)) = true := by decide

theorem witness_TimeCommands_15 :
    met (tRun) 5 .q0 0x4040 false (leBytes 12 0x1F8) (fun _ e s => decide (idx? 8 (bits (e.w 0) 0 3) = some (0 : Fin 8) ∧ e.len = 12 ∧ leadOf s.grouping (0 : Fin 8) = (0 : Fin 8) ∧ rsvHigh (e.w 0) 9 = true ∧ -1000000 ≤ toSigned 32 (e.w 1) ∧ toSigned 32 (e.w 1) ≤ 1000000 ∧ -1000000 ≤ toSigned 32 (e.w 2) ∧ toSigned 32 (e.w 2) ≤ 1000000)) = true := by decide

theorem witness_TimeCommands_16 :
    met (tRun) 5 .q0 0x4041 true (leBytes 4 0xB) (fun _ e _ => decide (idx? 8 (bits (e.w 0) 0 3) = some (3 : Fin 8) ∧ e.len = 4 ∧ rsvHigh (e.w 0) 4 = true)) = true := by decide

theorem witness_TimeEvents_1 :
    (({ tRun with tb := { tRun.tb with pending := { tRun.tb.pending with rate := some 77 } } }.advanceTo 0).atEpoch = true) ∧ ({ tRun with tb := { tRun.tb with pending := { tRun.tb.pending with rate := some 77 } } }.tb.pending.step = none) ∧ ({ tRun with tb := { tRun.tb with pending := { tRun.tb.pending with rate := some 77 } } }.tb.pending.hosts = []) := by decide

theorem witness_TimeEvents_2 :
    (({ tRun with tb := { tRun.tb with pending := { tRun.tb.pending with step := some 77 } } }.advanceTo 0).atEpoch = true) ∧ ({ tRun with tb := { tRun.tb with pending := { tRun.tb.pending with step := some 77 } } }.tb.pending.step = some 77) ∧ ({ tRun with tb := { tRun.tb with pending := { tRun.tb.pending with step := some 77 } } }.tb.pending.hosts = []) := by decide

theorem witness_TimeEvents_3 :
    (({ tRun with tb := { tRun.tb with pending := { tRun.tb.pending with hosts := [(3, 77, false), (4, 5, false)] } } }.advanceTo 0).atEpoch = true) ∧ ({ tRun with tb := { tRun.tb with pending := { tRun.tb.pending with hosts := [(3, 77, false), (4, 5, false)] } } }.tb.pending.hosts ≠ []) := by decide

theorem witness_TimeEvents_4 :
    ({ { tRun with active := { tRun.active with servo := { tRun.active.servo with source := .line, k := 4 } } } with tb := { tRun.tb with markers := 16 } }.active.servo.source = .line) ∧ (2 ^ { { tRun with active := { tRun.active with servo := { tRun.active.servo with source := .line, k := 4 } } } with tb := { tRun.tb with markers := 16 } }.active.servo.k ≤ { { tRun with active := { tRun.active with servo := { tRun.active.servo with source := .line, k := 4 } } } with tb := { tRun.tb with markers := 16 } }.tb.markers) := by decide

theorem witness_TimeEvents_5 :
    ({ tRun with active := { tRun.active with servo := { tRun.active.servo with source := .line, k := 4 } } }).active.servo.source = .line ∧ ({ tRun with active := { tRun.active with servo := { tRun.active.servo with source := .line, k := 4 } } }.advanceTo (secs 9)).emptyDue = true := by decide +kernel

theorem witness_TimeEvents_6 :
    (({ { tRun with active := { tRun.active with servo := { tRun.active.servo with source := .pps } } } with tb := { tRun.tb with ppsLast := some 5, ppsBase := some 5 } }.advanceTo 3).ppsJudged = true) ∧ (({ { tRun with active := { tRun.active with servo := { tRun.active.servo with source := .pps } } } with tb := { tRun.tb with ppsLast := some 5, ppsBase := some 5 } }.advanceTo 3).ppsAccepts ({ { tRun with active := { tRun.active with servo := { tRun.active.servo with source := .pps } } } with tb := { tRun.tb with ppsLast := some 5, ppsBase := some 5 } }.advanceTo 3).ppsStamp = false) := by decide

theorem witness_TimeEvents_7 :
    (({ tRun with active := { tRun.active with servo := { tRun.active.servo with source := .pps } } }.advanceTo 3).ppsJudged = true) ∧ (({ tRun with active := { tRun.active with servo := { tRun.active.servo with source := .pps } } }.advanceTo 3).ppsAccepts ({ tRun with active := { tRun.active with servo := { tRun.active.servo with source := .pps } } }.advanceTo 3).ppsStamp = true) := by decide

theorem witness_TimeEvents_8 :
    ({ { tRun with active := { tRun.active with servo := { tRun.active.servo with source := .pps } } } with tb := { tRun.tb with ppsBase := some 5 } }.tb.ppsBase = some 5) ∧ (({ { tRun with active := { tRun.active with servo := { tRun.active.servo with source := .pps } } } with tb := { tRun.tb with ppsBase := some 5 } }.advanceTo 3).ppsJudged = true) ∧ ({ { tRun with active := { tRun.active with servo := { tRun.active.servo with source := .pps } } } with tb := { tRun.tb with ppsBase := some 5 } }.tb.state ≠ .holdover) ∧ (({ { tRun with active := { tRun.active with servo := { tRun.active.servo with source := .pps } } } with tb := { tRun.tb with ppsBase := some 5 } }.advanceTo 3).pastTick (5 + msec 1100) = true) := by decide

theorem witness_TimeEvents_9 :
    (({ tRun with active := { tRun.active with pps := { tRun.active.pps with enable := true, gate := 0 } } }.advanceTo 3).ppsJustSet = false) ∧ ({ tRun with active := { tRun.active with pps := { tRun.active.pps with enable := true, gate := 0 } } }.active.pps.enable = true) ∧ ({ tRun with active := { tRun.active with pps := { tRun.active.pps with enable := true, gate := 0 } } }.tb.running = true) ∧ (({ tRun with active := { tRun.active with pps := { tRun.active.pps with enable := true, gate := 0 } } }.advanceTo 3).atPpsInstant = true) ∧ (gateOpen { tRun with active := { tRun.active with pps := { tRun.active.pps with enable := true, gate := 0 } } }.active.pps.gate { tRun with active := { tRun.active with pps := { tRun.active.pps with enable := true, gate := 0 } } }.tb.state = true) ∧ ({ tRun with active := { tRun.active with pps := { tRun.active.pps with enable := true, gate := 0 } } }.tb.ppsOut = false) ∧ ({ tRun with active := { tRun.active with pps := { tRun.active.pps with enable := true, gate := 0 } } }.tb.ppsTrailAt = none) := by decide

theorem witness_TimeEvents_10 :
    ({ tRun with tb := { tRun.tb with ppsOut := true, ppsEdgeAt := 0, ppsWidth := 2 } }.tb.ppsOut = true) ∧ ({ tRun with tb := { tRun.tb with ppsOut := true, ppsEdgeAt := 0, ppsWidth := 2 } }.tb.ppsEdgeAt + { tRun with tb := { tRun.tb with ppsOut := true, ppsEdgeAt := 0, ppsWidth := 2 } }.tb.ppsWidth ≤ max { tRun with tb := { tRun.tb with ppsOut := true, ppsEdgeAt := 0, ppsWidth := 2 } }.now 3) := by decide

theorem witness_TimeEvents_11 :
    (((tRun.modSys fun y => { y with islands := y.islands.set 45 true }).advanceTo 0).atEpoch = true) ∧ (((tRun.modSys fun y => { y with islands := y.islands.set 45 true }).advanceTo 0).applySteps.atEpoch = true) ∧ (stampingIsland (45 : Fin 64) = true) ∧ (((tRun.modSys fun y => { y with islands := y.islands.set 45 true }).advanceTo 0).applySteps.onIslandClock (45 : Fin 64) = true) ∧ (((tRun.modSys fun y => { y with islands := y.islands.set 45 true }).advanceTo 0).applySteps.replicas[(45 : Fin 64)].error = false) ∧ (((tRun.modSys fun y => { y with islands := y.islands.set 45 true }).advanceTo 0).applySteps.replicas[(45 : Fin 64)].hears ((tRun.modSys fun y => { y with islands := y.islands.set 45 true }).advanceTo 0).applySteps.ticks 0 = true) := by decide

theorem witness_TimeEvents_12 :
    (({ (tRun.modSys fun y => { y with islands := y.islands.set 45 true }) with replicas := upd tRun.replicas 45 fun r => { r with aligned := true, error := true, heard := some 0 } }.advanceTo 0).atEpoch = true) ∧ (({ (tRun.modSys fun y => { y with islands := y.islands.set 45 true }) with replicas := upd tRun.replicas 45 fun r => { r with aligned := true, error := true, heard := some 0 } }.advanceTo 0).applySteps.atEpoch = true) ∧ (stampingIsland (45 : Fin 64) = true) ∧ (({ (tRun.modSys fun y => { y with islands := y.islands.set 45 true }) with replicas := upd tRun.replicas 45 fun r => { r with aligned := true, error := true, heard := some 0 } }.advanceTo 0).applySteps.onIslandClock (45 : Fin 64) = true) ∧ (({ (tRun.modSys fun y => { y with islands := y.islands.set 45 true }) with replicas := upd tRun.replicas 45 fun r => { r with aligned := true, error := true, heard := some 0 } }.advanceTo 0).applySteps.replicas[(45 : Fin 64)].error = true) ∧ (({ (tRun.modSys fun y => { y with islands := y.islands.set 45 true }) with replicas := upd tRun.replicas 45 fun r => { r with aligned := true, error := true, heard := some 0 } }.advanceTo 0).applySteps.replicas[(45 : Fin 64)].hears ({ (tRun.modSys fun y => { y with islands := y.islands.set 45 true }) with replicas := upd tRun.replicas 45 fun r => { r with aligned := true, error := true, heard := some 0 } }.advanceTo 0).applySteps.ticks 0 = true) := by decide

theorem witness_TimeEvents_13 :
    (({ (tRun.modSys fun y => { y with islands := y.islands.set 45 true }) with replicas := upd tRun.replicas 45 fun r => { r with aligned := true } }.advanceTo 0).atEpoch = true) ∧ (({ (tRun.modSys fun y => { y with islands := y.islands.set 45 true }) with replicas := upd tRun.replicas 45 fun r => { r with aligned := true } }.advanceTo 0).applySteps.atEpoch = true) ∧ (stampingIsland (45 : Fin 64) = true) ∧ (({ (tRun.modSys fun y => { y with islands := y.islands.set 45 true }) with replicas := upd tRun.replicas 45 fun r => { r with aligned := true } }.advanceTo 0).applySteps.onIslandClock (45 : Fin 64) = true) ∧ (({ (tRun.modSys fun y => { y with islands := y.islands.set 45 true }) with replicas := upd tRun.replicas 45 fun r => { r with aligned := true } }.advanceTo 0).applySteps.replicas[(45 : Fin 64)].error = false) ∧ (({ (tRun.modSys fun y => { y with islands := y.islands.set 45 true }) with replicas := upd tRun.replicas 45 fun r => { r with aligned := true } }.advanceTo 0).applySteps.replicas[(45 : Fin 64)].hears ({ (tRun.modSys fun y => { y with islands := y.islands.set 45 true }) with replicas := upd tRun.replicas 45 fun r => { r with aligned := true } }.advanceTo 0).applySteps.ticks 5 = false) := by decide

theorem witness_TimeEvents_14 :
    (({ (tRun.modSys fun y => { y with islands := y.islands.set 45 true }) with replicas := upd tRun.replicas 45 fun r => { r with aligned := true, error := true, heard := some 0 } }.advanceTo 0).atEpoch = true) ∧ (({ (tRun.modSys fun y => { y with islands := y.islands.set 45 true }) with replicas := upd tRun.replicas 45 fun r => { r with aligned := true, error := true, heard := some 0 } }.advanceTo 0).applySteps.atEpoch = true) ∧ (stampingIsland (45 : Fin 64) = true) ∧ (({ (tRun.modSys fun y => { y with islands := y.islands.set 45 true }) with replicas := upd tRun.replicas 45 fun r => { r with aligned := true, error := true, heard := some 0 } }.advanceTo 0).applySteps.onIslandClock (45 : Fin 64) = true) ∧ (({ (tRun.modSys fun y => { y with islands := y.islands.set 45 true }) with replicas := upd tRun.replicas 45 fun r => { r with aligned := true, error := true, heard := some 0 } }.advanceTo 0).applySteps.replicas[(45 : Fin 64)].error = true) ∧ (({ (tRun.modSys fun y => { y with islands := y.islands.set 45 true }) with replicas := upd tRun.replicas 45 fun r => { r with aligned := true, error := true, heard := some 0 } }.advanceTo 0).applySteps.replicas[(45 : Fin 64)].hears ({ (tRun.modSys fun y => { y with islands := y.islands.set 45 true }) with replicas := upd tRun.replicas 45 fun r => { r with aligned := true, error := true, heard := some 0 } }.advanceTo 0).applySteps.ticks 5 = false) := by decide

theorem witness_TimeEvents_15 :
    ((if true = true then ({ tRun with replicas := vmap tRun.replicas fun _ r => { r with aligned := true }, ports := upd tRun.ports 0 fun p => { p with toLine := { p.toLine with faulted := false } }, active := { tRun.active with port := upd tRun.active.port 0 fun p => { p with ptp := { toLine := true, toHost := false, eth := true, udp4 := false, udp6 := false, vlan := false, hostToPin := 0, pinToHost := 0 } } } }).ports[leadOf ({ tRun with replicas := vmap tRun.replicas fun _ r => { r with aligned := true }, ports := upd tRun.ports 0 fun p => { p with toLine := { p.toLine with faulted := false } }, active := { tRun.active with port := upd tRun.active.port 0 fun p => { p with ptp := { toLine := true, toHost := false, eth := true, udp4 := false, udp6 := false, vlan := false, hostToPin := 0, pinToHost := 0 } } } }).grouping (0 : Fin 8)].toLine.faulted else ({ tRun with replicas := vmap tRun.replicas fun _ r => { r with aligned := true }, ports := upd tRun.ports 0 fun p => { p with toLine := { p.toLine with faulted := false } }, active := { tRun.active with port := upd tRun.active.port 0 fun p => { p with ptp := { toLine := true, toHost := false, eth := true, udp4 := false, udp6 := false, vlan := false, hostToPin := 0, pinToHost := 0 } } } }).ports[leadOf ({ tRun with replicas := vmap tRun.replicas fun _ r => { r with aligned := true }, ports := upd tRun.ports 0 fun p => { p with toLine := { p.toLine with faulted := false } }, active := { tRun.active with port := upd tRun.active.port 0 fun p => { p with ptp := { toLine := true, toHost := false, eth := true, udp4 := false, udp6 := false, vlan := false, hostToPin := 0, pinToHost := 0 } } } }).grouping (0 : Fin 8)].toHost.faulted) = false) ∧ ((if true = true then ({ tRun with replicas := vmap tRun.replicas fun _ r => { r with aligned := true }, ports := upd tRun.ports 0 fun p => { p with toLine := { p.toLine with faulted := false } }, active := { tRun.active with port := upd tRun.active.port 0 fun p => { p with ptp := { toLine := true, toHost := false, eth := true, udp4 := false, udp6 := false, vlan := false, hostToPin := 0, pinToHost := 0 } } } }).active.port[leadOf ({ tRun with replicas := vmap tRun.replicas fun _ r => { r with aligned := true }, ports := upd tRun.ports 0 fun p => { p with toLine := { p.toLine with faulted := false } }, active := { tRun.active with port := upd tRun.active.port 0 fun p => { p with ptp := { toLine := true, toHost := false, eth := true, udp4 := false, udp6 := false, vlan := false, hostToPin := 0, pinToHost := 0 } } } }).grouping (0 : Fin 8)].ptp.toLine else ({ tRun with replicas := vmap tRun.replicas fun _ r => { r with aligned := true }, ports := upd tRun.ports 0 fun p => { p with toLine := { p.toLine with faulted := false } }, active := { tRun.active with port := upd tRun.active.port 0 fun p => { p with ptp := { toLine := true, toHost := false, eth := true, udp4 := false, udp6 := false, vlan := false, hostToPin := 0, pinToHost := 0 } } } }).active.port[leadOf ({ tRun with replicas := vmap tRun.replicas fun _ r => { r with aligned := true }, ports := upd tRun.ports 0 fun p => { p with toLine := { p.toLine with faulted := false } }, active := { tRun.active with port := upd tRun.active.port 0 fun p => { p with ptp := { toLine := true, toHost := false, eth := true, udp4 := false, udp6 := false, vlan := false, hostToPin := 0, pinToHost := 0 } } } }).grouping (0 : Fin 8)].ptp.toHost) = true) ∧ (leadOf ({ tRun with replicas := vmap tRun.replicas fun _ r => { r with aligned := true }, ports := upd tRun.ports 0 fun p => { p with toLine := { p.toLine with faulted := false } }, active := { tRun.active with port := upd tRun.active.port 0 fun p => { p with ptp := { toLine := true, toHost := false, eth := true, udp4 := false, udp6 := false, vlan := false, hostToPin := 0, pinToHost := 0 } } } }).grouping (relayPort (0 : Fin 16)) = leadOf ({ tRun with replicas := vmap tRun.replicas fun _ r => { r with aligned := true }, ports := upd tRun.ports 0 fun p => { p with toLine := { p.toLine with faulted := false } }, active := { tRun.active with port := upd tRun.active.port 0 fun p => { p with ptp := { toLine := true, toHost := false, eth := true, udp4 := false, udp6 := false, vlan := false, hostToPin := 0, pinToHost := 0 } } } }).grouping (0 : Fin 8)) ∧ (recognised ({ tRun with replicas := vmap tRun.replicas fun _ r => { r with aligned := true }, ports := upd tRun.ports 0 fun p => { p with toLine := { p.toLine with faulted := false } }, active := { tRun.active with port := upd tRun.active.port 0 fun p => { p with ptp := { toLine := true, toHost := false, eth := true, udp4 := false, udp6 := false, vlan := false, hostToPin := 0, pinToHost := 0 } } } }).active.port[leadOf ({ tRun with replicas := vmap tRun.replicas fun _ r => { r with aligned := true }, ports := upd tRun.ports 0 fun p => { p with toLine := { p.toLine with faulted := false } }, active := { tRun.active with port := upd tRun.active.port 0 fun p => { p with ptp := { toLine := true, toHost := false, eth := true, udp4 := false, udp6 := false, vlan := false, hostToPin := 0, pinToHost := 0 } } } }).grouping (0 : Fin 8)].ptp (List.replicate 12 (0 : Byte) ++ [0x88, 0xF7] ++ ([0, 2] ++ List.replicate 48 (0 : Byte)) : List Byte) = some (14, (none : Option (Nat × Bool)))) ∧ (false = false) ∧ ((((({ tRun with replicas := vmap tRun.replicas fun _ r => { r with aligned := true }, ports := upd tRun.ports 0 fun p => { p with toLine := { p.toLine with faulted := false } }, active := { tRun.active with port := upd tRun.active.port 0 fun p => { p with ptp := { toLine := true, toHost := false, eth := true, udp4 := false, udp6 := false, vlan := false, hostToPin := 0, pinToHost := 0 } } } }).advanceTo 3).lineTag (0 : Fin 8) true ({ edge := 3, index := 0, phase := 0 } : Crossing)).valid && ((({ tRun with replicas := vmap tRun.replicas fun _ r => { r with aligned := true }, ports := upd tRun.ports 0 fun p => { p with toLine := { p.toLine with faulted := false } }, active := { tRun.active with port := upd tRun.active.port 0 fun p => { p with ptp := { toLine := true, toHost := false, eth := true, udp4 := false, udp6 := false, vlan := false, hostToPin := 0, pinToHost := 0 } } } }).advanceTo 3).hostTag (0 : Fin 16) ({ edge := 3, index := 0, phase := 0 } : Crossing)).valid) = true) ∧ (0 ≤ residence true ((({ tRun with replicas := vmap tRun.replicas fun _ r => { r with aligned := true }, ports := upd tRun.ports 0 fun p => { p with toLine := { p.toLine with faulted := false } }, active := { tRun.active with port := upd tRun.active.port 0 fun p => { p with ptp := { toLine := true, toHost := false, eth := true, udp4 := false, udp6 := false, vlan := false, hostToPin := 0, pinToHost := 0 } } } }).advanceTo 3).lineTag (0 : Fin 8) true ({ edge := 3, index := 0, phase := 0 } : Crossing)).time ((({ tRun with replicas := vmap tRun.replicas fun _ r => { r with aligned := true }, ports := upd tRun.ports 0 fun p => { p with toLine := { p.toLine with faulted := false } }, active := { tRun.active with port := upd tRun.active.port 0 fun p => { p with ptp := { toLine := true, toHost := false, eth := true, udp4 := false, udp6 := false, vlan := false, hostToPin := 0, pinToHost := 0 } } } }).advanceTo 3).hostTag (0 : Fin 16) ({ edge := 3, index := 0, phase := 0 } : Crossing)).time (({ tRun with replicas := vmap tRun.replicas fun _ r => { r with aligned := true }, ports := upd tRun.ports 0 fun p => { p with toLine := { p.toLine with faulted := false } }, active := { tRun.active with port := upd tRun.active.port 0 fun p => { p with ptp := { toLine := true, toHost := false, eth := true, udp4 := false, udp6 := false, vlan := false, hostToPin := 0, pinToHost := 0 } } } }).txFibre (.line (0 : Fin 8))) (({ tRun with replicas := vmap tRun.replicas fun _ r => { r with aligned := true }, ports := upd tRun.ports 0 fun p => { p with toLine := { p.toLine with faulted := false } }, active := { tRun.active with port := upd tRun.active.port 0 fun p => { p with ptp := { toLine := true, toHost := false, eth := true, udp4 := false, udp6 := false, vlan := false, hostToPin := 0, pinToHost := 0 } } } }).rxFibre (.line (0 : Fin 8))) (psUnits ({ tRun with replicas := vmap tRun.replicas fun _ r => { r with aligned := true }, ports := upd tRun.ports 0 fun p => { p with toLine := { p.toLine with faulted := false } }, active := { tRun.active with port := upd tRun.active.port 0 fun p => { p with ptp := { toLine := true, toHost := false, eth := true, udp4 := false, udp6 := false, vlan := false, hostToPin := 0, pinToHost := 0 } } } }).active.port[leadOf ({ tRun with replicas := vmap tRun.replicas fun _ r => { r with aligned := true }, ports := upd tRun.ports 0 fun p => { p with toLine := { p.toLine with faulted := false } }, active := { tRun.active with port := upd tRun.active.port 0 fun p => { p with ptp := { toLine := true, toHost := false, eth := true, udp4 := false, udp6 := false, vlan := false, hostToPin := 0, pinToHost := 0 } } } }).grouping (0 : Fin 8)].ptp.hostToPin) (psUnits ({ tRun with replicas := vmap tRun.replicas fun _ r => { r with aligned := true }, ports := upd tRun.ports 0 fun p => { p with toLine := { p.toLine with faulted := false } }, active := { tRun.active with port := upd tRun.active.port 0 fun p => { p with ptp := { toLine := true, toHost := false, eth := true, udp4 := false, udp6 := false, vlan := false, hostToPin := 0, pinToHost := 0 } } } }).active.port[leadOf ({ tRun with replicas := vmap tRun.replicas fun _ r => { r with aligned := true }, ports := upd tRun.ports 0 fun p => { p with toLine := { p.toLine with faulted := false } }, active := { tRun.active with port := upd tRun.active.port 0 fun p => { p with ptp := { toLine := true, toHost := false, eth := true, udp4 := false, udp6 := false, vlan := false, hostToPin := 0, pinToHost := 0 } } } }).grouping (0 : Fin 8)].ptp.pinToHost)) ∧ (residence true ((({ tRun with replicas := vmap tRun.replicas fun _ r => { r with aligned := true }, ports := upd tRun.ports 0 fun p => { p with toLine := { p.toLine with faulted := false } }, active := { tRun.active with port := upd tRun.active.port 0 fun p => { p with ptp := { toLine := true, toHost := false, eth := true, udp4 := false, udp6 := false, vlan := false, hostToPin := 0, pinToHost := 0 } } } }).advanceTo 3).lineTag (0 : Fin 8) true ({ edge := 3, index := 0, phase := 0 } : Crossing)).time ((({ tRun with replicas := vmap tRun.replicas fun _ r => { r with aligned := true }, ports := upd tRun.ports 0 fun p => { p with toLine := { p.toLine with faulted := false } }, active := { tRun.active with port := upd tRun.active.port 0 fun p => { p with ptp := { toLine := true, toHost := false, eth := true, udp4 := false, udp6 := false, vlan := false, hostToPin := 0, pinToHost := 0 } } } }).advanceTo 3).hostTag (0 : Fin 16) ({ edge := 3, index := 0, phase := 0 } : Crossing)).time (({ tRun with replicas := vmap tRun.replicas fun _ r => { r with aligned := true }, ports := upd tRun.ports 0 fun p => { p with toLine := { p.toLine with faulted := false } }, active := { tRun.active with port := upd tRun.active.port 0 fun p => { p with ptp := { toLine := true, toHost := false, eth := true, udp4 := false, udp6 := false, vlan := false, hostToPin := 0, pinToHost := 0 } } } }).txFibre (.line (0 : Fin 8))) (({ tRun with replicas := vmap tRun.replicas fun _ r => { r with aligned := true }, ports := upd tRun.ports 0 fun p => { p with toLine := { p.toLine with faulted := false } }, active := { tRun.active with port := upd tRun.active.port 0 fun p => { p with ptp := { toLine := true, toHost := false, eth := true, udp4 := false, udp6 := false, vlan := false, hostToPin := 0, pinToHost := 0 } } } }).rxFibre (.line (0 : Fin 8))) (psUnits ({ tRun with replicas := vmap tRun.replicas fun _ r => { r with aligned := true }, ports := upd tRun.ports 0 fun p => { p with toLine := { p.toLine with faulted := false } }, active := { tRun.active with port := upd tRun.active.port 0 fun p => { p with ptp := { toLine := true, toHost := false, eth := true, udp4 := false, udp6 := false, vlan := false, hostToPin := 0, pinToHost := 0 } } } }).active.port[leadOf ({ tRun with replicas := vmap tRun.replicas fun _ r => { r with aligned := true }, ports := upd tRun.ports 0 fun p => { p with toLine := { p.toLine with faulted := false } }, active := { tRun.active with port := upd tRun.active.port 0 fun p => { p with ptp := { toLine := true, toHost := false, eth := true, udp4 := false, udp6 := false, vlan := false, hostToPin := 0, pinToHost := 0 } } } }).grouping (0 : Fin 8)].ptp.hostToPin) (psUnits ({ tRun with replicas := vmap tRun.replicas fun _ r => { r with aligned := true }, ports := upd tRun.ports 0 fun p => { p with toLine := { p.toLine with faulted := false } }, active := { tRun.active with port := upd tRun.active.port 0 fun p => { p with ptp := { toLine := true, toHost := false, eth := true, udp4 := false, udp6 := false, vlan := false, hostToPin := 0, pinToHost := 0 } } } }).active.port[leadOf ({ tRun with replicas := vmap tRun.replicas fun _ r => { r with aligned := true }, ports := upd tRun.ports 0 fun p => { p with toLine := { p.toLine with faulted := false } }, active := { tRun.active with port := upd tRun.active.port 0 fun p => { p with ptp := { toLine := true, toHost := false, eth := true, udp4 := false, udp6 := false, vlan := false, hostToPin := 0, pinToHost := 0 } } } }).grouping (0 : Fin 8)].ptp.pinToHost) ≤ 327680000) := by decide

theorem witness_TimeEvents_16 :
    ((if true = true then ({ tRun with replicas := vmap tRun.replicas fun _ r => { r with aligned := true }, ports := upd tRun.ports 0 fun p => { p with toLine := { p.toLine with faulted := false } }, active := { tRun.active with port := upd tRun.active.port 0 fun p => { p with ptp := { toLine := true, toHost := false, eth := true, udp4 := false, udp6 := false, vlan := false, hostToPin := 0, pinToHost := 0 } } } }).ports[leadOf ({ tRun with replicas := vmap tRun.replicas fun _ r => { r with aligned := true }, ports := upd tRun.ports 0 fun p => { p with toLine := { p.toLine with faulted := false } }, active := { tRun.active with port := upd tRun.active.port 0 fun p => { p with ptp := { toLine := true, toHost := false, eth := true, udp4 := false, udp6 := false, vlan := false, hostToPin := 0, pinToHost := 0 } } } }).grouping (0 : Fin 8)].toLine.faulted else ({ tRun with replicas := vmap tRun.replicas fun _ r => { r with aligned := true }, ports := upd tRun.ports 0 fun p => { p with toLine := { p.toLine with faulted := false } }, active := { tRun.active with port := upd tRun.active.port 0 fun p => { p with ptp := { toLine := true, toHost := false, eth := true, udp4 := false, udp6 := false, vlan := false, hostToPin := 0, pinToHost := 0 } } } }).ports[leadOf ({ tRun with replicas := vmap tRun.replicas fun _ r => { r with aligned := true }, ports := upd tRun.ports 0 fun p => { p with toLine := { p.toLine with faulted := false } }, active := { tRun.active with port := upd tRun.active.port 0 fun p => { p with ptp := { toLine := true, toHost := false, eth := true, udp4 := false, udp6 := false, vlan := false, hostToPin := 0, pinToHost := 0 } } } }).grouping (0 : Fin 8)].toHost.faulted) = false) ∧ ((if true = true then ({ tRun with replicas := vmap tRun.replicas fun _ r => { r with aligned := true }, ports := upd tRun.ports 0 fun p => { p with toLine := { p.toLine with faulted := false } }, active := { tRun.active with port := upd tRun.active.port 0 fun p => { p with ptp := { toLine := true, toHost := false, eth := true, udp4 := false, udp6 := false, vlan := false, hostToPin := 0, pinToHost := 0 } } } }).active.port[leadOf ({ tRun with replicas := vmap tRun.replicas fun _ r => { r with aligned := true }, ports := upd tRun.ports 0 fun p => { p with toLine := { p.toLine with faulted := false } }, active := { tRun.active with port := upd tRun.active.port 0 fun p => { p with ptp := { toLine := true, toHost := false, eth := true, udp4 := false, udp6 := false, vlan := false, hostToPin := 0, pinToHost := 0 } } } }).grouping (0 : Fin 8)].ptp.toLine else ({ tRun with replicas := vmap tRun.replicas fun _ r => { r with aligned := true }, ports := upd tRun.ports 0 fun p => { p with toLine := { p.toLine with faulted := false } }, active := { tRun.active with port := upd tRun.active.port 0 fun p => { p with ptp := { toLine := true, toHost := false, eth := true, udp4 := false, udp6 := false, vlan := false, hostToPin := 0, pinToHost := 0 } } } }).active.port[leadOf ({ tRun with replicas := vmap tRun.replicas fun _ r => { r with aligned := true }, ports := upd tRun.ports 0 fun p => { p with toLine := { p.toLine with faulted := false } }, active := { tRun.active with port := upd tRun.active.port 0 fun p => { p with ptp := { toLine := true, toHost := false, eth := true, udp4 := false, udp6 := false, vlan := false, hostToPin := 0, pinToHost := 0 } } } }).grouping (0 : Fin 8)].ptp.toHost) = true) ∧ (leadOf ({ tRun with replicas := vmap tRun.replicas fun _ r => { r with aligned := true }, ports := upd tRun.ports 0 fun p => { p with toLine := { p.toLine with faulted := false } }, active := { tRun.active with port := upd tRun.active.port 0 fun p => { p with ptp := { toLine := true, toHost := false, eth := true, udp4 := false, udp6 := false, vlan := false, hostToPin := 0, pinToHost := 0 } } } }).grouping (relayPort (0 : Fin 16)) = leadOf ({ tRun with replicas := vmap tRun.replicas fun _ r => { r with aligned := true }, ports := upd tRun.ports 0 fun p => { p with toLine := { p.toLine with faulted := false } }, active := { tRun.active with port := upd tRun.active.port 0 fun p => { p with ptp := { toLine := true, toHost := false, eth := true, udp4 := false, udp6 := false, vlan := false, hostToPin := 0, pinToHost := 0 } } } }).grouping (0 : Fin 8)) ∧ (recognised ({ tRun with replicas := vmap tRun.replicas fun _ r => { r with aligned := true }, ports := upd tRun.ports 0 fun p => { p with toLine := { p.toLine with faulted := false } }, active := { tRun.active with port := upd tRun.active.port 0 fun p => { p with ptp := { toLine := true, toHost := false, eth := true, udp4 := false, udp6 := false, vlan := false, hostToPin := 0, pinToHost := 0 } } } }).active.port[leadOf ({ tRun with replicas := vmap tRun.replicas fun _ r => { r with aligned := true }, ports := upd tRun.ports 0 fun p => { p with toLine := { p.toLine with faulted := false } }, active := { tRun.active with port := upd tRun.active.port 0 fun p => { p with ptp := { toLine := true, toHost := false, eth := true, udp4 := false, udp6 := false, vlan := false, hostToPin := 0, pinToHost := 0 } } } }).grouping (0 : Fin 8)].ptp (List.replicate 12 (0 : Byte) ++ [0x88, 0xF7] ++ ([0, 2] ++ List.replicate 48 (0 : Byte)) : List Byte) = some (14, (none : Option (Nat × Bool)))) ∧ ((true || decide (residence true ((({ tRun with replicas := vmap tRun.replicas fun _ r => { r with aligned := true }, ports := upd tRun.ports 0 fun p => { p with toLine := { p.toLine with faulted := false } }, active := { tRun.active with port := upd tRun.active.port 0 fun p => { p with ptp := { toLine := true, toHost := false, eth := true, udp4 := false, udp6 := false, vlan := false, hostToPin := 0, pinToHost := 0 } } } }).advanceTo 3).lineTag (0 : Fin 8) true ({ edge := 3, index := 0, phase := 0 } : Crossing)).time ((({ tRun with replicas := vmap tRun.replicas fun _ r => { r with aligned := true }, ports := upd tRun.ports 0 fun p => { p with toLine := { p.toLine with faulted := false } }, active := { tRun.active with port := upd tRun.active.port 0 fun p => { p with ptp := { toLine := true, toHost := false, eth := true, udp4 := false, udp6 := false, vlan := false, hostToPin := 0, pinToHost := 0 } } } }).advanceTo 3).hostTag (0 : Fin 16) ({ edge := 3, index := 0, phase := 0 } : Crossing)).time (({ tRun with replicas := vmap tRun.replicas fun _ r => { r with aligned := true }, ports := upd tRun.ports 0 fun p => { p with toLine := { p.toLine with faulted := false } }, active := { tRun.active with port := upd tRun.active.port 0 fun p => { p with ptp := { toLine := true, toHost := false, eth := true, udp4 := false, udp6 := false, vlan := false, hostToPin := 0, pinToHost := 0 } } } }).txFibre (.line (0 : Fin 8))) (({ tRun with replicas := vmap tRun.replicas fun _ r => { r with aligned := true }, ports := upd tRun.ports 0 fun p => { p with toLine := { p.toLine with faulted := false } }, active := { tRun.active with port := upd tRun.active.port 0 fun p => { p with ptp := { toLine := true, toHost := false, eth := true, udp4 := false, udp6 := false, vlan := false, hostToPin := 0, pinToHost := 0 } } } }).rxFibre (.line (0 : Fin 8))) (psUnits ({ tRun with replicas := vmap tRun.replicas fun _ r => { r with aligned := true }, ports := upd tRun.ports 0 fun p => { p with toLine := { p.toLine with faulted := false } }, active := { tRun.active with port := upd tRun.active.port 0 fun p => { p with ptp := { toLine := true, toHost := false, eth := true, udp4 := false, udp6 := false, vlan := false, hostToPin := 0, pinToHost := 0 } } } }).active.port[leadOf ({ tRun with replicas := vmap tRun.replicas fun _ r => { r with aligned := true }, ports := upd tRun.ports 0 fun p => { p with toLine := { p.toLine with faulted := false } }, active := { tRun.active with port := upd tRun.active.port 0 fun p => { p with ptp := { toLine := true, toHost := false, eth := true, udp4 := false, udp6 := false, vlan := false, hostToPin := 0, pinToHost := 0 } } } }).grouping (0 : Fin 8)].ptp.hostToPin) (psUnits ({ tRun with replicas := vmap tRun.replicas fun _ r => { r with aligned := true }, ports := upd tRun.ports 0 fun p => { p with toLine := { p.toLine with faulted := false } }, active := { tRun.active with port := upd tRun.active.port 0 fun p => { p with ptp := { toLine := true, toHost := false, eth := true, udp4 := false, udp6 := false, vlan := false, hostToPin := 0, pinToHost := 0 } } } }).active.port[leadOf ({ tRun with replicas := vmap tRun.replicas fun _ r => { r with aligned := true }, ports := upd tRun.ports 0 fun p => { p with toLine := { p.toLine with faulted := false } }, active := { tRun.active with port := upd tRun.active.port 0 fun p => { p with ptp := { toLine := true, toHost := false, eth := true, udp4 := false, udp6 := false, vlan := false, hostToPin := 0, pinToHost := 0 } } } }).grouping (0 : Fin 8)].ptp.pinToHost) < 0 ∨ 327680000 < residence true ((({ tRun with replicas := vmap tRun.replicas fun _ r => { r with aligned := true }, ports := upd tRun.ports 0 fun p => { p with toLine := { p.toLine with faulted := false } }, active := { tRun.active with port := upd tRun.active.port 0 fun p => { p with ptp := { toLine := true, toHost := false, eth := true, udp4 := false, udp6 := false, vlan := false, hostToPin := 0, pinToHost := 0 } } } }).advanceTo 3).lineTag (0 : Fin 8) true ({ edge := 3, index := 0, phase := 0 } : Crossing)).time ((({ tRun with replicas := vmap tRun.replicas fun _ r => { r with aligned := true }, ports := upd tRun.ports 0 fun p => { p with toLine := { p.toLine with faulted := false } }, active := { tRun.active with port := upd tRun.active.port 0 fun p => { p with ptp := { toLine := true, toHost := false, eth := true, udp4 := false, udp6 := false, vlan := false, hostToPin := 0, pinToHost := 0 } } } }).advanceTo 3).hostTag (0 : Fin 16) ({ edge := 3, index := 0, phase := 0 } : Crossing)).time (({ tRun with replicas := vmap tRun.replicas fun _ r => { r with aligned := true }, ports := upd tRun.ports 0 fun p => { p with toLine := { p.toLine with faulted := false } }, active := { tRun.active with port := upd tRun.active.port 0 fun p => { p with ptp := { toLine := true, toHost := false, eth := true, udp4 := false, udp6 := false, vlan := false, hostToPin := 0, pinToHost := 0 } } } }).txFibre (.line (0 : Fin 8))) (({ tRun with replicas := vmap tRun.replicas fun _ r => { r with aligned := true }, ports := upd tRun.ports 0 fun p => { p with toLine := { p.toLine with faulted := false } }, active := { tRun.active with port := upd tRun.active.port 0 fun p => { p with ptp := { toLine := true, toHost := false, eth := true, udp4 := false, udp6 := false, vlan := false, hostToPin := 0, pinToHost := 0 } } } }).rxFibre (.line (0 : Fin 8))) (psUnits ({ tRun with replicas := vmap tRun.replicas fun _ r => { r with aligned := true }, ports := upd tRun.ports 0 fun p => { p with toLine := { p.toLine with faulted := false } }, active := { tRun.active with port := upd tRun.active.port 0 fun p => { p with ptp := { toLine := true, toHost := false, eth := true, udp4 := false, udp6 := false, vlan := false, hostToPin := 0, pinToHost := 0 } } } }).active.port[leadOf ({ tRun with replicas := vmap tRun.replicas fun _ r => { r with aligned := true }, ports := upd tRun.ports 0 fun p => { p with toLine := { p.toLine with faulted := false } }, active := { tRun.active with port := upd tRun.active.port 0 fun p => { p with ptp := { toLine := true, toHost := false, eth := true, udp4 := false, udp6 := false, vlan := false, hostToPin := 0, pinToHost := 0 } } } }).grouping (0 : Fin 8)].ptp.hostToPin) (psUnits ({ tRun with replicas := vmap tRun.replicas fun _ r => { r with aligned := true }, ports := upd tRun.ports 0 fun p => { p with toLine := { p.toLine with faulted := false } }, active := { tRun.active with port := upd tRun.active.port 0 fun p => { p with ptp := { toLine := true, toHost := false, eth := true, udp4 := false, udp6 := false, vlan := false, hostToPin := 0, pinToHost := 0 } } } }).active.port[leadOf ({ tRun with replicas := vmap tRun.replicas fun _ r => { r with aligned := true }, ports := upd tRun.ports 0 fun p => { p with toLine := { p.toLine with faulted := false } }, active := { tRun.active with port := upd tRun.active.port 0 fun p => { p with ptp := { toLine := true, toHost := false, eth := true, udp4 := false, udp6 := false, vlan := false, hostToPin := 0, pinToHost := 0 } } } }).grouping (0 : Fin 8)].ptp.pinToHost)) || !(((({ tRun with replicas := vmap tRun.replicas fun _ r => { r with aligned := true }, ports := upd tRun.ports 0 fun p => { p with toLine := { p.toLine with faulted := false } }, active := { tRun.active with port := upd tRun.active.port 0 fun p => { p with ptp := { toLine := true, toHost := false, eth := true, udp4 := false, udp6 := false, vlan := false, hostToPin := 0, pinToHost := 0 } } } }).advanceTo 3).lineTag (0 : Fin 8) true ({ edge := 3, index := 0, phase := 0 } : Crossing)).valid && ((({ tRun with replicas := vmap tRun.replicas fun _ r => { r with aligned := true }, ports := upd tRun.ports 0 fun p => { p with toLine := { p.toLine with faulted := false } }, active := { tRun.active with port := upd tRun.active.port 0 fun p => { p with ptp := { toLine := true, toHost := false, eth := true, udp4 := false, udp6 := false, vlan := false, hostToPin := 0, pinToHost := 0 } } } }).advanceTo 3).hostTag (0 : Fin 16) ({ edge := 3, index := 0, phase := 0 } : Crossing)).valid)) = true) := by decide

theorem witness_TimeEvents_17 :
    (recognised ({ tRun with replicas := vmap tRun.replicas fun _ r => { r with aligned := true }, ports := upd tRun.ports 0 fun p => { p with toLine := { p.toLine with faulted := false } }, active := { tRun.active with port := upd tRun.active.port 0 fun p => { p with ptp := { toLine := true, toHost := false, eth := true, udp4 := false, udp6 := false, vlan := false, hostToPin := 0, pinToHost := 0 } } } }).active.port[leadOf ({ tRun with replicas := vmap tRun.replicas fun _ r => { r with aligned := true }, ports := upd tRun.ports 0 fun p => { p with toLine := { p.toLine with faulted := false } }, active := { tRun.active with port := upd tRun.active.port 0 fun p => { p with ptp := { toLine := true, toHost := false, eth := true, udp4 := false, udp6 := false, vlan := false, hostToPin := 0, pinToHost := 0 } } } }).grouping (0 : Fin 8)].ptp ([] : List Byte) = none) := by decide

theorem witness_SetsCommit_1 :
    met (tRun) 5 .q0 0x1010 false (leBytes 4 1 ++ leBytes 2 0x0600) (fun _ e s => decide (s.blocksAt e.cmd.payload 4 (bits (e.w 0) 0 16) = some [Block.ppsOut] ∧ e.len = 4 + 2 * bits (e.w 0) 0 16 ∧ 1 ≤ bits (e.w 0) 0 16 ∧ bits (e.w 0) 0 16 ≤ 128 ∧ rsvHigh (e.w 0) 16 = true ∧ s.commitRefused [Block.ppsOut] = none)) = true := by decide

theorem witness_SetsCommit_2 :
    met ({ tRun with commits := [({ id := 0, kind := .commit, queue := .q0, tag := 7, seq := 0, blocks := [⟨.ppsOut, false, none, false⟩], snap := tRun.shadow, tc := 65536000000009999, at' := 0, settled := false, cancelled := false, failed := none, last := ⟨0, false⟩ } : Commit)] }) 5 .q0 0x1010 false (leBytes 4 1 ++ leBytes 2 0x0600) (fun _ e s => decide (s.blocksAt e.cmd.payload 4 (bits (e.w 0) 0 16) = some [Block.ppsOut] ∧ e.len = 4 + 2 * bits (e.w 0) 0 16 ∧ 1 ≤ bits (e.w 0) 0 16 ∧ bits (e.w 0) 0 16 ≤ 128 ∧ rsvHigh (e.w 0) 16 = true ∧ s.namedPending [Block.ppsOut] = true)) = true := by decide

theorem witness_SetsCommit_3 :
    met (tSampling) 5 .q0 0x1010 false (leBytes 4 1 ++ leBytes 2 0x0800) (fun _ e s => decide (s.blocksAt e.cmd.payload 4 (bits (e.w 0) 0 16) = some [Block.weir] ∧ e.len = 4 + 2 * bits (e.w 0) 0 16 ∧ 1 ≤ bits (e.w 0) 0 16 ∧ bits (e.w 0) 0 16 ≤ 128 ∧ rsvHigh (e.w 0) 16 = true ∧ s.namedPending [Block.weir] = false ∧ [Block.weir].any Block.acquires = true ∧ s.acquiring = true)) = true := by decide

theorem witness_SetsCommit_4 :
    met ({ tRun with commits := [({ id := 0, kind := .commit, queue := .q0, tag := 7, seq := 0, blocks := [⟨.ppsOut, false, none, false⟩], snap := tRun.shadow, tc := 65536000000009999, at' := 0, settled := false, cancelled := false, failed := none, last := ⟨0, false⟩ } : Commit)] }) 5 .q0 0x1011 false (leBytes 6 0 ++ leBytes 6 1001 ++ leBytes 4 1 ++ leBytes 2 0x0600) (fun _ e s => decide (e.time 0 = some 65601536000000000 ∧ s.blocksAt e.cmd.payload 16 (bits (e.w 3) 0 16) = some [Block.ppsOut] ∧ e.len = 16 + 2 * bits (e.w 3) 0 16 ∧ 1 ≤ bits (e.w 3) 0 16 ∧ bits (e.w 3) 0 16 ≤ 128 ∧ rsvHigh (e.w 3) 16 = true ∧ 65601536000000000 ≤ s.fnow + secs 86400 ∧ (s.commits.filter Commit.pendingTimed).length < 4 ∧ s.namedPending [Block.ppsOut] = true)) = true := by decide

theorem witness_SetsCommit_5 :
    met (tSampling) 5 .q0 0x1011 false (leBytes 6 0 ++ leBytes 6 1001 ++ leBytes 4 1 ++ leBytes 2 0x0800) (fun _ e s => decide (e.time 0 = some 65601536000000000 ∧ s.blocksAt e.cmd.payload 16 (bits (e.w 3) 0 16) = some [Block.weir] ∧ e.len = 16 + 2 * bits (e.w 3) 0 16 ∧ 1 ≤ bits (e.w 3) 0 16 ∧ bits (e.w 3) 0 16 ≤ 128 ∧ rsvHigh (e.w 3) 16 = true ∧ 65601536000000000 ≤ s.fnow + secs 86400 ∧ (s.commits.filter Commit.pendingTimed).length < 4 ∧ s.namedPending [Block.weir] = false ∧ [Block.weir].any Block.acquires = true ∧ s.acquiring = true)) = true := by decide

theorem witness_SetsCommit_6 :
    met ({ tRun with commits := List.replicate 4 ({ id := 0, kind := .commit, queue := .q0, tag := 7, seq := 0, blocks := [⟨.servo, false, none, false⟩], snap := tRun.shadow, tc := 65536000000009999, at' := 0, settled := false, cancelled := false, failed := none, last := ⟨0, false⟩ } : Commit) }) 5 .q0 0x1011 false (leBytes 6 0 ++ leBytes 6 1001 ++ leBytes 4 1 ++ leBytes 2 0x0600) (fun _ e s => decide (e.time 0 = some 65601536000000000 ∧ s.blocksAt e.cmd.payload 16 (bits (e.w 3) 0 16) = some [Block.ppsOut] ∧ e.len = 16 + 2 * bits (e.w 3) 0 16 ∧ 1 ≤ bits (e.w 3) 0 16 ∧ bits (e.w 3) 0 16 ≤ 128 ∧ rsvHigh (e.w 3) 16 = true ∧ 65601536000000000 ≤ s.fnow + secs 86400 ∧ 4 ≤ (s.commits.filter Commit.pendingTimed).length)) = true := by decide

theorem witness_SetsCommit_7 :
    met (tRun) 5 .q0 0x1011 false (leBytes 6 0 ++ leBytes 6 1000 ++ leBytes 4 1 ++ leBytes 2 0x0600) (fun _ e s => decide (e.time 0 = some 65536000000000000 ∧ s.blocksAt e.cmd.payload 16 (bits (e.w 3) 0 16) = some [Block.ppsOut] ∧ e.len = 16 + 2 * bits (e.w 3) 0 16 ∧ 1 ≤ bits (e.w 3) 0 16 ∧ bits (e.w 3) 0 16 ≤ 128 ∧ rsvHigh (e.w 3) 16 = true ∧ 65536000000000000 < s.fnow + usec 8 ∧ 65536000000000000 ≤ s.fnow + secs 86400 ∧ (s.commits.filter Commit.pendingTimed).length < 4 ∧ s.commitRefused [Block.ppsOut] = none)) = true := by decide

theorem witness_SetsCommit_8 :
    met (tRun) 5 .q0 0x1011 false (leBytes 6 0 ++ leBytes 6 1001 ++ leBytes 4 1 ++ leBytes 2 0x0600) (fun _ e s => decide (e.time 0 = some 65601536000000000 ∧ s.blocksAt e.cmd.payload 16 (bits (e.w 3) 0 16) = some [Block.ppsOut] ∧ e.len = 16 + 2 * bits (e.w 3) 0 16 ∧ 1 ≤ bits (e.w 3) 0 16 ∧ bits (e.w 3) 0 16 ≤ 128 ∧ rsvHigh (e.w 3) 16 = true ∧ s.fnow + usec 8 ≤ 65601536000000000 ∧ 65601536000000000 ≤ s.fnow + secs 86400 ∧ (s.commits.filter Commit.pendingTimed).length < 4 ∧ s.commitRefused [Block.ppsOut] = none)) = true := by decide

theorem witness_SetsCommit_9 :
    met ({ tRun with commits := [({ id := 0, kind := .commit, queue := .q0, tag := 7, seq := 0, blocks := [⟨.servo, true, none, false⟩], snap := tRun.shadow, tc := 65536000000009999, at' := 0, settled := true, cancelled := false, failed := none, last := ⟨0, false⟩ } : Commit)] }) 5 .q0 0x1012 true (leBytes 4 7) (fun _ e s => decide (e.len = 4 ∧ bits (e.w 0) 16 2 ≠ 1 ∧ rsvHigh (e.w 0) 18 = true ∧ (s.commits.find? fun x => decide (x.kind = .commit) && x.pendingTimed && decide (x.tag = bits (e.w 0) 0 16 ∧ x.queue.num = bits (e.w 0) 16 2)) = some ({ id := 0, kind := .commit, queue := .q0, tag := 7, seq := 0, blocks := [⟨.servo, true, none, false⟩], snap := tRun.shadow, tc := 65536000000009999, at' := 0, settled := true, cancelled := false, failed := none, last := ⟨0, false⟩ } : Commit) ∧ s.beforeTc ({ id := 0, kind := .commit, queue := .q0, tag := 7, seq := 0, blocks := [⟨.servo, true, none, false⟩], snap := tRun.shadow, tc := 65536000000009999, at' := 0, settled := true, cancelled := false, failed := none, last := ⟨0, false⟩ } : Commit) = true ∧ ({ id := 0, kind := .commit, queue := .q0, tag := 7, seq := 0, blocks := [⟨.servo, true, none, false⟩], snap := tRun.shadow, tc := 65536000000009999, at' := 0, settled := true, cancelled := false, failed := none, last := ⟨0, false⟩ } : Commit).settled = true)) = true := by decide

theorem witness_SetsCommit_10 :
    met ({ tRun with commits := [({ id := 0, kind := .commit, queue := .q0, tag := 7, seq := 0, blocks := [⟨.servo, false, none, false⟩], snap := tRun.shadow, tc := 65536000000009999, at' := 0, settled := false, cancelled := false, failed := none, last := ⟨0, false⟩ } : Commit)] }) 5 .q0 0x1012 true (leBytes 4 7) (fun _ e s => decide (e.len = 4 ∧ bits (e.w 0) 16 2 ≠ 1 ∧ rsvHigh (e.w 0) 18 = true ∧ (s.commits.find? fun x => decide (x.kind = .commit) && x.pendingTimed && decide (x.tag = bits (e.w 0) 0 16 ∧ x.queue.num = bits (e.w 0) 16 2)) = some ({ id := 0, kind := .commit, queue := .q0, tag := 7, seq := 0, blocks := [⟨.servo, false, none, false⟩], snap := tRun.shadow, tc := 65536000000009999, at' := 0, settled := false, cancelled := false, failed := none, last := ⟨0, false⟩ } : Commit) ∧ s.beforeTc ({ id := 0, kind := .commit, queue := .q0, tag := 7, seq := 0, blocks := [⟨.servo, false, none, false⟩], snap := tRun.shadow, tc := 65536000000009999, at' := 0, settled := false, cancelled := false, failed := none, last := ⟨0, false⟩ } : Commit) = true ∧ ({ id := 0, kind := .commit, queue := .q0, tag := 7, seq := 0, blocks := [⟨.servo, false, none, false⟩], snap := tRun.shadow, tc := 65536000000009999, at' := 0, settled := false, cancelled := false, failed := none, last := ⟨0, false⟩ } : Commit).settled = false)) = true := by decide

theorem witness_SetsCommit_11 :
    met ({ tRun with commits := [({ id := 0, kind := .commit, queue := .q0, tag := 7, seq := 0, blocks := [⟨.servo, true, none, false⟩], snap := tRun.shadow, tc := 0, at' := 0, settled := true, cancelled := false, failed := none, last := ⟨0, false⟩ } : Commit)] }) 5 .q0 0x1012 true (leBytes 4 7) (fun _ e s => decide (e.len = 4 ∧ bits (e.w 0) 16 2 ≠ 1 ∧ rsvHigh (e.w 0) 18 = true ∧ (s.commits.find? fun x => decide (x.kind = .commit) && x.pendingTimed && decide (x.tag = bits (e.w 0) 0 16 ∧ x.queue.num = bits (e.w 0) 16 2)) = some ({ id := 0, kind := .commit, queue := .q0, tag := 7, seq := 0, blocks := [⟨.servo, true, none, false⟩], snap := tRun.shadow, tc := 0, at' := 0, settled := true, cancelled := false, failed := none, last := ⟨0, false⟩ } : Commit) ∧ s.beforeTc ({ id := 0, kind := .commit, queue := .q0, tag := 7, seq := 0, blocks := [⟨.servo, true, none, false⟩], snap := tRun.shadow, tc := 0, at' := 0, settled := true, cancelled := false, failed := none, last := ⟨0, false⟩ } : Commit) = false)) = true := by decide

theorem witness_SetsCommit_12 :
    met (tRun) 5 .q0 0x1012 true (leBytes 4 7) (fun _ e s => decide (e.len = 4 ∧ bits (e.w 0) 16 2 ≠ 1 ∧ rsvHigh (e.w 0) 18 = true ∧ ∀ c ∈ s.commits, ¬ (c.kind = .commit ∧ c.pendingTimed = true ∧ c.tag = bits (e.w 0) 0 16 ∧ c.queue.num = bits (e.w 0) 16 2))) = true := by decide

theorem witness_SetsCommit_13 :
    ∃ (c : Commit) (x : Status), (tBad.commitOf 0 = some c) ∧ ((tBad.advanceTo 3).beforeTc c = true) ∧ ((c.blocks.any fun k => [Block.jets 0].contains k.block && !k.validated) = true) ∧ (tBad.advanceTo 3).firstFailure c [.jets 0] = some (x, .jets 0) := ⟨(tBad.commits.head?).getD { id := 0, kind := .commit, queue := .q0, tag := 0, seq := 0, blocks := [], snap := tRun.shadow, tc := 0, at' := 0, settled := false, cancelled := false, failed := none, last := ⟨0, false⟩ }, .precondition, by decide, by decide, by decide, by decide⟩

theorem witness_SetsCommit_14 :
    ({ tRun with commits := [({ id := 0, kind := .commit, queue := .q0, tag := 7, seq := 0, blocks := [⟨.ppsOut, false, none, false⟩], snap := tRun.shadow, tc := 65536000000009999, at' := 0, settled := false, cancelled := false, failed := none, last := ⟨0, false⟩ } : Commit)] }.commitOf 0 = some ({ id := 0, kind := .commit, queue := .q0, tag := 7, seq := 0, blocks := [⟨.ppsOut, false, none, false⟩], snap := tRun.shadow, tc := 65536000000009999, at' := 0, settled := false, cancelled := false, failed := none, last := ⟨0, false⟩ } : Commit)) ∧ (({ tRun with commits := [({ id := 0, kind := .commit, queue := .q0, tag := 7, seq := 0, blocks := [⟨.ppsOut, false, none, false⟩], snap := tRun.shadow, tc := 65536000000009999, at' := 0, settled := false, cancelled := false, failed := none, last := ⟨0, false⟩ } : Commit)] }.advanceTo 3).beforeTc ({ id := 0, kind := .commit, queue := .q0, tag := 7, seq := 0, blocks := [⟨.ppsOut, false, none, false⟩], snap := tRun.shadow, tc := 65536000000009999, at' := 0, settled := false, cancelled := false, failed := none, last := ⟨0, false⟩ } : Commit) = true) ∧ ((({ id := 0, kind := .commit, queue := .q0, tag := 7, seq := 0, blocks := [⟨.ppsOut, false, none, false⟩], snap := tRun.shadow, tc := 65536000000009999, at' := 0, settled := false, cancelled := false, failed := none, last := ⟨0, false⟩ } : Commit).blocks.any fun k => [Block.ppsOut].contains k.block && !k.validated) = true) ∧ (({ tRun with commits := [({ id := 0, kind := .commit, queue := .q0, tag := 7, seq := 0, blocks := [⟨.ppsOut, false, none, false⟩], snap := tRun.shadow, tc := 65536000000009999, at' := 0, settled := false, cancelled := false, failed := none, last := ⟨0, false⟩ } : Commit)] }.advanceTo 3).firstFailure ({ id := 0, kind := .commit, queue := .q0, tag := 7, seq := 0, blocks := [⟨.ppsOut, false, none, false⟩], snap := tRun.shadow, tc := 65536000000009999, at' := 0, settled := false, cancelled := false, failed := none, last := ⟨0, false⟩ } : Commit) [Block.ppsOut] = none) := by decide

theorem witness_SetsCommit_15 :
    ({ tRun with commits := [({ id := 0, kind := .apply, queue := .q0, tag := 7, seq := 0, blocks := [⟨.servo, false, none, false⟩], snap := tRun.shadow, tc := 0, at' := 0, settled := false, cancelled := false, failed := none, last := ⟨0, false⟩ } : Commit)] }.commitOf 0 = some ({ id := 0, kind := .apply, queue := .q0, tag := 7, seq := 0, blocks := [⟨.servo, false, none, false⟩], snap := tRun.shadow, tc := 0, at' := 0, settled := false, cancelled := false, failed := none, last := ⟨0, false⟩ } : Commit)) ∧ ((({ id := 0, kind := .apply, queue := .q0, tag := 7, seq := 0, blocks := [⟨.servo, false, none, false⟩], snap := tRun.shadow, tc := 0, at' := 0, settled := false, cancelled := false, failed := none, last := ⟨0, false⟩ } : Commit).blocks.find? fun k => !k.validated) = some (⟨.servo, false, none, false⟩ : CommitBlock)) ∧ (({ id := 0, kind := .apply, queue := .q0, tag := 7, seq := 0, blocks := [⟨.servo, false, none, false⟩], snap := tRun.shadow, tc := 0, at' := 0, settled := false, cancelled := false, failed := none, last := ⟨0, false⟩ } : Commit).kind = .apply) ∧ (({ tRun with commits := [({ id := 0, kind := .apply, queue := .q0, tag := 7, seq := 0, blocks := [⟨.servo, false, none, false⟩], snap := tRun.shadow, tc := 0, at' := 0, settled := false, cancelled := false, failed := none, last := ⟨0, false⟩ } : Commit)] }.advanceTo 3).beforeTc ({ id := 0, kind := .apply, queue := .q0, tag := 7, seq := 0, blocks := [⟨.servo, false, none, false⟩], snap := tRun.shadow, tc := 0, at' := 0, settled := false, cancelled := false, failed := none, last := ⟨0, false⟩ } : Commit) = false) := by decide

theorem witness_SetsCommit_16 :
    ({ tRun with commits := [({ id := 0, kind := .commit, queue := .q0, tag := 7, seq := 0, blocks := [⟨.servo, false, none, false⟩], snap := tRun.shadow, tc := 0, at' := 0, settled := false, cancelled := false, failed := none, last := ⟨0, false⟩ } : Commit)] }.commitOf 0 = some ({ id := 0, kind := .commit, queue := .q0, tag := 7, seq := 0, blocks := [⟨.servo, false, none, false⟩], snap := tRun.shadow, tc := 0, at' := 0, settled := false, cancelled := false, failed := none, last := ⟨0, false⟩ } : Commit)) ∧ (({ id := 0, kind := .commit, queue := .q0, tag := 7, seq := 0, blocks := [⟨.servo, false, none, false⟩], snap := tRun.shadow, tc := 0, at' := 0, settled := false, cancelled := false, failed := none, last := ⟨0, false⟩ } : Commit).kind = .commit) ∧ (({ id := 0, kind := .commit, queue := .q0, tag := 7, seq := 0, blocks := [⟨.servo, false, none, false⟩], snap := tRun.shadow, tc := 0, at' := 0, settled := false, cancelled := false, failed := none, last := ⟨0, false⟩ } : Commit).settled = false) ∧ (({ tRun with commits := [({ id := 0, kind := .commit, queue := .q0, tag := 7, seq := 0, blocks := [⟨.servo, false, none, false⟩], snap := tRun.shadow, tc := 0, at' := 0, settled := false, cancelled := false, failed := none, last := ⟨0, false⟩ } : Commit)] }.advanceTo (msec 2)).pastCmd (({ id := 0, kind := .commit, queue := .q0, tag := 7, seq := 0, blocks := [⟨.servo, false, none, false⟩], snap := tRun.shadow, tc := 0, at' := 0, settled := false, cancelled := false, failed := none, last := ⟨0, false⟩ } : Commit).at' + msec 1) = true) := by decide

theorem witness_SetsCommit_17 :
    ((tRun.advanceTo 3).atBoundary Block.rill = true) ∧ (true = true ∨ ((tRun.advanceTo 3).commits.filter ((tRun.advanceTo 3).due Block.rill)) = []) := by decide

theorem witness_SetsCommit_18 :
    (({ tRun with commits := [({ id := 0, kind := .apply, queue := .q0, tag := 7, seq := 0, blocks := [⟨.rill, true, none, false⟩], snap := tRun.shadow, tc := 0, at' := 0, settled := false, cancelled := false, failed := none, last := ⟨0, false⟩ } : Commit)] }.advanceTo 3).atBoundary Block.rill = true) ∧ ((({ tRun with commits := [({ id := 0, kind := .apply, queue := .q0, tag := 7, seq := 0, blocks := [⟨.rill, true, none, false⟩], snap := tRun.shadow, tc := 0, at' := 0, settled := false, cancelled := false, failed := none, last := ⟨0, false⟩ } : Commit)] }.advanceTo 3).commits.filter (({ tRun with commits := [({ id := 0, kind := .apply, queue := .q0, tag := 7, seq := 0, blocks := [⟨.rill, true, none, false⟩], snap := tRun.shadow, tc := 0, at' := 0, settled := false, cancelled := false, failed := none, last := ⟨0, false⟩ } : Commit)] }.advanceTo 3).due Block.rill)).getLast? = some ({ id := 0, kind := .apply, queue := .q0, tag := 7, seq := 0, blocks := [⟨.rill, true, none, false⟩], snap := tRun.shadow, tc := 0, at' := 0, settled := false, cancelled := false, failed := none, last := ⟨0, false⟩ } : Commit)) := by decide

theorem witness_SetsCommit_19 :
    ((tRun.advanceTo 3).atBoundary Block.rill = true) := by decide

theorem witness_SetsCommit_20 :
    (leadOf tClear.grouping (0 : Fin 8) = (0 : Fin 8)) ∧ ((tClear.advanceTo (secs 1)).mayClear (0 : Fin 8) true = true) := by decide

theorem witness_SetsCommit_21 :
    ((tRun.advanceTo 3).mayClear (0 : Fin 8) true = false) := by decide

theorem witness_SetsReadAndReleased_1 :
    met (tRun) 5 .q0 0x1013 true (leBytes 8 0x10600) (fun _ e s => decide (s.blocksAt e.cmd.payload 0 1 = some [Block.ppsOut] ∧ e.len = 8 ∧ bits (e.w 0) 16 2 ≠ 3 ∧ bits (bits (e.w 0) 0 16) 0 8 ≠ 0xFF ∧ e.w 1 % 4 = 0 ∧ e.w 1 < (s.image (if bits (e.w 0) 16 2 = 0 then s.shadow else if bits (e.w 0) 16 2 = 1 then s.activeClamped else s.previous) Block.ppsOut).length ∧ rsvHigh (e.w 0) 18 = true)) = true := by decide

theorem witness_SetsReadAndReleased_2 :
    met (tRun) 5 .q0 0x1014 false (leBytes 4 0x600) (fun _ e s => decide (s.blocksAt e.cmd.payload 0 1 = some [Block.ppsOut] ∧ e.len = 4 ∧ rsvHigh (e.w 0) 16 = true)) = true := by decide

theorem witness_SetsReadAndReleased_3 :
    met (tRun) 5 .q0 0x1022 false (leBytes 24 0x10500) (fun _ e s => decide (s.blocksAt e.cmd.payload 0 1 = some [Block.servo] ∧ e.len = 24 ∧ rsvHigh (e.w 0) 18 = true ∧ rsvHigh (e.w 1) 16 = true ∧ (bit (e.w 0) 16 = true ∨ ∀ b ∈ [Block.servo], bits (e.w 1) 0 16 ∈ expertOps b))) = true := by decide

theorem witness_SetsReadAndReleased_4 :
    met (tRun) 5 .q0 0x1041 false (leBytes 4 0) (fun _ e s => decide (resourceIndex (bits (e.w 0) 0 8) = some (0 : Fin 41) ∧ e.len = 4 ∧ rsvHigh (e.w 0) 8 = true ∧ s.resourceUsed (0 : Fin 41) = false)) = true := by decide

theorem witness_SetsReadAndReleased_5 :
    met (tPulsing) 5 .q0 0x1041 false (leBytes 4 0) (fun _ e s => decide (resourceIndex (bits (e.w 0) 0 8) = some (0 : Fin 41) ∧ e.len = 4 ∧ rsvHigh (e.w 0) 8 = true ∧ s.resourceUsed (0 : Fin 41) = true)) = true := by decide

theorem witness_HostCommands_1 :
    met (tRun) 5 .q0 0x3000 false (leBytes 4 0xA0003) (fun _ e _ => decide (e.len = 4 ∧ bits (e.w 0) 16 2 ≤ 2 ∧ rsvHigh (e.w 0) 20 = true)) = true := by decide

theorem witness_HostCommands_2 :
    met (tRun) 5 .q0 0x3001 true (leBytes 4 3) (fun _ e _ => decide (e.len = 4 ∧ rsvHigh (e.w 0) 16 = true)) = true := by decide

theorem witness_HostCommands_3 :
    met (tRun) 5 .q0 0x3010 false (leBytes 4 0x10003) (fun _ e _ => decide (e.len = 4 ∧ bits (e.w 0) 16 2 ≤ 2 ∧ rsvHigh (e.w 0) 18 = true ∧ e.hosts ≠ [])) = true := by decide

theorem witness_HostCommands_4 :
    met (expertOpen tRun) 5 .q0 0x3810 false (leBytes 4 1 ++ leBytes 4 0x20000000 ++ leBytes 4 0 ++ leBytes 4 0xF0000 ++ leBytes 32 0) (fun _ e _ => decide (e.len = 48 ∧ rsvHigh (e.w 0) 16 = true ∧ rsv (e.w 2) 8 8 = true ∧ rsv (e.w 2) 21 3 = true ∧ rsvHigh (e.w 2) 27 = true ∧ rsv (e.w 3) 10 6 = true ∧ rsvHigh (e.w 3) 20 = true ∧ ((List.range 16).all fun j => rsv (fieldAt e.cmd.payload (16 + 2 * j) 2) 10 6) = true ∧ (bit (bits (e.w 3) 16 4) 0 = true → hostTapsValid (Vector.ofFn fun j => toSigned 8 (fieldAt e.cmd.payload (4 + j.val) 1)) = true) ∧ e.hosts ≠ [])) = true := by decide

theorem witness_HostCommands_5 :
    met (tRun) 5 .q0 0x3020 false (leBytes 4 0x10F) (fun _ e _ => decide (idx? 16 (bits (e.w 0) 0 4) = some (15 : Fin 16) ∧ e.len = 4 ∧ rsv (e.w 0) 4 4 = true ∧ rsvHigh (e.w 0) 10 = true)) = true := by decide

theorem witness_HostCommands_6 :
    met (tRun) 5 .q0 0x3030 false (leBytes 4 1) (fun _ e _ => decide (e.len = 4 ∧ rsvHigh (e.w 0) 1 = true)) = true := by decide

theorem witness_HostCommands_7 :
    met (tRun) 5 .q0 0x3040 false (leBytes 4 0x640100) (fun _ e s => decide (idx? 8 (bits (e.w 0) 0 3) = some (0 : Fin 8) ∧ e.len = 4 ∧ leadOf s.grouping (0 : Fin 8) = (0 : Fin 8) ∧ rsv (e.w 0) 3 5 = true ∧ rsv (e.w 0) 9 7 = true)) = true := by decide

theorem witness_HostCommands_8 :
    met (tRun) 5 .q0 0x3050 true (leBytes 4 0x1010003) (fun _ e _ => decide (e.len = 4 ∧ rsvHigh (e.w 0) 25 = true)) = true := by decide

theorem witness_HostLanesMove_1 :
    (((tRun.modHost 0 fun h => { h with state := .dark }).modSys fun y => { y with islands := y.islands.set 17 true }).hosts[(0 : Fin 16)].state = .dark) ∧ (((tRun.modHost 0 fun h => { h with state := .dark }).modSys fun y => { y with islands := y.islands.set 17 true }).isRelay (0 : Fin 16) = false) ∧ (((tRun.modHost 0 fun h => { h with state := .dark }).modSys fun y => { y with islands := y.islands.set 17 true }).onIslandClock (LaneRef.relay (0 : Fin 16)).island = true) := by decide

theorem witness_HostLanesMove_2 :
    ((tRun.modHost 0 fun h => { h with state := .train }).hosts[(0 : Fin 16)].state = .train) ∧ ((tRun.modHost 0 fun h => { h with state := .train }).isRelay (0 : Fin 16) = false) := by decide

theorem witness_HostLanesMove_3 :
    ((tRun.modHost 0 fun h => { h with state := .step, stepSince := some 0, boundAt := usec 100 }).hosts[(0 : Fin 16)].stepSince = some 0) ∧ ((tRun.modHost 0 fun h => { h with state := .step, stepSince := some 0, boundAt := usec 100 }).hosts[(0 : Fin 16)].state = .step) ∧ (0 + usec 100 ≤ max (tRun.modHost 0 fun h => { h with state := .step, stepSince := some 0, boundAt := usec 100 }).now (usec 100)) ∧ (((tRun.modHost 0 fun h => { h with state := .step, stepSince := some 0, boundAt := usec 100 }).advanceTo (usec 100)).hostBoundary (0 : Fin 16) = true) := by decide

theorem witness_HostLanesMove_4 :
    ((tRun.modHost 0 fun h => { h with state := .step, rate := 0, txRate := 1 }).hosts[(0 : Fin 16)].state = .step) ∧ ((tRun.modHost 0 fun h => { h with state := .step, rate := 0, txRate := 1 }).hosts[(0 : Fin 16)].txRate = (tRun.modHost 0 fun h => { h with state := .step, rate := 0, txRate := 1 }).hosts[(0 : Fin 16)].rate + 1) := by decide

theorem witness_HostLanesMove_5 :
    ((tRun.modHost 0 fun h => { h with state := .align }).hosts[(0 : Fin 16)].state = .align ∨ (tRun.modHost 0 fun h => { h with state := .align }).hosts[(0 : Fin 16)].state = .active) ∧ ((tRun.modHost 0 fun h => { h with state := .align }).isRelay (0 : Fin 16) = false) := by decide

theorem witness_HostLanesMove_6 :
    ((tRun.modHost 0 fun h => { h with state := .active }).hosts[(0 : Fin 16)].state = .active) ∧ ((tRun.modHost 0 fun h => { h with state := .active }).isRelay (0 : Fin 16) = false) := by decide

theorem witness_HostLanesMove_7 :
    ((tRun.modHost 0 fun h => { h with state := .test }).hosts[(0 : Fin 16)].state = .train ∨ (tRun.modHost 0 fun h => { h with state := .test }).hosts[(0 : Fin 16)].state = .step ∨ (tRun.modHost 0 fun h => { h with state := .test }).hosts[(0 : Fin 16)].state = .align ∨ (tRun.modHost 0 fun h => { h with state := .test }).hosts[(0 : Fin 16)].state = .test) ∧ ((tRun.modHost 0 fun h => { h with state := .test }).isRelay (0 : Fin 16) = false) := by decide

theorem witness_HostLanesMove_8 :
    ((tRun.modHost 0 fun h => { h with state := .recover }).hosts[(0 : Fin 16)].state = .recover) := by decide

theorem witness_HostLanesMove_9 :
    (hostTimeout (tRun.modHost 0 fun h => { h with state := .align }).hosts[(0 : Fin 16)].state (tRun.modHost 0 fun h => { h with state := .align }).hosts[(0 : Fin 16)].rate = some (msec 10)) ∧ (((tRun.modHost 0 fun h => { h with state := .align }).advanceTo (msec 11)).pastHost (0 : Fin 16) ((tRun.modHost 0 fun h => { h with state := .align }).hosts[(0 : Fin 16)].since + (msec 10)) = true) := by decide

theorem witness_HostLanesMove_10 :
    ((tRun.modHost 0 fun h => { h with state := .train }).hosts[(0 : Fin 16)].state = .train) := by decide

theorem witness_HostLanesMove_11 :
    (tRun.hosts[(0 : Fin 16)].state ≠ .train) := by decide

theorem witness_HostLanesMove_12 :
    ({ tRun with active := { tRun.active with host := upd tRun.active.host 0 fun p => { p with hostref := true } } }.active.host[(0 : Fin 16)].hostref = true) := by decide

theorem witness_RillFramesTaken_1 :
    takesUp (tFrame 1 false false 1 1 []) (ofType 1) = true := by decide

theorem witness_RillFramesTaken_2 :
    takesUp (tFrame 2 true false 1 0 []) (ofType 2) = true := by decide

theorem witness_RillFramesTaken_3 :
    takesUp (tFrame 3 true false 1 0 []) (ofType 3) = true := by decide

theorem witness_RillFramesTaken_4 :
    takesUp (tFrame 4 false false 1 1 []) (ofType 4) = true := by decide

theorem witness_RillFramesTaken_5 :
    takesUp (tFrame 5 true false 1 0 []) (ofType 5) = true := by decide

theorem witness_RillFramesTaken_6 :
    takesUp (tFrame 6 false false 1 1 []) (ofType 6) = true := by decide

theorem witness_RillFramesTaken_7 :
    takesUp (tFrame 7 true false 1 0 [0, 0, 0, 0]) (ofType 7) = true := by decide

theorem witness_RillFramesTaken_8 :
    ((tTaken (tRole .worker) (tFrame 8 false false 1 1 [1, 0, 1, 0])).rill.staging = none) ∧ ((tTaken (tRole .worker) (tFrame 8 false false 1 1 [1, 0, 1, 0])).rill.links[(3 : Fin 16)].accepted = some (tFrame 8 false false 1 1 [1, 0, 1, 0])) ∧ (ofOp 8 1 (tFrame 8 false false 1 1 [1, 0, 1, 0]) = true) := by decide

theorem witness_RillFramesTaken_9 :
    (({ tRun with rill := { tRun.rill with staging := some ⟨tFrame 8 false false 1 1 [1, 0, 1, 0], 0, some 0⟩ } } : State).rill.staging = some (⟨tFrame 8 false false 1 1 [1, 0, 1, 0], 0, some 0⟩ : Staging)) ∧ ((⟨tFrame 8 false false 1 1 [1, 0, 1, 0], 0, some 0⟩ : Staging).status = some 0) := by decide

theorem witness_RillFramesTaken_10 :
    takesUp (tFrame 8 false true 1 0 [2, 0, 1, 0]) (ofOp 8 2) = true := by decide

theorem witness_RillFramesTaken_11 :
    takesUp (tFrame 8 false true 1 0 [3, 0, 1, 0]) (ofOp 8 3) = true := by decide

theorem witness_RillFramesTaken_12 :
    takesUp (tFrame 8 false true 1 0 [4, 0, 1, 0]) (ofOp 8 4) = true := by decide

theorem witness_RillFramesTaken_13 :
    takesUp (tFrame 8 false false 1 1 [5, 0, 1, 0]) (ofOp 8 5) = true := by decide

theorem witness_RillFramesTaken_14 :
    takesUp (tFrame 9 true false 1 0 []) (ofType 9) = true := by decide

theorem witness_RillFramesTaken_15 :
    takesUp (tFrame 10 false false 1 1 [1, 0, 0, 0]) (ofOp 0xA 1) = true := by decide

theorem witness_RillFramesTaken_16 :
    takesUp (tFrame 10 false true 1 0 [2, 0, 0, 0]) (ofOp 0xA 2) = true := by decide

theorem witness_RillFramesTaken_17 :
    takesUp (tFrame 10 false false 1 1 [3, 0, 0, 0]) (ofOp 0xA 3) = true := by decide

theorem witness_RillFramesTaken_18 :
    takesUp (tFrame 10 false false 1 1 [4, 0, 0, 0]) (ofOp 0xA 4) = true := by decide

theorem witness_RillFramesTaken_19 :
    takesUp (tFrame 11 true false 1 0 []) (ofType 0xB) = true := by decide

theorem witness_RillFramesTaken_20 :
    takesUp (tFrame 12 true false 1 0 []) (ofType 0xC) = true := by decide

theorem witness_RillFramesTaken_21 :
    ((tRole .manager).judgeFrame (3 : Fin 16) (tFrame 2 true false 1 1 []) = .keep (tFrame 2 true false 1 0 []) ([] : List (Fin 16))) ∧ (((([] : List (Fin 16)).isEmpty || ((tFrame 2 true false 1 0 []).bcast && !(tFrame 2 true false 1 0 []).up)) = false ∨ (tRole .manager).rill.links[(3 : Fin 16)].accepted = none)) ∧ (([] : List (Fin 16)).all (fun o => decide ((tRole .manager).rill.links[o].queue.length < 16)) = true) := by decide

theorem witness_RillFramesTaken_22 :
    ((tTaken (tRole .manager) (tFrame 7 true false 1 0 [])).judgeFrame (3 : Fin 16) (tFrame 2 true false 1 1 []) = .keep (tFrame 2 true false 1 0 []) ([] : List (Fin 16))) ∧ ((((([] : List (Fin 16)).isEmpty || ((tFrame 2 true false 1 0 []).bcast && !(tFrame 2 true false 1 0 []).up)) = true ∧ (tTaken (tRole .manager) (tFrame 7 true false 1 0 [])).rill.links[(3 : Fin 16)].accepted ≠ none) ∨ ([] : List (Fin 16)).all (fun o => decide ((tTaken (tRole .manager) (tFrame 7 true false 1 0 [])).rill.links[o].queue.length < 16)) = false)) := by decide

theorem witness_RillFramesTaken_23 :
    ((tRole .standalone).judgeFrame (3 : Fin 16) (tFrame 2 true false 1 1 []) = .drop (tFrame 2 true false 1 0 [])) := by decide

theorem witness_RillFramesTaken_24 :
    ((tRole .manager).judgeFrame (3 : Fin 16) (tFrame 1 false false 1 0 []) = .undelivered ({ tFrame 1 false false 1 1 [] with route := setHop 0 1 (3 : Fin 16) }) 5) := by decide

theorem witness_RillFramesTaken_25 :
    (({ tRole .worker with rill := { (tRole .worker).rill with upPort := some 7 } } : State).judgeFrame (3 : Fin 16) (tFrame 8 false true 1 0 []) = .silent) := by decide

theorem witness_RillDelivers_1 :
    ({ tCame ((tFrame 1 false false 2 0 []).bytes) with active := { (tCame ((tFrame 1 false false 2 0 []).bytes)).active with rill := { (tCame ((tFrame 1 false false 2 0 []).bytes)).active.rill with enable := false } } }.rill.links[(3 : Fin 16)].rxFrame = some (tFrame 1 false false 2 0 []).bytes) ∧ ({ tCame ((tFrame 1 false false 2 0 []).bytes) with active := { (tCame ((tFrame 1 false false 2 0 []).bytes)).active with rill := { (tCame ((tFrame 1 false false 2 0 []).bytes)).active.rill with enable := false } } }.active.rill.enable = false ∨ { tCame ((tFrame 1 false false 2 0 []).bytes) with active := { (tCame ((tFrame 1 false false 2 0 []).bytes)).active with rill := { (tCame ((tFrame 1 false false 2 0 []).bytes)).active.rill with enable := false } } }.sys.fw.recovery = true) := by decide

theorem witness_RillDelivers_2 :
    ((tCame [1, 2, 3]).rill.links[(3 : Fin 16)].rxFrame = some [1, 2, 3]) ∧ ((tCame [1, 2, 3]).active.rill.enable = true) ∧ ((tCame [1, 2, 3]).sys.fw.recovery = false) ∧ ([1, 2, 3].length < 8 ∨ 1040 < [1, 2, 3].length ∨ [1, 2, 3].length % 4 ≠ 0 ∨ crcGood [1, 2, 3] = false) := by decide

theorem witness_RillDelivers_3 :
    ((tCame (ackBytes 3 false)).rill.links[(3 : Fin 16)].rxFrame = some (ackBytes 3 false)) ∧ ((tCame (ackBytes 3 false)).active.rill.enable = true) ∧ ((tCame (ackBytes 3 false)).sys.fw.recovery = false) ∧ (8 ≤ (ackBytes 3 false).length) ∧ ((ackBytes 3 false).length ≤ 1040) ∧ ((ackBytes 3 false).length % 4 = 0) ∧ (crcGood (ackBytes 3 false) = true) ∧ ((Frame.ofBytes (ackBytes 3 false)).ftype = 0) := by decide

theorem witness_RillDelivers_4 :
    ((tLink (tCame ((tFrame 1 false false 2 0 []).bytes)) fun l => { l with rxSeq := 9 }).rill.links[(3 : Fin 16)].rxFrame = some ((tFrame 1 false false 2 0 []).bytes)) ∧ ((tLink (tCame ((tFrame 1 false false 2 0 []).bytes)) fun l => { l with rxSeq := 9 }).active.rill.enable = true) ∧ ((tLink (tCame ((tFrame 1 false false 2 0 []).bytes)) fun l => { l with rxSeq := 9 }).sys.fw.recovery = false) ∧ (8 ≤ ((tFrame 1 false false 2 0 []).bytes).length) ∧ (((tFrame 1 false false 2 0 []).bytes).length ≤ 1040) ∧ (((tFrame 1 false false 2 0 []).bytes).length % 4 = 0) ∧ (crcGood ((tFrame 1 false false 2 0 []).bytes) = true) ∧ ((Frame.ofBytes ((tFrame 1 false false 2 0 []).bytes)).ftype ≠ 0) ∧ ((Frame.ofBytes ((tFrame 1 false false 2 0 []).bytes)).resync = false) ∧ ((Frame.ofBytes ((tFrame 1 false false 2 0 []).bytes)).lseq ≠ (tLink (tCame ((tFrame 1 false false 2 0 []).bytes)) fun l => { l with rxSeq := 9 }).rill.links[(3 : Fin 16)].rxSeq) := by decide

theorem witness_RillDelivers_5 :
    ((tCame (tFrame 1 false false 0 0 []).bytes).rill.links[(3 : Fin 16)].rxFrame = some ((tFrame 1 false false 0 0 []).bytes)) ∧ ((tCame (tFrame 1 false false 0 0 []).bytes).active.rill.enable = true) ∧ ((tCame (tFrame 1 false false 0 0 []).bytes).sys.fw.recovery = false) ∧ (8 ≤ ((tFrame 1 false false 0 0 []).bytes).length) ∧ (((tFrame 1 false false 0 0 []).bytes).length ≤ 1040) ∧ (((tFrame 1 false false 0 0 []).bytes).length % 4 = 0) ∧ (crcGood ((tFrame 1 false false 0 0 []).bytes) = true) ∧ ((Frame.ofBytes ((tFrame 1 false false 0 0 []).bytes)).ftype ≠ 0) ∧ ((Frame.ofBytes ((tFrame 1 false false 0 0 []).bytes)).resync = true ∨ (Frame.ofBytes ((tFrame 1 false false 0 0 []).bytes)).lseq = (tCame (tFrame 1 false false 0 0 []).bytes).rill.links[(3 : Fin 16)].rxSeq) ∧ ((Frame.ofBytes ((tFrame 1 false false 0 0 []).bytes)).badFormat ((tFrame 1 false false 0 0 []).bytes).length = true) := by decide

theorem witness_RillDelivers_6 :
    ((tCame ((tFrame 1 false false 2 0 []).bytes)).rill.links[(3 : Fin 16)].rxFrame = some ((tFrame 1 false false 2 0 []).bytes)) ∧ ((tCame ((tFrame 1 false false 2 0 []).bytes)).active.rill.enable = true) ∧ ((tCame ((tFrame 1 false false 2 0 []).bytes)).sys.fw.recovery = false) ∧ (8 ≤ ((tFrame 1 false false 2 0 []).bytes).length) ∧ (((tFrame 1 false false 2 0 []).bytes).length ≤ 1040) ∧ (((tFrame 1 false false 2 0 []).bytes).length % 4 = 0) ∧ (crcGood ((tFrame 1 false false 2 0 []).bytes) = true) ∧ ((Frame.ofBytes ((tFrame 1 false false 2 0 []).bytes)).ftype ≠ 0) ∧ ((Frame.ofBytes ((tFrame 1 false false 2 0 []).bytes)).resync = true ∨ (Frame.ofBytes ((tFrame 1 false false 2 0 []).bytes)).lseq = (tCame ((tFrame 1 false false 2 0 []).bytes)).rill.links[(3 : Fin 16)].rxSeq) ∧ ((Frame.ofBytes ((tFrame 1 false false 2 0 []).bytes)).badFormat ((tFrame 1 false false 2 0 []).bytes).length = false) := by decide

theorem witness_RillDelivers_7 :
    ((tLink tSent fun l => { l with ackIn := some (1, false) }).rill.links[(3 : Fin 16)].ackIn = some (1, false)) := by decide

theorem witness_RillDelivers_8 :
    ((tLink tSent fun l => { l with retries := 4 }).rill.links[(3 : Fin 16)].window.head? = some ((tFrame 1 false false 1 0 []), 0)) ∧ ((tLink tSent fun l => { l with retries := 4 }).rill.links[(3 : Fin 16)].lane ≠ none) ∧ ((tLink tSent fun l => { l with retries := 4 }).rill.links[(3 : Fin 16)].ackIn = none) ∧ ((tLink tSent fun l => { l with retries := 4 }).rill.links[(3 : Fin 16)].sendIdx ≠ 0) ∧ ((tLink tSent fun l => { l with retries := 4 }).rill.links[(3 : Fin 16)].resend = false) ∧ ((tLink tSent fun l => { l with retries := 4 }).rill.links[(3 : Fin 16)].busyAt = none) ∧ (((tLink tSent fun l => { l with retries := 4 }).advanceTo (msec 2)).pastCore (0 + ((tLink tSent fun l => { l with retries := 4 }).advanceTo (msec 2)).ackTime (3 : Fin 16)) = true) ∧ ((tLink tSent fun l => { l with retries := 4 }).active.rill.maxRetries ≤ (tLink tSent fun l => { l with retries := 4 }).rill.links[(3 : Fin 16)].retries) := by decide

theorem witness_RillDelivers_9 :
    (tSent.rill.links[(3 : Fin 16)].window.head? = some ((tFrame 1 false false 1 0 []), 0)) ∧ (tSent.rill.links[(3 : Fin 16)].lane ≠ none) ∧ (tSent.rill.links[(3 : Fin 16)].ackIn = none) ∧ (tSent.rill.links[(3 : Fin 16)].sendIdx ≠ 0) ∧ (tSent.rill.links[(3 : Fin 16)].resend = false) ∧ (tSent.rill.links[(3 : Fin 16)].busyAt = none) ∧ ((tSent.advanceTo (msec 2)).pastCore (0 + (tSent.advanceTo (msec 2)).ackTime (3 : Fin 16)) = true) ∧ (tSent.rill.links[(3 : Fin 16)].retries < tSent.active.rill.maxRetries) := by decide

theorem witness_RillDelivers_10 :
    ((tLink tSent fun l => { l with busyAt := some 0 }).rill.links[(3 : Fin 16)].busyAt = some 0) ∧ (0 + usec 20 ≤ max (tLink tSent fun l => { l with busyAt := some 0 }).now (usec 20)) := by decide

theorem witness_RillDelivers_11 :
    ((tLink tSent fun l => { l with busySince := some 0 }).rill.links[(3 : Fin 16)].ackIn = none) ∧ ((tLink tSent fun l => { l with busySince := some 0 }).rill.links[(3 : Fin 16)].busySince = some 0) ∧ (((tLink tSent fun l => { l with busySince := some 0 }).advanceTo (msec 11)).pastCore (0 + msec 10) = true) := by decide

theorem witness_RillDelivers_12 :
    (tRun.rill.links[(3 : Fin 16)].lane = none) ∧ ((tRun.advanceTo (msec 11)).pastCore (tRun.rill.links[(3 : Fin 16)].downSince + msec 10) = true) := by decide

theorem witness_RillCommands_1 :
    met (tRun) 5 .q0 0x5000 false (leBytes 4 2) (fun _ e s => decide (e.len = 4 ∧ bits (e.w 0) 0 2 ≠ 3 ∧ rsvHigh (e.w 0) 4 = true ∧ (s.sys.optionW && decide (bits (e.w 0) 0 2 = 2)) = false)) = true := by decide

theorem witness_RillCommands_2 :
    met (tRun) 5 .q0 0x5001 true [] (fun _ e _ => decide (e.len = 0)) = true := by decide

theorem witness_RillCommands_3 :
    met (tRun) 5 .q0 0x5050 false (leBytes 4 1) (fun _ e _ => decide (e.len = 4 ∧ rsv (e.w 0) 1 7 = true ∧ rsvHigh (e.w 0) 19 = true)) = true := by decide

theorem witness_RillCommands_4 :
    met (expertOpen tRun) 5 .q0 0x5850 false (leBytes 4 0x40001 ++ leBytes 4 50) (fun _ e _ => decide (e.len = 8 ∧ rsv (e.w 0) 1 7 = true ∧ rsvHigh (e.w 0) 19 = true ∧ rsvHigh (e.w 1) 16 = true ∧ bits (e.w 0) 16 3 ≤ 4 ∧ 20 ≤ bits (e.w 1) 0 16 ∧ bits (e.w 1) 0 16 ≤ 1000)) = true := by decide

theorem witness_RillCommands_5 :
    met (tManager) 5 .q0 0x5010 false (leBytes 4 9) (fun _ e s => decide (e.len = 4 ∧ 1 ≤ bits (e.w 0) 0 3 ∧ bits (e.w 0) 0 3 ≤ 6 ∧ rsvHigh (e.w 0) 4 = true ∧ s.rill.discovery = none ∧ s.isManager = true)) = true := by decide

theorem witness_RillCommands_6 :
    met (tManager) 5 .q0 0x5011 false (leBytes 4 0x10006 ++ leBytes 4 3) (fun _ e s => decide (e.len = 8 ∧ rsv (e.w 0) 12 4 = true ∧ rsvHigh (e.w 0) 19 = true ∧ rsvHigh (e.w 1) 24 = true ∧ 1 ≤ bits (e.w 0) 16 3 ∧ bits (e.w 0) 16 3 ≤ 6 ∧ (s.rill.table.any fun w => decide (w.id = some (bits (e.w 0) 0 12) ∧ some w.serial ≠ s.serialOf (bits (e.w 0) 16 3) (bits (e.w 1) 0 24))) = false ∧ s.isManager = true ∧ s.canonical (hopPort (bits (e.w 1) 0 24) 1) = some (3 : Fin 16))) = true := by decide

theorem witness_RillCommands_7 :
    met (tManager) 5 .q0 0x5011 false (leBytes 4 0x10007 ++ leBytes 4 0) (fun _ e s => decide (e.len = 8 ∧ rsv (e.w 0) 12 4 = true ∧ rsvHigh (e.w 0) 19 = true ∧ rsvHigh (e.w 1) 24 = true ∧ 1 ≤ bits (e.w 0) 16 3 ∧ bits (e.w 0) 16 3 ≤ 6 ∧ (s.rill.table.any fun w => decide (w.id = some (bits (e.w 0) 0 12) ∧ some w.serial ≠ s.serialOf (bits (e.w 0) 16 3) (bits (e.w 1) 0 24))) = false ∧ s.isManager = true ∧ s.canonical (hopPort (bits (e.w 1) 0 24) 1) = none)) = true := by decide

theorem witness_RillCommands_8 :
    met (tManager) 5 .q0 0x5012 true (leBytes 4 0) (fun _ e _ => decide (e.len = 4 ∧ rsvHigh (e.w 0) 12 = true)) = true := by decide

theorem witness_RillCommands_9 :
    met (tManager) 5 .q0 0x5020 false (leBytes 4 0x640006 ++ leBytes 4 0 ++ Cmd.bytes 0 (tCmd 0x1003 [])) (fun _ e s => decide (20 ≤ e.len ∧ e.len ≤ 1024 ∧ e.len % 4 = 0 ∧ 1 ≤ bits (e.w 0) 16 16 ∧ bits (e.w 0) 16 16 ≤ 60000 ∧ rsvHigh (e.w 1) 24 = true ∧ innerGood (e.cmd.payload.drop 8) = true ∧ (bit (e.w 0) 12 = true → 1 ≤ bits (e.w 0) 13 3 ∧ bits (e.w 0) 13 3 ≤ 6) ∧ s.isManager = true ∧ s.tunnelTo e = some (1, 3, 6, true) ∧ s.canonical (hopPort 3 1) = some (3 : Fin 16))) = true := by decide

theorem witness_RillCommands_10 :
    met (tDiscovering) 5 .q0 0x5010 false (leBytes 4 9) (fun _ e s => decide (e.len = 4 ∧ 1 ≤ bits (e.w 0) 0 3 ∧ bits (e.w 0) 0 3 ≤ 6 ∧ rsvHigh (e.w 0) 4 = true ∧ s.rill.discovery ≠ none)) = true := by decide

theorem witness_RillCommands_11 :
    met (tRun) 5 .q0 0x5010 false (leBytes 4 9) (fun _ e s => decide (e.len = 4 ∧ 1 ≤ bits (e.w 0) 0 3 ∧ bits (e.w 0) 0 3 ≤ 6 ∧ rsvHigh (e.w 0) 4 = true ∧ s.rill.discovery = none ∧ s.isManager = false)) = true := by decide

theorem witness_RillCommands_12 :
    met (tManager) 5 .q0 0x5011 false (leBytes 4 0x10006 ++ leBytes 4 4) (fun _ e s => decide (e.len = 8 ∧ rsv (e.w 0) 12 4 = true ∧ rsvHigh (e.w 0) 19 = true ∧ rsvHigh (e.w 1) 24 = true ∧ 1 ≤ bits (e.w 0) 16 3 ∧ bits (e.w 0) 16 3 ≤ 6 ∧ (s.rill.table.any fun w => decide (w.id = some (bits (e.w 0) 0 12) ∧ some w.serial ≠ s.serialOf (bits (e.w 0) 16 3) (bits (e.w 1) 0 24))) = true)) = true := by decide

theorem witness_RillCommands_13 :
    met (tRun) 5 .q0 0x5011 false (leBytes 4 0x10006 ++ leBytes 4 3) (fun _ e s => decide (e.len = 8 ∧ rsv (e.w 0) 12 4 = true ∧ rsvHigh (e.w 0) 19 = true ∧ rsvHigh (e.w 1) 24 = true ∧ 1 ≤ bits (e.w 0) 16 3 ∧ bits (e.w 0) 16 3 ≤ 6 ∧ (s.rill.table.any fun w => decide (w.id = some (bits (e.w 0) 0 12) ∧ some w.serial ≠ s.serialOf (bits (e.w 0) 16 3) (bits (e.w 1) 0 24))) = false ∧ s.isManager = false)) = true := by decide

theorem witness_RillCommands_14 :
    met (tRun) 5 .q0 0x5020 false (leBytes 4 0x640006 ++ leBytes 4 0 ++ Cmd.bytes 0 (tCmd 0x1003 [])) (fun _ e s => decide (20 ≤ e.len ∧ e.len ≤ 1024 ∧ e.len % 4 = 0 ∧ 1 ≤ bits (e.w 0) 16 16 ∧ bits (e.w 0) 16 16 ≤ 60000 ∧ rsvHigh (e.w 1) 24 = true ∧ innerGood (e.cmd.payload.drop 8) = true ∧ (bit (e.w 0) 12 = true → 1 ≤ bits (e.w 0) 13 3 ∧ bits (e.w 0) 13 3 ≤ 6) ∧ s.isManager = false)) = true := by decide

theorem witness_RillCommands_15 :
    met (tManager) 5 .q0 0x5020 false (leBytes 4 0x640007 ++ leBytes 4 0 ++ Cmd.bytes 0 (tCmd 0x1003 [])) (fun _ e s => decide (20 ≤ e.len ∧ e.len ≤ 1024 ∧ e.len % 4 = 0 ∧ 1 ≤ bits (e.w 0) 16 16 ∧ bits (e.w 0) 16 16 ≤ 60000 ∧ rsvHigh (e.w 1) 24 = true ∧ innerGood (e.cmd.payload.drop 8) = true ∧ (bit (e.w 0) 12 = true → 1 ≤ bits (e.w 0) 13 3 ∧ bits (e.w 0) 13 3 ≤ 6) ∧ s.isManager = true ∧ s.tunnelTo e = none)) = true := by decide

theorem witness_RillCommands_16 :
    met (tManager) 5 .q0 0x5020 false (leBytes 4 0x643000 ++ leBytes 4 7 ++ Cmd.bytes 0 (tCmd 0x1003 [])) (fun _ e s => decide (20 ≤ e.len ∧ e.len ≤ 1024 ∧ e.len % 4 = 0 ∧ 1 ≤ bits (e.w 0) 16 16 ∧ bits (e.w 0) 16 16 ≤ 60000 ∧ rsvHigh (e.w 1) 24 = true ∧ innerGood (e.cmd.payload.drop 8) = true ∧ (bit (e.w 0) 12 = true → 1 ≤ bits (e.w 0) 13 3 ∧ bits (e.w 0) 13 3 ≤ 6) ∧ s.isManager = true ∧ s.tunnelTo e = some (1, 7, 0, false) ∧ s.canonical (hopPort 7 1) = none)) = true := by decide

theorem witness_EpochCommands_1 :
    met (tManager) 5 .q0 0x5030 false (leBytes 4 0x10001 ++ leBytes 4 0 ++ leBytes 4 0x700 ++ leBytes 8 0) (fun _ e s => decide (e.len = e.stagePacket + 4 * ceilDiv (bits (e.w 1) 0 16) 4 ∧ 1 ≤ bits (e.w 0) 0 16 ∧ 1 ≤ bits (e.w 0) 16 16 ∧ bits (e.w 0) 16 16 ≤ 128 ∧ (bits (e.w 1) 0 16 = 0 ∨ (12 ≤ bits (e.w 1) 0 16 ∧ bits (e.w 1) 0 16 ≤ 512)) ∧ rsvHigh (e.w 1) 16 = true ∧ blockIdsOk e.cmd.payload 8 (bits (e.w 0) 16 16) = true ∧ setOk e.cmd.payload e.stageSet = true ∧ s.stageRoom (bits (e.w 0) 0 16) = some ([] : List EpochRecord) ∧ s.isManager = true)) = true := by decide

theorem witness_EpochCommands_2 :
    met (tEpoch tRecord) 5 .q0 0x5031 false (leBytes 4 1 ++ leBytes 4 0 ++ leBytes 4 0x3E90000 ++ leBytes 4 0) (fun _ e s => decide (e.time 1 = some (1001 * 65536000000000) ∧ e.len = 16 ∧ rsvHigh (e.w 0) 16 = true ∧ (1001 * 65536000000000) ≤ s.fnow + secs 86400 ∧ s.isManager = true ∧ s.epoch (bits (e.w 0) 0 16) = some tRecord ∧ s.fnow + msec 1 ≤ (1001 * 65536000000000) ∧ tRecord.awaited 2 ≠ [])) = true := by decide

theorem witness_EpochCommands_3 :
    met (tEpoch tRecord) 5 .q0 0x5032 true (leBytes 4 1) (fun _ e s => decide (e.len = 4 ∧ rsvHigh (e.w 0) 16 = true ∧ s.isManager = true ∧ s.epoch (bits (e.w 0) 0 16) = some tRecord)) = true := by decide

theorem witness_EpochCommands_4 :
    met (tEpoch { tRecord with time := some 5 }) 5 .q0 0x5033 false (leBytes 4 1 ++ leBytes 4 0 ++ leBytes 4 0x3E90000 ++ leBytes 4 0) (fun _ e s => decide (e.time 1 = some (1001 * 65536000000000) ∧ e.len = 16 ∧ rsvHigh (e.w 0) 16 = true ∧ s.isManager = true ∧ s.epoch (bits (e.w 0) 0 16) = some { tRecord with time := some 5 } ∧ { tRecord with time := some 5 }.time ≠ none ∧ s.tAhead { tRecord with time := some 5 } = false ∧ s.fnow + msec 1 ≤ (1001 * 65536000000000))) = true := by decide

theorem witness_EpochCommands_5 :
    met (tEpoch tRecord) 5 .q0 0x5034 true (leBytes 4 1) (fun _ e s => decide (e.len = 4 ∧ rsvHigh (e.w 0) 29 = true ∧ s.isManager = true ∧ s.epoch (bits (e.w 0) 0 16) = some tRecord ∧ bit (e.w 0) 28 = false)) = true := by decide

theorem witness_EpochCommands_6 :
    met (tEpoch tRecord) 5 .q0 0x5034 true (leBytes 4 0x10000001) (fun _ e s => decide (e.len = 4 ∧ rsvHigh (e.w 0) 29 = true ∧ s.isManager = true ∧ s.epoch (bits (e.w 0) 0 16) = some tRecord ∧ bit (e.w 0) 28 = true)) = true := by decide

theorem witness_EpochCommands_7 :
    ((tEpoch tRecord).epoch 1 = some tRecord) := by decide

theorem witness_EpochCommands_8 :
    ((tEpoch tRecord).epoch 1 = some tRecord) := by decide

theorem witness_EpochCommands_9 :
    ((tEpoch { tRecord with owe := true, time := some 5 }).epoch 1 = some { tRecord with owe := true, time := some 5 }) := by decide

theorem witness_EpochCommands_10 :
    ((tStaged 3).workerEpoch 1 = some { noRecord 1 with outcome := 3, commit := some 0 }) ∧ ({ noRecord 1 with outcome := 3, commit := some 0 }.commit.bind (tStaged 3).commitOf = some tStagedCommit) ∧ (((tStaged 3).advanceTo 3).beforeTc tStagedCommit = false) := by decide

theorem witness_EpochCommands_11 :
    ((tStaged 1).workerEpoch 1 = some { noRecord 1 with outcome := 1, commit := some 0 }) ∧ ({ noRecord 1 with outcome := 1, commit := some 0 }.outcome = 1) ∧ (((tStaged 1).advanceTo (secs 11)).pastMgmt ({ noRecord 1 with outcome := 1, commit := some 0 }.readyAt + secs 10) = true) := by decide

theorem witness_EpochCommands_12 :
    met (tImage) 5 .q0 0x5040 false (leBytes 4 0 ++ leBytes 8 0) (fun _ e s => decide (e.len = 4 + setLen (bits (fieldAt e.cmd.payload 4 4) 0 2) ∧ rsvHigh (e.w 0) 1 = true ∧ setOk e.cmd.payload 4 = true ∧ bits (e.w 0) 0 1 = (0 : Fin 2).val ∧ (s.imageBytes (fwSlot (0 : Fin 2))).length ≤ 4194304 ∧ s.rill.fw = none ∧ s.isManager = true ∧ s.sys.fw.slots[fwSlot (0 : Fin 2)].verified = true)) = true := by decide

theorem witness_EpochCommands_13 :
    (tCast.rill.fw = some { seq := 0, slot := 0, bytes := [], selecting := [(6, 0)] }) := by decide

theorem witness_EpochCommands_14 :
    ((tOver.advanceTo (secs 31)).head QId.q0 = some tOverEntry) ∧ ((tOver.advanceTo (secs 31)).limitOf tOverEntry = some (secs 30)) ∧ (tOverEntry.phase = .running) ∧ ((tOver.advanceTo (secs 31)).pastCmd (tOverEntry.acceptedAt + (secs 30)) = true) := by decide

theorem witness_EpochCommands_15 :
    (tOverEntry.cmd.op ≠ 0x1011) ∧ (tOverEntry.cmd.op ≠ 0x5011) := by decide

theorem witness_EpochCommands_16 :
    met ({ tManager with rill := { tManager.rill with epochs := List.replicate 4 { tRecord with id := 9, time := some 99999999999999999 } } }) 5 .q0 0x5030 false (leBytes 4 0x10001 ++ leBytes 4 0 ++ leBytes 4 0x700 ++ leBytes 8 0) (fun _ e s => decide (e.len = e.stagePacket + 4 * ceilDiv (bits (e.w 1) 0 16) 4 ∧ 1 ≤ bits (e.w 0) 0 16 ∧ 1 ≤ bits (e.w 0) 16 16 ∧ bits (e.w 0) 16 16 ≤ 128 ∧ (bits (e.w 1) 0 16 = 0 ∨ (12 ≤ bits (e.w 1) 0 16 ∧ bits (e.w 1) 0 16 ≤ 512)) ∧ rsvHigh (e.w 1) 16 = true ∧ blockIdsOk e.cmd.payload 8 (bits (e.w 0) 16 16) = true ∧ setOk e.cmd.payload e.stageSet = true ∧ s.stageRoom (bits (e.w 0) 0 16) = none ∧ s.isManager = true)) = true := by decide

theorem witness_EpochCommands_17 :
    met (tRun) 5 .q0 0x5030 false (leBytes 4 0x10001 ++ leBytes 4 0 ++ leBytes 4 0x700 ++ leBytes 8 0) (fun _ e s => decide (e.len = e.stagePacket + 4 * ceilDiv (bits (e.w 1) 0 16) 4 ∧ 1 ≤ bits (e.w 0) 0 16 ∧ 1 ≤ bits (e.w 0) 16 16 ∧ bits (e.w 0) 16 16 ≤ 128 ∧ (bits (e.w 1) 0 16 = 0 ∨ (12 ≤ bits (e.w 1) 0 16 ∧ bits (e.w 1) 0 16 ≤ 512)) ∧ rsvHigh (e.w 1) 16 = true ∧ blockIdsOk e.cmd.payload 8 (bits (e.w 0) 16 16) = true ∧ setOk e.cmd.payload e.stageSet = true ∧ s.isManager = false)) = true := by decide

theorem witness_EpochCommands_18 :
    met (tManager) 5 .q0 0x5031 false (leBytes 4 1 ++ leBytes 4 0 ++ leBytes 4 0x3E90000 ++ leBytes 4 0) (fun _ e s => decide (e.time 1 = some (1001 * 65536000000000) ∧ e.len = 16 ∧ rsvHigh (e.w 0) 16 = true ∧ (1001 * 65536000000000) ≤ s.fnow + secs 86400 ∧ (s.isManager = false ∨ s.epoch (bits (e.w 0) 0 16) = none ∨ (1001 * 65536000000000) < s.fnow + msec 1))) = true := by decide

theorem witness_EpochCommands_19 :
    met (tEpoch { tRecord with outcomes := [] }) 5 .q0 0x5031 false (leBytes 4 1 ++ leBytes 4 0 ++ leBytes 4 0x3E90000 ++ leBytes 4 0) (fun _ e s => decide (e.time 1 = some (1001 * 65536000000000) ∧ e.len = 16 ∧ rsvHigh (e.w 0) 16 = true ∧ (1001 * 65536000000000) ≤ s.fnow + secs 86400 ∧ s.isManager = true ∧ s.epoch (bits (e.w 0) 0 16) = some { tRecord with outcomes := [] } ∧ s.fnow + msec 1 ≤ (1001 * 65536000000000) ∧ { tRecord with outcomes := [] }.awaited 2 = [])) = true := by decide

theorem witness_EpochCommands_20 :
    met (tManager) 5 .q0 0x5032 true (leBytes 4 1) (fun _ e s => decide (e.len = 4 ∧ rsvHigh (e.w 0) 16 = true ∧ (s.isManager = false ∨ s.epoch (bits (e.w 0) 0 16) = none))) = true := by decide

theorem witness_EpochCommands_21 :
    met (tManager) 5 .q0 0x5033 false (leBytes 4 1 ++ leBytes 4 0 ++ leBytes 4 0x3E90000 ++ leBytes 4 0) (fun _ e s => decide (e.time 1 = some (1001 * 65536000000000) ∧ e.len = 16 ∧ rsvHigh (e.w 0) 16 = true ∧ (s.isManager = false ∨ s.epoch (bits (e.w 0) 0 16) = none))) = true := by decide

theorem witness_EpochCommands_22 :
    met (tEpoch tRecord) 5 .q0 0x5033 false (leBytes 4 1 ++ leBytes 4 0 ++ leBytes 4 0x3E90000 ++ leBytes 4 0) (fun _ e s => decide (e.time 1 = some (1001 * 65536000000000) ∧ e.len = 16 ∧ rsvHigh (e.w 0) 16 = true ∧ s.epoch (bits (e.w 0) 0 16) = some tRecord ∧ (tRecord.time = none ∨ s.tAhead tRecord = true ∨ (1001 * 65536000000000) < s.fnow + msec 1))) = true := by decide

theorem witness_EpochCommands_23 :
    met (tManager) 5 .q0 0x5034 true (leBytes 4 1) (fun _ e s => decide (e.len = 4 ∧ rsvHigh (e.w 0) 29 = true ∧ (s.isManager = false ∨ s.epoch (bits (e.w 0) 0 16) = none))) = true := by decide

theorem witness_EpochCommands_24 :
    met ({ tImage with rill := tCast.rill }) 5 .q0 0x5040 false (leBytes 4 0 ++ leBytes 8 0) (fun _ e s => decide (e.len = 4 + setLen (bits (fieldAt e.cmd.payload 4 4) 0 2) ∧ rsvHigh (e.w 0) 1 = true ∧ setOk e.cmd.payload 4 = true ∧ bits (e.w 0) 0 1 = (0 : Fin 2).val ∧ (s.imageBytes (fwSlot (0 : Fin 2))).length ≤ 4194304 ∧ s.rill.fw ≠ none)) = true := by decide

theorem witness_EpochCommands_25 :
    met ((tImage.modFw fun f => f.modSlot 0 fun x => { x with verified := false })) 5 .q0 0x5040 false (leBytes 4 0 ++ leBytes 8 0) (fun _ e s => decide (e.len = 4 + setLen (bits (fieldAt e.cmd.payload 4 4) 0 2) ∧ rsvHigh (e.w 0) 1 = true ∧ setOk e.cmd.payload 4 = true ∧ bits (e.w 0) 0 1 = (0 : Fin 2).val ∧ (s.imageBytes (fwSlot (0 : Fin 2))).length ≤ 4194304 ∧ s.rill.fw = none ∧ (s.isManager = false ∨ s.sys.fw.slots[fwSlot (0 : Fin 2)].verified = false))) = true := by decide

theorem witness_AcquisitionSettings_1 :
    met (tRun) 5 .q0 0x6010 false (leBytes 4 0xF1001) (fun _ e s => decide (e.len = 4 ∧ rsv (e.w 0) 3 5 = true ∧ rsv (e.w 0) 21 3 = true ∧ sourceOk (bits (e.w 0) 8 8) = true ∧ (bits (e.w 0) 16 4 < 4 ∨ bits (e.w 0) 16 4 = 0xF) ∧ (bit (e.w 0) 20 && s.sys.optionW) = false ∧ gaugeSelOk (bits (e.w 0) 24 8) = true)) = true := by decide

theorem witness_AcquisitionSettings_2 :
    met tRun 5 .q0 0x6011 false (leBytes 4 0x1001 ++ leBytes 4 100000 ++ leBytes 4 0) (fun _ e _ => decide (e.len = 12 ∧ rsv (e.w 0) 2 6 = true ∧ rsvHigh (e.w 0) 16 = true ∧ e.w 2 = 0 ∧ e.w 1 = 100000 ∧ bits (e.w 0) 8 8 = 0x10 ∧ decimable (bits (e.w 0) 8 8) = true)) = true ∧ outRateOk (tRun.sourceRate 0x10) 100000 = true := ⟨by decide, by
  have h : tRun.sourceRate 0x10 = 450439453125 / 2 := rfl
  rw [h]; simp only [outRateOk, Bool.and_eq_true, decide_eq_true_eq]; norm_num⟩

theorem witness_AcquisitionSettings_3 :
    met (expertOpen tRun) 5 .q0 0x6811 false (leBytes 4 0x30001 ++ leBytes 4 0 ++ leBytes 4 0x80000000) (fun _ e _ => decide (e.len = 12 ∧ rsv (e.w 0) 2 14 = true ∧ rsvHigh (e.w 0) 20 = true ∧ bits (e.w 0) 16 4 ≤ 12 ∧ e.w 1 = 0 ∧ 0x80000000 ≤ e.w 2)) = true := by decide

theorem witness_AcquisitionSettings_4 :
    met (tRun) 5 .q0 0x6012 false (leBytes 4 0x1000001) (fun _ e s => decide (e.len = 4 ∧ rsv (e.w 0) 2 22 = true ∧ rsvHigh (e.w 0) 27 = true ∧ bits (e.w 0) 24 3 ≤ 2 ∧ s.decimRunning e.four = false)) = true := by decide

theorem witness_AcquisitionSettings_5 :
    met (tSampling) 5 .q0 0x6012 false (leBytes 4 0x1000001) (fun _ e s => decide (e.len = 4 ∧ rsv (e.w 0) 2 22 = true ∧ rsvHigh (e.w 0) 27 = true ∧ bits (e.w 0) 24 3 ≤ 2 ∧ s.decimRunning e.four = true)) = true := by decide

theorem witness_AcquisitionSettings_6 :
    met (expertOpen tRun) 5 .q0 0x6812 false (leBytes 4 0x20051 ++ leBytes 4 7 ++ leBytes 4 9) (fun _ e s => decide (e.len = 4 + 4 * bits (e.w 0) 16 8 ∧ rsv (e.w 0) 2 2 = true ∧ rsvHigh (e.w 0) 24 = true ∧ bits (e.w 0) 4 12 < 3072 ∧ 1 ≤ bits (e.w 0) 16 8 ∧ bits (e.w 0) 4 12 + bits (e.w 0) 16 8 ≤ 3072 ∧ ((List.range (bits (e.w 0) 16 8)).all fun i => rsvHigh (e.w (1 + i)) 18) = true ∧ s.decimRunning e.four = false)) = true := by decide

theorem witness_AcquisitionSettings_7 :
    met (tRun) 5 .q0 0x6013 false (leBytes 4 0x101 ++ leBytes 4 2) (fun _ e _ => decide (e.len = 8 ∧ rsv (e.w 0) 3 5 = true ∧ rsvHigh (e.w 0) 9 = true ∧ rsvHigh (e.w 1) 25 = true ∧ 2 ≤ bits (e.w 1) 0 25 ∧ bits (e.w 1) 0 25 ≤ 16777216)) = true := by decide

theorem witness_AcquisitionSettings_8 :
    met (tRun) 5 .q0 0x6020 false (leBytes 4 0x11001 ++ leBytes 4 0 ++ leBytes 20 0) (fun _ e s => decide (e.len = 28 ∧ trigWordsOk s e = true ∧ 512 = (if s.shadow.pinned .weir 0x6820 (128 + 2 * e.four.val) = true then s.shadow.weir.units[e.four].hyst else basicHyst s.shadow (bits (e.w 0) 8 8)) ∧ trigOk (trigOf e { s.shadow.weir.units[e.four] with hyst := 512 }) = true)) = true := by decide

theorem witness_AcquisitionSettings_9 :
    met (expertOpen tRun) 5 .q0 0x6820 false (leBytes 4 0x11001 ++ leBytes 4 0 ++ leBytes 20 5) (fun _ e s => decide (e.len = 28 ∧ trigWordsOk s e = true ∧ trigOk (trigOf e { s.shadow.weir.units[e.four] with hyst := bits (e.w 2) 0 16 }) = true)) = true := by decide

theorem witness_AcquisitionSettings_10 :
    met (tRun) 5 .q0 0x6021 false (leBytes 4 0x110 ++ leBytes 4 1000 ++ leBytes 4 3) (fun _ e s => decide (e.len = 12 ∧ rsv (e.w 0) 1 3 = true ∧ rsvHigh (e.w 0) 17 = true ∧ rsvHigh (e.w 1) 20 = true ∧ rsvHigh (e.w 2) 16 = true ∧ 1 ≤ bits (e.w 1) 0 20 ∧ bits (e.w 1) 0 20 ≤ 1000000 ∧ (s.sys.optionW && decide (bits (e.w 0) 6 2 ≠ 0)) = false)) = true := by decide

theorem witness_AcquisitionSettings_11 :
    met (tRun) 5 .q0 0x6022 false (leBytes 4 0x101 ++ leBytes 4 10 ++ leBytes 4 20) (fun _ e _ => decide (e.len = 12 ∧ rsv (e.w 0) 3 5 = true ∧ rsvHigh (e.w 0) 9 = true ∧ rsvHigh (e.w 1) 28 = true ∧ rsvHigh (e.w 2) 28 = true ∧ 1 ≤ e.w 2)) = true := by decide

theorem witness_RecordsTaken_1 :
    met (tToArm) 5 .q0 0x6030 false [] (fun _ e s => decide (e.len = 0 ∧ s.armBusy s.shadow = none ∧ s.armFault s.shadow = none ∧ (s.loads s.shadow).1 ≤ 256000000000 ∧ (s.loads s.shadow).2.1 ≤ 64000000000 ∧ (s.loads s.shadow).2.2 ≤ 25000000000)) = true := by decide

theorem witness_RecordsTaken_2 :
    met (tArmBusy) 5 .q0 0x6030 false [] (fun _ e s => decide (e.len = 0 ∧ s.armBusy s.shadow = some 0)) = true := by decide

theorem witness_RecordsTaken_3 :
    met (tRun) 5 .q0 0x6030 false [] (fun _ e s => decide (e.len = 0 ∧ s.armBusy s.shadow = none ∧ s.armFault s.shadow = some (0x16, 0xFF))) = true := by decide

theorem witness_RecordsTaken_4 :
    met tTooFast 5 .q0 0x6030 false [] (fun _ e s => decide (e.len = 0 ∧ s.armBusy s.shadow = none ∧ s.armFault s.shadow = none ∧ 256000000000 < (s.loads s.shadow).1)) = true := by decide +kernel

theorem witness_RecordsTaken_5 :
    met (tRun) 5 .q0 0x6031 false [] (fun _ e s => decide (e.len = 0 ∧ s.isArmed = false)) = true := by decide

theorem witness_RecordsTaken_6 :
    met (tPost) 5 .q0 0x6031 false [] (fun _ e s => decide (e.len = 0 ∧ s.isArmed = true)) = true := by decide

theorem witness_RecordsTaken_7 :
    met (tSampling) 5 .q0 0x6032 false [] (fun _ e s => decide (e.len = 0 ∧ s.isArmed = true)) = true := by decide

theorem witness_RecordsTaken_8 :
    met (tRun) 5 .q0 0x6032 false [] (fun _ e s => decide (e.len = 0 ∧ s.isArmed = false)) = true := by decide

theorem witness_RecordsTaken_9 :
    met (tRun) 5 .q0 0x6033 false (leBytes 8 0 ++ leBytes 4 8) (fun _ e s => decide (e.len = 12 ∧ rsvHigh (e.w 0) 17 = true ∧ 1 ≤ e.w 2 ∧ e.w 2 ≤ 1008 ∧ (s.acq.records.find? fun x => decide (x.index = bits (e.w 0) 0 16)) = none)) = true := by decide

theorem witness_RecordsTaken_10 :
    met (({ tRun with acq := { tRun.acq with records := [tRecordOf] } } : State)) 5 .q0 0x6033 false (leBytes 4 0 ++ leBytes 4 32 ++ leBytes 4 8) (fun _ e s => decide (e.len = 12 ∧ rsvHigh (e.w 0) 17 = true ∧ 1 ≤ e.w 2 ∧ e.w 2 ≤ 1008 ∧ (s.acq.records.find? fun x => decide (x.index = bits (e.w 0) 0 16)) = some tRecordOf ∧ tRecordOf.image.length ≤ e.w 1)) = true := by decide

theorem witness_RecordsTaken_11 :
    met (({ tRun with acq := { tRun.acq with records := [tRecordOf] } } : State)) 5 .q0 0x6033 false (leBytes 4 0 ++ leBytes 4 4 ++ leBytes 4 8) (fun _ e s => decide (e.len = 12 ∧ rsvHigh (e.w 0) 17 = true ∧ 1 ≤ e.w 2 ∧ e.w 2 ≤ 1008 ∧ (s.acq.records.find? fun x => decide (x.index = bits (e.w 0) 0 16)) = some tRecordOf ∧ e.w 1 < tRecordOf.image.length)) = true := by decide

theorem witness_RecordsTaken_12 :
    met (tRun) 5 .q0 0x6000 true [] (fun _ e _ => decide (e.len = 0)) = true := by decide

theorem witness_RecordsTaken_13 :
    ((tWatching.advanceTo 3).isArmed = true) ∧ ((tWatching.advanceTo 3).active.weir.units[(0 : Fin 4)].cond ≠ 0) ∧ ((tWatching.advanceTo 3).onIslandClock 49 = true) := by decide

theorem witness_RecordsTaken_14 :
    ((tWatching.advanceTo 3).isArmed = true) ∧ ((tWatching.advanceTo 3).active.weir.units[(0 : Fin 4)].cond = 4) ∧ ((tWatching.advanceTo 3).acq.units[(0 : Fin 4)].rise = some 5) ∧ ((5 + (tWatching.advanceTo 3).active.weir.units[(0 : Fin 4)].t1) / 65536 < (tWatching.advanceTo 3).fnow / 65536) ∧ ((tWatching.advanceTo 3).carries (underlying (tWatching.advanceTo 3).active (tWatching.advanceTo 3).active.weir.units[(0 : Fin 4)].src).1 = true) := by decide

theorem witness_RecordsTaken_15 :
    ((tWatchingStopped.advanceTo 3).isArmed = true) ∧ ((tWatchingStopped.advanceTo 3).active.weir.units[(0 : Fin 4)].cond = 4) ∧ ((tWatchingStopped.advanceTo 3).acq.units[(0 : Fin 4)].rise = some 5) ∧ ((5 + (tWatchingStopped.advanceTo 3).active.weir.units[(0 : Fin 4)].t1) / 65536 < (tWatchingStopped.advanceTo 3).fnow / 65536) ∧ ((tWatchingStopped.advanceTo 3).carries (underlying (tWatchingStopped.advanceTo 3).active (tWatchingStopped.advanceTo 3).active.weir.units[(0 : Fin 4)].src).1 = false) := by decide

theorem witness_RecordsTaken_16 :
    ∃ f js, earliest tFired.acq.firings = some f ∧ tFired.isArmed = true ∧ f.stamp.time + nsec tFired.active.weir.delay ≤ (tFired.advanceTo 3).fnow ∧ f.forced = none ∧ (tFired.advanceTo 3).joins f = some js := ⟨tFiring, [tFiring], by decide, by decide, by decide, by decide, by decide⟩

theorem witness_RecordsTaken_17 :
    ∃ f, earliest tFiredAlone.acq.firings = some f ∧ tFiredAlone.isArmed = true ∧ f.stamp.time + nsec tFiredAlone.active.weir.delay ≤ (tFiredAlone.advanceTo 3).fnow ∧ f.forced = none ∧ (tFiredAlone.advanceTo 3).joins f = none := ⟨tFiring, by decide, by decide, by decide, by decide, by decide⟩

theorem witness_RecordsTaken_18 :
    ∃ f c, earliest tForced.acq.firings = some f ∧ tForced.isArmed = true ∧ f.stamp.time + nsec tForced.active.weir.delay ≤ (tForced.advanceTo 3).fnow ∧ f.forced = some c := ⟨{ tFiring with forced := some 7 }, 7, by decide, by decide, by decide, by decide⟩

theorem witness_RecordsTaken_19 :
    (((tPost.advanceTo 3).forEach ([] : List Captured) fun x u => u.saturate u.active.channel[x.channel].source x.samples).acq.cur = some tRecordOf) ∧ (((tPost.advanceTo 3).forEach ([] : List Captured) fun x u => u.saturate u.active.channel[x.channel].source x.samples).acq.disarming = none) ∧ (((recordChans ((tPost.advanceTo 3).forEach ([] : List Captured) fun x u => u.saturate u.active.channel[x.channel].source x.samples).active).map (((tPost.advanceTo 3).forEach ([] : List Captured) fun x u => u.saturate u.active.channel[x.channel].source x.samples).segment tRecordOf.stamp.time ([] : List Captured))).any (fun g => decide (g.postWritten < ((tPost.advanceTo 3).forEach ([] : List Captured) fun x u => u.saturate u.active.channel[x.channel].source x.samples).active.channel[g.channel].post)) = false) ∧ ((((tPost.advanceTo 3).forEach ([] : List Captured) fun x u => u.saturate u.active.channel[x.channel].source x.samples).active.weir.recordLimit = 0 ∨ ((tPost.advanceTo 3).forEach ([] : List Captured) fun x u => u.saturate u.active.channel[x.channel].source x.samples).acq.taken + 1 < ((tPost.advanceTo 3).forEach ([] : List Captured) fun x u => u.saturate u.active.channel[x.channel].source x.samples).active.weir.recordLimit)) := by decide

theorem witness_RecordsTaken_20 :
    ((((tLimit 1).advanceTo 3).forEach ([] : List Captured) fun x u => u.saturate u.active.channel[x.channel].source x.samples).acq.cur = some tRecordOf) ∧ ((((tLimit 1).advanceTo 3).forEach ([] : List Captured) fun x u => u.saturate u.active.channel[x.channel].source x.samples).acq.disarming = none) ∧ (((recordChans (((tLimit 1).advanceTo 3).forEach ([] : List Captured) fun x u => u.saturate u.active.channel[x.channel].source x.samples).active).map ((((tLimit 1).advanceTo 3).forEach ([] : List Captured) fun x u => u.saturate u.active.channel[x.channel].source x.samples).segment tRecordOf.stamp.time ([] : List Captured))).any (fun g => decide (g.postWritten < (((tLimit 1).advanceTo 3).forEach ([] : List Captured) fun x u => u.saturate u.active.channel[x.channel].source x.samples).active.channel[g.channel].post)) = false) ∧ ((((tLimit 1).advanceTo 3).forEach ([] : List Captured) fun x u => u.saturate u.active.channel[x.channel].source x.samples).active.weir.recordLimit ≠ 0) ∧ ((((tLimit 1).advanceTo 3).forEach ([] : List Captured) fun x u => u.saturate u.active.channel[x.channel].source x.samples).active.weir.recordLimit ≤ (((tLimit 1).advanceTo 3).forEach ([] : List Captured) fun x u => u.saturate u.active.channel[x.channel].source x.samples).acq.taken + 1) := by decide

theorem witness_RecordsTaken_21 :
    (((({ tPost with acq := { tPost.acq with disarming := some (1, []) } } : State).advanceTo 3).forEach ([] : List Captured) fun x u => u.saturate u.active.channel[x.channel].source x.samples).acq.cur = some tRecordOf) ∧ (((({ tPost with acq := { tPost.acq with disarming := some (1, []) } } : State).advanceTo 3).forEach ([] : List Captured) fun x u => u.saturate u.active.channel[x.channel].source x.samples).acq.disarming = some ((1, []) : Nat × List Nat)) := by decide

theorem witness_RecordsTaken_22 :
    (({ tRun with acq := { tRun.acq with state := .rearm } } : State).acq.state = .rearm) ∧ ((({ tRun with acq := { tRun.acq with state := .rearm } } : State).acq.records.any fun r => decide (r.slot = ({ tRun with acq := { tRun.acq with state := .rearm } } : State).acq.nextIndex % max ({ tRun with acq := { tRun.acq with state := .rearm } } : State).acq.nslots 1)) = false ∨ ({ tRun with acq := { tRun.acq with state := .rearm } } : State).active.weir.overwrite = true) := by decide

theorem witness_SpillwayPort_1 :
    met (tRun) 5 .q0 0x6040 false (leBytes 4 8 ++ leBytes 4 64) (fun _ e s => decide (s.sys.optionW = false ∧ e.len = 8 ∧ rsvHigh (e.w 0) 29 = true ∧ rsvHigh (e.w 1) 31 = true ∧ 1 ≤ bits (e.w 1) 0 30 ∧ bits (e.w 1) 0 30 ≤ 2 ^ 29 ∧ bits (e.w 0) 0 29 + bits (e.w 1) 0 30 ≤ 2 ^ 29)) = true := by decide

theorem witness_SpillwayPort_2 :
    met (tRing) 5 .q0 0x6041 false (leBytes 4 0x102) (fun _ e s => decide (s.sys.optionW = false ∧ e.len = 4 ∧ rsv (e.w 0) 2 6 = true ∧ rsvHigh (e.w 0) 9 = true ∧ s.acq.spw.state = .off ∧ s.shadow.spillway.size ≠ 0 ∧ s.acq.spw.fault = false ∧ s.sys.shedStage = 0 ∧ ((bits (e.w 0) 0 2 = 1 ∧ (s.loads s.shadow).2.2 ≤ 25000000000) ∨ (bits (e.w 0) 0 2 = 2 ∧ s.isArmed = false)))) = true := by decide

theorem witness_SpillwayPort_3 :
    met ((tSpw fun w => { w with fault := true })) 5 .q0 0x6041 false (leBytes 4 0x101) (fun _ e s => decide (s.sys.optionW = false ∧ e.len = 4 ∧ rsv (e.w 0) 2 6 = true ∧ rsvHigh (e.w 0) 9 = true ∧ (bits (e.w 0) 0 2 = 1 ∨ bits (e.w 0) 0 2 = 2) ∧ (s.acq.spw.state ≠ .off ∨ s.shadow.spillway.size = 0 ∨ s.acq.spw.fault = true ∨ 1 ≤ s.sys.shedStage ∨ (bits (e.w 0) 0 2 = 2 ∧ s.isArmed = true)))) = true := by decide

theorem witness_SpillwayPort_4 :
    met (tRun) 5 .q0 0x6042 false [] (fun _ e s => decide (s.sys.optionW = false ∧ e.len = 0 ∧ s.acq.spw.state = .off)) = true := by decide

theorem witness_SpillwayPort_5 :
    met ((tSpw fun w => { w with state := .starting })) 5 .q0 0x6042 false [] (fun _ e s => decide (s.sys.optionW = false ∧ e.len = 0 ∧ s.acq.spw.state = .starting)) = true := by decide

theorem witness_SpillwayPort_6 :
    met ((tSpw fun w => { w with state := .stream })) 5 .q0 0x6042 false [] (fun _ e s => decide (s.sys.optionW = false ∧ e.len = 0 ∧ s.acq.spw.state ≠ .off ∧ s.acq.spw.state ≠ .starting)) = true := by decide

theorem witness_SpillwayPort_7 :
    met (tRun) 5 .q0 0x6043 true [] (fun _ e s => decide (s.sys.optionW = false ∧ e.len = 0)) = true := by decide

theorem witness_SpillwayPort_8 :
    met (({ tRun with sys := { tRun.sys with optionW := true } } : State)) 5 .q0 0x6040 false (leBytes 8 0) (fun _ e s => decide (s.sys.optionW = true ∧ e.len = 8)) = true := by decide

theorem witness_SpillwayPort_9 :
    met (({ tRun with sys := { tRun.sys with optionW := true } } : State)) 5 .q0 0x6041 false (leBytes 4 0) (fun _ e s => decide (s.sys.optionW = true ∧ e.len = 4)) = true := by decide

theorem witness_SpillwayPort_10 :
    met (({ tRun with sys := { tRun.sys with optionW := true } } : State)) 5 .q0 0x6042 false (leBytes 0 0) (fun _ e s => decide (s.sys.optionW = true ∧ e.len = 0)) = true := by decide

theorem witness_SpillwayPort_11 :
    met (({ tRun with sys := { tRun.sys with optionW := true } } : State)) 5 .q0 0x6043 true (leBytes 0 0) (fun _ e s => decide (s.sys.optionW = true ∧ e.len = 0)) = true := by decide

theorem witness_SpillwayPort_12 :
    met tRingFast 5 .q0 0x6041 false (leBytes 4 0x101) (fun _ e s => decide (s.sys.optionW = false ∧ e.len = 4 ∧ rsv (e.w 0) 2 6 = true ∧ rsvHigh (e.w 0) 9 = true ∧ bits (e.w 0) 0 2 = 1 ∧ s.acq.spw.state = .off ∧ s.shadow.spillway.size ≠ 0 ∧ s.acq.spw.fault = false ∧ s.sys.shedStage = 0 ∧ 25000000000 < (s.loads s.shadow).2.2)) = true := by decide +kernel

theorem witness_SpillwayPort_13 :
    ((tSpw fun w => { w with state := .starting }).acq.spw.state = .starting) ∧ ((tSpw fun w => { w with state := .starting }).acq.spw.startAt + usec 100 ≤ max (tSpw fun w => { w with state := .starting }).now (usec 100)) := by decide

theorem witness_SpillwayPort_14 :
    ((tEnding.acq.spw.state = .stream ∨ (tEnding.acq.spw.state = .stopping ∧ tEnding.acq.spw.toDrain = false))) ∧ ((tEnding.advanceTo 3).unitReady ({ channel := 0, samples := [⟨0, 1⟩] } : Captured) = true) ∧ ((tEnding.advanceTo 3).onIslandClock 41 = true) ∧ ((tEnding.advanceTo 3).onIslandClock 42 = true) := by decide

theorem witness_SpillwayPort_15 :
    ((tSpw fun w => { w with state := .drain }).acq.spw.state = .drain) ∧ ((tSpw fun w => { w with state := .drain }).onIslandClock 41 = true) ∧ ((tSpw fun w => { w with state := .drain }).onIslandClock 42 = true) := by decide

theorem witness_SpillwayPort_16 :
    ((tSpw fun w => { w with state := .stopping }).acq.spw.state = .stopping) ∧ ((tSpw fun w => { w with state := .stopping }).onIslandClock 41 = true) ∧ ((tSpw fun w => { w with state := .stopping }).onIslandClock 42 = true) := by decide

theorem witness_SpillwayPort_17 :
    (tRun.sys.optionW = false) := by decide

theorem witness_SpillwayPort_18 :
    (({ tRun with sys := { tRun.sys with optionW := true } } : State).sys.optionW = true) := by decide

theorem witness_HousekeepingSettings_1 :
    met (tRun) 5 .q0 0x7000 false (leBytes 4 0x201 ++ leBytes 16 0x0706) (fun _ e _ => decide (e.len = 20 ∧ rsv (e.w 0) 2 6 = true ∧ rsvHigh (e.w 0) 13 = true ∧ 1 ≤ bits (e.w 0) 8 5 ∧ bits (e.w 0) 8 5 ≤ 16 ∧ ((List.range 16).all fun i => if i < bits (e.w 0) 8 5 then gaugeChannelOk (fieldAt e.cmd.payload (4 + i) 1) else fieldAt e.cmd.payload (4 + i) 1 == 0) = true)) = true := by decide

theorem witness_HousekeepingSettings_2 :
    met (expertOpen tRun) 5 .q0 0x7800 false (leBytes 4 0x101 ++ leBytes 64 0x640005) (fun _ e _ => decide (e.len = 68 ∧ rsv (e.w 0) 2 6 = true ∧ rsvHigh (e.w 0) 13 = true ∧ 1 ≤ bits (e.w 0) 8 5 ∧ bits (e.w 0) 8 5 ≤ 16 ∧ ((List.range 16).all fun i => if i < bits (e.w 0) 8 5 then gaugeEntryOk (e.w (1 + i)) else e.w (1 + i) == 0) = true)) = true := by decide

theorem witness_HousekeepingSettings_3 :
    met (tRun) 5 .q0 0x7001 false (leBytes 4 5 ++ leBytes 16 0x640005) (fun _ e s => decide (e.len = 20 ∧ rsvHigh (e.w 0) 5 = true ∧ 1 ≤ bits (e.w 0) 2 3 ∧ bits (e.w 0) 2 3 ≤ 4 ∧ ((List.range 4).all fun i => if i < bits (e.w 0) 2 3 then gaugeEntryOk (e.w (1 + i)) && !bit (e.w (1 + i)) 10 else e.w (1 + i) == 0) = true ∧ s.hk.gauge[e.conv].injected.length + bits (e.w 0) 2 3 ≤ 4)) = true := by decide

theorem witness_HousekeepingSettings_4 :
    met (tRun) 5 .q0 0x7002 false (leBytes 4 0x53005) (fun _ e _ => decide (e.len = 4 ∧ rsv (e.w 0) 3 5 = true ∧ gaugeTrigOk (bits (e.w 0) 8 8) = true)) = true := by decide

theorem witness_HousekeepingSettings_5 :
    met (tRun) 5 .q0 0x7003 true (leBytes 4 0x401) (fun _ e _ => decide (e.len = 4 ∧ rsv (e.w 0) 2 6 = true ∧ rsvHigh (e.w 0) 14 = true ∧ 1 ≤ bits (e.w 0) 8 6)) = true := by decide

theorem witness_HousekeepingSettings_6 :
    met (tRun) 5 .q0 0x7010 false (leBytes 4 0x1203) (fun _ e _ => decide (idx? 24 (bits (e.w 0) 0 5) = some (3 : Fin 24) ∧ e.len = 4 ∧ rsv (e.w 0) 5 3 = true ∧ rsv (e.w 0) 11 1 = true ∧ rsvHigh (e.w 0) 14 = true ∧ bits (e.w 0) 12 2 ≠ 3)) = true := by decide

theorem witness_HousekeepingSettings_7 :
    met (tRun) 5 .q0 0x7011 false (leBytes 4 0x20003 ++ leBytes 4 0) (fun _ e s => decide (idx? 24 (bits (e.w 0) 0 5) = some (3 : Fin 24) ∧ e.len = 4 + 2 * bits (e.w 0) 16 7 ∧ rsv (e.w 0) 5 3 = true ∧ rsv (e.w 0) 9 7 = true ∧ rsvHigh (e.w 0) 23 = true ∧ bits (e.w 0) 16 7 ≤ 64 ∧ ([] : List Nat) = (if bit (e.w 0) 8 = true then [] else s.hk.jets[(3 : Fin 24)].queue) ∧ ([] : List Nat).length + bits (e.w 0) 16 7 ≤ 64 ∧ [0, 0] = (List.range (bits (e.w 0) 16 7)).map (fun i => fieldAt e.cmd.payload (4 + 2 * i) 2) ∧ [0, 0] = [0, 0].map (clampTo s.limits.jetsMin[(3 : Fin 24)] s.limits.jetsMax[(3 : Fin 24)]) ∧ 0 = (([0, 0].zip [0, 0]).filter fun x => decide (x.1 ≠ x.2)).length ∧ 0 = 0)) = true := by decide

theorem witness_HousekeepingSettings_8 :
    met (tHeld) 5 .q0 0x7011 false (leBytes 4 0x20003 ++ leBytes 4 0x300) (fun _ e s => decide (idx? 24 (bits (e.w 0) 0 5) = some (3 : Fin 24) ∧ e.len = 4 + 2 * bits (e.w 0) 16 7 ∧ rsv (e.w 0) 5 3 = true ∧ rsv (e.w 0) 9 7 = true ∧ rsvHigh (e.w 0) 23 = true ∧ bits (e.w 0) 16 7 ≤ 64 ∧ ([] : List Nat) = (if bit (e.w 0) 8 = true then [] else s.hk.jets[(3 : Fin 24)].queue) ∧ ([] : List Nat).length + bits (e.w 0) 16 7 ≤ 64 ∧ [768, 0] = (List.range (bits (e.w 0) 16 7)).map (fun i => fieldAt e.cmd.payload (4 + 2 * i) 2) ∧ [9, 0] = [768, 0].map (clampTo s.limits.jetsMin[(3 : Fin 24)] s.limits.jetsMax[(3 : Fin 24)]) ∧ 1 = (([768, 0].zip [9, 0]).filter fun x => decide (x.1 ≠ x.2)).length ∧ 1 ≠ 0)) = true := by decide

theorem witness_HousekeepingSettings_9 :
    met (tRun) 5 .q0 0x7012 false (leBytes 4 3 ++ leBytes 4 1 ++ leBytes 4 0x10002) (fun _ e _ => decide (e.len = 12 ∧ rsvHigh (e.w 0) 24 = true ∧ rsvHigh (e.w 1) 24 = true ∧ rsv (e.w 2) 2 14 = true ∧ rsvHigh (e.w 2) 26 = true ∧ 1 ≤ bits (e.w 2) 16 10 ∧ bits (e.w 2) 16 10 ≤ 1000 ∧ bits (e.w 2) 0 2 = (2 : Fin 4).val)) = true := by decide

theorem witness_HousekeepingSettings_10 :
    met (tPwm 65536) 5 .q0 0x7020 false (leBytes 4 0x101 ++ leBytes 4 100000 ++ leBytes 4 16384 ++ leBytes 12 0) (fun _ e s => decide (e.len = 24 ∧ pwmHeadOk e = true ∧ rsvHigh (e.w 1) 26 = true ∧ rsvHigh (e.w 2) 17 = true ∧ 1526 ≤ bits (e.w 1) 0 26 ∧ bits (e.w 1) 0 26 ≤ 50000000 ∧ bits (e.w 2) 0 17 ≤ 65536 ∧ (let x := ((s.modShadow (Bank.pw e.unit fun p => { pwmHead e p with freq := bits (e.w 1) 0 26, duty := bits (e.w 2) 0 17 })).writeBasic (.pwm e.unit) 0x7820 128 (Bank.pw e.unit fun p => { p with period := roundDivN 100000000 (bits (e.w 1) 0 26) })).writeBasic (.pwm e.unit) 0x7820 129 (Bank.pw e.unit fun p => { p with psrc := 0 }); let y := ((x).writeBasic (.pwm e.unit) 0x7820 130 (Bank.pw e.unit fun p => { p with rise := 0 })).writeBasic (.pwm e.unit) 0x7820 131 (Bank.pw e.unit fun p => { p with fall := if bits (e.w 2) 0 17 = 65536 then 0xFFFF else roundDivN (bits (e.w 2) 0 17 * x.shadow.pwm[e.unit].periodIn s.active.timer) 65536 }); (y.pwmClamp e.unit).2 = false))) = true := by decide

theorem witness_HousekeepingSettings_11 :
    met (tPwm 4096) 5 .q0 0x7020 false (leBytes 4 0x101 ++ leBytes 4 100000 ++ leBytes 4 16384 ++ leBytes 12 0) (fun _ e s => decide (e.len = 24 ∧ pwmHeadOk e = true ∧ rsvHigh (e.w 1) 26 = true ∧ rsvHigh (e.w 2) 17 = true ∧ 1526 ≤ bits (e.w 1) 0 26 ∧ bits (e.w 1) 0 26 ≤ 50000000 ∧ bits (e.w 2) 0 17 ≤ 65536 ∧ (let x := ((s.modShadow (Bank.pw e.unit fun p => { pwmHead e p with freq := bits (e.w 1) 0 26, duty := bits (e.w 2) 0 17 })).writeBasic (.pwm e.unit) 0x7820 128 (Bank.pw e.unit fun p => { p with period := roundDivN 100000000 (bits (e.w 1) 0 26) })).writeBasic (.pwm e.unit) 0x7820 129 (Bank.pw e.unit fun p => { p with psrc := 0 }); let y := ((x).writeBasic (.pwm e.unit) 0x7820 130 (Bank.pw e.unit fun p => { p with rise := 0 })).writeBasic (.pwm e.unit) 0x7820 131 (Bank.pw e.unit fun p => { p with fall := if bits (e.w 2) 0 17 = 65536 then 0xFFFF else roundDivN (bits (e.w 2) 0 17 * x.shadow.pwm[e.unit].periodIn s.active.timer) 65536 }); (y.pwmClamp e.unit).2 = true))) = true := by decide

theorem witness_HousekeepingSettings_12 :
    met (expertOpen (tPwm 65536)) 5 .q0 0x7820 false (leBytes 4 0x101 ++ leBytes 8 0 ++ leBytes 4 1000 ++ leBytes 4 0x1000005 ++ leBytes 4 2) (fun _ e s => decide (e.len = 24 ∧ pwmHeadOk e = true ∧ e.w 1 = 0 ∧ e.w 2 = 0 ∧ 2 ≤ bits (e.w 3) 0 16 ∧ bits (e.w 3) 16 3 ≤ 4 ∧ (bits (e.w 3) 16 3 ≠ 0 ∨ (bits (e.w 4) 0 16 < bits (e.w 3) 0 16 ∧ (bits (e.w 4) 16 16 < bits (e.w 3) 0 16 ∨ bits (e.w 4) 16 16 = 0xFFFF))) ∧ (let y := (((((s.modShadow (Bank.pw e.unit (pwmHead e))).writeExpert (.pwm e.unit) 0x7820 128 (Bank.pw e.unit fun p => { p with period := bits (e.w 3) 0 16 })).writeExpert (.pwm e.unit) 0x7820 129 (Bank.pw e.unit fun p => { p with psrc := bits (e.w 3) 16 3 })).writeExpert (.pwm e.unit) 0x7820 130 (Bank.pw e.unit fun p => { p with rise := bits (e.w 4) 0 16 })).writeExpert (.pwm e.unit) 0x7820 131 (Bank.pw e.unit fun p => { p with fall := bits (e.w 4) 16 16 })).writeExpert (.pwm e.unit) 0x7820 132 (Bank.pw e.unit fun p => { p with dead := bits (e.w 5) 0 10 }); (y.pwmClamp e.unit).2 = false))) = true := by decide

theorem witness_HousekeepingSettings_13 :
    met (expertOpen (tPwm 4096)) 5 .q0 0x7820 false (leBytes 4 0x101 ++ leBytes 8 0 ++ leBytes 4 1000 ++ leBytes 4 0x1000005 ++ leBytes 4 2) (fun _ e s => decide (e.len = 24 ∧ pwmHeadOk e = true ∧ e.w 1 = 0 ∧ e.w 2 = 0 ∧ 2 ≤ bits (e.w 3) 0 16 ∧ bits (e.w 3) 16 3 ≤ 4 ∧ (bits (e.w 3) 16 3 ≠ 0 ∨ (bits (e.w 4) 0 16 < bits (e.w 3) 0 16 ∧ (bits (e.w 4) 16 16 < bits (e.w 3) 0 16 ∨ bits (e.w 4) 16 16 = 0xFFFF))) ∧ (let y := (((((s.modShadow (Bank.pw e.unit (pwmHead e))).writeExpert (.pwm e.unit) 0x7820 128 (Bank.pw e.unit fun p => { p with period := bits (e.w 3) 0 16 })).writeExpert (.pwm e.unit) 0x7820 129 (Bank.pw e.unit fun p => { p with psrc := bits (e.w 3) 16 3 })).writeExpert (.pwm e.unit) 0x7820 130 (Bank.pw e.unit fun p => { p with rise := bits (e.w 4) 0 16 })).writeExpert (.pwm e.unit) 0x7820 131 (Bank.pw e.unit fun p => { p with fall := bits (e.w 4) 16 16 })).writeExpert (.pwm e.unit) 0x7820 132 (Bank.pw e.unit fun p => { p with dead := bits (e.w 5) 0 10 }); (y.pwmClamp e.unit).2 = true))) = true := by decide

theorem witness_HousekeepingSettings_14 :
    met (tRun) 5 .q0 0x7021 false (leBytes 4 0xD ++ leBytes 4 100) (fun _ e _ => decide (e.len = 8 ∧ rsvHigh (e.w 0) 4 = true ∧ 2 ≤ e.w 1 ∧ (bit (e.w 0) 3 = true → 100000000 % e.w 1 = 0))) = true := by decide

theorem witness_HousekeepingRuns_1 :
    ((tTimer.advanceTo (usec 10)).tickAt (0 : Fin 4) = some (tenNs 2)) := by decide

theorem witness_HousekeepingRuns_2 :
    ((tConv fun c => { c with trigs := [7] }).hk.gauge[(1 : Fin 4)].trigs = 7 :: ([] : List Instant)) ∧ ((tConv fun c => { c with trigs := [7] }).active.gauge[(1 : Fin 4)].run = true) ∧ (((tConv fun c => { c with trigs := [7] }).advanceTo 9).nothingToRun (1 : Fin 4) = false) ∧ ((tConv fun c => { c with trigs := [7] }).hk.gauge[(1 : Fin 4)].pass = none) ∧ ((tConv fun c => { c with trigs := [7] }).hk.gauge[(1 : Fin 4)].startAt = none) := by decide

theorem witness_HousekeepingRuns_3 :
    ((tConv fun c => { c with trigs := [7], startAt := some 9 }).hk.gauge[(1 : Fin 4)].trigs = 7 :: ([] : List Instant)) ∧ ((tConv fun c => { c with trigs := [7], startAt := some 9 }).active.gauge[(1 : Fin 4)].run = true) ∧ (((tConv fun c => { c with trigs := [7], startAt := some 9 }).advanceTo 9).nothingToRun (1 : Fin 4) = false) ∧ ((tConv fun c => { c with trigs := [7], startAt := some 9 }).hk.gauge[(1 : Fin 4)].overrun 7 = true) := by decide

theorem witness_HousekeepingRuns_4 :
    ((tConv fun c => { c with trigs := [7], startAt := some 6, injected := [{}] }).hk.gauge[(1 : Fin 4)].trigs = 7 :: ([] : List Instant)) ∧ ((tConv fun c => { c with trigs := [7], startAt := some 6, injected := [{}] }).active.gauge[(1 : Fin 4)].run = true) ∧ (((tConv fun c => { c with trigs := [7], startAt := some 6, injected := [{}] }).advanceTo 9).nothingToRun (1 : Fin 4) = false) ∧ ((tConv fun c => { c with trigs := [7], startAt := some 6, injected := [{}] }).hk.gauge[(1 : Fin 4)].overrun 7 = false) ∧ ((tConv fun c => { c with trigs := [7], startAt := some 6, injected := [{}] }).hk.gauge[(1 : Fin 4)].startAt = some 6) := by decide

theorem witness_HousekeepingRuns_5 :
    ({ (tConv fun c => { c with trigs := [7] }) with active := tRun.active }.hk.gauge[(1 : Fin 4)].trigs = 7 :: ([] : List Instant)) ∧ ({ (tConv fun c => { c with trigs := [7] }) with active := tRun.active }.active.gauge[(1 : Fin 4)].run = false ∨ ({ (tConv fun c => { c with trigs := [7] }) with active := tRun.active }.advanceTo 9).nothingToRun (1 : Fin 4) = true) := by decide

theorem witness_HousekeepingRuns_6 :
    ((tConv fun c => { c with startAt := some 9 }).hk.gauge[(1 : Fin 4)].startAt = some 9) ∧ (9 ≤ max (tConv fun c => { c with startAt := some 9 }).now 9) ∧ ((tConv fun c => { c with startAt := some 9 }).hk.gauge[(1 : Fin 4)].cur = none) ∧ ((tConv fun c => { c with startAt := some 9 }).hk.gauge[(1 : Fin 4)].pass = none) ∧ ((tConv fun c => { c with startAt := some 9 }).hk.gauge[(1 : Fin 4)].calRun = none) ∧ ((tConv fun c => { c with startAt := some 9 }).hk.gauge[(1 : Fin 4)].injected = []) ∧ ((tConv fun c => { c with startAt := some 9 }).sys.pstate ≤ 1) := by decide

theorem witness_HousekeepingRuns_7 :
    ((tConv fun c => { c with cur := some { entry := {}, start := 0, injected := false, late := false } }).hk.gauge[(1 : Fin 4)].cur = some ({ entry := {}, start := 0, injected := false, late := false } : GaugeCur)) ∧ (({ entry := {}, start := 0, injected := false, late := false } : GaugeCur).boundary ≤ max (tConv fun c => { c with cur := some { entry := {}, start := 0, injected := false, late := false } }).now (msec 1)) := by decide

theorem witness_HousekeepingRuns_8 :
    ((tJet fun c => { c with tickDue := true }).hk.jets[(3 : Fin 24)].tickDue = true) := by decide

theorem witness_HousekeepingRuns_9 :
    ((tJet fun c => { c with hold := some (1, 0) }).hk.jets[(3 : Fin 24)].hold = some (1, 0)) ∧ (0 + nsec 300 ≤ max (tJet fun c => { c with hold := some (1, 0) }).now (nsec 300)) := by decide

theorem witness_HousekeepingRuns_10 :
    ((tJet fun c => { c with rangePark := some 0 }).hk.jets[(3 : Fin 24)].rangePark = some 0) ∧ (0 + usec 20 ≤ max (tJet fun c => { c with rangePark := some 0 }).now (usec 20)) := by decide

theorem witness_HousekeepingRuns_11 :
    (((tPwmU fun u => { u with running := true }).advanceTo (msec 2)).periodEnd (1 : Fin 8) = some (tenNs tRun.active.pwm[1].period)) := by decide

theorem witness_HousekeepingRuns_12 :
    ((tPwmU fun u => { u with running := true, centre := true }).hk.pwm[(1 : Fin 8)].running = true) ∧ ((tPwmU fun u => { u with running := true, centre := true }).hk.pwm[(1 : Fin 8)].centre = true) ∧ (((tPwmU fun u => { u with running := true, centre := true }).advanceTo (msec 2)).centreAt (1 : Fin 8) ≤ max (tPwmU fun u => { u with running := true, centre := true }).now (msec 2)) := by decide

theorem witness_HousekeepingRuns_13 :
    met (expertOpen tRun) 5 .q0 0x7830 false (leBytes 4 0x20181 ++ leBytes 16 5) (fun _ e _ => decide (idx? 5 (bits (e.w 0) 16 3) = some (2 : Fin 5) ∧ e.len = 20 ∧ rsvHigh (e.w 0) 19 = true ∧ bits (e.w 0) 0 8 = 0x81 ∧ idx? 4 (bits (e.w 0) 8 8) = some (1 : Fin 4))) = true := by decide

theorem witness_HousekeepingRuns_14 :
    met (expertOpen tRun) 5 .q0 0x7830 false (leBytes 4 0x20182 ++ leBytes 16 5) (fun _ e _ => decide (idx? 5 (bits (e.w 0) 16 3) = some (2 : Fin 5) ∧ e.len = 20 ∧ rsvHigh (e.w 0) 19 = true ∧ bits (e.w 0) 0 8 = 0x82 ∧ idx? 24 (bits (e.w 0) 8 8) = some (1 : Fin 24))) = true := by decide

theorem witness_HousekeepingRuns_15 :
    met (tRun) 5 .q0 0x7030 false (leBytes 4 0x101) (fun _ e s => decide (e.len = 4 ∧ rsvHigh (e.w 0) 16 = true ∧ bits (e.w 0) 0 8 = 1 ∧ idx? 4 (bits (e.w 0) 8 8) = some (1 : Fin 4) ∧ s.active.gauge[(1 : Fin 4)].run = false ∧ s.hk.gauge[(1 : Fin 4)].pass = none ∧ s.hk.gauge[(1 : Fin 4)].calRun = none)) = true := by decide

theorem witness_HousekeepingRuns_16 :
    met (tRun) 5 .q0 0x7030 false (leBytes 4 0x102) (fun _ e s => decide (e.len = 4 ∧ rsvHigh (e.w 0) 16 = true ∧ (bits (e.w 0) 0 8 = 2 ∨ bits (e.w 0) 0 8 = 3) ∧ idx? 24 (bits (e.w 0) 8 8) = some (1 : Fin 24) ∧ s.hk.jets[(1 : Fin 24)].queue = [] ∧ s.hk.jets[(1 : Fin 24)].calRun = none)) = true := by decide

theorem witness_HousekeepingRuns_17 :
    met ((tConv fun c => { c with trigs := [] })) 5 .q0 0x7030 false (leBytes 4 0x101) (fun _ e s => decide (e.len = 4 ∧ rsvHigh (e.w 0) 16 = true ∧ bits (e.w 0) 0 8 = 1 ∧ idx? 4 (bits (e.w 0) 8 8) = some (1 : Fin 4) ∧ (s.active.gauge[(1 : Fin 4)].run = true ∨ s.hk.gauge[(1 : Fin 4)].pass ≠ none ∨ s.hk.gauge[(1 : Fin 4)].calRun ≠ none))) = true := by decide

theorem witness_HousekeepingRuns_18 :
    met ((tJet fun c => { c with calRun := some { seq := 0, kind := 2, start := some 0, temp := 0 } })) 5 .q0 0x7030 false (leBytes 4 0x302) (fun _ e s => decide (e.len = 4 ∧ rsvHigh (e.w 0) 16 = true ∧ (bits (e.w 0) 0 8 = 2 ∨ bits (e.w 0) 0 8 = 3) ∧ idx? 24 (bits (e.w 0) 8 8) = some (3 : Fin 24) ∧ (s.hk.jets[(3 : Fin 24)].queue ≠ [] ∨ s.hk.jets[(3 : Fin 24)].calRun ≠ none))) = true := by decide

theorem witness_HousekeepingRuns_19 :
    ((tConv fun c => { c with calRun := some { seq := 0, kind := 1, start := some 0, temp := 0 } }).hk.gauge[(1 : Fin 4)].calRun = some ({ seq := 0, kind := 1, start := some 0, temp := 0 } : HkCal)) ∧ (({ seq := 0, kind := 1, start := some 0, temp := 0 } : HkCal).start = some 0) ∧ (0 + usec (hkMicros ({ seq := 0, kind := 1, start := some 0, temp := 0 } : HkCal).kind) ≤ max (tConv fun c => { c with calRun := some { seq := 0, kind := 1, start := some 0, temp := 0 } }).now (usec 120)) := by decide

theorem witness_HousekeepingRuns_20 :
    ((tJet fun c => { c with calRun := some { seq := 0, kind := 2, start := some 0, temp := 0 } }).hk.jets[(3 : Fin 24)].calRun = some ({ seq := 0, kind := 2, start := some 0, temp := 0 } : HkCal)) ∧ (({ seq := 0, kind := 2, start := some 0, temp := 0 } : HkCal).start = some 0) ∧ (0 + usec (hkMicros ({ seq := 0, kind := 2, start := some 0, temp := 0 } : HkCal).kind) ≤ max (tJet fun c => { c with calRun := some { seq := 0, kind := 2, start := some 0, temp := 0 } }).now (usec 250)) := by decide

theorem witness_SelfTestsRun_1 :
    met (tRun) 5 .q0 0x8000 true (leBytes 4 0x40) (fun _ e s => decide (e.len = 4 ∧ testOk (bits (e.w 0) 0 8) = true ∧ rsvHigh (e.w 0) 8 = true ∧ s.testRun (bits (e.w 0) 0 8) = none ∧ s.sys.pstate = 0 ∧ s.testAllowed (bits (e.w 0) 0 8) = true ∧ ((testEngine (bits (e.w 0) 0 8)).map s.engineRun = none ∨ (testEngine (bits (e.w 0) 0 8)).map s.engineRun = some .now))) = true := by decide

theorem witness_SelfTestsRun_2 :
    met (tLocked) 5 .q0 0x8000 true (leBytes 4 0x10) (fun _ e s => decide (e.len = 4 ∧ testOk (bits (e.w 0) 0 8) = true ∧ rsvHigh (e.w 0) 8 = true ∧ s.testRun (bits (e.w 0) 0 8) = none ∧ s.sys.pstate = 0 ∧ s.testAllowed (bits (e.w 0) 0 8) = true ∧ (testEngine (bits (e.w 0) 0 8)).map s.engineRun = some (.takeOver (0 : Fin 8) (8 : Fin 9)) ∧ (s.sys.bist.takeover.any fun k => decide (k.kind ≠ .periodic)) = false)) = true := by decide

theorem witness_SelfTestsRun_3 :
    met ((tTest 0).modRun 0x30 fun y => { y with cmd := some (3, 4) }) 5 .q0 0x8000 true (leBytes 4 0x30) (fun _ e s => decide (e.len = 4 ∧ testOk (bits (e.w 0) 0 8) = true ∧ rsvHigh (e.w 0) 8 = true ∧ s.testRun (bits (e.w 0) 0 8) = some ({ tTestRun 0 with cmd := some (3, 4) } : TestRun) ∧ ({ tTestRun 0 with cmd := some (3, 4) } : TestRun).cmd ≠ none)) = true := by decide

theorem witness_SelfTestsRun_4 :
    met ((tTest 0)) 5 .q0 0x8000 true (leBytes 4 0x30) (fun _ e s => decide (e.len = 4 ∧ testOk (bits (e.w 0) 0 8) = true ∧ rsvHigh (e.w 0) 8 = true ∧ s.testRun (bits (e.w 0) 0 8) = some (tTestRun 0) ∧ (tTestRun 0).cmd = none)) = true := by decide

theorem witness_SelfTestsRun_5 :
    met (({ tRun with acq := { tRun.acq with state := .armed } } : State)) 5 .q0 0x8000 true (leBytes 4 0x30) (fun _ e s => decide (e.len = 4 ∧ testOk (bits (e.w 0) 0 8) = true ∧ rsvHigh (e.w 0) 8 = true ∧ s.testRun (bits (e.w 0) 0 8) = none ∧ (s.sys.pstate ≠ 0 ∨ s.testAllowed (bits (e.w 0) 0 8) = false))) = true := by decide

theorem witness_SelfTestsRun_6 :
    met (tRun) 5 .q0 0x8001 true (leBytes 4 0) (fun _ e _ => decide (e.len = 4 ∧ bits (e.w 0) 0 8 = 0 ∧ rsvHigh (e.w 0) 8 = true)) = true := by decide

theorem witness_SelfTestsRun_7 :
    met (tRun) 5 .q0 0x8001 true (leBytes 4 0x30) (fun _ e _ => decide (e.len = 4 ∧ testOk (bits (e.w 0) 0 8) = true ∧ rsvHigh (e.w 0) 8 = true ∧ bits (e.w 0) 0 8 ≠ 0)) = true := by decide

theorem witness_SelfTestsRun_8 :
    met (tRun) 5 .q0 0x8002 false (leBytes 4 1) (fun _ e _ => decide (e.len = 4 ∧ rsvHigh (e.w 0) 1 = true)) = true := by decide

theorem witness_SelfTestsRun_9 :
    met ((tTest 0)) 5 .q0 0x8003 true (leBytes 4 0x30) (fun _ e s => decide (e.len = 4 ∧ testOk (bits (e.w 0) 0 8) = true ∧ rsvHigh (e.w 0) 8 = true ∧ s.testRun (bits (e.w 0) 0 8) ≠ none)) = true := by decide

theorem witness_SelfTestsRun_10 :
    met (tRun) 5 .q0 0x8003 true (leBytes 4 0x30) (fun _ e s => decide (e.len = 4 ∧ testOk (bits (e.w 0) 0 8) = true ∧ rsvHigh (e.w 0) 8 = true ∧ s.testRun (bits (e.w 0) 0 8) = none)) = true := by decide

theorem witness_SelfTestsRun_11 :
    (tTesting.testing = true) ∧ ((tTesting.advanceTo (secs 10)).cisternFree true = true) ∧ (tTesting.sys.bist.cisternAt[(if true then 1 else 0 : Fin 2)] + secs 10 ≤ max tTesting.now (secs 10)) := by decide

theorem witness_SelfTestsRun_12 :
    (tLocked.sys.bist.due = []) ∧ (tLocked.sys.bist.spare = some (8 : Fin 9)) ∧ (tLocked.testing = true) ∧ (tLocked.sys.bist.stepAt + msec 250 ≤ max tLocked.now (msec 250)) ∧ (tLocked.sys.bist.takeover = none) ∧ (tLocked.testRun (0x10 + (8 : Fin 9).val) = none) ∧ (tLocked.nextRotation = some (0 : Fin 8)) := by decide

theorem witness_SelfTestsRun_13 :
    (tTesting.sys.bist.due = []) ∧ (tTesting.sys.bist.spare = some (8 : Fin 9)) ∧ (tTesting.testing = true) ∧ (tTesting.sys.bist.stepAt + msec 250 ≤ max tTesting.now (msec 250)) ∧ (tTesting.sys.bist.takeover = none) ∧ (tTesting.testRun (0x10 + (8 : Fin 9).val) = none) ∧ (tTesting.nextRotation = none) := by decide

theorem witness_SelfTestsRun_14 :
    (tSwap.sys.bist.takeover = some tTake) ∧ (tSwap.sys.bist.spare = some (8 : Fin 9)) ∧ (tSwap.lanes[tTake.lane].acq.state = .locked) ∧ (tTake.start + usec 12 ≤ max tSwap.now (usec 12)) ∧ (tSwap.lanes[tTake.lane].rx.markAt = some (max tSwap.now (usec 12))) ∧ (tTake.kind ≠ .periodic ∨ true = true) ∧ (idx? 9 tSwap.lanes[tTake.lane].eq.engine = some (0 : Fin 9)) ∧ (tSwap.testRun (0x10 + (8 : Fin 9).val) = none) := by decide

theorem witness_SelfTestsRun_15 :
    (tSwap.sys.bist.takeover = some tTake) ∧ (tSwap.sys.bist.spare = some (8 : Fin 9)) ∧ (tSwap.lanes[tTake.lane].acq.state = .locked) ∧ (tTake.start + usec 12 ≤ max tSwap.now (usec 12)) ∧ (tSwap.lanes[tTake.lane].rx.markAt = some (max tSwap.now (usec 12))) ∧ (tTake.kind = .periodic) ∧ (tSwap.testRun (0x10 + (8 : Fin 9).val) = none) := by decide

theorem witness_SelfTestsRun_16 :
    ((tTest 0).testRun 0x30 = some (tTestRun 0)) ∧ (((tTest 0).advanceTo (usec 4)).sliceRan (tTestRun 0) = true) ∧ ((tTestRun 0).slices + 1 < testSlices 0x30) ∧ (((tTest 0).advanceTo (usec 4)).sliceStop (tTestRun 0) = 0) := by decide

theorem witness_SelfTestsRun_17 :
    ((tTest 40).testRun 0x30 = some (tTestRun 40)) ∧ (((tTest 40).advanceTo (msec 1)).sliceRan (tTestRun 40) = true) ∧ (testSlices 0x30 ≤ (tTestRun 40).slices + 1) := by decide

theorem witness_SelfTestsRun_18 :
    (({ tTest 0 with sys := { (tTest 0).sys with pstate := 1 } } : State).testRun 0x30 = some (tTestRun 0)) ∧ ((({ tTest 0 with sys := { (tTest 0).sys with pstate := 1 } } : State).advanceTo (usec 4)).sliceRan (tTestRun 0) = true) ∧ ((tTestRun 0).slices + 1 < testSlices 0x30) ∧ ((({ tTest 0 with sys := { (tTest 0).sys with pstate := 1 } } : State).advanceTo (usec 4)).sliceStop (tTestRun 0) ≠ 0) := by decide

theorem witness_SelfTestsRun_19 :
    (({ tTest 0 with sys := { (tTest 0).sys with pstate := 1 } } : State).testRun 0x30 = some (tTestRun 0)) ∧ ((({ tTest 0 with sys := { (tTest 0).sys with pstate := 1 } } : State).advanceTo 1).sliceRan (tTestRun 0) = false) ∧ ((({ tTest 0 with sys := { (tTest 0).sys with pstate := 1 } } : State).advanceTo 1).sliceStop (tTestRun 0) ≠ 0) := by decide

theorem witness_LanePowerChanges_1 :
    met (tRun) 5 .q0 0x9002 true (leBytes 4 0x1) (fun _ e s => decide (e.len = 4 ∧ bits (e.w 0) 24 2 ≤ 2 ∧ rsvHigh (e.w 0) 26 = true ∧ ((powerLanes (e.w 0)).any s.isShed) = false ∧ LanePower.l0 = (match bits (e.w 0) 24 2 with | 0 => LanePower.l0 | 1 => .l1 | _ => .l2) ∧ s.sys.pstate = 0 ∧ s.sys.pow.entry = none ∧ (let s1 := s.forEach (powerLanes (e.w 0)) fun r s => (s.commandPower r LanePower.l0).sendPower LanePower.l0 r; s1.powerDone (powerLanes (e.w 0))) = true)) = true := by decide

theorem witness_LanePowerChanges_2 :
    met (tRun) 5 .q0 0x9002 true (leBytes 4 0x2000001) (fun _ e s => decide (e.len = 4 ∧ bits (e.w 0) 24 2 ≤ 2 ∧ rsvHigh (e.w 0) 26 = true ∧ ((powerLanes (e.w 0)).any s.isShed) = false ∧ LanePower.l2 = (match bits (e.w 0) 24 2 with | 0 => LanePower.l0 | 1 => .l1 | _ => .l2) ∧ s.sys.pstate = 0 ∧ s.sys.pow.entry = none ∧ (let s1 := s.forEach (powerLanes (e.w 0)) fun r s => (s.commandPower r LanePower.l2).sendPower LanePower.l2 r; s1.powerDone (powerLanes (e.w 0))) = false)) = true := by decide

theorem witness_LanePowerChanges_3 :
    met (({ tRun with sys := { tRun.sys with pstate := 1 } } : State)) 5 .q0 0x9002 true (leBytes 4 0x2000001) (fun _ e s => decide (e.len = 4 ∧ bits (e.w 0) 24 2 ≤ 2 ∧ rsvHigh (e.w 0) 26 = true ∧ ((powerLanes (e.w 0)).any s.isShed) = false ∧ LanePower.l2 = (match bits (e.w 0) 24 2 with | 0 => LanePower.l0 | 1 => .l1 | _ => .l2) ∧ (s.sys.pstate ≠ 0 ∨ s.sys.pow.entry ≠ none))) = true := by decide

theorem witness_LanePowerChanges_4 :
    met (({ tRun with lanes := upd tRun.lanes 0 fun l => { l with acq := { l.acq with shed := true } } } : State)) 5 .q0 0x9002 true (leBytes 4 0x1) (fun _ e s => decide (e.len = 4 ∧ bits (e.w 0) 24 2 ≤ 2 ∧ rsvHigh (e.w 0) 26 = true ∧ ((powerLanes (e.w 0)).any s.isShed) = true)) = true := by decide

theorem witness_LanePowerChanges_5 :
    ((((tPowering .l0 .l1).powerOf (.line 0)).2.1 = .l1 ∧ ((tPowering .l0 .l1).powerOf (.line 0)).1 = .l0 ∧ ((tPowering .l0 .l1).powerOf (.line 0)).2.2 + usec 1 ≤ max (tPowering .l0 .l1).now (usec 1)) ∨ (((tPowering .l0 .l1).powerOf (.line 0)).2.1 = .l2 ∧ ((tPowering .l0 .l1).powerOf (.line 0)).1 ≠ .l2 ∧ ((tPowering .l0 .l1).powerOf (.line 0)).2.2 + usec 10 ≤ max (tPowering .l0 .l1).now (usec 1))) := by decide

theorem witness_LanePowerChanges_6 :
    ((((tPowering .l2 .l0).powerOf (.line 0)).2.1 = .l0 ∧ ((tPowering .l2 .l0).powerOf (.line 0)).1 ≠ .l0) ∨ (((tPowering .l2 .l0).powerOf (.line 0)).2.1 = .l1 ∧ ((tPowering .l2 .l0).powerOf (.line 0)).1 = .l2)) ∧ (((tPowering .l2 .l0).powerOf (.line 0)).1 ≠ .l2 ∨ (tPowering .l2 .l0).engineTested (.line 0) = false) := by decide

theorem witness_BootAndUpdate_1 :
    met (tRun) 5 .q0 0xA000 false (leBytes 4 1 ++ leBytes 4 512) (fun _ e s => decide (e.len = 8 ∧ rsvHigh (e.w 0) 2 = true ∧ 512 ≤ e.w 1 ∧ e.w 1 ≤ (if isConfigSlot (slotOf (e.w 0)) = true then 65536 else 4194304) ∧ s.sys.fw.inUse (slotOf (e.w 0)) = false ∧ s.sys.fw.reception = none)) = true := by decide

theorem witness_BootAndUpdate_2 :
    met (tOpen) 5 .q0 0xA001 false (leBytes 4 4 ++ leBytes 4 8 ++ leBytes 4 7) (fun _ e s => decide (e.len = 8 + bits (e.w 0) 0 11 ∧ 1 ≤ bits (e.w 0) 0 11 ∧ bits (e.w 0) 0 11 ≤ 1016 ∧ rsvHigh (e.w 0) 11 = true ∧ s.sys.fw.reception = some ((1 : Fin 4), 512, false) ∧ e.w 1 + bits (e.w 0) 0 11 ≤ 512 ∧ s.sys.fw.slots[(1 : Fin 4)].agrees (offsets (e.w 1) (e.cmd.payload.drop 8)) = true)) = true := by decide

theorem witness_BootAndUpdate_3 :
    met (tReceived) 5 .q0 0xA002 false [] (fun _ e s => decide (e.len = 0 ∧ s.sys.fw.reception = some ((1 : Fin 4), 512, false) ∧ 512 ≤ s.sys.fw.slots[(1 : Fin 4)].data.length ∧ (s.closeReception (1 : Fin 4) 512 (some 0) true true).1 = none)) = true := by decide

theorem witness_BootAndUpdate_4 :
    met (tOpen0) 5 .q0 0xA002 false [] (fun _ e s => decide (e.len = 0 ∧ s.sys.fw.reception = some ((1 : Fin 4), 0, false) ∧ 0 ≤ s.sys.fw.slots[(1 : Fin 4)].data.length ∧ (s.closeReception (1 : Fin 4) 0 none false false).1 = some .authFailed)) = true := by decide

theorem witness_BootAndUpdate_5 :
    met tOpen0 3 .q0 0xA002 false [] (fun _ e s => decide (e.len = 0 ∧ s.sys.fw.reception = some ((1 : Fin 4), 0, false) ∧ (s.closeReception 1 0 none false false).1 = some .authFailed)) = true := by decide

theorem witness_BootAndUpdate_6 :
    met tUpdate 3 .q0 0xA003 false (leBytes 4 1) (fun _ e s => decide (e.len = 4 ∧ rsv (e.w 0) 2 6 = true ∧ rsvHigh (e.w 0) 9 = true ∧ slotOf (e.w 0) = 1 ∧ s.sys.fw.slots[(1 : Fin 4)].image = some tImageOf ∧ s.sys.fw.slots[(1 : Fin 4)].verified = true ∧ s.sys.fw.verifyImage s.sys.optionW 1 tImageOf = none ∧ bit (e.w 0) 8 = false)) = true := by decide

theorem witness_BootAndUpdate_7 :
    met tUpdate 3 .q0 0xA003 false (leBytes 4 0x101) (fun _ e s => decide (e.len = 4 ∧ rsv (e.w 0) 2 6 = true ∧ rsvHigh (e.w 0) 9 = true ∧ slotOf (e.w 0) = 1 ∧ bit (e.w 0) 8 = true ∧ ((s.q.q0 ++ s.q.q2).any fun y => decide (y.phase ≠ .replied ∧ y.seq ≠ e.seq)) = false)) = true := by decide

theorem witness_BootAndUpdate_8 :
    (tPowered.sys.fw.romDue = some BootKind.reset) ∧ (tPowered.sys.pow.held = false) ∧ (tPowered.sys.pow.powered = true) := by decide

theorem witness_BootAndUpdate_9 :
    (tBooting.sys.fw.boot = some (BootKind.reset, 0)) ∧ (tBooting.sys.recovering = false) ∧ (tBooting.sys.fw.halted = false) ∧ ((tBooting.q.q3.any fun e => e.local') = false) := by decide

theorem witness_IdentityKeysAndDebug_1 :
    met (tRun) 5 .q0 0xA010 false (leBytes 32 9) (fun _ e _ => decide (e.len = 32)) = true := by decide

theorem witness_IdentityKeysAndDebug_2 :
    met (tKeys) 5 .q0 0xA040 false (leBytes 4 0x000201 ++ leBytes 8 (tKeys.sys.serial) ++ leBytes 192 0) (fun _ e s => decide (idx? 4 (bits (e.w 0) 8 8) = some (2 : Fin 4) ∧ idx? 4 (bits (e.w 0) 16 8) = some (0 : Fin 4) ∧ e.len = 204 ∧ bits (e.w 0) 0 8 = 1 ∧ rsvHigh (e.w 0) 24 = true ∧ s.sys.fw.keyLive (0 : Fin 4) = true ∧ fieldAt e.cmd.payload 4 8 = s.sys.serial ∧ true = true ∧ true = true ∧ s.sys.fw.keyLive (2 : Fin 4) = true ∧ 1 < ((List.finRange 4).filter s.sys.fw.keyLive).length ∧ s.sys.fw.running.bind Image.keySlot ≠ some (2 : Fin 4))) = true := by decide

theorem witness_IdentityKeysAndDebug_3 :
    met (tKeys) 5 .q0 0xA040 false (leBytes 4 0x000201 ++ leBytes 8 (tKeys.sys.serial) ++ leBytes 192 0) (fun _ e s => decide (idx? 4 (bits (e.w 0) 8 8) = some (2 : Fin 4) ∧ idx? 4 (bits (e.w 0) 16 8) = some (0 : Fin 4) ∧ e.len = 204 ∧ bits (e.w 0) 0 8 = 1 ∧ rsvHigh (e.w 0) 24 = true ∧ s.sys.fw.keyLive (0 : Fin 4) = true ∧ fieldAt e.cmd.payload 4 8 = s.sys.serial ∧ true = true ∧ false = false)) = true := by decide

theorem witness_IdentityKeysAndDebug_4 :
    met (tKeys) 5 .q0 0xA040 false (leBytes 4 0x000201 ++ leBytes 8 (tKeys.sys.serial) ++ leBytes 192 0) (fun _ e s => decide (idx? 4 (bits (e.w 0) 8 8) = some (2 : Fin 4) ∧ idx? 4 (bits (e.w 0) 16 8) = some (0 : Fin 4) ∧ e.len = 204 ∧ bits (e.w 0) 0 8 = 1 ∧ rsvHigh (e.w 0) 24 = true ∧ (s.sys.fw.keyLive (0 : Fin 4) = false ∨ false = false))) = true := by decide

theorem witness_IdentityKeysAndDebug_5 :
    met (tKeys) 5 .q0 0xA040 false (leBytes 4 0x000201 ++ leBytes 8 (tKeys.sys.serial + 1) ++ leBytes 192 0) (fun _ e s => decide (idx? 4 (bits (e.w 0) 8 8) = some (2 : Fin 4) ∧ idx? 4 (bits (e.w 0) 16 8) = some (0 : Fin 4) ∧ e.len = 204 ∧ bits (e.w 0) 0 8 = 1 ∧ rsvHigh (e.w 0) 24 = true ∧ s.sys.fw.keyLive (0 : Fin 4) = true ∧ true = true ∧ fieldAt e.cmd.payload 4 8 ≠ s.sys.serial)) = true := by decide

theorem witness_IdentityKeysAndDebug_6 :
    met (tRun) 5 .q0 0xA040 false (leBytes 4 0x000001 ++ leBytes 8 (tRun.sys.serial) ++ leBytes 192 0) (fun _ e s => decide (idx? 4 (bits (e.w 0) 8 8) = some (0 : Fin 4) ∧ idx? 4 (bits (e.w 0) 16 8) = some (0 : Fin 4) ∧ e.len = 204 ∧ bits (e.w 0) 0 8 = 1 ∧ rsvHigh (e.w 0) 24 = true ∧ s.sys.fw.keyLive (0 : Fin 4) = true ∧ fieldAt e.cmd.payload 4 8 = s.sys.serial ∧ true = true ∧ true = true ∧ (s.sys.fw.keyLive (0 : Fin 4) = false ∨ ((List.finRange 4).filter s.sys.fw.keyLive).length ≤ 1 ∨ s.sys.fw.running.bind Image.keySlot = some (0 : Fin 4)))) = true := by decide

theorem witness_IdentityKeysAndDebug_7 :
    met (tKeys) 5 .q0 0xA030 false (leBytes 4 0x000701 ++ leBytes 8 (tKeys.sys.serial) ++ leBytes 4 (tKeys.sys.bootCount) ++ leBytes 192 0) (fun _ e s => decide (idx? 4 (bits (e.w 0) 16 8) = some (0 : Fin 4) ∧ e.len = 208 ∧ bits (e.w 0) 0 8 = 1 ∧ rsv (e.w 0) 12 4 = true ∧ rsvHigh (e.w 0) 24 = true ∧ fieldAt e.cmd.payload 4 8 = s.sys.serial ∧ e.w 3 = s.sys.bootCount ∧ s.sys.bootCount ≠ 0xFFFFFFFF ∧ s.sys.fw.keyLive (0 : Fin 4) = true ∧ true = true ∧ true = true)) = true := by decide

theorem witness_IdentityKeysAndDebug_8 :
    met (tKeys) 5 .q0 0xA030 false (leBytes 4 0x000701 ++ leBytes 8 (tKeys.sys.serial) ++ leBytes 4 (tKeys.sys.bootCount + 1) ++ leBytes 192 0) (fun _ e s => decide (idx? 4 (bits (e.w 0) 16 8) = some (0 : Fin 4) ∧ e.len = 208 ∧ bits (e.w 0) 0 8 = 1 ∧ rsv (e.w 0) 12 4 = true ∧ rsvHigh (e.w 0) 24 = true ∧ (fieldAt e.cmd.payload 4 8 ≠ s.sys.serial ∨ e.w 3 ≠ s.sys.bootCount ∨ s.sys.bootCount = 0xFFFFFFFF))) = true := by decide

theorem witness_IdentityKeysAndDebug_9 :
    met (tKeys) 5 .q0 0xA030 false (leBytes 4 0x000701 ++ leBytes 8 (tKeys.sys.serial) ++ leBytes 4 (tKeys.sys.bootCount) ++ leBytes 192 0) (fun _ e s => decide (idx? 4 (bits (e.w 0) 16 8) = some (0 : Fin 4) ∧ e.len = 208 ∧ bits (e.w 0) 0 8 = 1 ∧ rsv (e.w 0) 12 4 = true ∧ rsvHigh (e.w 0) 24 = true ∧ fieldAt e.cmd.payload 4 8 = s.sys.serial ∧ e.w 3 = s.sys.bootCount ∧ s.sys.bootCount ≠ 0xFFFFFFFF ∧ (s.sys.fw.keyLive (0 : Fin 4) = false ∨ false = false))) = true := by decide

theorem witness_IdentityKeysAndDebug_10 :
    met (tKeys) 5 .q0 0xA030 false (leBytes 4 0x000701 ++ leBytes 8 (tKeys.sys.serial) ++ leBytes 4 (tKeys.sys.bootCount) ++ leBytes 192 0) (fun _ e s => decide (idx? 4 (bits (e.w 0) 16 8) = some (0 : Fin 4) ∧ e.len = 208 ∧ bits (e.w 0) 0 8 = 1 ∧ rsv (e.w 0) 12 4 = true ∧ rsvHigh (e.w 0) 24 = true ∧ fieldAt e.cmd.payload 4 8 = s.sys.serial ∧ e.w 3 = s.sys.bootCount ∧ s.sys.bootCount ≠ 0xFFFFFFFF ∧ s.sys.fw.keyLive (0 : Fin 4) = true ∧ true = true ∧ false = false)) = true := by decide

theorem witness_IdentityKeysAndDebug_11 :
    (tLogged.sys.log.find? LogEntry.toFlash = some tEntry) ∧ (tLogged.sys.pow.held = false) ∧ (tLogged.sys.pstate ≠ 2) ∧ (tLogged.sys.pstate ≠ 3) ∧ ((tLogged.sys.fw.copied.filter fun a => decide (max tLogged.now 3 < a + secs 1)).length < 32) := by decide

theorem witness_IdentityKeysAndDebug_12 :
    ((tLogged.modFw fun f => { f with copied := List.replicate 32 0 }).sys.log.find? LogEntry.toFlash = some tEntry) ∧ ((tLogged.modFw fun f => { f with copied := List.replicate 32 0 }).sys.pow.held = false) ∧ ((tLogged.modFw fun f => { f with copied := List.replicate 32 0 }).sys.pstate ≠ 2) ∧ ((tLogged.modFw fun f => { f with copied := List.replicate 32 0 }).sys.pstate ≠ 3) ∧ (32 ≤ ((tLogged.modFw fun f => { f with copied := List.replicate 32 0 }).sys.fw.copied.filter fun a => decide (max (tLogged.modFw fun f => { f with copied := List.replicate 32 0 }).now 3 < a + secs 1)).length) := by decide

theorem witness_IdentityKeysAndDebug_13 :
    (tDebug.sys.pow.held = false) ∧ (tDebug.sys.pstate ≠ 2) ∧ (tDebug.sys.pstate ≠ 3) ∧ (bit (tDebug.sys.fw.dbgScope.getD 0) 0 = true) := by decide

theorem witness_IdentityKeysAndDebug_14 :
    (tDebug.sys.pow.held = false) ∧ (tDebug.sys.pstate ≠ 2) ∧ (tDebug.sys.pstate ≠ 3) ∧ (bit (tDebug.sys.fw.dbgScope.getD 0) 0 = true) := by decide

theorem witness_IdentityKeysAndDebug_15 :
    (tDebug.sys.pow.held = false) ∧ (tDebug.sys.pstate ≠ 2) ∧ (tDebug.sys.pstate ≠ 3) ∧ (bit (tDebug.sys.fw.dbgScope.getD 0) 2 = true) := by decide

theorem witness_IdentityKeysAndDebug_16 :
    ((tDebug.modFw fun f => { f with mem := [(9, 7)] }).sys.pow.held = false) ∧ ((tDebug.modFw fun f => { f with mem := [(9, 7)] }).sys.pstate ≠ 2) ∧ ((tDebug.modFw fun f => { f with mem := [(9, 7)] }).sys.pstate ≠ 3) ∧ (bit ((tDebug.modFw fun f => { f with mem := [(9, 7)] }).sys.fw.dbgScope.getD 0) 1 = true) ∧ ((tDebug.modFw fun f => { f with mem := [(9, 7)] }).sys.fw.mem.find? (fun x => decide (x.1 = 9)) = some ((9, 7) : Nat × Byte)) := by decide

theorem witness_IdentityKeysAndDebug_17 :
    (tDebug.sys.pow.held = false) ∧ (tDebug.sys.pstate ≠ 2) ∧ (tDebug.sys.pstate ≠ 3) ∧ (bit (tDebug.sys.fw.dbgScope.getD 0) 1 = true) ∧ (tDebug.sys.fw.mem.find? (fun x => decide (x.1 = 9)) = none) := by decide

theorem witness_IdentityKeysAndDebug_18 :
    (tRun.sys.fw.dbgScope = none ∨ tRun.sys.pow.held = true ∨ DebugOp.halt = .step ∨ DebugOp.halt = .factory) := by decide

theorem witness_IdentityKeysAndDebug_19 :
    met (tRun) 5 .q0 0xA050 false (leBytes 4 2) (fun _ e s => decide (e.len = 4 ∧ 1 ≤ bits (e.w 0) 0 8 ∧ bits (e.w 0) 0 8 ≤ 3 ∧ rsvHigh (e.w 0) 8 = true ∧ (bits (e.w 0) 0 8 = 3 → s.sys.fw.hasCmis = true))) = true := by decide

theorem witness_IdentityKeysAndDebug_20 :
    met (tRun) 5 .q0 0xA050 false (leBytes 4 3) (fun _ e s => decide (e.len = 4 ∧ bits (e.w 0) 0 8 = 3 ∧ rsvHigh (e.w 0) 8 = true ∧ s.sys.fw.hasCmis = false)) = true := by decide

theorem witness_FaultsHandled_1 :
    (tAlive.sys.fw.halted = false) ∧ (tAlive.sys.pow.held = false) ∧ (tAlive.sys.pstate ≠ 2) ∧ (tAlive.sys.pstate ≠ 3) := by decide

theorem witness_FaultsHandled_2 :
    (tAlive.tb.refclkLost = false) := by decide

theorem witness_FaultsHandled_3 :
    (watchedIsland (45 : Fin 64) = true) ∧ (tAlive.sys.integ.clockHold.contains (45 : Fin 64).val = false) := by decide

theorem witness_FaultsHandled_4 :
    (tAlive.tb.refclkLost = false) := by decide

theorem witness_FaultsHandled_5 :
    (watchedIsland (45 : Fin 64) = true) ∧ ((tAlive.modInteg fun i => { i with clockHold := [45] }).sys.integ.clockHold.contains (45 : Fin 64).val = true) := by decide

theorem witness_FaultsHandled_6 :
    (((maskIdx 8 4).filter fun x => (tAlive.modPow fun p => { p with railOk := Vector.replicate 8 true, isOff := false, powered := true }).sys.pow.railOk[x]) = (2 : Fin 8) :: ([] : List (Fin 8))) ∧ ((tAlive.modPow fun p => { p with railOk := Vector.replicate 8 true, isOff := false, powered := true }).sys.pow.isOff = false) ∧ ((tAlive.modPow fun p => { p with railOk := Vector.replicate 8 true, isOff := false, powered := true }).sys.pow.powered = true) ∧ ((tAlive.modPow fun p => { p with railOk := Vector.replicate 8 true, isOff := false, powered := true }).sys.pow.held = false) ∧ ((tAlive.modPow fun p => { p with railOk := Vector.replicate 8 true, isOff := false, powered := true }).sys.pstate ≠ 2) ∧ ((tAlive.modPow fun p => { p with railOk := Vector.replicate 8 true, isOff := false, powered := true }).sys.pstate ≠ 3) := by decide

theorem witness_FaultsHandled_7 :
    (({ tRun with sys := { tRun.sys with pstate := 2 } } : State).monitored = false) := by decide

theorem witness_FaultsHandled_8 :
    (tRun.monitored = true) := by decide

theorem witness_FaultsHandled_9 :
    (((tAlive.modFw fun f => { f with romDue := none }).modSys fun y => { y with recovering := true }).sys.recovering = true) ∧ (((tAlive.modFw fun f => { f with romDue := none }).modSys fun y => { y with recovering := true }).sys.fw.romDue = none) := by decide

theorem witness_StepTakesTheFront_1 :
    ({ State.reset with pending := [.ibiRetry 5 true] }).pending = Instr.ibiRetry 5 true :: [] := by decide

theorem witness_StepTakesTheFront_2 :
    (State.reset.pending = []) := by decide

theorem witness_ParityAndSyndrome_1 :
    (5 < 2 ^ 136) := by decide

theorem witness_HardDecision_1 :
    (syndrome 0 = 0) := by decide

theorem witness_HardDecision_2 :
    (1 < 144) ∧ (columns[1]? = some (syndrome 2)) := by decide

theorem witness_HardDecision_3 :
    (syndrome 3 + 2 ^ 143 ≠ 0) ∧ (syndrome 3 + 2 ^ 143 ∉ columns) := by decide

theorem witness_OneErrorCorrected_1 :
    (2 ^ 136 - 1 < 2 ^ 136) := by decide

theorem witness_OneErrorCorrected_2 :
    (5 < 2 ^ 136) ∧ (143 < 144) := by decide

theorem witness_MarkersReadBack_1 :
    (7999 ≤ 7999) ∧ (7 < 8) ∧ ((11 * 2 ^ 92 + 5) < 2 ^ 96) ∧ ((markerType 7999 = .data → (11 * 2 ^ 92 + 5) / 2 ^ 92 ≤ 11)) := by decide

theorem witness_RillFrameRoundTrip_1 :
    (({ ftype := 1, lseq := 255, hops := 6, hopPtr := 1, up := true, bcast := true, resync := true, route := 0xABCDEF, wid := 4095, idValid := true, xtag := 65535, body := [1, 2, 3, 4] } : Frame).ftype < 256 ∧ ({ ftype := 1, lseq := 255, hops := 6, hopPtr := 1, up := true, bcast := true, resync := true, route := 0xABCDEF, wid := 4095, idValid := true, xtag := 65535, body := [1, 2, 3, 4] } : Frame).lseq < 256 ∧ ({ ftype := 1, lseq := 255, hops := 6, hopPtr := 1, up := true, bcast := true, resync := true, route := 0xABCDEF, wid := 4095, idValid := true, xtag := 65535, body := [1, 2, 3, 4] } : Frame).hops < 8 ∧ ({ ftype := 1, lseq := 255, hops := 6, hopPtr := 1, up := true, bcast := true, resync := true, route := 0xABCDEF, wid := 4095, idValid := true, xtag := 65535, body := [1, 2, 3, 4] } : Frame).hopPtr < 8 ∧ ({ ftype := 1, lseq := 255, hops := 6, hopPtr := 1, up := true, bcast := true, resync := true, route := 0xABCDEF, wid := 4095, idValid := true, xtag := 65535, body := [1, 2, 3, 4] } : Frame).route < 2 ^ 24 ∧ ({ ftype := 1, lseq := 255, hops := 6, hopPtr := 1, up := true, bcast := true, resync := true, route := 0xABCDEF, wid := 4095, idValid := true, xtag := 65535, body := [1, 2, 3, 4] } : Frame).wid < 4096 ∧ ({ ftype := 1, lseq := 255, hops := 6, hopPtr := 1, up := true, bcast := true, resync := true, route := 0xABCDEF, wid := 4095, idValid := true, xtag := 65535, body := [1, 2, 3, 4] } : Frame).xtag < 65536) := by decide

theorem witness_LimitsStayLocked_1 :
    (tLimits.limits.locked = true) ∧ (∀ (c : Instr) (rest : List Instr), tLimits.pending = c :: rest → canReset c = false) ∧ (step tLimits = .next (tLimits.advanceTo (tLimits.now + idleTime))) := ⟨by decide, (by intro c rest h; cases h), rfl⟩

theorem witness_SoftDecision_1 :
    (chaseDecode 0 1 ([0, 1] : List Nat) = some 0) := by decide

end Sys2Proof.Tests
end

/-! ## Sluice: the rails, the resets and the island clocks (R2, R21, R287, R459 to R462) -/

namespace Sys2Proof.Machine

/-! ### A reset of every domain (R462) -/

@[simp] theorem State.fullReset_now (s : State) : s.fullReset.now = s.now := rfl

@[simp] theorem State.advanceTo_absentIsland (s : State) (t : Instant) (n : Fin 64) : (s.advanceTo t).absentIsland n = s.absentIsland n := by
  simp [State.absentIsland]

@[simp] theorem State.advanceTo_isRelay (s : State) (t : Instant) (k : Fin 16) : (s.advanceTo t).isRelay k = s.isRelay k := by
  simp [State.isRelay]

/-- What a reset of every domain returns to its reset value, and what OTP and flash keep through it (R462). -/
theorem State.fullReset_resets (s : State) :
    s.fullReset.q = State.reset.q ∧ s.fullReset.shadow = State.reset.shadow ∧ s.fullReset.active = State.reset.active ∧
      s.fullReset.previous = State.reset.previous ∧ s.fullReset.commits = [] ∧ s.fullReset.bus = State.reset.bus ∧
      s.fullReset.limits = State.reset.limits ∧ s.fullReset.owners = State.reset.owners ∧ s.fullReset.tb = State.reset.tb ∧
      s.fullReset.rill = State.reset.rill ∧ s.fullReset.hosts = State.reset.hosts ∧ s.fullReset.ports = State.reset.ports ∧
      s.fullReset.hk = State.reset.hk ∧ s.fullReset.sys.fw.slots = s.sys.fw.slots ∧ s.fullReset.sys.fw.keys = s.sys.fw.keys ∧
      s.fullReset.sys.fw.flashLog = s.sys.fw.flashLog :=
  ⟨rfl, rfl, rfl, rfl, rfl, rfl, rfl, rfl, rfl, rfl, rfl, rfl, rfl, rfl, rfl, rfl⟩

/-- UVLO_FALL is a reset of every domain with every rail removed (R459). -/
theorem exec_uvloFall (s : State) (t : Nat) :
    exec (.uvloFall t) s = .next ((s.advanceTo t).fullReset.modPow fun p => { p with
      powered := false, railOk := Vector.replicate 8 false, railAt := Vector.replicate 8 (max s.now t), starting := none, bypassTaken := false
      shutdowns := [], isOff := false, stuckOff := false, shutRails := [], vin := 0, vinPrev := none }) := by
  change execUvloFall t s = _
  simp only [execUvloFall, State.fullReset_now, State.advanceTo_now]

theorem exec_resetNAssert_unpowered {s : State} (t : Nat) (hp : s.sys.pow.powered = false) :
    exec (.resetNAssert t) s = .next ((s.advanceTo t).modPow fun p => { p with resetN := false }) := by
  change execResetNAssert t s = _
  simp only [execResetNAssert, State.advanceTo_sys, hp, if_true]

theorem exec_resetNAssert_running {s : State} (t : Nat) (hp : s.sys.pow.powered = true) (hk : s.sys.pow.stuckOff = false) :
    exec (.resetNAssert t) s = .next ((s.advanceTo t).fullReset.modPow fun p => { p with resetN := false }) := by
  change execResetNAssert t s = _
  simp only [execResetNAssert, State.advanceTo_sys, hp, hk, Bool.true_eq_false, Bool.false_eq_true, if_false]

/-- RESET_N lets the rails that a third shutdown left off start again (R460). -/
theorem exec_resetNAssert_stuck {s : State} (t : Nat) (hp : s.sys.pow.powered = true) (hk : s.sys.pow.stuckOff = true) :
    exec (.resetNAssert t) s = .next (((s.advanceTo t).fullReset.modPow fun p => { p with resetN := false }).modPow fun p =>
      { p with isOff := false, stuckOff := false, shutdowns := [], starting := p.nextStart 0 (max s.now t) }) := by
  change execResetNAssert t s = _
  simp only [execResetNAssert, State.advanceTo_sys, State.advanceTo_now, hp, hk, Bool.true_eq_false, if_false, if_true]

theorem exec_rstactFullReset_other {s : State} {t : Nat} {addr : Option Nat} (h : (s.advanceTo t).reached addr = false) :
    exec (.rstactFullReset t addr) s = .next ((s.advanceTo t).answer .nack) := by
  change execRstactFullReset t addr s = _
  simp only [execRstactFullReset, h, Bool.false_eq_true, if_false]

theorem exec_rstactFullReset_reached {s : State} {t : Nat} {addr : Option Nat} (h : (s.advanceTo t).reached addr = true) :
    exec (.rstactFullReset t addr) s = .next ((s.advanceTo t).fullReset.answer .ack) := by
  change execRstactFullReset t addr s = _
  simp only [execRstactFullReset, h, if_true]

/-- The release comes 1 ms after the last rail reached its window: every rail has then been in its window that long (R462). -/
theorem exec_resetRelease_ready {s : State} {t : Nat} (b : Bool) (hh : s.sys.pow.held = true) (hp : s.sys.pow.powered = true)
    (ho : s.sys.pow.isOff = false) (hr : ∀ x : Fin 8, s.sys.pow.railOk[x] = true ∧ s.sys.pow.railAt[x] + msec 1 ≤ max s.now t) :
    exec (.resetRelease t b) s = .next (((s.advanceTo t).modSys fun y => { y with
      saddrSel := b, pow := { y.pow with held := false, resetN := true } }).modFw fun f => { f with romDue := some .reset }) := by
  have ready : ((List.finRange 8).all fun r => s.sys.pow.railOk[r] && decide (s.sys.pow.railAt[r] + msec 1 ≤ max s.now t)) = true :=
    List.all_eq_true.2 fun r _ => by simpa only [Bool.and_eq_true, decide_eq_true_eq] using hr r
  change execResetRelease t b s = _
  simp only [execResetRelease, State.advanceTo_sys, State.advanceTo_now, hh, hp, ho, ready, and_self, if_true]

/-! ### The rails (R460, R461, R462) -/

/-- The first soft-start comes 0.10 ms after the always-on island starts (R459, Table 13.2). -/
theorem exec_powerOn_unpowered {s : State} (t : Nat) (hp : s.sys.pow.powered = false) :
    exec (.powerOn t) s = .next ((s.advanceTo t).modPow fun p => { p with powered := true, held := true, starting := some (0, max s.now t + usec 100) }) := by
  change execPowerOn t s = _
  simp only [execPowerOn, State.advanceTo_sys, State.advanceTo_now, hp, Bool.false_eq_true, if_false]

/-- The rail whose soft-start has begun reaches its window, and the next rail of the order starts (R462). -/
theorem exec_railInWindow_inTurn {s : State} {t k a : Nat} {r : Fin 8} (b : Bool) (hp : s.sys.pow.powered = true) (ho : s.sys.pow.isOff = false)
    (hr : s.sys.pow.railOk[r] = false) (hs : s.sys.pow.starting = some (k, a)) (hk : railOrder[k]? = some r) (ha : a ≤ max s.now t) :
    exec (.railInWindow t r b) s = .next ((s.advanceTo t).modPow fun p =>
      let p1 := if r = 6 ∧ p.bypassTaken = false then { p with bypass := b, bypassTaken := true } else p
      { p1 with railOk := p1.railOk.set r true, railAt := p1.railAt.set r (max s.now t), starting := p1.nextStart (k + 1) (max s.now t) }) := by
  change execRailInWindow t r b s = _
  simp only [execRailInWindow, State.advanceTo_sys, State.advanceTo_now, hp, ho, hr, hs, hk, ha, Bool.true_eq_false, Bool.false_eq_true,
    or_self, and_self, if_false, if_true]

/-- A rail reaches its window out of turn, and starts no other: no rail is soft-starting, or another one is and Sluice does not make
this one (R461). -/
theorem exec_railInWindow_outOfTurn {s : State} {t : Nat} {r : Fin 8} (b : Bool) (hp : s.sys.pow.powered = true) (ho : s.sys.pow.isOff = false)
    (hr : s.sys.pow.railOk[r] = false)
    (hs : ∀ k a, s.sys.pow.starting = some (k, a) → ¬ (railOrder[k]? = some r ∧ a ≤ max s.now t) ∧ s.sys.pow.makes r = false) :
    exec (.railInWindow t r b) s = .next ((s.advanceTo t).modPow fun p => { p with
      railOk := p.railOk.set r true, railAt := p.railAt.set r (max s.now t) }) := by
  change execRailInWindow t r b s = _
  simp only [execRailInWindow, State.advanceTo_sys, State.advanceTo_now, hp, ho, hr, Bool.true_eq_false, Bool.false_eq_true, or_self, if_false]
  cases h : s.sys.pow.starting with
  | none => rfl
  | some x =>
    obtain ⟨hturn, hmakes⟩ := hs x.1 x.2 h
    simp only [hturn, hmakes, Bool.false_eq_true, if_false]

theorem exec_supplyShutdown_on {s : State} (t rails : Nat) (hp : s.sys.pow.powered = true) (ho : s.sys.pow.isOff = false) :
    exec (.supplyShutdown t rails) s = .next ((s.advanceTo t).shutdown (rails % 256)) := by
  change execSupplyShutdown t rails s = _
  simp only [execSupplyShutdown, State.advanceTo_sys, hp, ho, Bool.true_eq_false, Bool.false_eq_true, or_self, if_false]

theorem exec_railStartTimeout_late {s : State} {t k a : Nat} (hs : s.sys.pow.starting = some (k, a))
    (ha : (s.advanceTo t).past 1310720 1 (a + msec 2) = true) :
    exec (.railStartTimeout t) s = .next ((s.advanceTo t).shutdown (idxMask ((List.finRange 8).filter fun r => !s.sys.pow.railOk[r]))) := by
  change execRailStartTimeout t s = _
  simp only [execRailStartTimeout, State.advanceTo_sys, hs, ha, if_true]

theorem exec_shutdownRestart_due {s : State} {t : Nat} (ho : s.sys.pow.isOff = true) (hk : s.sys.pow.stuckOff = false)
    (ha : s.sys.pow.shutdowns.headD 0 + msec 10 ≤ max s.now t) :
    exec (.shutdownRestart t) s = .next ((s.advanceTo t).modPow fun p => { p with isOff := false, starting := p.nextStart 0 (max s.now t) }) := by
  change execShutdownRestart t s = _
  simp only [execShutdownRestart, State.advanceTo_sys, State.advanceTo_now, ho, hk, ha, and_self, if_true]

/-! ### The clocks of the islands (R2, R21, R287) -/

/-- An island is noted as running on its island clock (R21). -/
def State.withIsland (s : State) (n : Fin 64) : State := s.modSys fun y => { y with islands := y.islands.set n true }

/-- The transmit framer of a lane is clocked, and aligned as a framer that starts (R34). -/
def State.clockTx (s : State) (r : LaneRef) : State := (s.modLane r fun l => { l with tx := { l.tx with clocked := true } }).alignTx r

/-- Only the record ports' islands of a ZK3208-W are absent (R2). -/
theorem State.absentIsland_of_ne {s : State} {n : Fin 64} (h1 : n.val ≠ 41) (h2 : n.val ≠ 42) : s.absentIsland n = false := by
  simp [State.absentIsland, h1, h2]

/-- The firmware may move islands: no reset holds them, the device is powered, and it is in RUN or STANDBY. -/
def State.movesIslands (s : State) : Prop := s.sys.pow.held = false ∧ s.sys.pow.powered = true ∧ s.sys.pstate ≤ 1

theorem exec_islandClockSwitch_absent {s : State} {t : Nat} {n : Fin 64} (h : (s.advanceTo t).absentIsland n = true) :
    exec (.islandClockSwitch t n) s = .next (s.advanceTo t) := by
  change execIslandClockSwitch t n s = _
  simp only [execIslandClockSwitch, h, or_true, if_true]

/-- What a move of an island to its clock does with the part that runs on it: the counter of the time base, the framer of a line lane
or of a relay lane, or nothing more. -/
theorem exec_islandClockSwitch_moves {s : State} {t : Nat} {n : Fin 64} (hm : s.movesIslands) (ha : (s.advanceTo t).absentIsland n = false) :
    exec (.islandClockSwitch t n) s =
      if n = 43 then .next (if s.tb.running then (s.advanceTo t).withIsland n
        else ((s.advanceTo t).withIsland n).modTb fun b => { b with running := true, counter := 0, startAt := max s.now t, past := [] })
      else if h : n.val < 8 then
        .next (if s.lanes[n.val].acq.power = .l2 then (s.advanceTo t).withIsland n else ((s.advanceTo t).withIsland n).clockTx (.line ⟨n.val, h⟩))
      else if h : 17 ≤ n.val ∧ n.val < 33 then
        let k : Fin 16 := ⟨n.val - 17, by omega⟩
        .next (if s.isRelay k ∧ s.active.host[k].enable ∧ s.hosts[k].power ≠ .l2 then ((s.advanceTo t).withIsland n).clockTx (.relay k)
          else (s.advanceTo t).withIsland n)
      else .next ((s.advanceTo t).withIsland n) := by
  obtain ⟨hh, hp, hps⟩ := hm
  have h2 : s.sys.pstate ≠ 2 := by omega
  have h3 : s.sys.pstate ≠ 3 := by omega
  change execIslandClockSwitch t n s = _
  simp only [execIslandClockSwitch, ha, State.advanceTo_sys, State.advanceTo_now, State.advanceTo_tb_running, State.advanceTo_lanes,
    State.advanceTo_hosts, State.advanceTo_active, State.advanceTo_isRelay, hh, hp, h2, h3, Bool.false_eq_true, Bool.true_eq_false,
    or_self, false_and, if_false]
  rfl

theorem exec_islandClockSwitch_timeBase {s : State} {t : Nat} (hm : s.movesIslands) (hr : s.tb.running = false)
    (ha : (s.advanceTo t).absentIsland 43 = false) :
    exec (.islandClockSwitch t 43) s = .next (((s.advanceTo t).withIsland 43).modTb fun b => { b with
      running := true, counter := 0, startAt := max s.now t, past := [] }) := by
  rw [exec_islandClockSwitch_moves hm ha]
  simp only [hr, Bool.false_eq_true, if_true, if_false]

theorem exec_islandClockSwitch_line {s : State} (t : Nat) (n : Fin 8) (hm : s.movesIslands) (hl : s.lanes[n].acq.power ≠ .l2) :
    exec (.islandClockSwitch t (LaneRef.line n).island) s = .next (((s.advanceTo t).withIsland (LaneRef.line n).island).clockTx (.line n)) := by
  have hv : (LaneRef.line n).island.val = n.val := rfl
  have hl' : s.lanes[n.val].acq.power ≠ .l2 := hl
  have h43 : (LaneRef.line n).island ≠ 43 := Fin.ne_of_val_ne (by change n.val ≠ 43; omega)
  rw [exec_islandClockSwitch_moves hm (State.absentIsland_of_ne (by omega) (by omega)), if_neg h43, dif_pos (hv ▸ n.isLt)]
  simp only [hv, hl', if_false]

theorem exec_islandClockSwitch_relay {s : State} (t : Nat) (k : Fin 16) (hm : s.movesIslands) (hr : s.active.host[k].relay = true)
    (he : s.active.host[k].enable = true) (hl : s.hosts[k].power ≠ .l2) :
    exec (.islandClockSwitch t (LaneRef.relay k).island) s = .next (((s.advanceTo t).withIsland (LaneRef.relay k).island).clockTx (.relay k)) := by
  have hv : (LaneRef.relay k).island.val = 17 + k.val := rfl
  have hk : (⟨(LaneRef.relay k).island.val - 17, by omega⟩ : Fin 16) = k := Fin.ext (by simp [hv])
  have h43 : (LaneRef.relay k).island ≠ 43 := Fin.ne_of_val_ne (by change 17 + k.val ≠ 43; omega)
  rw [exec_islandClockSwitch_moves hm (State.absentIsland_of_ne (by omega) (by omega)), if_neg h43, dif_neg (by omega), dif_pos (by omega)]
  simp only [hk, State.isRelay, hr, he, hl, ne_eq, not_false_eq_true, and_self, if_true]

theorem exec_islandClockSwitch_other {s : State} {t : Nat} {n : Fin 64} (hm : s.movesIslands) (ha : (s.advanceTo t).absentIsland n = false)
    (h43 : n ≠ 43) (h8 : 8 ≤ n.val) (hn : n.val < 17 ∨ 33 ≤ n.val) :
    exec (.islandClockSwitch t n) s = .next ((s.advanceTo t).withIsland n) := by
  rw [exec_islandClockSwitch_moves hm ha, if_neg h43, dif_neg (by omega), dif_neg (by omega)]

/-- Settles O26, clause by clause: the rails, the resets of every domain, and the clocks of the islands. -/
theorem railsAndReset : Obligations.RailsAndReset := by
  unfold Obligations.RailsAndReset
  refine ⟨exec_uvloFall, fun _ t => exec_powerOn_unpowered t, fun _ _ _ b _ _ => exec_railInWindow_inTurn b, ?startNone, ?startOther,
    fun _ => exec_supplyShutdown_on, fun _ _ _ _ => exec_railStartTimeout_late, fun _ _ => exec_shutdownRestart_due,
    fun _ t => exec_resetNAssert_running t, fun _ t => exec_resetNAssert_stuck t, fun _ t => exec_resetNAssert_unpowered t, State.fullReset_resets,
    fun _ _ _ => exec_rstactFullReset_other, fun _ _ _ => exec_rstactFullReset_reached, fun _ _ b => exec_resetRelease_ready b,
    fun _ _ hh hp hps => exec_islandClockSwitch_timeBase ⟨hh, hp, hps⟩, fun _ t n hh hp hps => exec_islandClockSwitch_line t n ⟨hh, hp, hps⟩,
    fun _ t k hh hp hps => exec_islandClockSwitch_relay t k ⟨hh, hp, hps⟩, fun _ _ _ hh hp hps => exec_islandClockSwitch_other ⟨hh, hp, hps⟩,
    fun _ _ _ => exec_islandClockSwitch_absent⟩
  case startNone =>
    intro s t r b hp ho hr hnone
    exact exec_railInWindow_outOfTurn b hp ho hr fun k a h => by simp [hnone] at h
  case startOther =>
    intro s t r b k a hp ho hr hs hturn hmakes
    refine exec_railInWindow_outOfTurn b hp ho hr fun k' a' h => ?_
    obtain ⟨rfl, rfl⟩ : k = k' ∧ a = a' := by simpa [hs] using h
    exact ⟨hturn, hmakes⟩

end Sys2Proof.Machine

namespace Sys2Proof.Machine

/-! ## The hardware limits once locked (R46, R47) -/

/-- No row but those that can reset the device changes locked limits: each row's own lemma of `Laws/Limits` says so. -/
theorem exec_limits_of_locked {c : Instr} {s : State} (hl : s.limits.locked = true) (hc : canReset c = false) :
    outLim s.limits (exec c s) = s.limits := by
  cases c with
  | uvloFall | supplyShutdown | railStartTimeout | resetNAssert | rstactFullReset => exact Bool.noConfusion hc
  | _ => simp [exec, hl]

/-- Settles O57: the front command's row keeps locked limits, and with no command waiting only time passes. -/
theorem limitsStayLocked : Obligations.LimitsStayLocked := by
  unfold Obligations.LimitsStayLocked
  intro s s' hl hc h
  cases hp : s.pending with
  | nil =>
    obtain rfl : s.advanceTo (s.now + idleTime) = s' := by simpa [step, hp] using h
    exact State.advanceTo_limits ..
  | cons c rest =>
    have hrow : exec c { s with pending := rest } = .next s' := by simpa [step, hp] using h
    have hkeep := exec_limits_of_locked (s := { s with pending := rest }) hl (hc c rest hp)
    rwa [hrow] at hkeep

end Sys2Proof.Machine

namespace Sys2Proof.Machine

/-! ## Reset, notification, sessions, limits and grouping (R31, R46, R47, R49, R74, R96, R99, R106, R107, R262) -/

/-- Settles O50: `State.reset` holds each value as it stands. -/
theorem resetLeaves : Obligations.ResetLeaves := by
  unfold Obligations.ResetLeaves
  exact ⟨⟨rfl, rfl⟩, by decide, by decide, ⟨rfl, rfl⟩, ⟨rfl, rfl, rfl, rfl, rfl⟩, by decide⟩

/-! ### LIMIT_SET and LIMIT_LOCK -/

/-- Every lockable limit has at most 24 instances, so that 0xFF names none of them (R106). -/
theorem limitScope_lt {id n : Nat} {fixed : Bool} (h : limitScope id = some (n, fixed)) : n < 0xFF := by
  unfold limitScope at h
  split at h <;> simp at h <;> omega

/-- What LIMIT_SET with a good payload does with a limit that is not fixed: refused while locked, else every instance named is written
(R107). -/
theorem cmdLimitSet_good {q : QId} {e : QEntry} {s : State} {n : Nat} (hs : limitScope (bits (e.w 0) 0 8) = some (n, false)) (hl : e.len = 20)
    (hi : bits (e.w 0) 8 8 < n ∨ bits (e.w 0) 8 8 = 0xFF) (hok : limitOk (bits (e.w 0) 0 8) (e.w 1) (e.w 2) (e.w 3) (e.w 4) = true)
    (hr : rsvHigh (e.w 0) 16 = true) :
    cmdLimitSet q e s =
      if s.limits.locked then .fail .precondition []
      else
        let is := if bits (e.w 0) 8 8 = 0xFF then List.range n else [bits (e.w 0) 8 8]
        let l := is.foldl (fun l i => l.set (bits (e.w 0) 0 8) i (e.w 1) (e.w 2) (e.w 3) (e.w 4)) s.limits
        .ok (limitReply l (bits (e.w 0) 0 8) (bits (e.w 0) 8 8) (is.headD 0) false) { s with limits := l } := by
  unfold cmdLimitSet
  simp only [hs]
  exact checked_pass (by simp [hl]) (by simp [hi, hok, hr])

/-- A limit that can be set, and an instance of it where the command names one. -/
theorem limitScope_of_any {id : Nat} {p : Nat → Bool} (h : (limitScope id).any (fun x => !x.2 && p x.1) = true) :
    ∃ n, limitScope id = some (n, false) ∧ p n = true := by
  cases hs : limitScope id with
  | none => simp [hs] at h
  | some x =>
    obtain ⟨n, fixed⟩ := x
    obtain ⟨rfl, hp⟩ : fixed = false ∧ p n = true := by simpa [hs] using h
    exact ⟨n, rfl, hp⟩

/-- Settles O11: each command's checks pass, and its work is the write that the statement names. -/
theorem systemWrites : Obligations.SystemWrites := by
  unfold Obligations.SystemWrites
  refine ⟨?notify, ?expert, ?basic, ?oneInstance, ?everyInstance, ?grouping⟩
  case notify =>
    refine completes_ok cmdSetNotify (fun _ _ _ => rfl) fun q e s hpre => ?_
    obtain ⟨hl, h0, h1⟩ := hpre
    exact checked_pass (by simp [hl]) (by simp [h0, h1])
  case expert => exact completes_ok cmdSessionExpert (fun _ _ _ => rfl) fun q e s hl => checked_pass (by simp [hl]) rfl
  case basic => exact completes_ok cmdSessionBasic (fun _ _ _ => rfl) fun q e s hl => checked_pass (by simp [hl]) rfl
  case oneInstance =>
    refine completes_ok cmdLimitSet (fun _ _ _ => rfl) fun q e s hpre => ?_
    obtain ⟨hl, hopen, hok, hr, hany⟩ := hpre
    obtain ⟨n, hs, hi⟩ := limitScope_of_any (p := fun n => decide (bits (e.w 0) 8 8 < n)) hany
    have hlt : bits (e.w 0) 8 8 < n := of_decide_eq_true hi
    have hone : bits (e.w 0) 8 8 ≠ 0xFF := (Nat.lt_trans hlt (limitScope_lt hs)).ne
    simp [cmdLimitSet_good hs hl (.inl hlt) hok hr, hopen, hone]
  case everyInstance =>
    refine completes_ok cmdLimitSet (fun _ _ _ => rfl) fun q e s hpre => ?_
    obtain ⟨hl, hopen, hok, hr, hall, hany⟩ := hpre
    obtain ⟨n, hs, -⟩ := limitScope_of_any (p := fun _ => true) (by simpa using hany)
    have hfirst : (List.range n).head?.getD 0 = 0 := by rw [List.head?_range]; split <;> rfl
    simp [cmdLimitSet_good hs hl (.inr hall) hok hr, hopen, hall, hs, hfirst]
  case grouping =>
    refine completes_ok cmdSetGrouping (fun _ _ _ => rfl) fun q e s hpre => ?_
    obtain ⟨hl, h0⟩ := hpre
    exact checked_pass (by simp [hl]) h0

/-- A lock of open limits is recorded with its cause and reported (R47, R96). -/
theorem State.lockLimits_open {s : State} (h : s.limits.locked = false) (cause : Nat) (q : QId) (tag : Nat) :
    s.lockLimits cause q tag = { s with limits := { s.limits with locked := true, lockCause := cause } }.event 0xE050 0
      (wordsLe [pack [(cause, 8), (q.num, 4), (0, 4), (tag, 16)]] ++ s.stampMgmt.bytes) := by
  simp [State.lockLimits, h]

/-- Settles O12: by the state of the lock. -/
theorem limitsLock : Obligations.LimitsLock := by
  unfold Obligations.LimitsLock
  refine ⟨?lock, ?again, ?refused⟩
  case lock =>
    refine completes_ok cmdLimitLock (fun _ _ _ => rfl) fun q e s hpre => ?_
    obtain ⟨hl, hopen⟩ := hpre
    rw [← State.lockLimits_open hopen]
    exact checked_pass (by simp [hl]) rfl
  case again =>
    refine completes_ok cmdLimitLock (fun _ _ _ => rfl) fun q e s hpre => ?_
    obtain ⟨hl, hlocked⟩ := hpre
    have hsame : s.lockLimits 0x01 q e.cmd.tag = s := if_pos hlocked
    exact (checked_pass (by simp [hl]) rfl).trans (by rw [hsame])
  case refused =>
    refine completes_fail cmdLimitSet (fun _ _ _ => rfl) fun q e s hpre => ?_
    obtain ⟨hl, hlocked, hok, hr, hany⟩ := hpre
    obtain ⟨n, hs, hi⟩ := limitScope_of_any (p := fun n => decide (bits (e.w 0) 8 8 < n)) hany
    rw [cmdLimitSet_good hs hl (.inl (of_decide_eq_true hi)) hok hr, if_pos hlocked]

end Sys2Proof.Machine

namespace Sys2Proof.Machine

/-! ## Settings of the line lanes (R32, R50, R112 to R166, R204, R214, R217, R247) -/

/-! ### One lane after a change of each selected lane -/

section
variable {f : Fin 8 → State → State}

/-- A change of each selected lane, seen through what only the lane's own change touches.  What the changes do may rest on a fact about
the state that all of them keep. -/
theorem forEach_lane {β : Type} {proj : Fin 8 → State → β} {g : Fin 8 → β → β} {I : State → Prop} (keep : ∀ m s, I s → I (f m s))
    (self : ∀ m s, I s → proj m (f m s) = g m (proj m s)) (other : ∀ m n s, I s → n ≠ m → proj n (f m s) = proj n s)
    (e : QEntry) {s : State} (hs : I s) (n : Fin 8) :
    proj n (s.forEach e.lanes f) = if n ∈ e.lanes then g n (proj n s) else proj n s := by
  have along : ∀ (ls : List (Fin 8)), ls.Nodup → ∀ s, I s → proj n (s.forEach ls f) = if n ∈ ls then g n (proj n s) else proj n s := by
    intro ls
    induction ls with
    | nil => intro _ s _; rfl
    | cons m ls ih =>
      intro nd s hs
      obtain ⟨hm, nd⟩ := List.nodup_cons.mp nd
      rw [State.forEach, List.foldl_cons, ← State.forEach, ih nd _ (keep m s hs)]
      by_cases hn : n = m
      · subst hn; simp [hm, self n s hs]
      · simp [hn, other m n s hs hn]
  exact along _ e.lanes_nodup s hs

/-- The receive set of a lane after a change of each selected lane. -/
theorem forEach_lineRx {g : Fin 8 → LineRxP → LineRxP} {I : State → Prop} (keep : ∀ m s, I s → I (f m s))
    (h : ∀ (m : Fin 8) (s : State) (j : Nat) (hj : j < 8), I s → (f m s).shadow.lineRx[j] = if j = m.val then g m s.shadow.lineRx[j] else s.shadow.lineRx[j])
    (e : QEntry) {s : State} (hs : I s) (n : Fin 8) :
    (s.forEach e.lanes f).shadow.lineRx[n] = if n ∈ e.lanes then g n s.shadow.lineRx[n] else s.shadow.lineRx[n] :=
  forEach_lane (proj := fun n s => s.shadow.lineRx[n]) keep (fun m s hs => by simp [h m s m m.isLt hs])
    (fun m n s hs hn => (h m s n n.isLt hs).trans (if_neg fun c => hn (Fin.ext c))) e hs n

/-- The transmit set of a lane after a change of each selected lane. -/
theorem forEach_lineTx {g : Fin 8 → LineTxP → LineTxP} {I : State → Prop} (keep : ∀ m s, I s → I (f m s))
    (h : ∀ (m : Fin 8) (s : State) (j : Nat) (hj : j < 8), I s → (f m s).shadow.lineTx[j] = if j = m.val then g m s.shadow.lineTx[j] else s.shadow.lineTx[j])
    (e : QEntry) {s : State} (hs : I s) (n : Fin 8) :
    (s.forEach e.lanes f).shadow.lineTx[n] = if n ∈ e.lanes then g n s.shadow.lineTx[n] else s.shadow.lineTx[n] :=
  forEach_lane (proj := fun n s => s.shadow.lineTx[n]) keep (fun m s hs => by simp [h m s m m.isLt hs])
    (fun m n s hs hn => (h m s n n.isLt hs).trans (if_neg fun c => hn (Fin.ext c))) e hs n

/-- The receive sets where a lane's change rests on nothing but its set. -/
theorem forEach_lineRx_free {g : Fin 8 → LineRxP → LineRxP}
    (h : ∀ (m : Fin 8) (s : State) (j : Nat) (hj : j < 8), (f m s).shadow.lineRx[j] = if j = m.val then g m s.shadow.lineRx[j] else s.shadow.lineRx[j])
    (e : QEntry) (s : State) (n : Fin 8) :
    (s.forEach e.lanes f).shadow.lineRx[n] = if n ∈ e.lanes then g n s.shadow.lineRx[n] else s.shadow.lineRx[n] :=
  forEach_lineRx (I := fun _ => True) (fun _ _ => id) (fun m s j hj _ => h m s j hj) e trivial n

/-- The transmit sets where a lane's change rests on nothing but its set. -/
theorem forEach_lineTx_free {g : Fin 8 → LineTxP → LineTxP}
    (h : ∀ (m : Fin 8) (s : State) (j : Nat) (hj : j < 8), (f m s).shadow.lineTx[j] = if j = m.val then g m s.shadow.lineTx[j] else s.shadow.lineTx[j])
    (e : QEntry) (s : State) (n : Fin 8) :
    (s.forEach e.lanes f).shadow.lineTx[n] = if n ∈ e.lanes then g n s.shadow.lineTx[n] else s.shadow.lineTx[n] :=
  forEach_lineTx (I := fun _ => True) (fun _ _ => id) (fun m s j hj _ => h m s j hj) e trivial n
end

theorem timingReply_length (p : LineRxP) : p.timingReply.length = 4 := rfl
theorem swingReply_length (fs : Nat) : (swingReply fs).length = 4 := rfl
theorem skewReply_length (target applied : Int) : (skewReply target applied).length = 4 := rfl
theorem gainReply_length (s : State) (sel : List (Fin 8)) : (s.gainReply sel).length = 8 := by simp [State.gainReply]

/-- Settles O15: each command changes its selected lanes' own sets, one lane at a time. -/
theorem lineLaneWrites : Obligations.LineLaneWrites := by
  unfold Obligations.LineLaneWrites
  refine ⟨?mode, ?enable, ?gain, ?lockLoss, ?predist, ?clockSource⟩
  case mode =>
    refine writes cmdLineMode (fun _ _ _ => rfl) fun q e s hpre => ?_
    obtain ⟨hl, h0, h1⟩ := hpre
    unfold cmdLineMode
    refine ⟨_, _, checked_pass (by simp [hl]) (by simp [h0, h1]), Nat.zero_le _, fun n => ?_, fun n => ?_⟩
    · exact forEach_lineRx_free (g := fun _ p => { p with s200 := bit (e.w 0) 8 }) (fun m s j hj => by simp) e s n
    · exact forEach_lineTx_free (g := fun _ p => { p with s200 := bit (e.w 0) 8 }) (fun m s j hj => by simp) e s n
  case enable =>
    refine writes cmdLineEnable (fun _ _ _ => rfl) fun q e s hpre => ?_
    obtain ⟨hl, h0⟩ := hpre
    unfold cmdLineEnable
    refine ⟨_, _, checked_pass (by simp [hl]) h0, Nat.zero_le _, fun n => ?_, fun n => ?_⟩
    · exact forEach_lineRx_free (g := fun m p => { p with rxEn := bit (e.w 0) (8 + m.val) }) (fun m s j hj => by simp) e s n
    · exact forEach_lineTx_free (g := fun m p => { p with txEn := bit (e.w 0) (16 + m.val) }) (fun m s j hj => by simp) e s n
  case gain =>
    refine writes cmdRxGain (fun _ _ _ => rfl) fun q e s hpre => ?_
    obtain ⟨hl, h0, hlo, hhi⟩ := hpre
    unfold cmdRxGain
    refine ⟨_, _, checked_pass (by simp [hl]) (by simp [h0, hlo, hhi]), by simp [gainReply_length], fun n => ?_⟩
    exact forEach_lineRx_free (g := fun _ p => { p with targetRms := bits (e.w 0) 8 8 }) (fun m s j hj => by simp) e s n
  case lockLoss =>
    refine writes cmdLockLossConfig (fun _ _ _ => rfl) fun q e s hpre => ?_
    obtain ⟨hl, h0, h1, h3, hch, hscale, hlos⟩ := hpre
    unfold cmdLockLossConfig
    refine ⟨_, _, checked_pass (by simp [hl]) (by simpa [h0, h1, h3, hch, hlos] using hscale), Nat.zero_le _, fun n => ?_⟩
    exact forEach_lineRx_free (g := fun _ p => { p with
      failThreshold := bits (e.w 0) 16 16, optChannel := bits (e.w 1) 0 8, optScale := bits (e.w 1) 16 16, losAssert := bits (e.w 2) 0 16
      losDeassert := bits (e.w 2) 16 16, darkLevel := bits (e.w 3) 0 16 }) (fun m s j hj => by simp) e s n
  case predist =>
    refine writes cmdTxPredist (fun _ _ _ => rfl) fun q e s hpre => ?_
    obtain ⟨hl, h0⟩ := hpre
    unfold cmdTxPredist
    refine ⟨_, _, checked_pass (by simp [hl]) h0, Nat.zero_le _, fun n => ?_⟩
    exact forEach_lineTx_free (g := fun _ p => { p with pdAdaptive := bit (e.w 0) 8 }) (fun m s j hj => by simp) e s n
  case clockSource =>
    refine writes cmdTxClockSource (fun _ _ _ => rfl) fun q e s hpre => ?_
    obtain ⟨hl, h0⟩ := hpre
    unfold cmdTxClockSource
    refine ⟨_, _, checked_pass (by simp [hl]) h0, Nat.zero_le _, fun n => ?_⟩
    exact forEach_lineTx_free (g := fun _ p => { p with clkLoop := bit (e.w 0) 8, clkLane := ⟨bits (e.w 0) 9 3, by simp only [bits]; omega⟩ })
      (fun m s j hj => by simp) e s n

end Sys2Proof.Machine

namespace Sys2Proof.Machine

/-! ### Pinned parameters (R50) -/

/-- Each selected lane gains the pins that its own writes add, and no other lane gains any. -/
theorem forEach_pinned {f : Fin 8 → State → State} {block : Fin 8 → Block} {op : Nat} {added : Nat → Prop} [DecidablePred added]
    (h : ∀ m s n x, (f m s).shadow.pinned (block n) op x = (s.shadow.pinned (block n) op x || decide (n = m ∧ added x)))
    (e : QEntry) (s : State) (n : Fin 8) (x : Nat) :
    (s.forEach e.lanes f).shadow.pinned (block n) op x = (s.shadow.pinned (block n) op x || decide (n ∈ e.lanes ∧ added x)) := by
  rw [forEach_lane (proj := fun n s => s.shadow.pinned (block n) op x) (g := fun _ b => b || decide (added x)) (I := fun _ => True)
    (fun _ _ => id) (fun m s _ => by simp [h]) (fun m n s _ hn => by simp [h, hn]) e trivial n]
  by_cases hn : n ∈ e.lanes <;> simp [hn]

/-- Settles O16: the writes and the pins of each selected lane touch that lane's set and block alone. -/
theorem lineLaneExpertWrites : Obligations.LineLaneExpertWrites := by
  unfold Obligations.LineLaneExpertWrites
  refine ⟨?gain, ?timing, ?decode, ?skew, ?predist⟩
  case gain =>
    refine writes cmdRxGainExpert (fun _ _ _ => rfl) fun q e s hpre => ?_
    obtain ⟨hl, hg, h0, h1⟩ := hpre
    unfold cmdRxGainExpert
    refine ⟨_, _, checked_pass (by simp [hl]) (by simp [hg, h0, h1]), by simp [gainReply_length], fun n => ⟨?_, fun x => ?_⟩⟩
    · exact forEach_lineRx_free (g := fun _ p => { p with gainCode := bits (e.w 0) 16 7 }) (fun m s j hj => by simp) e s n
    · exact forEach_pinned (block := .lineRx) (added := fun x => x = 128) (fun m s n x => by simp) e s n x
  case timing =>
    refine writes cmdRxTimingExpert (fun _ _ _ => rfl) fun q e s hpre => ?_
    obtain ⟨hl, hkp, hki, hki', hph, hph', h0, h0', h0'', h1, hsome⟩ := hpre
    unfold cmdRxTimingExpert
    refine ⟨_, _, checked_pass (by simp [hl]) (by simp [hkp, hki, hki', hph, hph', h0, h0', h0'', h1, hsome]), by simp [timingReply_length],
      fun n => ⟨?_, fun x => ?_⟩⟩
    · exact forEach_lineRx_free (g := fun _ p => { p with
        kpShift := bits (e.w 0) 16 4, kiShift := bits (e.w 0) 21 5, phase := toSigned 7 (bits (e.w 1) 0 7) })
        (fun m s j hj => by by_cases hm : j = m.val <;> simp [hm]) e s n
    · refine forEach_pinned (block := .lineRx) (added := fun x => x = 128 ∨ x = 129 ∨ x = 130) (fun m s n x => ?_) e s n x
      by_cases hn : n = m <;> simp [hn, Bool.or_assoc]
  case decode =>
    refine writes cmdRxDecodeExpert (fun _ _ _ => rfl) fun q e s hpre => ?_
    obtain ⟨hl, hd, hsc, h0, h0'⟩ := hpre
    unfold cmdRxDecodeExpert
    refine ⟨_, _, checked_pass (by simp [hl]) (by simp [hd, hsc, h0, h0']), Nat.zero_le _, fun n => ⟨?_, fun x => ?_⟩⟩
    · exact forEach_lineRx_free (g := fun _ p => { p with depth := bits (e.w 0) 16 3, llrScale := bits (e.w 0) 24 8 })
        (fun m s j hj => by by_cases hm : j = m.val <;> simp [hm]) e s n
    · refine forEach_pinned (block := .lineRx) (added := fun x => x = 128 ∨ x = 129) (fun m s n x => ?_) e s n x
      by_cases hn : n = m <;> simp [hn, Bool.or_assoc]
  case skew =>
    refine writes cmdTxSkewExpert (fun _ _ _ => rfl) fun q e s hpre => ?_
    obtain ⟨hl, hlo, hhi, h0, h0', hsome⟩ := hpre
    unfold cmdTxSkewExpert
    refine ⟨_, _, checked_pass (by simp [hl]) (by simp [hlo, hhi, h0, h0', hsome]), by simp [skewReply_length], fun n => ⟨?_, fun x => ?_⟩⟩
    · exact forEach_lineTx_free (g := fun _ p => { p with skew := toSigned 14 (bits (e.w 0) 16 14) }) (fun m s j hj => by simp) e s n
    · exact forEach_pinned (block := .lineTx) (added := fun x => x = 128) (fun m s n x => by simp) e s n x
  case predist =>
    refine writes cmdTxPredistExpert (fun _ _ _ => rfl) fun q e s hpre => ?_
    obtain ⟨hl, h0, hpd⟩ := hpre
    unfold cmdTxPredistExpert
    refine ⟨_, _, checked_pass (by simp [hl]) (by simpa [h0, List.all_eq_true, Fin.forall_iff] using hpd), Nat.zero_le _, fun n => ⟨?_, fun x => ?_⟩⟩
    · exact forEach_lineTx_free (g := fun _ p => { p with pd := Vector.ofFn fun j => toSigned 8 (fieldAt e.cmd.payload (4 + j.val) 1) })
        (fun m s j hj => by simp) e s n
    · exact forEach_pinned (block := .lineTx) (added := fun x => x = 0) (fun m s n x => by simp) e s n x

/-! ### Parameters that a pin keeps (R50, R120, R156, R164, R204) -/

/-- The pins of an expert opcode's parameters stand, from one state to another. -/
def SamePins (block : Fin 8 → Block) (op : Nat) (s u : State) : Prop := ∀ n el, u.shadow.pinned (block n) op el = s.shadow.pinned (block n) op el

/-- TX_SWING's write of a lane: the code, held to the lane's ceiling. -/
theorem forEach_writeSwing (code : Nat) (e : QEntry) (s : State) (n : Fin 8) :
    (s.forEach e.lanes fun n s => s.txBasic n 0x2820 128 fun p => { p with fsCode := min code (maxFs s.limits.txSwing[n]) }).shadow.lineTx[n] =
      if n ∈ e.lanes ∧ s.shadow.pinned (.lineTx n) 0x2820 128 = false then
        { s.shadow.lineTx[n] with fsCode := min code (maxFs s.limits.txSwing[n]) }
      else s.shadow.lineTx[n] := by
  rw [forEach_lineTx (I := fun u => SamePins .lineTx 0x2820 s u ∧ u.limits = s.limits)
    (g := fun m p => if s.shadow.pinned (.lineTx m) 0x2820 128 = false then { p with fsCode := min code (maxFs s.limits.txSwing[m]) } else p)
    (fun m u hu => ⟨fun k el => by simp [hu.1 k el], by simp [State.txBasic, hu.2]⟩)
    (fun m u j hj hu => by by_cases hm : j = m.val <;> simp [hm, hu.1 m 128, hu.2]) e ⟨fun _ _ => rfl, rfl⟩]
  by_cases hn : n ∈ e.lanes <;> simp [hn]

/-- Settles O17: no write of a basic command changes a pin, so each lane is judged by the pins it had at the start; the loop gains of a class
and a stage are log entry 125. -/
theorem lineLaneBasicPinned : Obligations.LineLaneBasicPinned := by
  unfold Obligations.LineLaneBasicPinned
  refine ⟨?timing, ?decode, ?swing, ?swingClamped, ?skewNone, ?skewAlign⟩
  case timing =>
    refine writes cmdRxTiming (fun _ _ _ => rfl) fun q e s hpre => ?_
    obtain ⟨hl, hbw, h0, h0', h0'', hsome⟩ := hpre
    unfold cmdRxTiming
    refine ⟨_, _, checked_pass (by simp [hl]) (by simp [hbw, h0, h0', h0'', hsome]), by simp [timingReply_length], ?_⟩
    exact forEach_lineRx (I := fun u => SamePins .lineRx 0x2812 s u ∧ u.lanes = s.lanes)
      (g := fun m p => { p with
        bwClass := bits (e.w 0) 8 2
        kpShift := if s.shadow.pinned (.lineRx m) 0x2812 128 then p.kpShift else (loopGains (bits (e.w 0) 8 2) s.lanes[m].acq.stage).1
        kiShift := if s.shadow.pinned (.lineRx m) 0x2812 129 then p.kiShift else (loopGains (bits (e.w 0) 8 2) s.lanes[m].acq.stage).2 })
      (fun m u hu => ⟨fun k el => by simp [hu.1 k el], by simp [hu.2]⟩)
      (fun m u j hj hu => by
        by_cases hm : j = m.val
        · cases h1 : s.shadow.pinned (.lineRx m) 0x2812 128 <;> cases h2 : s.shadow.pinned (.lineRx m) 0x2812 129 <;>
            simp [hm, hu.1 m 128, hu.1 m 129, hu.2, h1, h2]
        · simp [hm]) e ⟨fun _ _ => rfl, rfl⟩
  case decode =>
    refine writes cmdRxDecode (fun _ _ _ => rfl) fun q e s hpre => ?_
    obtain ⟨hl, h0, h0'⟩ := hpre
    unfold cmdRxDecode
    refine ⟨_, _, checked_pass (by simp [hl]) (by simp [h0, h0']), Nat.zero_le _, ?_⟩
    exact forEach_lineRx (I := SamePins .lineRx 0x2813 s)
      (g := fun m p => { p with
        hard := bit (e.w 0) 8
        depth := if s.shadow.pinned (.lineRx m) 0x2813 128 then p.depth else if bit (e.w 0) 8 then 0 else 6 })
      (fun m u hu k el => by simp [hu k el])
      (fun m u j hj hu => by
        by_cases hm : j = m.val
        · cases hp : s.shadow.pinned (.lineRx m) 0x2813 128 <;> simp [hm, hu m 128, hp]
        · simp [hm]) e fun _ _ => rfl
  case swing =>
    refine writes cmdTxSwing (fun _ _ _ => rfl) fun q e s hpre => ?_
    obtain ⟨hl, hlo, hhi, h0, hsome, hfits⟩ := hpre
    unfold cmdTxSwing
    refine ⟨_, _, (checked_pass (by simp [hl]) (by simp [hlo, hhi, h0, hsome])).trans (if_neg (by simpa using hfits)), by simp [swingReply_length], ?_⟩
    exact forEach_writeSwing _ e s
  case swingClamped =>
    refine writes_clamped cmdTxSwing (fun _ _ _ => rfl) fun q e s hpre => ?_
    obtain ⟨hl, hlo, hhi, h0, hsome, hover⟩ := hpre
    unfold cmdTxSwing
    refine ⟨_, _, (checked_pass (by simp [hl]) (by simp [hlo, hhi, h0, hsome])).trans (if_pos hover), by simp [swingReply_length], ?_⟩
    exact forEach_writeSwing _ e s
  case skewNone =>
    refine writes cmdTxSkew (fun _ _ _ => rfl) fun q e s hpre => ?_
    obtain ⟨hl, h0, h0', hsome, hoff⟩ := hpre
    unfold cmdTxSkew
    refine ⟨_, _, checked_pass (by simp [hl]) (by simp [h0, h0', hsome]), by simp [skewReply_length], ?_⟩
    exact forEach_lineTx (I := SamePins .lineTx 0x2823 s)
      (g := fun m p => { p with skewAlign := false, skew := if s.shadow.pinned (.lineTx m) 0x2823 128 then p.skew else 0 })
      (fun m u hu k el => by simp [hoff, hu k el])
      (fun m u j hj hu => by
        by_cases hm : j = m.val
        · cases hp : s.shadow.pinned (.lineTx m) 0x2823 128 <;> simp [hm, hoff, hu m 128, hp]
        · simp [hm, hoff]) e fun _ _ => rfl
  case skewAlign =>
    refine writes cmdTxSkew (fun _ _ _ => rfl) fun q e s hpre => ?_
    obtain ⟨hl, h0, h0', hsome, hon⟩ := hpre
    unfold cmdTxSkew
    refine ⟨_, _, checked_pass (by simp [hl]) (by simp [h0, h0', hsome]), by simp [skewReply_length], fun n => ?_⟩
    exact forEach_lineTx_free (g := fun _ p => { p with skewAlign := true }) (fun m s j hj => by simp [hon]) e s n

end Sys2Proof.Machine

namespace Sys2Proof.Machine

/-! ### Equaliser, swing, taps, injection and loops (R124, R156 to R158, R217, R247) -/

/-- Settles O18: each command's work is the fold over its lanes that the statement names; RX_EQ's free responses are log entry 40. -/
theorem lineTapsAndTests : Obligations.LineTapsAndTests := by
  unfold Obligations.LineTapsAndTests
  refine ⟨?eqExpert, ?swing, ?swingClamped, ?ffe, ?ffeExpert, ?inject, ?injectExpert, ?loop, ?eq⟩
  case eqExpert =>
    refine completes_ok cmdRxEqExpert (fun _ _ _ => rfl) fun q e s hpre => ?_
    obtain ⟨hl, hcu, hcu', hmu, hmu', hlk, h0, h0', h1, h1', h1'', h2, h2', htaps, hsome⟩ := hpre
    unfold cmdRxEqExpert
    exact checked_pass (by simp [hl])
      (by simp only [hcu, hcu', hmu, hmu', hlk, h0, h0', h1, h1', h1'', h2, h2', htaps]; simp [hsome])
  case swing =>
    refine completes_ok cmdTxSwingExpert (fun _ _ _ => rfl) fun q e s hpre => ?_
    obtain ⟨hl, hlo, hhi, h0, h0', hsome, hfits⟩ := hpre
    unfold cmdTxSwingExpert
    exact (checked_pass (by simp [hl]) (by simp [hlo, hhi, h0, h0', hsome])).trans (if_neg (by simpa using hfits))
  case swingClamped =>
    refine completes_clamped cmdTxSwingExpert (fun _ _ _ => rfl) fun q e s hpre => ?_
    obtain ⟨hl, hlo, hhi, h0, h0', hsome, hover⟩ := hpre
    unfold cmdTxSwingExpert
    exact (checked_pass (by simp [hl]) (by simp [hlo, hhi, h0, h0', hsome])).trans (if_pos hover)
  case ffe =>
    refine completes_ok cmdTxFfe (fun _ _ _ => rfl) fun q e s hpre => ?_
    obtain ⟨hl, h0, hsome, hvalid⟩ := hpre
    unfold cmdTxFfe
    exact checked_pass (by simp [hl]) (by rw [hvalid]; simp [h0, hsome])
  case ffeExpert =>
    refine completes_ok cmdTxFfeExpert (fun _ _ _ => rfl) fun q e s hpre => ?_
    obtain ⟨hl, h0, hrsv, h4, hvalid, hsome⟩ := hpre
    unfold cmdTxFfeExpert
    exact checked_pass (by simp [hl]) (by rw [hrsv, hvalid]; simp [h0, h4, hsome])
  case inject =>
    refine completes_ok cmdErrorInject (fun _ _ _ => rfl) fun q e s hpre => ?_
    obtain ⟨hl, hp, h0, h2, h3⟩ := hpre
    unfold cmdErrorInject
    exact checked_pass (by simp [hl]) (by simp [hp, h0, h2, h3])
  case injectExpert =>
    refine completes_ok cmdErrorInjectExpert (fun _ _ _ => rfl) fun q e s hpre => ?_
    obtain ⟨hl, hk, h0, h0', h2, h3, hburst, hmarkers⟩ := hpre
    unfold cmdErrorInjectExpert
    exact checked_pass (by simp [hl]) (by simpa [hk, h0, h0', h2, h3, Decidable.imp_iff_not_or] using And.intro hburst hmarkers)
  case loop =>
    refine completes_ok cmdLineLoop (fun _ _ _ => rfl) fun q e s hpre => ?_
    obtain ⟨hl, hn, h0, h0'⟩ := hpre
    unfold cmdLineLoop
    simp only [idx?, hn, ↓reduceDIte]
    exact checked_pass (by simp [hl]) (by simp [h0, h0'])
  case eq =>
    refine completes_ok cmdRxEq (fun _ _ _ => rfl) fun q e s hpre => ?_
    obtain ⟨hl, htg, hcu, had, h0, h0', h0'', hsome⟩ := hpre
    unfold cmdRxEq
    exact checked_pass (by simp [hl]) (by simp [htg, hcu, had, h0, h0', h0'', hsome])

end Sys2Proof.Machine

namespace Sys2Proof.Machine

/-! ### What writing settings leaves (R32, R50, R77) -/

/-- One state comes from another by nothing but writes of shadow sets, pins and marks, counts of pinned writes and free values drawn. -/
def SettingsOnly (s u : State) : Prop := ∃ k m f n, u = { s with shadow := k, meta' := m, free := f, q := { s.q with nextSeq := n } }

theorem SettingsOnly.refl (s : State) : SettingsOnly s s := ⟨s.shadow, s.meta', s.free, s.q.nextSeq, rfl⟩

theorem SettingsOnly.trans {s u v : State} : SettingsOnly s u → SettingsOnly u v → SettingsOnly s v := by
  rintro ⟨_, _, _, _, rfl⟩ ⟨k, m, f, n, rfl⟩
  exact ⟨k, m, f, n, rfl⟩

theorem SettingsOnly.modShadow (s : State) (f : Bank → Bank) : SettingsOnly s (s.modShadow f) :=
  ⟨f s.shadow, s.meta', s.free, s.q.nextSeq, rfl⟩

theorem SettingsOnly.writeExpert (s : State) (b : Block) (op el : Nat) (f : Bank → Bank) : SettingsOnly s (s.writeExpert b op el f) :=
  .modShadow s _

theorem SettingsOnly.writeBasic (s : State) (b : Block) (op el : Nat) (f : Bank → Bank) : SettingsOnly s (s.writeBasic b op el f) := by
  unfold State.writeBasic
  split
  · exact ⟨s.shadow, _, s.free, s.q.nextSeq, rfl⟩
  · exact .modShadow s f

theorem SettingsOnly.forEach {α : Type} {f : α → State → State} (h : ∀ x s, SettingsOnly s (f x s)) (xs : List α) (s : State) :
    SettingsOnly s (s.forEach xs f) := by
  unfold State.forEach
  induction xs generalizing s with
  | nil => exact .refl s
  | cons x xs ih => exact (h x s).trans (ih (f x s))

/-- A command's own work that, when it passes, only writes settings. -/
def Res.OnlySettings (s : State) : Res → Prop
  | .ok _ u | .clamped _ u => SettingsOnly s u
  | .fail .. => True
  | .wait _ | .failWith .. => False

theorem checked_onlySettings {s : State} {e : QEntry} {len : Nat → Bool} {params : Bool} {rest : Unit → Res} (h : (rest ()).OnlySettings s) :
    (checked e len params rest).OnlySettings s := by
  unfold checked
  split
  · trivial
  · split
    · trivial
    · exact h

/-- A command that, once its checks pass, changes each selected lane by settings alone. -/
theorem forEachLane_onlySettings {e : QEntry} {len : Nat → Bool} {params : Bool} {payload : List Byte} {f : Fin 8 → State → State}
    (h : ∀ n s, SettingsOnly s (f n s)) (s : State) :
    (checked e len params fun _ => .ok payload (s.forEach e.lanes f)).OnlySettings s :=
  checked_onlySettings (SettingsOnly.forEach h e.lanes s)

/-- A row whose command only writes settings leaves the rest of the device. -/
theorem leavesBut_settings {row : Instant → QId → Instr} {op : Nat} {inQ1 : Bool} (body : QId → QEntry → State → Res)
    (hrow : ∀ t q s, exec (row t q) s = .next (runCmd t q op inQ1 body s)) (h : ∀ q e s, (body q e s).OnlySettings s) :
    LeavesBut row fun b a => { a with shadow := b.shadow, meta' := b.meta', free := b.free, q := { a.q with nextSeq := b.q.nextSeq } } := by
  refine leavesBut body hrow (fun _ => rfl) fun q e s => ?_
  have h := h q e s
  revert h
  cases body q e s with
  | ok _ u | clamped _ u => rintro ⟨k, m, f, n, rfl⟩; rfl
  | fail => exact id
  | wait | failWith => exact False.elim

/-- Settles O60: every write that these commands make is one of settings. -/
theorem settingsLeaveTheRest : Obligations.SettingsLeaveTheRest := by
  unfold Obligations.SettingsLeaveTheRest
  refine ⟨?lineMode, ?lineEnable, ?rxGain, ?lockLossConfig, ?txPredist, ?txClockSource, ?rxGainExpert, ?rxTimingExpert, ?rxDecodeExpert,
    ?txSkewExpert, ?txPredistExpert, ?rxTiming, ?rxDecode, ?txSwing, ?txSkew⟩
  case lineMode =>
    refine leavesBut_settings cmdLineMode (fun _ _ _ => rfl) fun q e s => ?_
    unfold cmdLineMode
    exact forEachLane_onlySettings (fun n s => .modShadow s _) s
  case lineEnable =>
    refine leavesBut_settings cmdLineEnable (fun _ _ _ => rfl) fun q e s => ?_
    unfold cmdLineEnable
    exact forEachLane_onlySettings (fun n s => .modShadow s _) s
  case rxGain =>
    refine leavesBut_settings cmdRxGain (fun _ _ _ => rfl) fun q e s => ?_
    unfold cmdRxGain
    exact forEachLane_onlySettings (fun n s => .modShadow s _) s
  case lockLossConfig =>
    refine leavesBut_settings cmdLockLossConfig (fun _ _ _ => rfl) fun q e s => ?_
    unfold cmdLockLossConfig
    exact forEachLane_onlySettings (fun n s => .modShadow s _) s
  case txPredist =>
    refine leavesBut_settings cmdTxPredist (fun _ _ _ => rfl) fun q e s => ?_
    unfold cmdTxPredist
    exact forEachLane_onlySettings (fun n s => .modShadow s _) s
  case txClockSource =>
    refine leavesBut_settings cmdTxClockSource (fun _ _ _ => rfl) fun q e s => ?_
    unfold cmdTxClockSource
    exact forEachLane_onlySettings (fun n s => .modShadow s _) s
  case rxGainExpert =>
    refine leavesBut_settings cmdRxGainExpert (fun _ _ _ => rfl) fun q e s => ?_
    unfold cmdRxGainExpert
    exact forEachLane_onlySettings (fun n s => .writeExpert s _ _ _ _) s
  case rxTimingExpert =>
    refine leavesBut_settings cmdRxTimingExpert (fun _ _ _ => rfl) fun q e s => ?_
    unfold cmdRxTimingExpert
    exact forEachLane_onlySettings (fun n s => (SettingsOnly.writeExpert s _ _ _ _ |>.trans (.writeExpert _ _ _ _ _)).trans (.writeExpert _ _ _ _ _)) s
  case rxDecodeExpert =>
    refine leavesBut_settings cmdRxDecodeExpert (fun _ _ _ => rfl) fun q e s => ?_
    unfold cmdRxDecodeExpert
    exact forEachLane_onlySettings (fun n s => (SettingsOnly.writeExpert s _ _ _ _).trans (.writeExpert _ _ _ _ _)) s
  case txSkewExpert =>
    refine leavesBut_settings cmdTxSkewExpert (fun _ _ _ => rfl) fun q e s => ?_
    unfold cmdTxSkewExpert
    exact forEachLane_onlySettings (fun n s => .writeExpert s _ _ _ _) s
  case txPredistExpert =>
    refine leavesBut_settings cmdTxPredistExpert (fun _ _ _ => rfl) fun q e s => ?_
    unfold cmdTxPredistExpert
    exact forEachLane_onlySettings (fun n s => .writeExpert s _ _ _ _) s
  case rxTiming =>
    refine leavesBut_settings cmdRxTiming (fun _ _ _ => rfl) fun q e s => ?_
    unfold cmdRxTiming
    exact forEachLane_onlySettings (fun n s => (SettingsOnly.modShadow s _ |>.trans (.writeBasic _ _ _ _ _)).trans (.writeBasic _ _ _ _ _)) s
  case rxDecode =>
    refine leavesBut_settings cmdRxDecode (fun _ _ _ => rfl) fun q e s => ?_
    unfold cmdRxDecode
    exact forEachLane_onlySettings (fun n s => (SettingsOnly.modShadow s _).trans (.writeBasic _ _ _ _ _)) s
  case txSwing =>
    refine leavesBut_settings cmdTxSwing (fun _ _ _ => rfl) fun q e s => ?_
    unfold cmdTxSwing
    refine checked_onlySettings ?_
    have h := SettingsOnly.forEach (fun n s => SettingsOnly.writeBasic s (.lineTx n) 0x2820 128 (Bank.tx n fun p =>
      { p with fsCode := min (roundDivN (bits (e.w 0) 8 10 * 16) 15) (maxFs s.limits.txSwing[n]) })) e.lanes s
    dsimp only
    split
    · exact h
    · exact h
  case txSkew =>
    refine leavesBut_settings cmdTxSkew (fun _ _ _ => rfl) fun q e s => ?_
    unfold cmdTxSkew
    refine forEachLane_onlySettings (fun n s => ?_) s
    dsimp only
    split
    · exact .modShadow s _
    · exact (SettingsOnly.modShadow s _).trans (.writeBasic _ _ _ _ _)

end Sys2Proof.Machine

namespace Sys2Proof.Machine

/-! ## Sets read, reloaded and released (R51, R103 to R105, R108) -/

/-- Settles O32: each command once its blocks or its resource are known and its checks pass. -/
theorem setsReadAndReleased : Obligations.SetsReadAndReleased := by
  unfold Obligations.SetsReadAndReleased
  refine ⟨fun b => ?read, fun bs => ?reload, fun bs => ?releasePins, fun r => ?free, fun r => ?inUse⟩
  case read =>
    refine completes_ok cmdSetRead (fun _ _ _ => rfl) fun q e s hpre => ?_
    obtain ⟨hb, hl, hwhich, hall, halign, hoff, h0⟩ := hpre
    unfold cmdSetRead
    simp only [hb]
    exact checked_pass (by simp [hl]) (by rw [decide_eq_true ⟨hwhich, hall, halign, hoff⟩, h0]; rfl)
  case reload =>
    refine completes_ok cmdShadowReset (fun _ _ _ => rfl) fun q e s hpre => ?_
    obtain ⟨hbs, hl, h0⟩ := hpre
    unfold cmdShadowReset
    simp only [hbs]
    exact checked_pass (by simp [hl]) h0
  case releasePins =>
    refine completes_ok cmdExpertRelease (fun _ _ _ => rfl) fun q e s hpre => ?_
    obtain ⟨hbs, hl, h0, h1, hops⟩ := hpre
    unfold cmdExpertRelease
    simp only [hbs]
    exact checked_pass (by simp [hl]) (by simpa [h0, h1] using hops)
  case free =>
    refine completes_ok cmdOwnerRelease (fun _ _ _ => rfl) fun q e s hpre => ?_
    obtain ⟨hr, hl, h0, hused⟩ := hpre
    unfold cmdOwnerRelease
    simp only [hr]
    exact (checked_pass (by simp [hl]) h0).trans (if_neg (by simp [hused]))
  case inUse =>
    refine completes_fail cmdOwnerRelease (fun _ _ _ => rfl) fun q e s hpre => ?_
    obtain ⟨hr, hl, h0, hused⟩ := hpre
    unfold cmdOwnerRelease
    simp only [hr]
    exact (checked_pass (by simp [hl]) h0).trans (if_pos hused)

end Sys2Proof.Machine

namespace Sys2Proof.Machine

/-! ## The life of a commit (R36 to R42, R47, R89, R254, R256) -/

theorem State.advanceTo_commitOf (s : State) (t : Instant) (i : Nat) : (s.advanceTo t).commitOf i = s.commitOf i := by simp [State.commitOf]

/-! ### Acceptance -/

/-- A block of a pending commit keeps a new one out, whatever acquisition does (R41). -/
theorem State.commitRefused_pending {s : State} {bs : List Block} (h : s.namedPending bs = true) : s.commitRefused bs = some .resourceBusy := by
  simp [State.commitRefused, h]

/-- Acquisition keeps its blocks out of a new commit (R89). -/
theorem State.commitRefused_acquiring {s : State} {bs : List Block} (h : s.namedPending bs = false) (hbs : bs.any Block.acquires = true)
    (ha : s.acquiring = true) : s.commitRefused bs = some .precondition := by
  rw [State.commitRefused, h, if_neg Bool.false_ne_true, if_pos ⟨hbs, ha⟩]

/-- An APPLY whose payload is good is refused as its blocks are, or opens. -/
theorem cmdApply_good {q : QId} {e : QEntry} {s : State} {bs : List Block} (hbs : s.blocksAt e.cmd.payload 4 (bits (e.w 0) 0 16) = some bs)
    (hl : e.len = 4 + 2 * bits (e.w 0) 0 16) (hn : 1 ≤ bits (e.w 0) 0 16) (hn' : bits (e.w 0) 0 16 ≤ 128) (h0 : rsvHigh (e.w 0) 16 = true) :
    cmdApply q e s = match s.commitRefused bs with
      | some st => .fail st []
      | none => .wait ((s.lockFor bs 2 q e.cmd.tag).openCommit .apply q e bs (s.fnow + usec 8)) := by
  unfold cmdApply
  simp only [hbs]
  exact checked_pass (by simp [hl]) (by simp [hn, hn', h0])

/-- A COMMIT whose payload is good is refused as a fifth one, as its blocks are or as too late, or opens. -/
theorem cmdCommit_good {q : QId} {e : QEntry} {s : State} {bs : List Block} {tc : FTime} (ht : e.time 0 = some tc)
    (hbs : s.blocksAt e.cmd.payload 16 (bits (e.w 3) 0 16) = some bs) (hl : e.len = 16 + 2 * bits (e.w 3) 0 16) (hn : 1 ≤ bits (e.w 3) 0 16)
    (hn' : bits (e.w 3) 0 16 ≤ 128) (h3 : rsvHigh (e.w 3) 16 = true) (hfar : tc ≤ s.fnow + secs 86400) :
    cmdCommit q e s =
      if 4 ≤ (s.commits.filter Commit.pendingTimed).length then .fail .resourceBusy []
      else match s.commitRefused bs with
        | some st => .fail st []
        | none =>
          if tc < s.fnow + usec 8 then .fail .precondition []
          else .wait ((s.lockFor bs 3 q e.cmd.tag).openCommit .commit q e bs tc) := by
  unfold cmdCommit
  simp only [ht, hbs]
  exact checked_pass (by simp [hl]) (by simp [hn, hn', hfar, h3])

/-- A COMMIT_CANCEL whose payload is good is decided by the COMMIT that it finds. -/
theorem cmdCommitCancel_good {q : QId} {e : QEntry} {s : State} (hl : e.len = 4) (hq : bits (e.w 0) 16 2 ≠ 1) (h0 : rsvHigh (e.w 0) 18 = true) :
    cmdCommitCancel q e s =
      match s.commits.find? fun c => decide (c.kind = .commit) && c.pendingTimed && decide (c.tag = bits (e.w 0) 0 16 ∧ c.queue.num = bits (e.w 0) 16 2) with
      | none => .fail .precondition []
      | some c =>
        if s.beforeTc c = false then .fail .precondition []
        else if c.settled then .ok [] ((s.dropCommit c.id).commitDone c .discarded none)
        else .ok [] (s.modCommit c.id fun c => { c with cancelled := true }) := by
  unfold cmdCommitCancel
  exact checked_pass (by simp [hl]) (by simp [hq, h0])

/-! ### Boundaries -/

/-- A block at its boundary takes the commits due unless its store is faulty and one is due (R439). -/
theorem execBlockCommit_takes {t : Instant} {b : Block} {good : Bool} {s : State} (hb : (s.advanceTo t).atBoundary b = true)
    (h : good = true ∨ (s.advanceTo t).commits.filter ((s.advanceTo t).due b) = []) :
    execBlockCommit t b good s = .next ((if b = .ppsOut then (s.advanceTo t).ppsEdge else s.advanceTo t).boundary b) := by
  unfold execBlockCommit
  dsimp only
  rw [if_neg (by simp [hb])]
  rcases h with rfl | hnone
  · rfl
  · rw [hnone]
    cases good <;> rfl

theorem execBlockCommit_fails {t : Instant} {b : Block} {c : Commit} {s : State} (hb : (s.advanceTo t).atBoundary b = true)
    (hc : ((s.advanceTo t).commits.filter ((s.advanceTo t).due b)).getLast? = some c) :
    execBlockCommit t b false s = .next ((s.advanceTo t).failCommit c.id b) := by
  unfold execBlockCommit
  dsimp only
  rw [if_neg (by simp [hb]), hc]

/-- Settles O31: acceptance by the checks of each command, then each event of a commit in turn; which commit fails at a faulty store is log
entry 35. -/
theorem setsCommit : Obligations.SetsCommit := by
  unfold Obligations.SetsCommit
  refine ⟨fun bs => ?applyOpens, fun bs => ?applyPending, fun bs => ?applyAcquiring, fun bs tc => ?commitPending, fun bs tc => ?commitAcquiring,
    fun bs tc => ?commitFifth, fun bs tc => ?commitLate, fun bs tc => ?commitOpens, fun c => ?cancelSettled, fun c => ?cancelUnsettled,
    fun c => ?cancelLate, ?cancelUnknown, fun s t i bs c x b hc hbefore hany hfail => ?validateFails, fun s t i bs c hc hbefore hany hfail => ?validated,
    fun s t i c y hc hy hk hafter => ?applyUnvalidated, fun s t i c hc hk hs hpast => ?commitTimeout, fun s t b g hb h => ?boundaryTakes,
    fun s t b c hb hc => ?boundaryFails, fun s t b hb => ?boundaryReverts, fun s t p up hlead hmay => ?faultClears,
    fun s t p up hmay => ?faultStays⟩
  case applyOpens =>
    refine starts_wait cmdApply (fun _ _ _ => rfl) fun q e s hpre => ?_
    obtain ⟨hbs, hl, hn, hn', h0, hfree⟩ := hpre
    rw [cmdApply_good hbs hl hn hn' h0, hfree]
  case applyPending =>
    refine completes_fail cmdApply (fun _ _ _ => rfl) fun q e s hpre => ?_
    obtain ⟨hbs, hl, hn, hn', h0, hpend⟩ := hpre
    rw [cmdApply_good hbs hl hn hn' h0, State.commitRefused_pending hpend]
  case applyAcquiring =>
    refine completes_fail cmdApply (fun _ _ _ => rfl) fun q e s hpre => ?_
    obtain ⟨hbs, hl, hn, hn', h0, hpend, hacq, hrun⟩ := hpre
    rw [cmdApply_good hbs hl hn hn' h0, State.commitRefused_acquiring hpend hacq hrun]
  case commitPending =>
    refine completes_fail cmdCommit (fun _ _ _ => rfl) fun q e s hpre => ?_
    obtain ⟨ht, hbs, hl, hn, hn', h3, hfar, hroom, hpend⟩ := hpre
    rw [cmdCommit_good ht hbs hl hn hn' h3 hfar, if_neg (Nat.not_le.mpr hroom), State.commitRefused_pending hpend]
  case commitAcquiring =>
    refine completes_fail cmdCommit (fun _ _ _ => rfl) fun q e s hpre => ?_
    obtain ⟨ht, hbs, hl, hn, hn', h3, hfar, hroom, hpend, hacq, hrun⟩ := hpre
    rw [cmdCommit_good ht hbs hl hn hn' h3 hfar, if_neg (Nat.not_le.mpr hroom), State.commitRefused_acquiring hpend hacq hrun]
  case commitFifth =>
    refine completes_fail cmdCommit (fun _ _ _ => rfl) fun q e s hpre => ?_
    obtain ⟨ht, hbs, hl, hn, hn', h3, hfar, hfull⟩ := hpre
    rw [cmdCommit_good ht hbs hl hn hn' h3 hfar, if_pos hfull]
  case commitLate =>
    refine completes_fail cmdCommit (fun _ _ _ => rfl) fun q e s hpre => ?_
    obtain ⟨ht, hbs, hl, hn, hn', h3, hlate, hfar, hroom, hfree⟩ := hpre
    rw [cmdCommit_good ht hbs hl hn hn' h3 hfar, if_neg (Nat.not_le.mpr hroom), hfree]
    exact if_pos hlate
  case commitOpens =>
    refine starts_wait cmdCommit (fun _ _ _ => rfl) fun q e s hpre => ?_
    obtain ⟨ht, hbs, hl, hn, hn', h3, hahead, hfar, hroom, hfree⟩ := hpre
    rw [cmdCommit_good ht hbs hl hn hn' h3 hfar, if_neg (Nat.not_le.mpr hroom), hfree]
    exact if_neg (not_lt.mpr hahead)
  case cancelSettled =>
    refine completes_ok cmdCommitCancel (fun _ _ _ => rfl) fun q e s hpre => ?_
    obtain ⟨hl, hq, h0, hfind, hbefore, hsettled⟩ := hpre
    rw [cmdCommitCancel_good hl hq h0, hfind]
    simp only [hbefore, hsettled, Bool.true_eq_false, if_true, if_false]
  case cancelUnsettled =>
    refine completes_ok cmdCommitCancel (fun _ _ _ => rfl) fun q e s hpre => ?_
    obtain ⟨hl, hq, h0, hfind, hbefore, hsettled⟩ := hpre
    rw [cmdCommitCancel_good hl hq h0, hfind]
    simp only [hbefore, hsettled, Bool.true_eq_false, Bool.false_eq_true, if_false]
  case cancelLate =>
    refine completes_fail cmdCommitCancel (fun _ _ _ => rfl) fun q e s hpre => ?_
    obtain ⟨hl, hq, h0, hfind, hafter⟩ := hpre
    rw [cmdCommitCancel_good hl hq h0, hfind]
    exact if_pos hafter
  case cancelUnknown =>
    refine completes_fail cmdCommitCancel (fun _ _ _ => rfl) fun q e s hpre => ?_
    obtain ⟨hl, hq, h0, hnone⟩ := hpre
    rw [cmdCommitCancel_good hl hq h0, List.find?_eq_none.mpr (by simpa [and_assoc] using hnone)]
  case validateFails =>
    change execSnapshotValidate t i bs s = _
    unfold execSnapshotValidate
    simp only [State.advanceTo_commitOf, hc]
    rw [if_pos ⟨hbefore, hany⟩, hfail]
  case validated =>
    change execSnapshotValidate t i bs s = _
    unfold execSnapshotValidate
    simp only [State.advanceTo_commitOf, hc]
    rw [if_pos ⟨hbefore, hany⟩, hfail]
    rfl
  case applyUnvalidated =>
    change execApplyTcReached t i s = _
    unfold execApplyTcReached
    simp only [State.advanceTo_commitOf, hc, hy]
    exact if_pos ⟨hk, hafter⟩
  case commitTimeout =>
    change execCommitValidationTimeout t i s = _
    unfold execCommitValidationTimeout
    simp only [State.advanceTo_commitOf, hc]
    exact if_pos ⟨hk, hs, hpast⟩
  case boundaryTakes => exact execBlockCommit_takes hb h
  case boundaryFails => exact execBlockCommit_fails hb hc
  case boundaryReverts => exact if_pos hb
  case faultClears =>
    change execPortFaultClear t p up s = _
    simp [execPortFaultClear, hlead, hmay]
  case faultStays =>
    change execPortFaultClear t p up s = _
    simp [execPortFaultClear, hmay]

end Sys2Proof.Machine

namespace Sys2Proof.Machine

/-! ## Epochs and firmware at the manager (R45, R350 to R353, Tables 9.17 and 9.18) -/

theorem State.advanceTo_epoch (s : State) (t : Instant) (i : Nat) : (s.advanceTo t).epoch i = s.epoch i := by simp [State.epoch]
theorem State.advanceTo_workerEpoch (s : State) (t : Instant) (i : Nat) : (s.advanceTo t).workerEpoch i = s.workerEpoch i := by
  simp [State.workerEpoch]

/-! ### What a command with a good payload does -/

/-- The payload of an EPOCH_STAGE is good (R352, Tables 9.13 and 9.15). -/
def QEntry.stageGood (e : QEntry) : Prop :=
  e.len = e.stagePacket + 4 * ceilDiv (bits (e.w 1) 0 16) 4 ∧ 1 ≤ bits (e.w 0) 0 16 ∧ 1 ≤ bits (e.w 0) 16 16 ∧ bits (e.w 0) 16 16 ≤ 128 ∧
    (bits (e.w 1) 0 16 = 0 ∨ (12 ≤ bits (e.w 1) 0 16 ∧ bits (e.w 1) 0 16 ≤ 512)) ∧ rsvHigh (e.w 1) 16 = true ∧
    blockIdsOk e.cmd.payload 8 (bits (e.w 0) 16 16) = true ∧ setOk e.cmd.payload e.stageSet = true

theorem cmdEpochStage_noRoom {q : QId} {e : QEntry} {s : State} (h : e.stageGood) (hroom : s.stageRoom (bits (e.w 0) 0 16) = none)
    (hm : s.isManager = true) : cmdEpochStage q e s = .fail .resourceBusy [] := by
  obtain ⟨hl, hid, hn, hn', hlen, h1, hblocks, hset⟩ := h
  unfold cmdEpochStage
  refine (checked_pass (by simp [hl]) (by rw [decide_eq_true ⟨hid, hn, hn', hlen⟩, h1, hblocks, hset]; rfl)).trans ?_
  simp only [hroom, hm, if_true]

theorem cmdEpochStage_offManager {q : QId} {e : QEntry} {s : State} (h : e.stageGood) (hm : s.isManager = false) :
    cmdEpochStage q e s = .fail .precondition [] := by
  obtain ⟨hl, hid, hn, hn', hlen, h1, hblocks, hset⟩ := h
  unfold cmdEpochStage
  refine (checked_pass (by simp [hl]) (by rw [decide_eq_true ⟨hid, hn, hn', hlen⟩, h1, hblocks, hset]; rfl)).trans ?_
  cases s.stageRoom (bits (e.w 0) 0 16) <;> simp only [hm, Bool.false_eq_true, if_true, if_false]

/-- An EPOCH_COMMIT whose payload is good is decided by the record that it names. -/
theorem cmdEpochCommit_good {q : QId} {e : QEntry} {s : State} {tc : FTime} (ht : e.time 1 = some tc) (hl : e.len = 16)
    (h0 : rsvHigh (e.w 0) 16 = true) (hfar : tc ≤ s.fnow + secs 86400) :
    cmdEpochCommit q e s = match s.epoch (bits (e.w 0) 0 16) with
      | none => .fail .precondition []
      | some r =>
        if s.isManager = false ∨ tc < s.fnow + msec 1 then .fail .precondition []
        else if r.awaited 2 = [] then .fail .notReady []
        else .wait ((s.modEpoch (bits (e.w 0) 0 16) fun x =>
          { x.begin 2 s.now with time := some tc, tag := e.cmd.tag, owe := true, cmds := x.cmds ++ [(e.seq, 2, s.now, 0)] }).castEpoch
            (bits (e.w 0) 0 16) 2 tc) := by
  unfold cmdEpochCommit
  simp only [ht]
  exact checked_pass (by simp [hl]) (by simp [h0, hfar])

theorem cmdAbortEpoch_good {q : QId} {e : QEntry} {s : State} (hl : e.len = 4) (h0 : rsvHigh (e.w 0) 16 = true) :
    cmdAbortEpoch q e s =
      if s.isManager = false ∨ (s.epoch (bits (e.w 0) 0 16)).isNone then .fail .precondition []
      else .wait (((s.modEpoch (bits (e.w 0) 0 16) fun x => { x.begin 3 s.now with cmds := x.cmds ++ [(e.seq, 3, s.now, 0)] }).castEpoch
        (bits (e.w 0) 0 16) 3 0).epochOn (bits (e.w 0) 0 16)) := by
  unfold cmdAbortEpoch
  exact checked_pass (by simp [hl]) h0

/-- A REVERT_EPOCH whose payload is good is decided by the record that it names. -/
theorem cmdRevertEpoch_good {q : QId} {e : QEntry} {s : State} {t2 : FTime} (ht : e.time 1 = some t2) (hl : e.len = 16)
    (h0 : rsvHigh (e.w 0) 16 = true) :
    cmdRevertEpoch q e s = match s.epoch (bits (e.w 0) 0 16) with
      | none => .fail .precondition []
      | some r =>
        if s.isManager = false ∨ r.time = none ∨ s.tAhead r = true ∨ t2 < s.fnow + msec 1 then .fail .precondition []
        else .wait (((s.modEpoch (bits (e.w 0) 0 16) fun x =>
          { x.begin 4 s.now with time2 := some t2, tagRevert := e.cmd.tag, oweRevert := true, cmds := x.cmds ++ [(e.seq, 4, s.now, 0)] }).castEpoch
            (bits (e.w 0) 0 16) 4 t2).epochOn (bits (e.w 0) 0 16)) := by
  unfold cmdRevertEpoch
  simp only [ht]
  exact checked_pass (by simp [hl]) h0

theorem cmdEpochStatus_refused {q : QId} {e : QEntry} {s : State} (hl : e.len = 4) (h0 : rsvHigh (e.w 0) 29 = true)
    (h : s.isManager = false ∨ s.epoch (bits (e.w 0) 0 16) = none) : cmdEpochStatus q e s = .fail .precondition [] := by
  unfold cmdEpochStatus
  refine (checked_pass (by simp [hl]) h0).trans ?_
  cases hr : s.epoch (bits (e.w 0) 0 16) with
  | none => rfl
  | some r => exact if_pos (h.resolve_right (by simp [hr]))

/-- An FW_BROADCAST whose payload is good waits for the one before it, is refused, or selects its set. -/
theorem cmdFwBroadcast_good {q : QId} {e : QEntry} {s : State} {i : Fin 2} (hl : e.len = 4 + setLen (bits (fieldAt e.cmd.payload 4 4) 0 2))
    (h0 : rsvHigh (e.w 0) 1 = true) (hset : setOk e.cmd.payload 4 = true) (hi : bits (e.w 0) 0 1 = i.val)
    (hsize : (s.imageBytes (fwSlot i)).length ≤ 4194304) :
    cmdFwBroadcast q e s =
      if s.rill.fw.isSome then .fail .resourceBusy []
      else if s.isManager = false ∨ s.sys.fw.slots[fwSlot i].verified = false then .fail .precondition []
      else .wait (((s.modRill fun r => { r with fw := some {
          seq := e.seq, slot := i, bytes := s.imageBytes (fwSlot i), selecting := (s.setIds e.cmd.payload 4).map fun w => (w, s.now) } }).forEach
        (s.setIds e.cmd.payload 4) fun w u => u.sendFw 1 w (fwBody 1 (s.imageBytes (fwSlot i)).length 0 [])).fwOn 8) := by
  have hslot : (⟨bits (e.w 0) 0 1, by simp only [bits]; omega⟩ : Fin 2) = i := Fin.ext hi
  unfold cmdFwBroadcast
  simp only [hslot]
  exact checked_pass (by simp [hl]) (by simp only [h0, hset, decide_eq_true hsize, Bool.and_self])

/-- A command at its limit that is neither a COMMIT nor a tunnelled one replies TIMEOUT (R87). -/
theorem State.timeOut_other {s : State} {e : QEntry} (hc : e.cmd.op ≠ 0x1011) (ht : e.cmd.op ≠ 0x5011) :
    s.timeOut e = (s.abandonRun e).complete e.seq .timeout [] := by
  unfold State.timeOut
  split
  next h _ => exact absurd h hc
  next h => exact absurd h ht
  next => rfl

/-- Settles O38: each command by the record it names, then the deadlines; the statuses of an unknown epoch and of one with no worker ready are
log entry 115. -/
theorem epochCommands : Obligations.EpochCommands := by
  unfold Obligations.EpochCommands
  refine ⟨fun kept => ?stage, fun tc r => ?commit, fun r => ?abort, fun t2 r => ?revert, fun r => ?status, fun r => ?query,
    fun s t id r hr => ?resend, fun s t id r hr => ?deadline, fun s t id r hr => ?result, fun s t id w c hw hc hafter => ?workerTc,
    fun s t id w hw hready hlate => ?expiry, fun i => ?broadcast, fun s t b hb => ?selectTimeout, fun s t q e d he hd hrun hlate => ?timeout,
    fun s e hc ht => ?timeOut, ?stageNoRoom, ?stageOff, fun tc => ?commitRefused, fun tc r => ?commitNotReady, ?abortRefused,
    fun t2 => ?revertUnknown, fun t2 r => ?revertRefused, ?statusRefused, fun i => ?broadcastBusy, fun i => ?broadcastRefused⟩
  case stage =>
    refine starts_wait cmdEpochStage (fun _ _ _ => rfl) fun q e s hpre => ?_
    obtain ⟨hl, hid, hn, hn', hlen, h1, hblocks, hset, hroom, hm⟩ := hpre
    unfold cmdEpochStage
    refine (checked_pass (by simp [hl]) (by rw [decide_eq_true ⟨hid, hn, hn', hlen⟩, h1, hblocks, hset]; rfl)).trans ?_
    simp only [hroom, hm, Bool.true_eq_false, if_false]
  case commit =>
    refine starts_wait cmdEpochCommit (fun _ _ _ => rfl) fun q e s hpre => ?_
    obtain ⟨ht, hl, h0, hfar, hm, hr, hahead, hready⟩ := hpre
    rw [cmdEpochCommit_good ht hl h0 hfar, hr]
    simp only [hm, not_lt.mpr hahead, hready, Bool.true_eq_false, or_self, if_false]
  case abort =>
    refine starts_wait cmdAbortEpoch (fun _ _ _ => rfl) fun q e s hpre => ?_
    obtain ⟨hl, h0, hm, hr⟩ := hpre
    rw [cmdAbortEpoch_good hl h0, if_neg (by simp [hm, hr])]
  case revert =>
    refine starts_wait cmdRevertEpoch (fun _ _ _ => rfl) fun q e s hpre => ?_
    obtain ⟨ht, hl, h0, hm, hr, hcommitted, hpast, hahead⟩ := hpre
    rw [cmdRevertEpoch_good ht hl h0, hr]
    simp only [hm, hcommitted, hpast, not_lt.mpr hahead, Bool.true_eq_false, Bool.false_eq_true, or_self, if_false]
  case status =>
    refine completes_ok cmdEpochStatus (fun _ _ _ => rfl) fun q e s hpre => ?_
    obtain ⟨hl, h0, hm, hr, hquery⟩ := hpre
    unfold cmdEpochStatus
    refine (checked_pass (by simp [hl]) h0).trans ?_
    simp only [hr, hm, hquery, Bool.true_eq_false, Bool.false_eq_true, if_false]
  case query =>
    refine starts_wait cmdEpochStatus (fun _ _ _ => rfl) fun q e s hpre => ?_
    obtain ⟨hl, h0, hm, hr, hquery⟩ := hpre
    unfold cmdEpochStatus
    refine (checked_pass (by simp [hl]) h0).trans ?_
    simp only [hr, hm, hquery, Bool.true_eq_false, if_false, if_true]
    rfl
  case resend =>
    change execEpochResend t id s = _
    unfold execEpochResend
    simp only [State.advanceTo_epoch, hr, State.advanceTo_now]
  case deadline =>
    change execEpochCommandDeadline t id s = _
    unfold execEpochCommandDeadline
    simp only [State.advanceTo_epoch, hr]
  case result =>
    change execEpochResultTimeout t id s = _
    unfold execEpochResultTimeout
    simp only [State.advanceTo_epoch, hr] <;> rfl
  case workerTc =>
    change execEpochTcReached t id s = _
    have hfind : (s.advanceTo t).commitOf = s.commitOf := funext (s.advanceTo_commitOf t)
    unfold execEpochTcReached
    simp only [State.advanceTo_workerEpoch, hfind, hw, Option.bind_some, hc]
    exact if_neg (by simp [hafter])
  case expiry =>
    change execEpochStagingExpiry t id s = _
    unfold execEpochStagingExpiry
    simp only [State.advanceTo_workerEpoch, hw]
    exact if_pos ⟨hready, hlate⟩
  case broadcast =>
    refine starts_wait cmdFwBroadcast (fun _ _ _ => rfl) fun q e s hpre => ?_
    obtain ⟨hl, h0, hset, hi, hsize, hfree, hm, hverified⟩ := hpre
    rw [cmdFwBroadcast_good hl h0 hset hi hsize, if_neg (by simp [hfree]), if_neg (by simp only [hm, hverified]; decide)]
  case selectTimeout =>
    change execFwSelectTimeout t s = _
    unfold execFwSelectTimeout
    simp only [State.advanceTo_rill, hb]
  case timeout =>
    change execCommandTimeout t q s = _
    unfold execCommandTimeout
    simp only [he, hd]
    exact if_pos ⟨hrun, hlate⟩
  case timeOut => exact State.timeOut_other hc ht
  case stageNoRoom =>
    refine completes_fail cmdEpochStage (fun _ _ _ => rfl) fun q e s hpre => ?_
    obtain ⟨hl, hid, hn, hn', hlen, h1, hblocks, hset, hroom, hm⟩ := hpre
    exact cmdEpochStage_noRoom ⟨hl, hid, hn, hn', hlen, h1, hblocks, hset⟩ hroom hm
  case stageOff =>
    refine completes_fail cmdEpochStage (fun _ _ _ => rfl) fun q e s hpre => ?_
    obtain ⟨hl, hid, hn, hn', hlen, h1, hblocks, hset, hm⟩ := hpre
    exact cmdEpochStage_offManager ⟨hl, hid, hn, hn', hlen, h1, hblocks, hset⟩ hm
  case commitRefused =>
    refine completes_fail cmdEpochCommit (fun _ _ _ => rfl) fun q e s hpre => ?_
    obtain ⟨ht, hl, h0, hfar, hwhy⟩ := hpre
    rw [cmdEpochCommit_good ht hl h0 hfar]
    cases hr : s.epoch (bits (e.w 0) 0 16) with
    | none => rfl
    | some r => exact if_pos (by simpa [hr] using hwhy)
  case commitNotReady =>
    refine completes_fail cmdEpochCommit (fun _ _ _ => rfl) fun q e s hpre => ?_
    obtain ⟨ht, hl, h0, hfar, hm, hr, hahead, hnone⟩ := hpre
    rw [cmdEpochCommit_good ht hl h0 hfar, hr]
    simp only [hm, not_lt.mpr hahead, hnone, Bool.true_eq_false, or_self, if_false, if_true]
  case abortRefused =>
    refine completes_fail cmdAbortEpoch (fun _ _ _ => rfl) fun q e s hpre => ?_
    obtain ⟨hl, h0, hwhy⟩ := hpre
    rw [cmdAbortEpoch_good hl h0, if_pos (by simpa using hwhy)]
  case revertUnknown =>
    refine completes_fail cmdRevertEpoch (fun _ _ _ => rfl) fun q e s hpre => ?_
    obtain ⟨ht, hl, h0, hwhy⟩ := hpre
    rw [cmdRevertEpoch_good ht hl h0]
    cases hr : s.epoch (bits (e.w 0) 0 16) with
    | none => rfl
    | some r => exact if_pos (.inl (hwhy.resolve_right (by simp [hr])))
  case revertRefused =>
    refine completes_fail cmdRevertEpoch (fun _ _ _ => rfl) fun q e s hpre => ?_
    obtain ⟨ht, hl, h0, hr, hwhy⟩ := hpre
    rw [cmdRevertEpoch_good ht hl h0, hr]
    exact if_pos (.inr hwhy)
  case statusRefused =>
    refine completes_fail cmdEpochStatus (fun _ _ _ => rfl) fun q e s hpre => ?_
    obtain ⟨hl, h0, hwhy⟩ := hpre
    exact cmdEpochStatus_refused hl h0 hwhy
  case broadcastBusy =>
    refine completes_fail cmdFwBroadcast (fun _ _ _ => rfl) fun q e s hpre => ?_
    obtain ⟨hl, h0, hset, hi, hsize, hbusy⟩ := hpre
    rw [cmdFwBroadcast_good hl h0 hset hi hsize, if_pos (Option.isSome_iff_ne_none.mpr hbusy)]
  case broadcastRefused =>
    refine completes_fail cmdFwBroadcast (fun _ _ _ => rfl) fun q e s hpre => ?_
    obtain ⟨hl, h0, hset, hi, hsize, hfree, hwhy⟩ := hpre
    rw [cmdFwBroadcast_good hl h0 hset hi hsize, if_neg (by simp [hfree]), if_pos hwhy]

end Sys2Proof.Machine

namespace Sys2Proof.Machine

/-! ## Events of the time base (R26, R95, R266 to R283, R532) -/

/-- Nothing but a rate and events wait: they take effect at the epoch tick. -/
theorem State.applySteps_noStep {s : State} (hstep : s.tb.pending.step = none) (hhosts : s.tb.pending.hosts = []) :
    s.applySteps = ((s.modTb fun b => { (if s.tb.pending.rate.isSome = true then b.keepPast s.now else b) with
        pending := {}, f := s.tb.pending.rate.getD b.f }).stampChange s.tb.pending.events).forEach
      (s.tb.pending.events.filter fun e => s.tb.pending.step.isNone || !ofStep e) fun e s => s.servoEvent e.1 e.2.1 e.2.2 0 := by
  have hnone : s.waitingSteps = [] := by simp [State.waitingSteps, hstep, hhosts]
  unfold State.applySteps
  simp only [hnone, hhosts, hstep]
  rfl

/-- The servo's own step waits alone. -/
theorem State.applySteps_servoStep {s : State} {x : Int} (hstep : s.tb.pending.step = some x) (hhosts : s.tb.pending.hosts = []) :
    s.applySteps = ((((((s.modTb fun b => { (if s.tb.pending.rate.isSome = true then b.keepPast s.now else b) with
        pending := {}, f := s.tb.pending.rate.getD b.f }).stepTime x).logStep x 0).stampChange s.tb.pending.events).forEach
      (s.tb.pending.events.filter fun e => s.tb.pending.step.isNone || !ofStep e) fun e s => s.servoEvent e.1 e.2.1 e.2.2 0).servoStepped
        s.tb.pending x) := by
  have hone : s.waitingSteps = [(x, 0)] := by simp [State.waitingSteps, hstep, hhosts]
  unfold State.applySteps
  simp only [hone, hhosts, hstep, List.cons_ne_nil, if_false, List.map_cons, List.map_nil, List.sum_cons, List.sum_nil, Int.add_zero]
  rfl

/-- Host steps wait, with or without one of the servo. -/
theorem State.applySteps_hostSteps {s : State} (hhosts : s.tb.pending.hosts ≠ []) :
    s.applySteps =
      let s3 := (((((s.modTb fun b => { (if s.tb.pending.rate.isSome = true then b.keepPast s.now else b) with
          pending := {}, f := s.tb.pending.rate.getD b.f }).stepTime (s.waitingSteps.map Prod.fst).sum).forEach s.waitingSteps fun x s =>
        s.logStep x.1 x.2).stampChange s.tb.pending.events).forEach
          (s.tb.pending.events.filter fun e => s.tb.pending.step.isNone || !ofStep e) fun e s => s.servoEvent e.1 e.2.1 e.2.2 0)
      let s4 := match s.tb.pending.step with
        | some y => s3.servoStepped s.tb.pending y
        | none => s3
      s4.forEach s.tb.pending.hosts fun h s => s.hostStepped h := by
  have hsome : s.waitingSteps ≠ [] := by simp [State.waitingSteps, hhosts]
  unfold State.applySteps
  simp only [if_neg hsome] <;> cases s.tb.pending.step <;> rfl

theorem execTimeStepApply_atEpoch {t : Instant} {s : State} (h : (s.advanceTo t).atEpoch = true) :
    execTimeStepApply t s = .next (s.advanceTo t).applySteps := by
  unfold execTimeStepApply
  simp only [h, if_true]

/-! ### The time bus -/

/-- At the tick of an epoch message a stamping island on its clock checks the message, once what waited has taken effect. -/
theorem execTimeBusEpochMessage_atEpoch {t : Instant} {n : Fin 64} {m : Nat × Int} {s : State} (h : (s.advanceTo t).atEpoch = true)
    (h' : (s.advanceTo t).applySteps.atEpoch = true) (hn : stampingIsland n = true) (hclk : (s.advanceTo t).applySteps.onIslandClock n = true) :
    execTimeBusEpochMessage t n m s =
      let u := (s.advanceTo t).applySteps
      if u.replicas[n].hears u.ticks m.1 = true then
        .next (if u.replicas[n].error then
            { u with replicas := u.replicas.set n (u.heardBy u.replicas[n] m.1 m.2) }.event 0xE021 0
              (wordsLe [pack [(n.val, 8), (0, 8), (u.replicas[n].mismatches, 16)]] ++ (Stamp.mk u.fnow true).bytes)
          else { u with replicas := u.replicas.set n (u.heardBy u.replicas[n] m.1 m.2) })
      else
        let v := { u with replicas := u.replicas.set n { u.replicas[n] with
          error := true, mismatches := satAdd 16 u.replicas[n].mismatches 1, heard := some ((m.1 : Int) - u.ticks) } }
        .next (if u.replicas[n].error then v else v.logEntry 0x0202 0 1 0xFFFF [n.val]) := by
  unfold execTimeBusEpochMessage
  simp only [h, h', hn, hclk, if_true, Bool.true_eq_false, or_self, if_false]

/-! ### PTP messages (R317 to R320) -/

section
variable {s : State} {t : Instant} {n : Fin 8} {m : Fin 16} {up : Bool} {f : List Byte} {a b : Crossing} {x : Bool}

/-- A direction that is enabled and not faulted passes the frames of its port to the unit. -/
theorem execPtpEventMessage_passes
    (hfault : (if up = true then s.ports[leadOf s.grouping n].toLine.faulted else s.ports[leadOf s.grouping n].toHost.faulted) = false)
    (hon : (if up = true then s.active.port[leadOf s.grouping n].ptp.toLine else s.active.port[leadOf s.grouping n].ptp.toHost) = true)
    (hport : leadOf s.grouping (relayPort m) = leadOf s.grouping n) :
    ¬ ((if up = true then (s.advanceTo t).ports[leadOf (s.advanceTo t).grouping n].toLine.faulted
          else (s.advanceTo t).ports[leadOf (s.advanceTo t).grouping n].toHost.faulted) = true ∨
      (if up = true then (s.advanceTo t).active.port[leadOf (s.advanceTo t).grouping n].ptp.toLine
          else (s.advanceTo t).active.port[leadOf (s.advanceTo t).grouping n].ptp.toHost) = false ∨
      leadOf (s.advanceTo t).grouping ⟨m.val / 2, by omega⟩ ≠ leadOf (s.advanceTo t).grouping n) := by
  simp only [State.advanceTo_ports, State.advanceTo_active, State.advanceTo_grouping]
  rw [hfault, hon]
  simp only [Bool.false_eq_true, Bool.true_eq_false, false_or, not_not]
  exact hport
end

/-- Settles O30: what waits for an epoch tick by what waits, then each event under its condition; that the epoch message itself applies it,
and which replica hears it, is log entry 119. -/
theorem timeEvents : Obligations.TimeEvents := by
  unfold Obligations.TimeEvents
  refine ⟨fun s t hep hstep hhosts => ?rate, fun s t x hep hstep hhosts => ?servoStep, fun s t hep hhosts => ?hostSteps, fun s h => rfl,
    fun s t hline hcount => ?update, fun s t hline hdue => ?emptyUpdate, fun s t hjudged hout => ?edgeOut, fun s t hjudged hin => ?edgeIn,
    fun s t b hb hjudged hstate hpast => ?missed, fun s t hset hen hrun hat hgate hlow htrail => ?leading, fun s t hhigh hpast => ?trailing,
    fun s t n tick edge hep hep' hn hclk herr hh => ?heard, fun s t n tick edge hep hep' hn hclk herr hh => ?recovered,
    fun s t n tick edge hep hep' hn hclk herr hh => ?mismatch, fun s t n tick edge hep hep' hn hclk herr hh => ?mismatchAgain,
    fun s t n m up f a b x h u hfault hon hport hrec hx htags hlo hhi => ?corrected,
    fun s t n m up f a b x h u hfault hon hport hrec hskip => ?skipped, fun s t n m up f a b x hrec => ?notRecognised⟩
  case rate =>
    change execTimeStepApply t s = _
    rw [execTimeStepApply_atEpoch hep, State.applySteps_noStep (by simpa using hstep) (by simpa using hhosts)]
    simp only [State.advanceTo_tb_pending]
  case servoStep =>
    change execTimeStepApply t s = _
    rw [execTimeStepApply_atEpoch hep, State.applySteps_servoStep (by simpa using hstep) (by simpa using hhosts)]
    simp only [State.advanceTo_tb_pending]
    rfl
  case hostSteps =>
    change execTimeStepApply t s = _
    rw [execTimeStepApply_atEpoch hep, State.applySteps_hostSteps (by simpa using hhosts)]
    simp only [State.advanceTo_tb_pending] <;> cases s.tb.pending.step <;> rfl
  case update =>
    change execServoUpdate t s = _
    simp only [execServoUpdate, State.advanceTo_active, State.advanceTo_tb_markers, hline, hcount, and_self, if_true]
  case emptyUpdate =>
    change execServoEmptyUpdate t s = _
    simp only [execServoEmptyUpdate, State.advanceTo_active, hline, hdue, and_self, if_true]
  case edgeOut =>
    change execPpsInEdge t s = _
    simp only [execPpsInEdge, hjudged, hout, Bool.true_eq_false, if_true, if_false]
  case edgeIn =>
    change execPpsInEdge t s = _
    simp only [execPpsInEdge, hjudged, hin, Bool.true_eq_false, if_false, State.advanceTo_active]
  case missed =>
    change execPpsWindowMissed t s = _
    simp only [execPpsWindowMissed, State.advanceTo_tb_ppsBase, hb, State.advanceTo_tb_state, State.advanceTo_active]
    exact if_pos ⟨hjudged, hstate, hpast⟩
  case leading =>
    change execPpsOutEdge t s = _
    simp [execPpsOutEdge, State.ppsEdge, hset, hen, hrun, hat, hgate, hlow, htrail]
  case trailing =>
    change execPpsOutTrailing t s = _
    simp [execPpsOutTrailing, hhigh, hpast]
  case heard =>
    refine (execTimeBusEpochMessage_atEpoch hep hep' hn hclk).trans ?_
    simp only [hh, herr, Bool.false_eq_true, if_true, if_false]
  case recovered =>
    refine (execTimeBusEpochMessage_atEpoch hep hep' hn hclk).trans ?_
    simp only [hh, herr, if_true]
  case mismatch =>
    refine (execTimeBusEpochMessage_atEpoch hep hep' hn hclk).trans ?_
    simp only [hh, herr, Bool.false_eq_true, if_false]
  case mismatchAgain =>
    refine (execTimeBusEpochMessage_atEpoch hep hep' hn hclk).trans ?_
    simp only [hh, herr, Bool.false_eq_true, if_true, if_false]
  case corrected =>
    change execPtpEventMessage t n m up f a b x s = _
    unfold execPtpEventMessage
    dsimp only
    rw [if_neg (execPtpEventMessage_passes hfault hon hport)]
    simp only [State.advanceTo_active, State.advanceTo_grouping, hrec, State.advanceTo_txFibre, State.advanceTo_rxFibre, State.advanceTo_ports]
    rw [if_neg (by simp only [hx, htags, decide_eq_false (not_or.mpr ⟨not_lt.mpr hlo, not_lt.mpr hhi⟩)]; decide)]
    rfl
  case skipped =>
    change execPtpEventMessage t n m up f a b x s = _
    unfold execPtpEventMessage
    dsimp only
    rw [if_neg (execPtpEventMessage_passes hfault hon hport)]
    simp only [State.advanceTo_active, State.advanceTo_grouping, hrec, State.advanceTo_txFibre, State.advanceTo_rxFibre, State.advanceTo_ports]
    rw [if_pos hskip]
    rfl
  case notRecognised =>
    change execPtpEventMessage t n m up f a b x s = _
    unfold execPtpEventMessage
    simp only [State.advanceTo_active, State.advanceTo_grouping, hrec, ite_self]

end Sys2Proof.Machine

namespace Sys2Proof.Machine

/-! ## Markers received and sent (R34, R135, R178 to R195, R295, R301, R327) -/

section
variable {s : State} {t : Instant} {r : LaneRef} {b : Nat} {x : RxFrame}

/-- A good marker on a lane that looks for markers is taken, and then moves the lane by its type. -/
theorem execMarkerReceive_good (hsees : ((s.advanceTo t).lane r).seesMarkers = true) (hj : (s.advanceTo t).judge r b x.found = .good) :
    execMarkerReceive t r b x s =
      let s1 := (((s.advanceTo t).reachMarker r (markerCount b) b x).takeGood r b x.pos).modLane r fun l =>
        { l with acq := { l.acq with found := l.acq.found + 1 } }
      if markerType (markerCount b) = .control then
        if (s1.lane r).rx.farRestart then .next (s1.toState r .signal ((s.advanceTo t).firstStage r) 0x06)
        else
          let s2 := s1.foundMarker r
          .next ((match (s2.lane r).tx.step with
            | some g => if g.agreed = true ∧ s2.mayStep r = true then s2.toState r .step (s2.lane r).acq.stage 0x01 else s2
            | none => s2).tryLocked r).judgePorts.judgeRill
      else .next (s1.foundMarker r).judgePorts := by
  unfold execMarkerReceive
  simp only [hsees, hj, Bool.true_eq_false, if_false, if_true] <;> rfl

/-- RESTART of a lane-control marker is what the lane then holds of its far end. -/
theorem farRestart_of_control (u : State) (f : Nat → Nat) (h : markerType (markerCount b) = .control) {k : Nat} :
    (((u.takeGood r b k).modLane r fun l => { l with acq := { l.acq with found := f l.acq.found } }).lane r).rx.farRestart = bit (markerPayload b) 81 := by
  rw [State.lane_modLane]
  exact State.takeGood_farRestart h
end

/-- Settles O24: the judgement of the marker, and for a good one its type, fix the row's branch; S200's marker is log entries 16 and 136, a
broken frame 71, a held lane 129 and the framer's alignment 133. -/
theorem markersPass : Obligations.MarkersPass := by
  unfold Obligations.MarkersPass
  refine ⟨fun s t r b x hsees hj => ?missing, fun s t r b x hsees hj => ?corrupt, fun s t r b x hsees hj htype => ?good,
    fun s t r b x hsees hj htype hrestart => ?restart, fun s t r b x hsees hj htype hrestart => ?control, fun s t r b x hsees => ?blind,
    fun s t r x hsends => ?sent, fun s t r x hsends => ?notSent, fun s r k hsends hloop hstage => ?framed, fun s r k hsends hloop => ?looped,
    fun s r k hsends hloop hstage => ?s200, fun s r => ?ends, fun s t r i hi htype => ?rillData, fun s t r i hi htype => ?timeMarker,
    fun s r i a hdep ha hq hvalid => ?departure, fun s r d a sum hsum hel hstep => ?sample⟩
  case missing =>
    change execMarkerReceive t r b x s = _
    unfold execMarkerReceive
    simp only [hsees, hj, Bool.true_eq_false, if_false, reduceCtorEq, decide_eq_true_eq]
  case corrupt =>
    change execMarkerReceive t r b x s = _
    unfold execMarkerReceive
    simp only [hsees, hj, Bool.true_eq_false, if_false, reduceCtorEq, decide_eq_true_eq]
  case good =>
    refine (execMarkerReceive_good hsees hj).trans ?_
    simp only [htype, if_false]
  case restart =>
    refine (execMarkerReceive_good hsees hj).trans ?_
    simp only [htype, farRestart_of_control _ (· + 1) htype, hrestart, if_true]
  case control =>
    refine (execMarkerReceive_good hsees hj).trans ?_
    simp only [htype, farRestart_of_control _ (· + 1) htype, hrestart, Bool.false_eq_true, if_true, if_false] <;> rfl
  case blind => exact if_pos hsees
  case sent => exact if_pos hsends
  case notSent => exact if_neg (by simp [hsends])
  case framed => simp only [State.sendSuperframe, hsends, hloop, hstage, Bool.true_eq_false, Bool.false_eq_true, if_false]
  case looped => simp only [State.sendSuperframe, hsends, hloop, Bool.true_eq_false, if_false, if_true]
  case s200 => simp only [State.sendSuperframe, hsends, hloop, hstage, Bool.true_eq_false, Bool.false_eq_true, if_false, if_true]
  case ends => simp [State.endSuperframe]
  case rillData =>
    change execRillDataMarker t r s = _
    simp only [execRillDataMarker, hi, htype, if_true] <;> cases ((s.advanceTo t).taken r).portOf r <;> rfl
  case timeMarker =>
    change execTimeMarkerArrival t r s = _
    simp only [execTimeMarkerArrival, hi, htype, ne_eq, not_true_eq_false, if_false]
  case departure => simp [State.departureOf, hdep, ha, hq, hvalid]
  case sample => simp only [State.takeSample, hsum, hel, hstep, and_self, if_true]

end Sys2Proof.Machine

namespace Sys2Proof.Machine

/-! ## Words, packed fields and the CRC-32C at the end of a packet or a frame (R11, R12, R69) -/

@[simp] theorem leBytes_length (n v : Nat) : (leBytes n v).length = n := by
  induction n generalizing v with
  | zero => rfl
  | succ n ih => simp [leBytes, ih]

/-- `n` bytes spell the number they were made of, as far as it fits them. -/
theorem ofLe_leBytes (n v : Nat) : ofLe (leBytes n v) = v % 256 ^ n := by
  induction n generalizing v with
  | zero => simp [leBytes, ofLe, Nat.mod_one]
  | succ n ih => rw [leBytes, ofLe, ih, BitVec.toNat_ofNat, pow_succ' 256, Nat.mod_mul]

theorem wordsLe_cons (w : Nat) (ws : List Nat) : wordsLe (w :: ws) = leBytes 4 w ++ wordsLe ws := List.flatMap_cons

@[simp] theorem wordsLe_length (ws : List Nat) : (wordsLe ws).length = 4 * ws.length := by
  induction ws with
  | nil => rfl
  | cons w ws ih => rw [wordsLe_cons, List.length_append, ih, leBytes_length, List.length_cons]; omega

/-- A header word is read back from its place, whatever follows the header. -/
theorem wordAt_wordsLe {ws : List Nat} {i : Nat} (h : i < ws.length) (rest : List Byte) : wordAt (wordsLe ws ++ rest) i = ws[i] % 2 ^ 32 := by
  induction ws generalizing i with
  | nil => cases h
  | cons w ws ih =>
    rw [wordsLe_cons, List.append_assoc]
    cases i with
    | zero => exact (congrArg ofLe (List.take_left' (leBytes_length 4 w))).trans (ofLe_leBytes 4 w)
    | succ i =>
      have skip : wordAt (leBytes 4 w ++ (wordsLe ws ++ rest)) (i + 1) = wordAt (wordsLe ws ++ rest) i := by
        simp only [wordAt, Nat.mul_succ, Nat.add_comm _ 4, ← List.drop_drop, List.drop_left' (leBytes_length 4 w)]
      rw [skip, ih (Nat.lt_of_succ_lt_succ h), List.getElem_cons_succ]

/-- A field within the low `k` bits does not see what lies above them. -/
theorem bits_mod {lo n k : Nat} (h : lo + n ≤ k) (w : Nat) : bits (w % 2 ^ k) lo n = bits w lo n := by
  have split : 2 ^ k = 2 ^ lo * 2 ^ (k - lo) := by rw [← pow_add, Nat.add_sub_cancel' (by omega)]
  rw [bits, bits, split, Nat.mod_mul_right_div_self, Nat.mod_mod_of_dvd _ (pow_dvd_pow 2 (by omega))]

/-- A field of a header word is read from the bytes as from the word. -/
theorem bits_wordAt_wordsLe {ws : List Nat} {i lo n : Nat} (h : i < ws.length) (hn : lo + n ≤ 32) (rest : List Byte) :
    bits (wordAt (wordsLe ws ++ rest) i) lo n = bits ws[i] lo n := by
  rw [wordAt_wordsLe h, bits_mod hn]

theorem bits_of_lt {w n : Nat} (h : w < 2 ^ n) : bits w 0 n = w := by
  rw [bits, pow_zero, Nat.div_one, Nat.mod_eq_of_lt h]

@[simp] theorem bits_pack_head (v w : Nat) (fs : List (Nat × Nat)) : bits (pack ((v, w) :: fs)) 0 w = v % 2 ^ w := by
  simp [bits, pack]

@[simp] theorem bits_pack_skip {w lo : Nat} (h : w ≤ lo) (v n : Nat) (fs : List (Nat × Nat)) :
    bits (pack ((v, w) :: fs)) lo n = bits (pack fs) (lo - w) n := by
  have split : 2 ^ lo = 2 ^ w * 2 ^ (lo - w) := by rw [← pow_add, Nat.add_sub_cancel' h]
  have drop : (v % 2 ^ w + 2 ^ w * pack fs) / 2 ^ w = pack fs := by
    rw [Nat.add_mul_div_left _ _ (Nat.two_pow_pos w), Nat.div_eq_of_lt (Nat.mod_lt _ (Nat.two_pow_pos w)), Nat.zero_add]
  rw [bits, bits, pack, split, ← Nat.div_div_eq_div_mul, drop]

theorem bit_eq_bits (w i : Nat) : bit w i = decide (bits w i 1 = 1) := Nat.testBit_eq_decide_div_mod_eq

@[simp] theorem flag_eq_one (b : Bool) : flag b % 2 = 1 ↔ b = true := by cases b <;> decide

theorem crcBit_lt {poly r : Nat} (hp : poly < 2 ^ 32) (hr : r < 2 ^ 32) : crcBit poly r < 2 ^ 32 := by
  have half : r / 2 < 2 ^ 32 := by omega
  unfold crcBit
  split
  · exact Nat.xor_lt_two_pow half hp
  · exact half

theorem crcBits_lt {poly : Nat} (hp : poly < 2 ^ 32) (k : Nat) {r : Nat} (hr : r < 2 ^ 32) : crcBits poly k r < 2 ^ 32 := by
  induction k generalizing r with
  | zero => exact hr
  | succ k ih => exact ih (crcBit_lt hp hr)

theorem crcFold_lt {poly : Nat} (hp : poly < 2 ^ 32) (bs : List Byte) {r : Nat} (hr : r < 2 ^ 32) : crcFold poly r bs < 2 ^ 32 := by
  induction bs generalizing r with
  | nil => exact hr
  | cons b bs ih => exact ih (crcBits_lt hp 8 (Nat.xor_lt_two_pow hr (Nat.lt_trans b.isLt (by decide))))

/-- CRC-32C fits its four bytes. -/
theorem crc32c_lt (bs : List Byte) : crc32c bs < 2 ^ 32 := Nat.xor_lt_two_pow (crcFold_lt (by decide) bs (by decide)) (by decide)

/-- The bytes before a CRC at the end. -/
theorem take_beforeCrc (b : List Byte) (v : Nat) : (b ++ leBytes 4 v).take ((b ++ leBytes 4 v).length - 4) = b := by
  rw [List.length_append, leBytes_length, Nat.add_sub_cancel, List.take_left]

/-- Bytes followed by their CRC-32C pass the check of it. -/
theorem crcGood_of_crc (b : List Byte) : crcGood (b ++ leBytes 4 (crc32c b)) = true := by
  have last : (b ++ leBytes 4 (crc32c b)).drop ((b ++ leBytes 4 (crc32c b)).length - 4) = leBytes 4 (crc32c b) := by
    rw [List.length_append, leBytes_length, Nat.add_sub_cancel, List.drop_left]
  rw [crcGood, last, take_beforeCrc, ofLe_leBytes, decide_eq_true_iff]
  exact Nat.mod_eq_of_lt (crc32c_lt b)

/-! ### Rill frames (R330, Table 9.3) -/

theorem Frame.bytes_bits (f : Frame) {i lo n : Nat} (h : i < 3) (hn : lo + n ≤ 32) :
    bits (wordAt f.bytes i) lo n = bits (f.header[i]'h) lo n := by
  unfold Frame.bytes
  rw [List.append_assoc]
  exact bits_wordAt_wordsLe h hn _

theorem Frame.bytes_body (f : Frame) : (f.bytes.take (f.bytes.length - 4)).drop 12 = f.body := by
  unfold Frame.bytes
  rw [take_beforeCrc]
  exact List.drop_left' (wordsLe_length _)

/-- Settles O56: header, body and CRC each come back from the bytes they were laid out in. -/
theorem rillFrameRoundTrip : Obligations.RillFrameRoundTrip := by
  unfold Obligations.RillFrameRoundTrip
  intro f hf
  obtain ⟨htype, hseq, hhops, hptr, hroute, hwid, htag⟩ := hf
  have hroute : f.route < 16777216 := hroute
  refine ⟨crcGood_of_crc _, ?_⟩
  simp [Frame.ofBytes, bit_eq_bits, f.bytes_bits, f.bytes_body, Frame.header, bits_of_lt, Nat.mod_eq_of_lt, htype, hseq, hhops, hptr,
    hroute, hwid, htag]

/-! ### Command packets (R68 to R70, Table 2.5) -/

/-- Check 1 of R70: a whole header, which begins with 0xA5. -/
def PacketHeaderOk (bs : List Byte) : Prop := 8 ≤ bs.length ∧ bits (wordAt bs 0) 0 8 = 0xA5

/-- Check 2 of R70: the packet is as long as its LENGTH says, and MWL cut nothing off. -/
def PacketLengthOk (bs : List Byte) (cut : Bool) : Prop :=
  bits (wordAt bs 0) 16 16 ≤ 1024 ∧ bs.length = 12 + 4 * ceilDiv (bits (wordAt bs 0) 16 16) 4 ∧ cut = false

/-- Check 4 of R70: QUEUE is one that the sender may name, and the reserved bit is 0. -/
def PacketFieldsOk (bs : List Byte) (maxQ : Nat) : Prop := bits (wordAt bs 0) 8 4 ≤ maxQ ∧ bit (wordAt bs 0) 12 = false

/-- The command that the bytes of a packet spell (Table 2.5). -/
def packetCmd (bs : List Byte) : Cmd :=
  { op := bits (wordAt bs 1) 0 16, expert := bit (wordAt bs 0) 15, barrier := bit (wordAt bs 0) 14, noReply := bit (wordAt bs 0) 13
    tag := bits (wordAt bs 1) 16 16, payload := (bs.drop 8).take (bits (wordAt bs 0) 16 16) }

section
variable {bs : List Byte} {cut : Bool} {maxQ : Nat}

theorem checkPacket_drop (h : ¬ PacketHeaderOk bs) : checkPacket bs cut maxQ = .drop :=
  if_pos (by unfold PacketHeaderOk at h; omega)

/-- With a good header the later checks decide. -/
theorem checkPacket_of_header (h : PacketHeaderOk bs) :
    checkPacket bs cut maxQ =
      if 1024 < bits (wordAt bs 0) 16 16 ∨ bs.length ≠ 12 + 4 * ceilDiv (bits (wordAt bs 0) 16 16) 4 ∨ cut then .reject .badLength
      else if crcGood bs = false then .reject .badCrc
      else if maxQ < bits (wordAt bs 0) 8 4 ∨ bit (wordAt bs 0) 12 then .reject .badParam
      else .good (bits (wordAt bs 0) 8 4) (packetCmd bs) := by
  obtain ⟨hlen, hstart⟩ := h
  simp only [checkPacket, crcGood, decide_eq_false_iff_not]
  exact if_neg (by simp [hstart, hlen])

theorem checkPacket_badLength (hh : PacketHeaderOk bs) (hl : ¬ PacketLengthOk bs cut) : checkPacket bs cut maxQ = .reject .badLength := by
  rw [checkPacket_of_header hh]
  refine if_pos ?_
  by_contra hno
  simp only [not_or, Nat.not_lt, ne_eq, not_not, Bool.not_eq_true] at hno
  exact hl hno

/-- With a good header and length the CRC and the fields decide. -/
theorem checkPacket_of_length (hh : PacketHeaderOk bs) (hl : PacketLengthOk bs cut) :
    checkPacket bs cut maxQ = if crcGood bs = false then .reject .badCrc
      else if maxQ < bits (wordAt bs 0) 8 4 ∨ bit (wordAt bs 0) 12 then .reject .badParam
      else .good (bits (wordAt bs 0) 8 4) (packetCmd bs) := by
  obtain ⟨hmax, hlen, hcut⟩ := hl
  rw [checkPacket_of_header hh]
  exact if_neg (by simp [hmax, hlen, hcut])

theorem checkPacket_badCrc (hh : PacketHeaderOk bs) (hl : PacketLengthOk bs cut) (hc : crcGood bs = false) :
    checkPacket bs cut maxQ = .reject .badCrc := by
  rw [checkPacket_of_length hh hl, if_pos hc]

theorem checkPacket_badParam (hh : PacketHeaderOk bs) (hl : PacketLengthOk bs cut) (hc : crcGood bs = true) (hf : ¬ PacketFieldsOk bs maxQ) :
    checkPacket bs cut maxQ = .reject .badParam := by
  rw [checkPacket_of_length hh hl, if_neg (by simp [hc])]
  refine if_pos ?_
  by_contra hno
  simp only [not_or, Nat.not_lt, Bool.not_eq_true] at hno
  exact hf hno

theorem checkPacket_good (hh : PacketHeaderOk bs) (hl : PacketLengthOk bs cut) (hc : crcGood bs = true) (hf : PacketFieldsOk bs maxQ) :
    checkPacket bs cut maxQ = .good (bits (wordAt bs 0) 8 4) (packetCmd bs) := by
  obtain ⟨hqueue, hrsv⟩ := hf
  rw [checkPacket_of_length hh hl, if_neg (by simp [hc]), if_neg (by simp [hqueue, hrsv])]

end

/-- The two header words of a command packet (Table 2.5). -/
def Cmd.header (queue : Nat) (c : Cmd) : List Nat :=
  [pack [(0xA5, 8), (queue, 4), (0, 1), (flag c.noReply, 1), (flag c.barrier, 1), (flag c.expert, 1), (c.payload.length, 16)],
   pack [(c.op, 16), (c.tag, 16)]]

/-- A packet is its header, and then what the CRC closes. -/
theorem Cmd.bytes_eq (c : Cmd) (queue : Nat) : ∃ crc, crc.length = 4 ∧
    c.bytes queue = wordsLe (c.header queue) ++ (c.payload ++ (padding c.payload.length ++ crc)) :=
  ⟨_, leBytes_length 4 _, by simp only [Cmd.bytes, Cmd.header, List.append_assoc]; rfl⟩

theorem Cmd.bytes_crcGood (c : Cmd) (queue : Nat) : crcGood (c.bytes queue) = true := crcGood_of_crc _

theorem Cmd.bytes_bits (c : Cmd) (queue : Nat) {i lo n : Nat} (h : i < 2) (hn : lo + n ≤ 32) :
    bits (wordAt (c.bytes queue) i) lo n = bits ((c.header queue)[i]'h) lo n := by
  obtain ⟨crc, -, hbytes⟩ := c.bytes_eq queue
  rw [hbytes]
  exact bits_wordAt_wordsLe h hn _

theorem Cmd.bytes_length (c : Cmd) (queue : Nat) : (c.bytes queue).length = 12 + 4 * ceilDiv c.payload.length 4 := by
  obtain ⟨crc, hcrc, hbytes⟩ := c.bytes_eq queue
  simp only [hbytes, List.length_append, wordsLe_length, hcrc, Cmd.header, List.length_cons, List.length_nil, padding, List.length_replicate,
    ceilDiv]
  omega

theorem Cmd.bytes_payload (c : Cmd) (queue : Nat) : ((c.bytes queue).drop 8).take c.payload.length = c.payload := by
  obtain ⟨crc, -, hbytes⟩ := c.bytes_eq queue
  have afterHeader : (c.bytes queue).drop 8 = c.payload ++ (padding c.payload.length ++ crc) := by
    rw [hbytes]
    exact List.drop_left' (wordsLe_length _)
  rw [afterHeader, List.take_left]

/-- Settles O5: the packet of a command passes each check, and every field is read from where it was packed. -/
theorem packetRoundTrip : Obligations.PacketRoundTrip := by
  unfold Obligations.PacketRoundTrip
  intro queue c hqueue hop htag hlen
  have fits : c.payload.length < 65536 := by omega
  have small : queue < 16 := by omega
  have length : bits (wordAt (c.bytes queue) 0) 16 16 = c.payload.length := by simp [c.bytes_bits, Cmd.header, Nat.mod_eq_of_lt, fits]
  have qnum : bits (wordAt (c.bytes queue) 0) 8 4 = queue := by simp [c.bytes_bits, Cmd.header, Nat.mod_eq_of_lt, small]
  have header : PacketHeaderOk (c.bytes queue) := ⟨by rw [c.bytes_length]; omega, by simp [c.bytes_bits, Cmd.header]⟩
  have whole : PacketLengthOk (c.bytes queue) false := ⟨by omega, by rw [c.bytes_length, length], rfl⟩
  have fields : PacketFieldsOk (c.bytes queue) 1 := ⟨by omega, by simp [bit_eq_bits, c.bytes_bits, Cmd.header]⟩
  have spelled : packetCmd (c.bytes queue) = c := by
    simp [packetCmd, length, c.bytes_payload, bit_eq_bits, c.bytes_bits, Cmd.header, Nat.mod_eq_of_lt, hop, htag]
  rw [checkPacket_good header whole (c.bytes_crcGood queue) fields, qnum, spelled]

/-! ### A write at a device that takes it (R70, R71) -/

/-- The queue that a packet's QUEUE names. -/
def hostQueue (n : Nat) : QId := if n = 0 then .q0 else .q1

section
variable {s : State} {bs : List Byte} {cut : Bool}

theorem State.takePacket_drop (h : checkPacket bs cut 1 = .drop) :
    s.takePacket bs cut = { s with bus := { s.bus with pktDrops := satAdd 32 s.bus.pktDrops 1 } } := by
  simp only [State.takePacket, h]

theorem State.takePacket_reject {st : Status} (h : checkPacket bs cut 1 = .reject st) :
    s.takePacket bs cut = s.reject st (bits (wordAt bs 1) 16 16) (bits (wordAt bs 1) 0 16) (bits (wordAt bs 0) 8 4) := by
  simp only [State.takePacket, h]

/-- A good packet is rejected as its queue is full, or received. -/
theorem State.takePacket_good {n : Nat} {c : Cmd} (h : checkPacket bs cut 1 = .good n c) :
    s.takePacket bs cut = if 16 ≤ (s.q.get (hostQueue n)).length
      then s.reject .queueFull (bits (wordAt bs 1) 16 16) (bits (wordAt bs 1) 0 16) (bits (wordAt bs 0) 8 4)
      else (s.receive (hostQueue n) c (0, 0, 0)).sweep := by
  unfold State.takePacket
  rw [h]
  rfl

end

/-- What the host writes is not cut where it fits MWL. -/
theorem notCut {n m : Nat} (h : n ≤ m) : decide (m < n) = false := decide_eq_false (Nat.not_lt.2 h)

/-- Settles O4: the first check that fails fixes what becomes of the packet; the order in which heads of undefined opcode reply is log entry 8. -/
theorem packetChecks : Obligations.PacketChecks := by
  unfold Obligations.PacketChecks
  refine ⟨?drop, ?badLength, ?badCrc, ?badParam, ?full, ?received⟩
  case drop =>
    intro s t addr bytes htakes hno
    have bad : ¬ PacketHeaderOk (bytes.take s.bus.mwl) := fun ⟨h8, hstart⟩ => hno.elim (Nat.not_lt.2 h8) fun x => x hstart
    rw [privateWrite_sdr htakes, State.takePacket_drop (checkPacket_drop bad), State.atSdr_bus]
  case badLength =>
    intro s t addr bytes htakes h8 hstart hno
    have bad : ¬ PacketLengthOk (bytes.take s.bus.mwl) (decide (s.bus.mwl < bytes.length)) := by
      rintro ⟨hmax, hlen, hcut⟩
      exact hno.elim (Nat.not_lt.2 hmax) fun x => x.elim (fun y => y hlen) (of_decide_eq_false hcut)
    rw [privateWrite_sdr htakes, State.takePacket_reject (checkPacket_badLength ⟨h8, hstart⟩ bad)]
  case badCrc =>
    intro s t addr bytes htakes h8 hstart ⟨hmax, hlen, hmwl⟩ hcrc
    have bad : crcGood (bytes.take s.bus.mwl) = false := decide_eq_false hcrc
    rw [privateWrite_sdr htakes, State.takePacket_reject (checkPacket_badCrc ⟨h8, hstart⟩ ⟨hmax, hlen, notCut hmwl⟩ bad)]
  case badParam =>
    intro s t addr bytes htakes h8 hstart ⟨hmax, hlen, hmwl⟩ hcrc hno
    have bad : ¬ PacketFieldsOk (bytes.take s.bus.mwl) 1 := by
      rintro ⟨hqueue, hrsv⟩
      exact hno.elim (Nat.not_lt.2 hqueue) (by simp [hrsv])
    rw [privateWrite_sdr htakes,
      State.takePacket_reject (checkPacket_badParam ⟨h8, hstart⟩ ⟨hmax, hlen, notCut hmwl⟩ (decide_eq_true hcrc) bad)]
  case full =>
    intro s t addr bytes htakes h8 hstart ⟨hmax, hlen, hmwl⟩ hcrc hfields hfull
    rw [privateWrite_sdr htakes,
      State.takePacket_good (checkPacket_good ⟨h8, hstart⟩ ⟨hmax, hlen, notCut hmwl⟩ (decide_eq_true hcrc) hfields), State.atSdr_q, hostQueue,
      if_pos hfull]
  case received =>
    intro s t addr bytes htakes h8 hstart ⟨hmax, hlen, hmwl⟩ hcrc hfields hroom
    rw [privateWrite_sdr htakes,
      State.takePacket_good (checkPacket_good ⟨h8, hstart⟩ ⟨hmax, hlen, notCut hmwl⟩ (decide_eq_true hcrc) hfields), State.atSdr_q, hostQueue,
      if_neg (Nat.not_le.2 hroom), packetCmd]

end Sys2Proof.Machine

namespace Sys2Proof.Machine

/-! ## The stream and the bus: reads, rejections, IBIs and CCCs (R54 to R65, R71) -/

/-! ### A read of the stream (R61, R78) -/

/-- A packet has its header and its CRC even without a payload (R72). -/
theorem Packet.bytes_ne_nil (p : Packet) : p.bytes ≠ [] := by simp [Packet.bytes, wordsLe, leBytes]

/-- The state once a packet has been read whole: the slot of the command it answers is free (R78). -/
def State.freedBy (s : State) (p : Packet) : State :=
  match p.entry with
  | some seq => match s.queueOf seq with
    | some (q, _) => s.dropEntry q seq
    | none => s
  | none => s

theorem State.freedBy_sets (s : State) (p : Packet) : (s.freedBy p).shadow = s.shadow ∧ (s.freedBy p).active = s.active := by
  unfold State.freedBy
  split
  · split <;> exact ⟨rfl, rfl⟩
  · exact ⟨rfl, rfl⟩

section
variable {fuel n : Nat} {p : Packet} {rest : List Packet} {s : State}

/-- A packet read whole leaves the stream. -/
theorem consume_whole (h : p.bytes.length ≤ n) : consume (fuel + 1) (p :: rest) n s = consume fuel rest (n - p.bytes.length) (s.freedBy p) :=
  if_pos h

/-- A packet read in part stays, with the read position within it. -/
theorem consume_part (h : n < p.bytes.length) :
    consume (fuel + 1) (p :: rest) n s = { s with bus := { s.bus with stream := p :: rest, readPos := n } } :=
  if_neg (Nat.not_le.2 h)

/-- At the start of a packet, or at the end of the stream, what is left is the stream. -/
theorem consume_atStart (ps : List Packet) :
    consume (fuel + 1) ps 0 s = { s with bus := { s.bus with stream := ps, readPos := 0 } } := by
  cases ps with
  | nil => rfl
  | cons p rest => exact consume_part (List.length_pos_iff.2 p.bytes_ne_nil)

end

/-- Reading the stream touches no shadow and no active set. -/
theorem consume_sets (fuel : Nat) (ps : List Packet) (n : Nat) (s : State) :
    (consume fuel ps n s).shadow = s.shadow ∧ (consume fuel ps n s).active = s.active := by
  induction fuel generalizing ps n s with
  | zero => exact ⟨rfl, rfl⟩
  | succ fuel ih =>
    cases ps with
    | nil => exact ⟨rfl, rfl⟩
    | cons p rest =>
      by_cases h : p.bytes.length ≤ n
      · obtain ⟨hshadow, hactive⟩ := ih rest (n - p.bytes.length) (s.freedBy p)
        rw [consume_whole h, hshadow, hactive]
        exact s.freedBy_sets p
      · rw [consume_part (Nat.not_le.1 h)]
        exact ⟨rfl, rfl⟩

/-- The device answers reads of its stream at an address: it holds it, has booted, and is in RUN or STANDBY (R55, R56). -/
def State.givesReads (s : State) (addr : Nat) : Prop := s.bus.dynAddr = some addr ∧ s.sys.booted = true ∧ s.sys.pstate ≤ 1

/-- With bytes waiting, a read moves the read position over the bytes it answers. -/
theorem exec_privateRead_waiting {s : State} {addr : Nat} (h : s.givesReads addr) (t n : Nat) (hw : s.streamBytes ≠ []) :
    Goes (exec (.privateRead t addr none n) s) fun s' =>
      let r := consume (s.bus.stream.length + 1) s.bus.stream (s.bus.readPos + (s.streamBytes.take (min n s.bus.mrl)).length) (s.atSdr t)
      s'.bus.last = .data (s.streamBytes.take (min n s.bus.mrl)) ∧ s'.bus.stream = r.bus.stream ∧ s'.bus.readPos = r.bus.readPos ∧
        s'.q = r.q ∧ s'.shadow = s.shadow ∧ s'.active = s.active := by
  obtain ⟨haddr, hboot, hp⟩ := h
  have opened : (s.atSdr t).privateOpen addr = true := by simp [State.privateOpen, State.bootDone, haddr, hboot, hp]
  obtain ⟨hshadow, hactive⟩ :=
    consume_sets (s.bus.stream.length + 1) s.bus.stream (s.bus.readPos + (s.streamBytes.take (min n s.bus.mrl)).length) (s.atSdr t)
  refine ⟨_, (privateRead_sdr hp t addr n).trans (congrArg _ (if_neg (by simp [opened, hw]))), ?_⟩
  exact ⟨rfl, rfl, rfl, rfl, hshadow.trans (s.atSdr_shadow t), hactive.trans (s.atSdr_active t)⟩

/-- Within the head packet the stream holds all the bytes asked for. -/
theorem State.streamBytes_headLeft {s : State} {p : Packet} {rest : List Packet} (hs : s.bus.stream = p :: rest) {n : Nat}
    (h : s.bus.readPos + n ≤ p.bytes.length) : n ≤ s.streamBytes.length := by
  rw [State.streamBytes, hs, List.flatMap_cons, List.length_drop, List.length_append]
  omega

/-- Settles O7: with bytes waiting the read takes them, from the head packet and to its end; with none it is NACKed. -/
theorem privateRead : Obligations.PrivateRead := by
  unfold Obligations.PrivateRead
  refine ⟨?bytes, ?part, ?whole, ?nothing⟩
  case bytes =>
    intro s t addr n haddr hboot hp hw
    obtain ⟨s', hnext, hlast, -, -, -, hshadow, hactive⟩ := exec_privateRead_waiting ⟨haddr, hboot, hp⟩ t n hw
    exact ⟨s', hnext, hlast, hshadow, hactive⟩
  case part =>
    intro s t addr n p rest haddr hboot hp hs hpart hn
    have left := State.streamBytes_headLeft hs (n := n + 1) (by omega)
    obtain ⟨s', hnext, -, hstream, hpos, hq, -, -⟩ :=
      exec_privateRead_waiting ⟨haddr, hboot, hp⟩ t n (List.ne_nil_of_length_pos (by omega))
    rw [List.length_take, Nat.min_eq_left hn, Nat.min_eq_left (by omega), hs, consume_part hpart] at hstream hpos hq
    exact ⟨s', hnext, hs ▸ hstream, hpos, hq.trans (s.atSdr_q t)⟩
  case whole =>
    intro s t addr n p rest haddr hboot hp hs hwithin hwhole hn
    have left := State.streamBytes_headLeft hs (n := n) (by omega)
    obtain ⟨s', hnext, -, hstream, hpos, -, -, -⟩ :=
      exec_privateRead_waiting ⟨haddr, hboot, hp⟩ t n (List.ne_nil_of_length_pos (by omega))
    rw [List.length_take, Nat.min_eq_left hn, Nat.min_eq_left left, hs, hwhole, consume_whole le_rfl, Nat.sub_self, List.length_cons,
      consume_atStart] at hstream hpos
    exact ⟨s', hnext, hstream, hpos⟩
  case nothing =>
    intro s t addr n hp hnone
    rw [privateRead_sdr hp, if_pos (.inr hnone)]

/-! ### A rejection (R62, R71) -/

/-- Settles O6: the two sides of the bound of eight. -/
theorem rejectionPacket : Obligations.RejectionPacket := by
  unfold Obligations.RejectionPacket
  refine ⟨fun s st tag op queue hroom => ?enters, fun s st tag op queue hfull => if_neg (Nat.not_lt.2 hfull)⟩
  case enters =>
    rw [State.reject, if_pos hroom]
    exact ⟨_, rfl, rfl, rfl, rfl, rfl, rfl, rfl, rfl, rfl⟩

/-! ### An IBI (R64, R65, Table 2.3) -/

/-- Settles O8: with an IBI due, the controller's answer is all that tells the two outcomes apart. -/
theorem ibiAnswered : Obligations.IbiAnswered := by
  unfold Obligations.IbiAnswered
  refine ⟨fun s t c hdue => ?acked, fun s t c hdue => ?nacked⟩
  case acked =>
    change execIbiRetry t true s = _
    simp [execIbiRetry, hdue, State.answer]
  case nacked =>
    change execIbiRetry t false s = _
    simp [execIbiRetry, hdue, State.answer]

/-! ### Directed and broadcast CCCs (R54, R55, R57, R58, R60, R63, R65) -/

@[simp] theorem State.advanceTo_pid (s : State) (t : Instant) : (s.advanceTo t).pid = s.pid := by simp [State.pid]

@[simp] theorem State.advanceTo_staticAddr (s : State) (t : Instant) : (s.advanceTo t).staticAddr = s.staticAddr := by simp [State.staticAddr]

@[simp] theorem State.advanceTo_addressed (s : State) (t : Instant) (addr : Nat) : (s.advanceTo t).addressed addr = s.addressed addr := by
  simp [State.addressed]

@[simp] theorem State.answer_addressed (s : State) (r : BusResult) (addr : Nat) : (s.answer r).addressed addr = s.addressed addr := rfl

section
variable {s : State}

theorem State.addressed_of_held {addr : Nat} (ha : s.bus.dynAddr = some addr) (hh : s.sys.pow.held = false) : s.addressed addr = true := by
  simp [State.addressed, ha, hh]

/-- A direct CCC at the address the device holds reaches it. -/
theorem State.reached_direct {addr : Nat} (ha : s.bus.dynAddr = some addr) (hh : s.sys.pow.held = false) : s.reached (some addr) = true :=
  State.addressed_of_held ha hh

/-- A broadcast CCC reaches a device that no reset holds. -/
theorem State.reached_broadcast (hh : s.sys.pow.held = false) : s.reached none = true := by simp [State.reached, hh]

/-- A reading CCC at the address the device holds answers its bytes. -/
theorem readCcc_addressed {addr : Nat} (h : s.addressed addr = true) (t : Instant) (bytes : State → List Byte) :
    readCcc t addr bytes s = (s.advanceTo t).answer (.data (bytes (s.advanceTo t))) :=
  if_pos ((s.advanceTo_addressed t addr).trans h)

theorem readCcc_other {addr : Nat} (h : s.addressed addr = false) (t : Instant) (bytes : State → List Byte) :
    readCcc t addr bytes s = (s.advanceTo t).answer .nack :=
  if_neg (by simp [h])

/-- A writing CCC that reaches the device makes its change of the bus and nothing else. -/
theorem writeCcc_reached {addr : Option Nat} (h : s.reached addr = true) (t : Instant) (f : Bus → Bus) :
    writeCcc t addr f s = { s.advanceTo t with bus := { f s.bus with last := .ack } } := by
  have reached : (s.advanceTo t).reached addr = true := by
    cases addr <;> simpa [State.reached] using h
  simp only [writeCcc, reached, if_true, State.advanceTo_bus, State.answer]

end

/-- Settles O1: each reading CCC of a device that is addressed answers its bytes, and GETSTATUS clears its flag there only. -/
theorem cccReads : Obligations.CccReads := by
  unfold Obligations.CccReads
  refine ⟨?pid, ?bcr, ?dcr, ?mwl, ?mrl, ?status, ?other⟩
  case pid =>
    intro s t addr ha hh
    change Host.Outcome.next (readCcc ..) = _
    rw [readCcc_addressed (State.addressed_of_held ha hh), State.advanceTo_pid]
  case bcr => exact fun s t addr ha hh => congrArg _ (readCcc_addressed (State.addressed_of_held ha hh) t _)
  case dcr => exact fun s t addr ha hh => congrArg _ (readCcc_addressed (State.addressed_of_held ha hh) t _)
  case mwl =>
    intro s t addr ha hh
    change Host.Outcome.next (readCcc ..) = _
    rw [readCcc_addressed (State.addressed_of_held ha hh), State.advanceTo_bus]
  case mrl =>
    intro s t addr ha hh
    change Host.Outcome.next (readCcc ..) = _
    rw [readCcc_addressed (State.addressed_of_held ha hh), State.advanceTo_bus]
  case status =>
    intro s t addr ha hh
    have here := State.addressed_of_held ha hh
    change execGetstatus t addr s = _
    simp only [execGetstatus, readCcc_addressed here, State.answer_addressed, State.advanceTo_addressed, here, Bool.not_true, Bool.and_false,
      State.answer_bus, State.advanceTo_bus] <;> rfl
  case other =>
    intro s t addr ha
    have elsewhere : s.addressed addr = false := by simp [State.addressed, ha]
    change execGetstatus t addr s = _
    simp only [execGetstatus, readCcc_other elsewhere, State.answer_addressed, State.advanceTo_addressed, elsewhere, Bool.not_false,
      Bool.and_true, State.answer_bus, State.advanceTo_bus] <;> rfl

/-- Settles O2: each writing CCC that reaches the device is its change of the bus; the others leave it. -/
theorem cccWrites : Obligations.CccWrites := by
  unfold Obligations.CccWrites
  refine ⟨fun s t addr new ha hh => congrArg _ (writeCcc_reached (State.reached_direct ha hh) t _),
    fun s t addr v ha hh => congrArg _ (writeCcc_reached (State.reached_direct ha hh) t _),
    fun s t addr v ibi ha hh => congrArg _ (writeCcc_reached (State.reached_direct ha hh) t _),
    fun s t addr ev ha hh => congrArg _ (writeCcc_reached (State.reached_direct ha hh) t _),
    fun s t addr ev ha hh => congrArg _ (writeCcc_reached (State.reached_direct ha hh) t _),
    fun s t addr ha hh => congrArg _ (writeCcc_reached (State.reached_direct ha hh) t _),
    fun s t addr ha hh => congrArg _ (writeCcc_reached (State.reached_direct ha hh) t _),
    fun s t a addr hne => ?otherAction, fun s t addr => ?otherDirect, fun s t => ?otherBroadcast,
    fun s t hh => congrArg _ (writeCcc_reached (State.reached_broadcast hh) t _),
    fun s t hh => congrArg _ (writeCcc_reached (State.reached_broadcast hh) t _)⟩
  case otherAction =>
    change execRstactNoReset t (.rstact addr a) s = _
    simp only [execRstactNoReset, hne, if_false, State.answer, State.advanceTo_bus]
  case otherDirect =>
    change execRstactNoReset t (.direct addr) s = _
    simp only [execRstactNoReset, State.answer, State.advanceTo_bus]
  case otherBroadcast =>
    change execRstactNoReset t .broadcast s = _
    simp only [execRstactNoReset, State.answer, State.advanceTo_bus]

/-- Settles O3: by whether the device holds a dynamic address. -/
theorem addressGiven : Obligations.AddressGiven := by
  unfold Obligations.AddressGiven
  refine ⟨fun s t a hnone hh => ?taken, fun s t a hnone hh => ?set, fun s t b x hsome hh => ?noPart, fun s t a b x hsome => ?refused⟩
  case taken =>
    change execEntdaa t (some a) s = _
    simp [execEntdaa, hnone, hh, State.takeAddress, State.answer]
  case set =>
    change execSetdasa t s.staticAddr a s = _
    simp [execSetdasa, hnone, hh, State.takeAddress]
  case noPart =>
    change execEntdaa t (some b) s = _
    simp [execEntdaa, hsome, hh, State.answer]
  case refused =>
    change execSetdasa t a b s = _
    simp [execSetdasa, hsome, State.answer]

end Sys2Proof.Machine

namespace Sys2Proof.Machine

/-! ## Reads of the system group, and ABORT (R83, R91, R100, R101, R107, R108, Table 2.11) -/

/-- A limit that the device has, fixed or not, and a number below its count. -/
theorem limitScope_instance {id i : Nat} (h : (limitScope id).any (fun x => decide (i < x.1)) = true) :
    ∃ n fixed, limitScope id = some (n, fixed) ∧ i < n := by
  cases hs : limitScope id with
  | none => simp [hs] at h
  | some x => exact ⟨x.1, x.2, rfl, by simpa [hs] using h⟩

/-- Settles O10: each read's checks pass, and its reply is made of the state alone.  That LIMIT_READ shows LOCKED for the fixed limits too is
log entry 114. -/
theorem statusReads : Obligations.StatusReads := by
  unfold Obligations.StatusReads
  refine ⟨?status, completes_ok cmdEcho (fun _ _ _ => rfl) fun q e s _ => rfl, ?limit, ?owner⟩
  case status =>
    refine completes_ok cmdGetStatus (fun _ _ _ => rfl) fun q e s hpre => ?_
    obtain ⟨hl, h0⟩ := hpre
    exact checked_pass (by simp [hl]) h0
  case limit =>
    refine completes_ok cmdLimitRead (fun _ _ _ => rfl) fun q e s hpre => ?_
    obtain ⟨hl, h0, hany⟩ := hpre
    obtain ⟨n, fixed, hs, hi⟩ := limitScope_instance hany
    simp only [cmdLimitRead, hs]
    exact checked_pass (by simp [hl]) (by simp [hi, h0])
  case owner =>
    refine completes_ok cmdOwnerRead (fun _ _ _ => rfl) fun q e s hpre => ?_
    obtain ⟨hl, h0, hres⟩ := hpre
    obtain ⟨r, hr⟩ := Option.isSome_iff_exists.1 hres
    simp only [cmdOwnerRead, hr]
    exact checked_pass (by simp [hl]) h0

/-- Settles O13: with a good payload ABORT is the discards in order of reception.  Which running commands it names, itself and a commit past its
Tc left out, is log entry 24. -/
theorem abortDiscards : Obligations.AbortDiscards := by
  unfold Obligations.AbortDiscards
  refine completes_ok cmdAbort (fun _ _ _ => rfl) fun q e s hpre => ?_
  obtain ⟨hl, h0⟩ := hpre
  exact checked_pass (by simp [hl]) h0

end Sys2Proof.Machine

namespace Sys2Proof.Machine

/-! ## Every row answers a next state -/

/-- A row answers a next state. -/
def Answers (o : Out) : Prop := ∃ s', o = .next s'

theorem answers_next (s : State) : Answers (.next s) := ⟨s, rfl⟩

/-- The end of a record: none is open, its POST samples are still to come, or it closes and acquisition goes on or is disarmed. -/
theorem execRecordComplete_answers (t : Instant) (data : List Captured) (s : State) : Answers (execRecordComplete t data s) := by
  unfold execRecordComplete
  extract_lets u k f
  cases u.acq.cur with
  | none => exact answers_next _
  | some r =>
    dsimp -zeta only
    extract_lets mine truncated closed s1 s2
    cases s2.acq.disarming with
    | none => (repeat' split) <;> exact answers_next _
    | some d => split <;> exact answers_next _

/-- Each row listed acts by conditions on the state and its operands, and each branch of its meaning ends in a next state; every other row
but RECORD_COMPLETE is one next state. -/
theorem exec_answers (c : Instr) (s : State) : Answers (exec c s) := by
  cases c with
  | ibiRetry | entdaa | setdasa | rstactNoReset | rstactFullReset | cmisRead | cmisWrite | laneCalibrationEnd | eyeScanEnd | xferCalPhaseEnd |
    epochResend | epochResultTimeout | hkCalibrationEnd | debugPortAccess | commandTimeout | snapshotValidate | applyTcReached |
    commitValidationTimeout | blockCommit | blockRevert | islandClockSwitch | timeBusEpochMessage | gainLoopStep | adcRotationMove | lmsUpdate |
    cdrLockDeclare | cdrLockLoss | signalQualified | lossOfSignal | gainSettled | equaliserConverged | markerReceive | missingMarkerLockLoss |
    innerFailWindowEnd | laneStateTimeout | stageSwitch | stageClockReady | restartEnd | txStageFallback | txMarker | timeMarkerArrival | hello |
    stepPropose | stepConfirm | tapRequest | tapReply | pdReport | skewReportLo | skewReportHi | trafficStart | laneReportTimer | txTuningTimeout |
    trafficBegin | receiverForwardStart | rillDataMarker | residueMismatch | eccUncorrectable | hostSignalDetect | hostTrainingComplete |
    hostRateStep | hostRxLocked | hostAlignComplete | hostLaneLoss | hostRecoverRestored | hostLaneTimeout | hostrefLost | portFaultClear |
    ptpEventMessage | lanePowerExitComplete | referenceLost | referenceQualified | ppsInEdge | ppsWindowMissed | asymEstimateRun | rillFrameReceive
    | ack | epStage | epochTcReached | epochStagingExpiry | rillAckTimeout | rillBusyResend | rillBusyLimit | triggerFiring | triggerTimeoutFire |
    triggerDecision | rearm | spillwayStartComplete | spillwayUnitSend | spwFaultStop | timerTick | gaugeTriggerEvent |
    gaugePassStart | jetsTick | jetsDeglitchEnd | jetsParkTimer | pwmPeriodEnd | pwmCentreEvent | thermalMonitorRead | rotationStep | engineSwap |
    bistSliceEnd | cisternTestSchedule | watchdogExpiry | clockLoss | supplyFault | faultRecoveryComplete | supplyComparatorUpdate | shedStep |
    powerOn | railInWindow | railStartTimeout | supplyShutdown | shutdownRestart | resetNAssert | resetRelease | bootRomRun | bootDone |
    logFlashCopy | sleepRequest | powerStateEntry | wakeSource | alwaysOnTimer | wakeStageComplete | wakeStageTimeout | wakeRetry | commandReady |
    recoveryWindowExpiry | hostTrainingRequest | lanePowerEntryComplete | clockRestored | epochCommandDeadline | fwSelectTimeout =>
    dsimp only [exec, execIbiRetry, execEntdaa, execSetdasa, execRstactNoReset, execRstactFullReset, execCmisRead, execCmisWrite,
      execLaneCalibrationEnd, execEyeScanEnd, execXferCalPhaseEnd, execEpochResend, execEpochResultTimeout, execHkCalibrationEnd,
      execDebugPortAccess, execCommandTimeout, execSnapshotValidate, execApplyTcReached, execCommitValidationTimeout, execBlockCommit,
      execBlockRevert, execIslandClockSwitch, execTimeBusEpochMessage, execGainLoopStep, execAdcRotationMove, execLmsUpdate, execCdrLockDeclare,
      execCdrLockLoss, execSignalQualified, execLossOfSignal, execGainSettled, execEqualiserConverged, execMarkerReceive, execMissingMarkerLockLoss,
      execInnerFailWindowEnd, execLaneStateTimeout, execStageSwitch, execStageClockReady, execRestartEnd, execTxStageFallback, execTxMarker,
      execTimeMarkerArrival, execHello, execStepPropose, execStepConfirm, execTapRequest, execTapReply, execPdReport, execSkewReportLo,
      execSkewReportHi, execTrafficStart, execLaneReportTimer, execTxTuningTimeout, execTrafficBegin, execReceiverForwardStart, execRillDataMarker,
      execResidueMismatch, execEccUncorrectable, execHostSignalDetect, execHostTrainingComplete, execHostRateStep, execHostRxLocked,
      execHostAlignComplete, execHostLaneLoss, execHostRecoverRestored, execHostLaneTimeout, execHostrefLost, execPortFaultClear,
      execPtpEventMessage, execLanePowerExitComplete, execReferenceLost, execReferenceQualified, execPpsInEdge, execPpsWindowMissed,
      execAsymEstimateRun, execRillFrameReceive, execAck, execEpStage, execEpochTcReached, execEpochStagingExpiry, execRillAckTimeout,
      execRillBusyResend, execRillBusyLimit, execTriggerFiring, execTriggerTimeoutFire, execTriggerDecision, execRearm,
      execSpillwayStartComplete, execSpillwayUnitSend, execSpwFaultStop, execTimerTick, execGaugeTriggerEvent, execGaugePassStart, execJetsTick,
      execJetsDeglitchEnd, execJetsParkTimer, execPwmPeriodEnd, execPwmCentreEvent, execThermalMonitorRead, execRotationStep, execEngineSwap,
      execBistSliceEnd, execCisternTestSchedule, execWatchdogExpiry, execClockLoss, execSupplyFault, execFaultRecoveryComplete,
      execSupplyComparatorUpdate, execShedStep, execPowerOn, execRailInWindow, execRailStartTimeout, execSupplyShutdown, execShutdownRestart,
      execResetNAssert, execResetRelease, execBootRomRun, execBootDone, execLogFlashCopy, execSleepRequest, execPowerStateEntry, execWakeSource,
      execAlwaysOnTimer, execWakeStageComplete, execWakeStageTimeout, execWakeRetry, execCommandReady, execRecoveryWindowExpiry,
      execHostTrainingRequest, execLanePowerEntryComplete, execClockRestored, execEpochCommandDeadline, execFwSelectTimeout]
    (repeat' split) <;> exact answers_next _
  | recordComplete t data => exact execRecordComplete_answers t data s
  | _ => exact answers_next _

/-- Settles O51: that a row whose conditions do not hold lets only time pass is log entry 4. -/
theorem everyCommandAnswers : Obligations.EveryCommandAnswers := by
  unfold Obligations.EveryCommandAnswers
  exact exec_answers

end Sys2Proof.Machine

namespace Sys2Proof.Machine

/-! ## Lane reads (R133, R148, R149, R215, R216) -/

/-- The lane or unit that a field below the bound names. -/
theorem exists_idx? {n k : Nat} (h : k < n) : ∃ i, idx? n k = some i := ⟨⟨k, h⟩, dif_pos h⟩

/-- Settles O19: each read's checks pass; RX_MONITOR's figures are log entry 138, its clip count a free value of log entry 6. -/
theorem laneReads : Obligations.LaneReads := by
  unfold Obligations.LaneReads
  refine ⟨?state, ?monitor, ?counters⟩
  case state =>
    refine completes_ok cmdLineState (fun _ _ _ => rfl) fun q e s hpre => ?_
    obtain ⟨hl, h0⟩ := hpre
    exact checked_pass (by simp [hl]) h0
  case monitor =>
    refine completes_ok cmdRxMonitor (fun _ _ _ => rfl) fun q e s hpre => ?_
    obtain ⟨hl, hn, h0⟩ := hpre
    obtain ⟨n, hn⟩ := exists_idx? hn
    unfold cmdRxMonitor
    simp only [hn]
    exact checked_pass (by simp [hl]) h0
  case counters =>
    refine completes_ok cmdLineCounters (fun _ _ _ => rfl) fun q e s hpre => ?_
    obtain ⟨hl, h0, hdir, hsize⟩ := hpre
    have hsides : (decide (bits (e.w 0) 16 2 = 0) && !(maskIdx 8 (bits (e.w 0) 8 8)).isEmpty) = false := by simpa using hdir
    unfold cmdLineCounters
    exact checked_pass (by simp [hl]) (by rw [h0, hsides, decide_eq_true hsize]; rfl)

end Sys2Proof.Machine

namespace Sys2Proof.Machine

/-! ## The bring-up of a lane (R118, R125, R127, R130, R139, R159, R167, R168, R192, R196, R197, R223) -/

section
variable {s : State} {t : Instant} {r : LaneRef}

/-- CDR lock and the equaliser take CDR_LOCK to FRAME_LOCK (R125, R127). -/
theorem State.tryFrameLock_ready {u : State} (hst : (u.lane r).acq.state = .cdrLock) (hlock : (u.lane r).acq.cdrLock = true)
    (hconv : (u.lane r).acq.converged = true) : u.tryFrameLock r = u.toState r .frameLock (u.lane r).acq.stage 0x01 := by
  simp only [State.tryFrameLock, hst, hlock, hconv, and_self, if_true]

/-- Without CDR lock a lane stays. -/
theorem State.tryFrameLock_unlocked {u : State} (hlock : (u.lane r).acq.cdrLock = false) : u.tryFrameLock r = u := by
  simp only [State.tryFrameLock, hlock, Bool.false_eq_true, false_and, and_false, if_false]

theorem execEqualiserConverged_cdrLock (hst : ((s.advanceTo t).lane r).acq.state = .cdrLock) :
    execEqualiserConverged t r s =
      .next (((s.advanceTo t).modLane r fun l => { l with acq := { l.acq with converged := true } }).tryFrameLock r) := by
  simp only [execEqualiserConverged, hst, if_true]
end

/-- Settles O20: each row's condition holds, and it makes its move; the carried taps are log entry 43, the loop's units 125 and the framer's
alignment 133. -/
theorem laneBringUp : Obligations.LaneBringUp := by
  unfold Obligations.LaneBringUp
  refine ⟨fun s t n h hst hlow hruns => ?signalLine, fun s t n h hst hruns => ?signalRelay, fun s t n hst hquiet => ?gainLine,
    fun s t n hst => ?gainRelay, fun s t r cs hrx hst hlocks => ?cdrLock, fun s t r cs hrx hst hlocks => ?cdrTrack,
    fun s t r hst hlock => ?converged, fun s t r hst hlock => ?remembered, fun s t r g hg hst ha hdone hcount hmark => ?stageTx,
    fun s t r g hg hst ha hdone hcount hmark => ?stageRx, fun s t n g hg hst htx hrx => ?clockLine,
    fun s t n g hg hst htx hrx => ?clockRelay, fun s t r hrestart hmark => ?restartEnd,
    fun s t r hfall hrestart hmark => ?fallback, fun s t n c hsince hst hstage hpast => ?tuning,
    fun s t n hcount hstage => ?traffic, fun s t n hst hidle hdue => ?forward⟩
  case signalLine => exact if_pos ⟨hst, hlow, hruns⟩
  case signalRelay => exact if_pos ⟨hst, rfl, hruns⟩
  case gainLine => exact if_pos ⟨hst, hquiet⟩
  case gainRelay => exact if_pos hst
  case cdrLock =>
    change execCdrLockDeclare t (r, cs) s = _
    simp only [execCdrLockDeclare, hrx, hst, hlocks, ne_eq, not_false_eq_true, and_self, if_true]
  case cdrTrack =>
    change execCdrLockDeclare t (r, cs) s = _
    simp only [execCdrLockDeclare, hrx, hst, hlocks, ne_eq, not_false_eq_true, and_self, if_true, Bool.false_eq_true, if_false]
  case converged =>
    refine (execEqualiserConverged_cdrLock hst).trans ?_
    rw [State.tryFrameLock_ready (by rw [State.lane_modLane]; exact hst) (by rw [State.lane_modLane]; exact hlock) (by rw [State.lane_modLane]),
      State.lane_modLane]
  case remembered =>
    refine (execEqualiserConverged_cdrLock hst).trans ?_
    rw [State.tryFrameLock_unlocked (by rw [State.lane_modLane]; exact hlock)]
  case stageTx =>
    change execStageSwitch t r true s = _
    simp only [execStageSwitch, hg, hst, ha, hdone, hcount, hmark, and_self, if_true]
  case stageRx =>
    change execStageSwitch t r false s = _
    simp only [execStageSwitch, hg, hst, ha, hdone, hcount, hmark, and_self, if_true, Bool.false_eq_true, if_false]
  case clockLine =>
    change execStageClockReady t (.line n) s = _
    simp only [execStageClockReady, State.lane, hg, hst, htx, hrx, and_self, if_true]
  case clockRelay =>
    change execStageClockReady t (.relay n) s = _
    simp only [execStageClockReady, State.lane, hg, hst, htx, hrx, and_self, if_true]
  case restartEnd =>
    change execRestartEnd t r s = _
    simp only [execRestartEnd, hrestart, hmark, and_self, if_true, State.txToFirst]
  case fallback =>
    change execTxStageFallback t r s = _
    simp only [execTxStageFallback, hfall, hrestart, hmark, and_self, if_true, State.txToFirst]
  case tuning =>
    change execTxTuningTimeout t n s = _
    simp only [execTxTuningTimeout, hsince, hst, hstage, hpast, and_self, if_true]
  case traffic => exact if_pos ⟨hcount, hstage⟩
  case forward =>
    change execReceiverForwardStart t n s = _
    rcases hdue with hs200 | ⟨hfive, hfar⟩
    · simp only [execReceiverForwardStart, hst, hidle, hs200, or_true, and_self, if_true]
    · obtain ⟨st, hst', hfar⟩ := Option.any_eq_true _ _ |>.1 hfar
      simp only [execReceiverForwardStart, hst, hidle, hst', hfive, hfar, decide_true, Bool.and_self, true_or, and_self, if_true]

end Sys2Proof.Machine

namespace Sys2Proof.Machine

/-! ## The losses and timeouts of a lane (R118, R127, R128, R135 to R139, R144, R167, R244) -/

section
variable {s : State} {t : Instant} {r : LaneRef}

/-- Signal detect low is a loss of signal on every lane (R137). -/
theorem execLossOfSignal_detect : execLossOfSignal t r false s = .next ((s.advanceTo t).loseSignal r) := by
  cases r <;> rfl

/-- A lane in CDR_LOCK receives. -/
theorem Lane.receiving_of_cdrLock {l : Lane} (h : l.acq.state = .cdrLock) : l.receiving = true := by simp [Lane.receiving, h]

/-- A receiver with CDR lock loses it when the mean square has been too high (R118). -/
theorem execCdrLockLoss_lost {cs : List (Int × Nat)} (hrx : ((s.advanceTo t).lane r).receiving = true)
    (hlock : ((s.advanceTo t).lane r).acq.cdrLock = true) (hlost : cdrLost cs = true) :
    execCdrLockLoss t (r, cs) s =
      let d := ((s.advanceTo t).trackClock r cs).draw
      let s1 := d.2.modLane r fun l => { l with acq := { l.acq with cdrLock := false, relocked := false } }
      .next ((if ((s.advanceTo t).lane r).acq.state = .cdrLock then
        s1.toState r .signal ((s.advanceTo t).firstStage r) (Config.policy 0x5118 d.1 % 256) else s1).followClock r) := by
  simp only [execCdrLockLoss, hrx, hlock, hlost, and_self, if_true]

/-- A window that ends is judged; a lane that counts failures is locked, negotiates or is restored (R136, R138). -/
theorem execInnerFailWindowEnd_window {k : Nat} (hcount : (s.advanceTo t).counting r = true) (hk : (s.advanceTo t).windowFails r = some k) :
    execInnerFailWindowEnd t r s =
      let bad := decide ((s.advanceTo t).failLimit r ≠ 0 ∧ (s.advanceTo t).failLimit r ≤ k)
      let s1 := (s.advanceTo t).modLane r fun l => { l with acq := { l.acq with innerOk := !bad, winOk := !bad, winFails := 0, winFrames := 0 } }
      if ((s.advanceTo t).lane r).acq.state = .locked then .next (if bad then s1.lockLoss r 0x05 else s1)
      else if ((s.advanceTo t).lane r).acq.state = .negotiate then .next (s1.tryLocked r)
      else .next (s1.tryRestored r) := by
  simp only [execInnerFailWindowEnd, hcount, hk, if_true]

/-- A state held past its timeout is left, and counted (R128). -/
theorem execLaneStateTimeout_past {d : Nat} {st : LaneState}
    (hto : stateTimeout r ((s.advanceTo t).lane r).acq.state ((s.advanceTo t).lane r).acq.stage = some (d, st))
    (hpast : (s.advanceTo t).pastLane r ((s.advanceTo t).lane r).acq.stage (((s.advanceTo t).lane r).acq.timer + d) = true)
    (hhold : ((s.advanceTo t).lane r).acq.holding = false) :
    execLaneStateTimeout t r s =
      let s1 := (s.advanceTo t).modLane r fun l => { l with acq := { l.acq with retries := min (l.acq.retries + 1) 255 } }
      if ((s.advanceTo t).lane r).acq.state = .retrain then .next (s1.restartLane r 0x02)
      else .next (s1.toState r st (if st = .cdrLock then ((s.advanceTo t).lane r).acq.stage else (s.advanceTo t).firstStage r) 0x02) := by
  simp only [execLaneStateTimeout, hto, hpast, hhold, and_self, if_true]
end

/-- Settles O21: a loss or a timeout by the state that it finds; the exit of a lost CDR lock is log entry 44, the loss rule of S200 log entry 16. -/
theorem laneLosses : Obligations.LaneLosses := by
  unfold Obligations.LaneLosses
  refine ⟨fun s t r hdark hdis hstill hcal => ?signal, fun s t r hrest => ?signalResting, fun s t n hbelow => ?optical,
    fun s t r cs hst hlock hlost => ?cdr, fun s t r cs hst hrx hlock hlost => ?cdrElsewhere, fun s t r hmiss hst => ?markersLocked,
    fun s t r hmiss hst => ?markersNegotiating, fun s t r k hcount hk hst => ?windowLocked, fun s t r k hcount hk hst => ?windowElsewhere,
    fun s r x => rfl, fun s t r d st hto hpast hhold hst => ?timeout, fun s t r hst hpast hhold => ?retrain⟩
  case signal =>
    refine execLossOfSignal_detect.trans ?_
    simp only [State.loseSignal, hdark, hdis, hstill, hcal, or_self, if_false]
  case signalResting =>
    refine execLossOfSignal_detect.trans ?_
    simp only [State.loseSignal, hrest, if_true]
  case optical =>
    change execLossOfSignal t (.line n) true s = execLossOfSignal t (.line n) false s
    simp only [execLossOfSignal, hbelow, Bool.not_true, Bool.not_false, Bool.false_or, Bool.true_or, if_true]
  case cdr =>
    refine (execCdrLockLoss_lost (Lane.receiving_of_cdrLock hst) hlock hlost).trans ?_
    simp only [hst, if_true]
  case cdrElsewhere =>
    refine (execCdrLockLoss_lost hrx hlock hlost).trans ?_
    simp only [hst, if_false]
  case markersLocked =>
    change execMissingMarkerLockLoss t r s = _
    simp only [execMissingMarkerLockLoss, hmiss, hst, if_true]
  case markersNegotiating =>
    change execMissingMarkerLockLoss t r s = _
    have hlocked : ((s.advanceTo t).lane r).acq.state ≠ .locked := by
      rcases hst with h | h <;> simp only [h, ne_eq, reduceCtorEq, not_false_eq_true]
    simp only [execMissingMarkerLockLoss, hmiss, hlocked, hst, if_true, if_false]
  case windowLocked =>
    refine (execInnerFailWindowEnd_window hcount hk).trans ?_
    simp only [hst, if_true]
  case windowElsewhere =>
    refine (execInnerFailWindowEnd_window hcount hk).trans ?_
    simp only [hst, if_false, apply_ite Host.Outcome.next]
  case timeout =>
    refine (execLaneStateTimeout_past hto hpast hhold).trans ?_
    simp only [hst, if_false]
  case retrain =>
    have hto : stateTimeout r ((s.advanceTo t).lane r).acq.state ((s.advanceTo t).lane r).acq.stage = some (msec 2, .signal) := by rw [hst]; rfl
    refine (execLaneStateTimeout_past hto hpast hhold).trans ?_
    simp only [hst, if_true]

end Sys2Proof.Machine

namespace Sys2Proof.Machine

/-! ## What adapts, calibrates and reports (R111, R114, R115, R122, R145, R146, R150, R161, R171, R173, R176, R194) -/

section
variable {s : State} {t : Instant} {n : Fin 8}

/-- A change of a line lane is made of the lane as it stands. -/
theorem State.modLane_line_congr {u : State} {f g : Lane → Lane} (h : f u.lanes[n] = g u.lanes[n]) :
    u.modLane (.line n) f = u.modLane (.line n) g := by
  simp only [State.modLane, upd, h]

/-- The gain of a lane after a step of its loop, judged by whether the RMS is below or above its target (R111). -/
def LaneEq.gainStep (q : LaneEq) (pinned low high : Bool) : LaneEq :=
  if pinned then { q with gainAtLimit := false }
  else if low then
    if q.gain < 72 then { q with gain := q.gain + 1, gainAtLimit := false } else { q with gainAtLimit := true }
  else if high then
    if 0 < q.gain then { q with gain := q.gain - 1, gainAtLimit := false } else { q with gainAtLimit := true }
  else { q with gainAtLimit := false }

/-- Once at a marker boundary the gain loop of a working receiver acts (R111, R126). -/
theorem execGainLoopStep_atMarker {rms : Nat} (hrx : (s.advanceTo t).lanes[n].receiving = true) (hat : (s.advanceTo t).atMarker (.line n) = true)
    (honce : (s.advanceTo t).lanes[n].acq.gainAt ≠ some (s.advanceTo t).now) :
    execGainLoopStep t n rms s =
      let low := rmsLow (s.advanceTo t).active.lineRx[n].targetRms rms
      let high := rmsHigh (s.advanceTo t).active.lineRx[n].targetRms rms
      .next ((s.advanceTo t).modLane (.line n) fun l => { l with
        acq := { l.acq with
          gainQuiet := if low || high then 0 else (s.advanceTo t).lanes[n].acq.gainQuiet + 1, gainAt := some (s.advanceTo t).now }
        eq := (s.advanceTo t).lanes[n].eq.gainStep ((s.advanceTo t).active.pinned (.lineRx n) 0x2811 128) low high }) := by
  simp only [execGainLoopStep, hrx, hat, honce, ne_eq, not_false_eq_true, decide_true, Bool.and_self, if_true, LaneEq.gainStep]

/-- At a marker boundary 8 ms after the last move the rotation judges what the parked sub-converter measured (R114, R115). -/
theorem execAdcRotationMove_due {x : Int × Int × Int} (hrx : (s.advanceTo t).lanes[n].receiving = true)
    (hret : (s.advanceTo t).lanes[n].cal.retired = false) (hscan : (s.advanceTo t).scanning n = false)
    (hlate : (s.advanceTo t).lanes[n].cal.movedAt + msec 8 ≤ (s.advanceTo t).now) (hat : (s.advanceTo t).atMarker (.line n) = true) :
    execAdcRotationMove t n x s =
      let cal := (s.advanceTo t).lanes[n].cal
      if parkedOk x = true then
        .next ((s.advanceTo t).modLane (.line n) fun l => { l with cal := { l.cal.take x with
          parked := (nextParked cal.parked cal.ascending).1, ascending := (nextParked cal.parked cal.ascending).2, rejections := 0
          movedAt := (s.advanceTo t).now } })
      else
        .next (((s.advanceTo t).modLane (.line n) fun l => { l with cal := { cal.reject with movedAt := (s.advanceTo t).now } }).logEntry 0x0301 0
          (flag cal.reject.retired) (Block.lineRx n).id [pack [(n.val, 8), (cal.parked, 8), (flag cal.reject.retired, 1)]]) := by
  simp only [execAdcRotationMove, hrx, hret, hscan, hlate, hat, Bool.not_false, decide_true, Bool.and_self, if_true]

/-- A calibration that has had its 1.8 ms ends, in the order of the queues (R76, R146). -/
theorem execLaneCalibrationEnd_due {m : CalMeasure} (hst : (s.advanceTo t).lanes[n].acq.state = .calibrating)
    (hlate : (s.advanceTo t).lanes[n].acq.since + usec 1800 ≤ (s.advanceTo t).now)
    (hord : ((s.advanceTo t).calEntry n).all (fun x => (s.advanceTo t).inOrder x.1) = true) :
    execLaneCalibrationEnd t n m s =
      let a := (s.advanceTo t).lanes[n].acq
      let bad := calBad a.calKind m
      let s1 := if bad = none then (s.advanceTo t).applyCal n a.calKind m
        else (s.advanceTo t).logEntry 0x0302 0 1 (Block.lineRx n).id [pack [(0x2030, 16), (a.calKind, 8), (n.val, 8)]]
      .next ((s1.leaveCalibrating n).completeCal n .ok (wordsLe
        [pack [(flag bad.isSome, 8), (min (bad.getD 0xFF) 0xFF, 8), (((s.advanceTo t).now - a.since) / usec 1, 16)],
          pack [(ofSigned 16 ((s.advanceTo t).laneTemp (.line n)), 16)]])) := by
  simp only [execLaneCalibrationEnd, hst, hlate, hord, and_self, if_true]
  cases calBad (s.advanceTo t).lanes[n].acq.calKind m <;> rfl

/-- A scan starts on a LOCKED lane with no sub-converter retired and no scan (R150). -/
theorem startScan_free {e : QEntry} {ph sp dp li : Nat}
    (h : (decide (s.lanes[n].acq.state = .locked ∧ s.lanes[n].cal.retired = false) && !s.scanning n) = true) :
    startScan e n ph sp dp li s =
      .wait { s with scans := s.scans ++ [{ seq := e.seq, lane := n, phases := ph, step := sp, depth := dp, limit := li, startAt := s.now }] } := by
  obtain ⟨⟨hst, hret⟩, hscan⟩ : (s.lanes[n].acq.state = .locked ∧ s.lanes[n].cal.retired = false) ∧ s.scanning n = false := by
    simpa only [Bool.and_eq_true, decide_eq_true_eq, Bool.not_eq_true'] using h
  simp only [startScan, hst, hret, hscan, and_self, if_true]
end

/-- Settles O22: each event by its conditions, and the commands by their checks; the dead band is log entry 41, a second scan 130, a retired
sub-converter's report 134 and MU_SHIFT in RETRAIN 135. -/
theorem laneAdapts : Obligations.LaneAdapts := by
  unfold Obligations.LaneAdapts
  refine ⟨fun s t n rms hrx hat honce hpin hlow hgain => ?gainUp, fun s t n rms hrx hat honce hpin hlow hgain => ?gainTop,
    fun s t n rms hrx hat honce hpin hlow hhigh hgain => ?gainDown, fun s t n rms hrx hat honce hpin hlow hhigh hgain => ?gainBottom,
    fun s t n rms hrx hat honce hpin hlow hhigh => ?gainQuiet, fun s t n rms hrx hat honce hpin => ?gainPinned,
    fun s t n x hrx hret hscan hlate hat hok => ?rotated, fun s t n x hrx hret hscan hlate hat hok => ?rejected,
    fun s t n sums a b hst hadapt => ?lms, ?calibrate, fun s t n m hst hlate hgood hord => ?calGood,
    fun s t n m i hst hlate hbad hord => ?calBad, ?scan, ?scanExpert, fun s t n x errors hx hstop hlate => ?scanDone,
    fun s t n x c errors hx hstop => ?scanStopped, fun s t n far errors skews hsends hlate => ?reports, fun s t => ?disable, fun s t => ?enable⟩
  case gainUp =>
    refine (execGainLoopStep_atMarker hrx hat honce).trans ?_
    simp only [LaneEq.gainStep, hpin, hlow, hgain, Bool.true_or, Bool.false_eq_true, if_true, if_false]
  case gainTop =>
    refine (execGainLoopStep_atMarker hrx hat honce).trans ?_
    simp only [LaneEq.gainStep, hpin, hlow, Nat.not_lt.mpr hgain, Bool.true_or, Bool.false_eq_true, if_true, if_false]
  case gainDown =>
    refine (execGainLoopStep_atMarker hrx hat honce).trans ?_
    simp only [LaneEq.gainStep, hpin, hlow, hhigh, hgain, Bool.or_true, Bool.false_eq_true, if_true, if_false]
  case gainBottom =>
    refine (execGainLoopStep_atMarker hrx hat honce).trans ?_
    simp only [LaneEq.gainStep, hpin, hlow, hhigh, hgain, Nat.lt_irrefl, Bool.or_true, Bool.false_eq_true, if_true, if_false]
  case gainQuiet =>
    refine (execGainLoopStep_atMarker hrx hat honce).trans ?_
    simp only [LaneEq.gainStep, hpin, hlow, hhigh, Bool.or_self, Bool.false_eq_true, if_false]
  case gainPinned =>
    refine (execGainLoopStep_atMarker hrx hat honce).trans ?_
    simp only [LaneEq.gainStep, hpin, if_true]
  case rotated => exact (execAdcRotationMove_due hrx hret hscan hlate hat).trans (if_pos hok)
  case rejected => exact (execAdcRotationMove_due hrx hret hscan hlate hat).trans (if_neg (by simp [hok]))
  case lms =>
    change execLmsUpdate t n sums a b s = _
    simp only [execLmsUpdate, hst, hadapt, ne_eq, not_false_eq_true, and_self, if_true]
    exact congrArg Host.Outcome.next (State.modLane_line_congr rfl)
  case calibrate =>
    refine starts_wait cmdLaneCalibrate (fun _ _ _ => rfl) fun q e s hpre => ?_
    obtain ⟨hl, hn, h0, h0', hkind, hready⟩ := hpre
    obtain ⟨n, hn⟩ := exists_idx? hn
    have hready : s.calReady n (bits (e.w 0) 8 8) = true := by simpa only [hn, Option.all_some] using hready
    unfold cmdLaneCalibrate
    simp only [hn]
    exact (checked_pass (by simp [hl]) (by simp only [h0, h0', hkind, Bool.and_self])).trans (if_neg (by simp [hready]))
  case calGood =>
    refine (execLaneCalibrationEnd_due hst hlate hord).trans ?_
    simp only [hgood, if_true]
    rfl
  case calBad =>
    refine (execLaneCalibrationEnd_due hst hlate hord).trans ?_
    simp only [hbad, reduceCtorEq, if_false]
    rfl
  case scan =>
    refine starts_wait cmdEyeScan (fun _ _ _ => rfl) fun q e s hpre => ?_
    obtain ⟨hl, hn, h0, h0', h0'', h0''', h1, hfree⟩ := hpre
    obtain ⟨n, hn⟩ := exists_idx? hn
    rw [hn, Option.all_some] at hfree
    unfold cmdEyeScan
    simp only [hn]
    exact (checked_pass (by simp [hl]) (by simp only [h0, h0', h0'', h0''', h1, Bool.and_self])).trans (startScan_free hfree)
  case scanExpert =>
    refine starts_wait cmdEyeScanExpert (fun _ _ _ => rfl) fun q e s hpre => ?_
    obtain ⟨hl, hn, h0, h0', h0'', h0''', h1, hph, hph', hsp, hsp', hgrid, hdp, hdp', hli, hfree⟩ := hpre
    obtain ⟨n, hn⟩ := exists_idx? hn
    rw [hn, Option.all_some, Bool.and_assoc, Bool.and_eq_true] at hfree
    obtain ⟨hfits, hfree⟩ := hfree
    unfold cmdEyeScanExpert
    simp only [hn]
    exact (checked_pass (by simp [hl]) (by simp only [h0, h0', h0'', h0''', h1, hph, hph', hsp, hsp', hgrid, hdp, hdp', hli, hfits, and_self,
      decide_true, Bool.and_self])).trans (startScan_free hfree)
  case scanDone =>
    change execEyeScanEnd t n errors s = _
    simp only [execEyeScanEnd, hx, hstop, hlate, if_true]
  case scanStopped =>
    change execEyeScanEnd t n errors s = _
    simp only [execEyeScanEnd, hx, hstop]
  case reports =>
    change execLaneReportTimer t n far errors skews s = _
    simp only [execLaneReportTimer, hsends, hlate, and_self, if_true]
  case disable =>
    change execTxDisableAssert t s = _
    simp only [execTxDisableAssert, State.advanceTo_sys]
  case enable =>
    change execTxDisableRelease t s = _
    simp only [execTxDisableRelease, State.advanceTo_sys]

end Sys2Proof.Machine

namespace Sys2Proof.Machine

/-! ## A run of the asymmetry estimate (R311, R312) -/

/-- The sums of a lane's delay differences start again (R311). -/
def LaneTime.asymRestart (x : LaneTime) : LaneTime := { x with asymSum := 0, asymCnt := 0, asymD := none }

/-- The sums of every lane start again. -/
def State.asymRestart (s : State) : State :=
  s.forEach (List.finRange 8) fun n s => s.modLane (.line n) fun l => { l with time := l.time.asymRestart }

theorem State.asymRestart_tb (s : State) : s.asymRestart.tb = s.tb :=
  forEach_keep State.tb _ (fun _ s => State.modLane_tb s _ _) _ s

theorem State.asymRestart_time (s : State) (n : Fin 8) : s.asymRestart.lanes[n].time = s.lanes[n].time.asymRestart := by
  refine (forEach_at (fun s => s.lanes[n].time) n _ LaneTime.asymRestart (fun s => ?_) (fun m s hm => ?_) _ (List.nodup_finRange 8) s).trans
    (if_pos (List.mem_finRange n))
  · simp
  · have : n.val ≠ m.val := fun h => hm (Fin.ext h.symm)
    simp [this]

/-- The fit of a run (R311). -/
def State.asymFitted (s : State) : Rat × Rat × Rat := fit s.asymPoints s.asymQuadratic

/-- Why a run is invalid, 0 where it is valid (R312). -/
def State.asymVerdict (s : State) : Nat := s.asymJudge s.asymFitted (fitResidual s.asymPoints s.asymFitted)

/-- With no lane enabled for estimation a run is invalid, and its reason is 0x01 (R312, Table 8.7). -/
theorem State.asymVerdict_noneEnabled {s : State} (h : ∀ n : Fin 8, s.active.lineRx[n].asymEnable = false) : s.asymVerdict = 0x01 :=
  if_pos (List.all_eq_true.2 fun n _ => by rw [h n]; rfl)

/-- The report of a run. -/
def State.asymReported (s : State) : State :=
  { s with tb := { s.tb with
      asymReason := s.asymVerdict, asymUsed := idxMask s.asymUsedLanes, asymStamp := s.fnow, asymMarkers := 0
      asymSlope := roundRat (s.asymFitted.2.1 * 1000), asymCurve := roundRat (s.asymFitted.2.2 * 1000)
      asymResidual := Nat.sqrt (fitResidual s.asymPoints s.asymFitted * 1000000).floor.toNat } }

/-- A valid run gives a lane its ASYM. -/
def State.giveAsym (s : State) (n : Fin 8) (u : State) : State :=
  u.modLane (.line n) fun l => { l with time := { l.time with
    asym := roundRat (asymFit s.asymFitted (s.asymNm s.active.lineRx[n].wlIn) (s.asymNm s.active.lineRx[n].wlOut) * 65536 / 1000)
    asymEstimated := true } }

/-- A run reports, and estimates when it is valid. -/
def State.asymRun (s : State) : State :=
  if s.asymVerdict = 0 then s.asymReported.forEach s.asymGiven s.giveAsym else s.asymReported

theorem State.asymRun_tb (s : State) : s.asymRun.tb = s.asymReported.tb := by
  unfold State.asymRun
  split
  · exact forEach_keep State.tb _ (fun _ u => State.modLane_tb u _ _) _ _
  · rfl

/-- An invalid run leaves the lanes (R312). -/
theorem State.asymRun_lanes {s : State} (h : s.asymVerdict ≠ 0) : s.asymRun.lanes = s.lanes := by
  unfold State.asymRun
  rw [if_neg h]
  rfl

/-- A run that has its markers is made, and its sums start again. -/
theorem execAsymEstimateRun_due {s : State} {t : Instant} (h : 2 ^ 18 ≤ s.tb.asymMarkers) :
    execAsymEstimateRun t s = .next (s.advanceTo t).asymRun.asymRestart := by
  unfold execAsymEstimateRun
  exact if_neg (by rw [State.advanceTo_tb_asymMarkers]; exact Nat.not_lt.mpr h)

theorem asymEstimateRun_goes {s : State} {t : Instant} (h : 2 ^ 18 ≤ s.tb.asymMarkers) :
    Goes (exec (.asymEstimateRun t) s) fun s' => s'.tb.asymMarkers = 0 ∧
      ((∀ n : Fin 8, s.active.lineRx[n].asymEnable = false) → s'.tb.asymReason = 1) ∧
      (s'.tb.asymReason ≠ 0 → ∀ n : Fin 8, s'.lanes[n].time.asym = s.lanes[n].time.asym) ∧
      ∀ n : Fin 8, s'.lanes[n].time.asymSum = 0 ∧ s'.lanes[n].time.asymCnt = 0 := by
  have htb : (s.advanceTo t).asymRun.asymRestart.tb = (s.advanceTo t).asymReported.tb := (State.asymRestart_tb _).trans (State.asymRun_tb _)
  refine ⟨_, execAsymEstimateRun_due h, ?markers, fun hnone => ?reason, fun hbad n => ?kept, fun n => ?restarted⟩
  case markers => rw [htb]; rfl
  case reason => rw [htb]; exact State.asymVerdict_noneEnabled (by simpa using hnone)
  case kept =>
    rw [htb] at hbad
    rw [State.asymRestart_time, State.asymRun_lanes hbad, State.advanceTo_lanes]
    rfl
  case restarted => rw [State.asymRestart_time]; exact ⟨rfl, rfl⟩

end Sys2Proof.Machine

namespace Sys2Proof.Machine

/-! ## Time-transfer commands and loop measurements (R117, R177, R303, R306 to R310, R313) -/

/-- The field that names a lane or a unit is below the bound. -/
theorem lt_of_idx? {n k : Nat} {i : Fin n} (h : idx? n k = some i) : k < n := by
  by_contra hk
  simp [idx?, hk] at h

section
variable {s : State} {n : Fin 8}

/-- The release of a measurement brings a working lane up with the far end (Table 8.5). -/
theorem State.endXfer_working (h : s.lanes[n].acq.state ≠ .disabled) (h' : s.lanes[n].acq.state ≠ .still) :
    s.endXfer n = (s.releaseXfer n).toState (.line n) .dark .a 0x07 := by
  simp only [State.endXfer, h, h', or_self, if_false]

theorem State.endXfer_resting (h : s.lanes[n].acq.state = .disabled ∨ s.lanes[n].acq.state = .still) : s.endXfer n = s.releaseXfer n := by
  simp only [State.endXfer, h, if_true]
end

/-- Settles O25: the commands by their checks, a measurement phase by phase, and the run of the estimate; the bounds
of the expert form are log entry 69, and the residual cut to whole fs log entry 70. -/
theorem transferCommands : Obligations.TransferCommands := by
  unfold Obligations.TransferCommands
  refine ⟨fun n => ?table, ?status, fun n => ?cal, fun n => ?calExpert, ?asymmetry, fun n => ?asymLine, fun h => ?asymRelay,
    fun s t n hx hst => ?claimed, fun s t n hx hst => ?claimedStill, fun s t n hx hst hstage => ?broughtUp, fun s t n hx hcnt => ?measured,
    fun s t n hx hcnt => ?measuring, fun s t n hx hok => ?released, fun s t n hx hok => ?releasedBad, fun s n => State.endXfer_working,
    fun s n => State.endXfer_resting, fun s t => asymEstimateRun_goes⟩
  case table =>
    refine completes_ok cmdCalTableRead (fun _ _ _ => rfl) fun q e s hpre => ?_
    obtain ⟨hl, h0, h0', htable, hn⟩ := hpre
    unfold cmdCalTableRead
    simp only [hn]
    exact checked_pass (by simp [hl]) (by simp only [h0, h0', htable, Bool.and_self])
  case status =>
    refine completes_ok cmdXferStatus (fun _ _ _ => rfl) fun q e s hpre => ?_
    obtain ⟨hl, h0⟩ := hpre
    exact checked_pass (by simp [hl]) h0
  case cal =>
    refine starts_wait cmdXferCal (fun _ _ _ => rfl) fun q e s hpre => ?_
    obtain ⟨hn, hl, h0, hown, htx, hrx, htxEn, hrxEn, hloop, hpin, hpow⟩ := hpre
    unfold cmdXferCal
    simp only [hn]
    refine (checked_pass (by simp [hl]) h0).trans ?_
    simp only [hown, htx, hrx, htxEn, hrxEn, hloop, hpin, hpow, ne_eq, not_true_eq_false, Bool.false_eq_true, Bool.true_eq_false, or_self, if_false]
  case calExpert =>
    refine completes_ok cmdXferCalExpert (fun _ _ _ => rfl) fun q e s hpre => ?_
    obtain ⟨hn, hl, h0, h0', htx, htx', hrx, hrx', htxMod, hrxMod⟩ := hpre
    unfold cmdXferCalExpert
    simp only [hn]
    exact checked_pass (by simp [hl])
      (by simp only [h0, h0', htx, htx', hrx, hrx', htxMod, hrxMod, and_self, decide_true, Bool.and_self])
  case asymmetry =>
    refine completes_ok cmdAsymmetry (fun _ _ _ => rfl) fun q e s hpre => ?_
    obtain ⟨hl, h0⟩ := hpre
    exact checked_pass (by simp [hl]) h0
  case asymLine =>
    refine completes_ok cmdAsymmetryExpert (fun _ _ _ => rfl) fun q e s hpre => ?_
    obtain ⟨hl, h0, hlo, hhi, hkind, hn⟩ := hpre
    unfold cmdAsymmetryExpert
    refine (checked_pass (by simp [hl]) (by simp [h0, hlo, hhi, lt_of_idx? hn])).trans ?_
    simp only [hkind, hn, Bool.false_eq_true, if_false]
  case asymRelay =>
    refine completes_ok cmdAsymmetryExpert (fun _ _ _ => rfl) fun q e s hpre => ?_
    obtain ⟨hl, h0, hlo, hhi, hkind, hn⟩ := hpre
    unfold cmdAsymmetryExpert
    refine (checked_pass (by simp [hl]) (by simp [h0, hlo, hhi, hkind])).trans ?_
    simp only [hkind, hn, if_true]
  case claimed =>
    change execXferCalPhaseEnd t n s = _
    simp only [execXferCalPhaseEnd, hx, hst, if_false]
  case claimedStill =>
    change execXferCalPhaseEnd t n s = _
    simp only [execXferCalPhaseEnd, hx, hst, if_true]
  case broughtUp =>
    change execXferCalPhaseEnd t n s = _
    simp only [execXferCalPhaseEnd, hx, hst, hstage, and_self, if_true]
  case measured =>
    change execXferCalPhaseEnd t n s = _
    simp only [execXferCalPhaseEnd, hx, hcnt, if_true]
  case measuring =>
    change execXferCalPhaseEnd t n s = _
    simp only [execXferCalPhaseEnd, hx, hcnt, if_false]
  case released =>
    change execXferCalPhaseEnd t n s = _
    simp only [execXferCalPhaseEnd, hx, hok, if_true, Bool.not_true, flag, Bool.false_eq_true, if_false]
  case releasedBad =>
    change execXferCalPhaseEnd t n s = _
    simp only [execXferCalPhaseEnd, hx, hok, Bool.not_false, flag, Bool.false_eq_true, if_true, if_false]

end Sys2Proof.Machine

namespace Sys2Proof.Machine

/-! ## Lane-control messages delivered (R157, R159, R161, R164, R192, R193, R196, R197, R302) -/

section
variable {s : State} {t : Instant} {r : LaneRef} {i : Inbox}

/-- HELLO holds the far end's serial number; where a step may be proposed and none is, the end with a serial not above it proposes
(R192, R302). -/
theorem execHello_taken (hm : (s.advanceTo t).message r 1 = some i) :
    execHello t r s =
      let s1 := (((s.advanceTo t).taken r).modLane r fun l => { l with rx := { l.rx with peer := some (ctlBody i.payload) } }).judgeRill
      .next (if s1.mayStep r = true ∧ (s1.lane r).tx.step = none ∧ (s.advanceTo t).sys.serial ≤ ctlBody i.payload then s1.propose r else s1) := by
  simp only [execHello, hm, Bool.and_eq_true, Option.isNone_iff_eq_none, decide_eq_true_eq, and_assoc]
  split <;> rfl

/-- A tap request is refused for a tap past the seventh or a set that is not valid, and applied otherwise (R157, Table 5.7). -/
theorem tapsRefused_iff {j : Nat} {taps : Vector Int 7} : (7 ≤ j ∨ tapsValid taps = false) ↔ ¬ (j < 7 ∧ tapsValid taps = true) := by
  rw [not_and_or, Nat.not_lt, Bool.not_eq_true]

/-- The answer to the tap request `b` with outcome `o` joins the lane's messages (Table 5.7). -/
def State.answerTap (u : State) (r : LaneRef) (b o : Nat) : State :=
  u.modLane r fun l => { l with tx := l.tx.send 5 (pack [(0, 54), (o, 2), (bits b 56 8, 8)]) }

/-- A line lane still tuning at NEGOTIATE at stage C that takes tap requests applies a valid tap set, and refuses another (R157, R159). -/
theorem execTapRequest_tuning {n : Fin 8} (hm : (s.advanceTo t).message (.line n) 4 = some i)
    (hst : ((s.advanceTo t).taken (.line n)).lanes[n].acq.state = .negotiate) (hstage : ((s.advanceTo t).taken (.line n)).lanes[n].acq.stage = .c)
    (htake : (((s.advanceTo t).taken (.line n)).declinesTaps (.line n) || ((s.advanceTo t).taken (.line n)).lanes[n].tx.tuned) = false) :
    execTapRequest t (.line n) s =
      let s1 := (s.advanceTo t).taken (.line n)
      let b := ctlBody i.payload
      let taps := requestedTaps s1.shadow.lineTx[n].taps b
      .next (if bits b 53 3 < 7 ∧ tapsValid taps = true then
        ((s1.modShadow (Bank.tx n fun p => { p with taps })).q3Apply [.lineTx n]).answerTap (.line n) b 0 else s1.answerTap (.line n) b 1) := by
  simp only [execTapRequest, State.lane, hm, hst, hstage, htake, and_self, if_true, Bool.false_eq_true, if_false, tapsRefused_iff, ite_not]
  split <;> rfl

/-- The reply to a tap request ends tuning with outcome 2, and else as firmware chooses (R159). -/
theorem execTapReply_tuning (hm : (s.advanceTo t).message r 5 = some i) (hst : (((s.advanceTo t).taken r).lane r).acq.state = .negotiate)
    (hstage : (((s.advanceTo t).taken r).lane r).acq.stage = .c) (hdone : (((s.advanceTo t).taken r).lane r).tx.tuneDone = false) :
    execTapReply t r s =
      let d := ((s.advanceTo t).taken r).draw
      .next (if bits (ctlBody i.payload) 54 2 = 2 ∨ Config.policy 0x5907 d.1 % 2 = 0 then
        (d.2.modLane r fun l => { l with tx := { l.tx with tuneDone := true } }).tryLocked r
      else d.2.modLane r fun l => { l with tx := l.tx.send 4 (tapRequest ((bits (ctlBody i.payload) 56 8 + 1) % 256) d.1) }) := by
  simp only [execTapReply, hm, hst, hstage, hdone, and_self, if_true]
  split <;> rfl

/-- STEP_CONFIRM of a proposal not yet agreed is agreed in time, and else the step is proposed again (R192). -/
theorem execStepConfirm_proposed {g : StepNeg} (hm : (s.advanceTo t).message r 3 = some i)
    (hg : (((s.advanceTo t).taken r).lane r).tx.step = some g) (hmay : ((s.advanceTo t).taken r).mayStep r = true) (hp : g.proposer = true)
    (ha : g.agreed = false) (hstage : bits (ctlBody i.payload) 62 2 = g.target.code) (hsp : bits (ctlBody i.payload) 48 13 = g.txAt) :
    execStepConfirm t r s =
      let s1 := (s.advanceTo t).taken r
      let ahead := countAhead g.txAt (s1.lane r).tx.count
      .next (if 16 ≤ ahead ∧ ahead < 4000 then s1.agree r { g with rxAt := some (bits (ctlBody i.payload) 32 13) } else s1.propose r) := by
  simp only [execStepConfirm, hm, hg, hmay, hp, ha, hstage, hsp, and_self, decide_true, Bool.and_self, if_true]
  split <;> rfl
end

/-- Settles O23: each message waits, and its row takes it and finds its conditions; the entries and the tuning that firmware chooses are log
entries 48 and 49, the skew 47 and 133, and a request after tuning 132. -/
theorem messagesAct : Obligations.MessagesAct := by
  unfold Obligations.MessagesAct
  refine ⟨fun s t r i => execHello_taken, fun s t r i hm hmay hstage hpeer => ?confirms, fun s t r i g hm hmay hstage hpeer hg hp hsp => ?looped,
    fun s t r i g => execStepConfirm_proposed, fun s t r i hm hst hstage hdecl => ?declined, fun s t n i => execTapRequest_tuning,
    fun s t r i => execTapReply_tuning, fun s t n i hm hst had hs200 hact hsh => ?predistortion, fun s t n i hm => ?skewLo,
    fun s t n i hm => ?skewHi, fun s t n i hm => ?traffic⟩
  case confirms =>
    change execStepPropose t r s = _
    rw [State.taken_sys] at hpeer
    simp only [execStepPropose, hm, hmay, hstage, hpeer, decide_true, Bool.and_self, if_true, if_false]
  case looped =>
    change execStepPropose t r s = _
    rw [State.taken_sys] at hpeer
    simp only [execStepPropose, hm, hmay, hstage, hpeer, hg, hp, hsp, and_self, decide_true, Bool.and_self, if_true]
  case declined =>
    change execTapRequest t r s = _
    simp only [execTapRequest, hm, hst, hstage, hdecl, and_self, if_true]
  case predistortion =>
    change execPdReport t n s = _
    simp only [execPdReport, hm, hst, had, hs200, hact, hsh, and_self, if_true]
  case skewLo =>
    change execSkewReportLo t n s = _
    simp only [execSkewReportLo, hm]
  case skewHi =>
    change execSkewReportHi t n s = _
    simp only [execSkewReportHi, hm]
  case traffic =>
    change execTrafficStart t n s = _
    simp only [execTrafficStart, hm]

end Sys2Proof.Machine

namespace Sys2Proof.Machine

/-! ## The marker block and its CRC-16 (R180, R184 to R186, Table 5.4) -/

theorem crc16Step_lt (r : Nat) (b : Bool) : crc16Step r b < 2 ^ 16 := by
  have tap : (if Nat.testBit r 15 != b then 0x1021 else 0) < 2 ^ 16 := by split <;> decide
  exact Nat.xor_lt_two_pow (Nat.mod_lt _ (by decide)) tap

theorem crc16From_lt (n w : Nat) {r : Nat} (hr : r < 2 ^ 16) : crc16From n w r < 2 ^ 16 := by
  induction n generalizing r with
  | zero => exact hr
  | succ n ih => exact ih (crc16Step_lt r _)

theorem crc16_lt (n w : Nat) : crc16 n w < 2 ^ 16 := crc16From_lt n w (by decide)

/-- The high bits of a word go into the register before its `n` low ones. -/
theorem crc16From_add (m n w r : Nat) : crc16From (m + n) w r = crc16From n w (crc16From m (w / 2 ^ n) r) := by
  induction m generalizing r with
  | zero => rw [Nat.zero_add]; rfl
  | succ m ih => rw [Nat.succ_add, crc16From, ih, crc16From, Nat.testBit_div_two_pow]

/-- The bit shifted out of a 16-bit register is 1 when the register is in its upper half. -/
theorem testBit_15_of_lt {r : Nat} (hr : r < 2 ^ 16) : Nat.testBit r 15 = decide (32768 ≤ r) := by
  rw [Nat.testBit_eq_decide_div_mod_eq, decide_eq_decide]
  omega

theorem crc16Step_of_lt {r : Nat} (hr : r < 2 ^ 16) (b : Bool) :
    crc16Step r b = (2 * r % 65536) ^^^ (if decide (32768 ≤ r) = b then 0 else 0x1021) := by
  simp only [crc16Step, testBit_15_of_lt hr, bne_iff_ne, ne_eq, ite_not]

/-- The fields above the CRC of a marker block, side by side: bits [143:16] (Table 5.4). -/
def markerTop (n lane p : Nat) : Nat := pack [(p, 96), (lane, 3), (n, 13), (syncWord, 16)]

theorem markerTop_lt (n lane p : Nat) : markerTop n lane p < 2 ^ 128 := by
  simp only [markerTop, pack]
  omega

theorem markerBlock_eq (n lane p : Nat) : markerBlock n lane p = 65536 * markerTop n lane p + crc16 128 (markerTop n lane p) := by
  rw [Nat.mul_comm]
  rfl

/-- CRC16 is one more field, below the others. -/
theorem markerBlock_eq_pack (n lane p : Nat) :
    markerBlock n lane p = pack [(crc16 128 (markerTop n lane p), 16), (p, 96), (lane, 3), (n, 13), (syncWord, 16)] := by
  rw [pack, Nat.mod_eq_of_lt (crc16_lt _ _), Nat.add_comm, markerBlock_eq]
  rfl

theorem markerBlock_mod (n lane p : Nat) : markerBlock n lane p % 65536 = crc16 128 (markerTop n lane p) := by
  rw [markerBlock_eq, Nat.mul_add_mod]
  exact Nat.mod_eq_of_lt (crc16_lt _ _)

theorem markerBlock_div (n lane p : Nat) : markerBlock n lane p / 65536 = markerTop n lane p := by
  have low : crc16 128 (markerTop n lane p) / 65536 = 0 := Nat.div_eq_of_lt (crc16_lt _ _)
  rw [markerBlock_eq, Nat.mul_add_div (by decide), low, Nat.add_zero]

/-- The check value, by way of the register after "1234". -/
theorem crc16_checkValue : crc16 72 0x313233343536373839 = 0x29B1 := by
  have half : crc16From 32 (0x313233343536373839 / 2 ^ 40) 0xFFFF = 0x5349 := by decide
  rw [crc16, crc16From_add 32 40, half]
  decide

/-- Settles O59: the register takes the bits from the highest down, so one more bit at the end is one more step. -/
theorem markerCheck : Obligations.MarkerCheck := by
  unfold Obligations.MarkerCheck
  refine ⟨fun w => rfl, fun n w => ?oneMore, crc16_checkValue, fun n lane p => ?covered⟩
  case oneMore =>
    rw [← Nat.testBit_zero, ← crc16Step_of_lt (crc16_lt n (w / 2))]
    exact crc16From_add n 1 w 0xFFFF
  case covered =>
    change markerBlock n lane p % 65536 = crc16 128 (markerBlock n lane p / 65536)
    rw [markerBlock_mod, markerBlock_div]

theorem popcount_zero (n : Nat) : popcount n 0 = 0 := by
  induction n with
  | zero => rfl
  | succ n ih => rw [popcount, ih]

section
variable {n lane p : Nat}

theorem markerCount_markerBlock (hn : n ≤ 7999) : markerCount (markerBlock n lane p) = n := by
  have : n < 8192 := by omega
  simp [markerCount, markerBlock_eq_pack, Nat.mod_eq_of_lt this]

theorem markerLane_markerBlock (hl : lane < 8) : markerLane (markerBlock n lane p) = lane := by
  simp [markerLane, markerBlock_eq_pack, Nat.mod_eq_of_lt hl]

theorem markerPayload_markerBlock (hp : p < 2 ^ 96) : markerPayload (markerBlock n lane p) = p := by
  rw [markerPayload, markerBlock_eq_pack, bits_pack_skip (le_refl 16), Nat.sub_self, bits_pack_head, Nat.mod_eq_of_lt hp]

theorem markerMissing_markerBlock : markerMissing (markerBlock n lane p) = false := by
  have sync : bits (markerBlock n lane p) 128 16 = syncWord := by simp [markerBlock_eq_pack, syncWord]
  simp [markerMissing, sync, popcount_zero]

theorem markerCorrupt_markerBlock (hn : n ≤ 7999) (hp : p < 2 ^ 96) (hdata : markerType n = .data → p / 2 ^ 92 ≤ 11) :
    markerCorrupt (markerBlock n lane p) = false := by
  have crc : crc16 128 (markerBlock n lane p / 65536 % 2 ^ 128) = markerBlock n lane p % 65536 := by
    rw [markerBlock_div, markerBlock_mod, Nat.mod_eq_of_lt (markerTop_lt n lane p)]
  have nbytes : bits p 92 4 ≤ p / 2 ^ 92 := Nat.mod_le _ _
  simp only [markerCorrupt, crc, markerCount_markerBlock hn, markerPayload_markerBlock hp, decide_eq_false_iff_not]
  rintro (h | h | ⟨ht, hb⟩)
  · exact h rfl
  · omega
  · have := hdata ht; omega
end

/-- Settles O55: the sync field is exact, the CRC is that of the bits above it, and the fields stand side by side. -/
theorem markersReadBack : Obligations.MarkersReadBack := by
  unfold Obligations.MarkersReadBack
  intro n lane p hn hl hp hdata
  refine ⟨?good, ?marked, markerCount_markerBlock hn, markerLane_markerBlock hl, markerPayload_markerBlock hp⟩
  case good => simp [judgeMarker, markerMissing_markerBlock, markerCorrupt_markerBlock hn hp hdata]
  case marked => simp [judgeMarker, markerMissing_markerBlock]

end Sys2Proof.Machine

namespace Sys2Proof.Machine

/-! ## The inner code (R198 to R201) -/

/-! ### The syndrome as an XOR of columns -/

/-- Bit `k` of the syndrome is the XOR of bit `k` of the columns of the ones. -/
theorem testBit_syndromeFrom (cs : List Nat) (j w k : Nat) :
    Nat.testBit (syndromeFrom cs j w) k = (cs.zipIdx j).foldr (fun c x => xor (Nat.testBit w c.2 && Nat.testBit c.1 k) x) false := by
  induction cs generalizing j with
  | nil => exact Nat.zero_testBit k
  | cons c cs ih =>
    rw [syndromeFrom, Nat.testBit_xor, ih, List.zipIdx_cons, List.foldr_cons]
    cases Nat.testBit w j <;> simp

theorem syndromeFrom_lt {cs : List Nat} {n : Nat} (h : ∀ c ∈ cs, c < 2 ^ n) (j w : Nat) : syndromeFrom cs j w < 2 ^ n := by
  induction cs generalizing j with
  | nil => exact Nat.two_pow_pos n
  | cons c cs ih =>
    rw [List.forall_mem_cons] at h
    have head : (if Nat.testBit w j then c else 0) < 2 ^ n := by
      split
      · exact h.1
      · exact Nat.two_pow_pos n
    exact Nat.xor_lt_two_pow head (ih h.2 _)

theorem syndromeFrom_append (as bs : List Nat) (j w : Nat) :
    syndromeFrom (as ++ bs) j w = syndromeFrom as j w ^^^ syndromeFrom bs (j + as.length) w := by
  induction as generalizing j with
  | nil => simp [syndromeFrom]
  | cons a as ih =>
    rw [List.cons_append, syndromeFrom, syndromeFrom, ih, Nat.xor_assoc, List.length_cons, Nat.add_assoc, Nat.add_comm 1]

/-- Columns met from bit `j + i` up see the word without its `i` low bits. -/
theorem syndromeFrom_div (cs : List Nat) (i j w : Nat) : syndromeFrom cs (j + i) w = syndromeFrom cs j (w / 2 ^ i) := by
  induction cs generalizing j with
  | nil => rfl
  | cons c cs ih => rw [syndromeFrom, syndromeFrom, Nat.testBit_div_two_pow, Nat.add_right_comm, ih]

/-- The syndrome is linear. -/
theorem syndromeFrom_xor (cs : List Nat) (j v w : Nat) : syndromeFrom cs j (v ^^^ w) = syndromeFrom cs j v ^^^ syndromeFrom cs j w := by
  induction cs generalizing j with
  | nil => exact (Nat.xor_self 0).symm
  | cons c cs ih =>
    have head : (if Nat.testBit (v ^^^ w) j then c else 0) = (if Nat.testBit v j then c else 0) ^^^ (if Nat.testBit w j then c else 0) := by
      rw [Nat.testBit_xor]
      cases Nat.testBit v j <;> cases Nat.testBit w j <;> simp
    rw [syndromeFrom, syndromeFrom, syndromeFrom, ih, head]
    ac_rfl

/-- Over the columns 2^k of the parity bits the syndrome is the parity bits themselves. -/
theorem syndromeFrom_powers (n w : Nat) : syndromeFrom ((List.range n).map (2 ^ ·)) 0 w = w % 2 ^ n := by
  induction n with
  | zero => rw [pow_zero, Nat.mod_one]; rfl
  | succ n ih =>
    rw [List.range_succ, List.map_append, syndromeFrom_append, ih, List.length_map, List.length_range, Nat.zero_add]
    refine Nat.eq_of_testBit_eq fun k => ?_
    rcases eq_or_ne k n with rfl | hk
    · cases hw : Nat.testBit w k <;> simp [syndromeFrom, hw]
    · have below : k < n + 1 ↔ k < n := by omega
      cases hw : Nat.testBit w n <;> simp [syndromeFrom, hw, Nat.testBit_two_pow_of_ne hk.symm, below]

theorem syndrome_xor (v w : Nat) : syndrome (v ^^^ w) = syndrome v ^^^ syndrome w := syndromeFrom_xor columns 0 v w

/-- Parity bits below, data bits above. -/
theorem syndrome_eq (w : Nat) : syndrome w = w % 256 ^^^ syndromeFrom dataColumns 0 (w / 256) := by
  rw [syndrome, columns, syndromeFrom_append, syndromeFrom_powers, List.length_map, List.length_range, syndromeFrom_div]
  rfl

/-- The columns above a lone one give nothing. -/
theorem syndromeFrom_two_pow_of_lt (cs : List Nat) {i j : Nat} (h : i < j) : syndromeFrom cs j (2 ^ i) = 0 := by
  induction cs generalizing j with
  | nil => rfl
  | cons c cs ih => rw [syndromeFrom, Nat.testBit_two_pow_of_ne h.ne, ih (Nat.lt_succ_of_lt h)]; exact Nat.xor_self 0

/-- A lone one gives its own column. -/
theorem syndromeFrom_two_pow {cs : List Nat} {i c : Nat} (h : cs[i]? = some c) (j : Nat) : syndromeFrom cs j (2 ^ (j + i)) = c := by
  induction cs generalizing i j with
  | nil => cases h
  | cons c' cs ih =>
    cases i with
    | zero =>
      obtain rfl : c' = c := Option.some.inj h
      rw [syndromeFrom, Nat.add_zero, Nat.testBit_two_pow_self, if_pos rfl, syndromeFrom_two_pow_of_lt cs j.lt_succ_self, Nat.xor_zero]
    | succ i =>
      rw [syndromeFrom, Nat.testBit_two_pow_of_ne (by omega), ← Nat.add_assoc, Nat.add_right_comm, ih h]
      exact Nat.zero_xor c

theorem syndrome_two_pow {j c : Nat} (h : columns[j]? = some c) : syndrome (2 ^ j) = c := by
  rw [syndrome, ← syndromeFrom_two_pow h 0, Nat.zero_add]

/-! ### The columns (R198) -/

theorem of_mem_dataColumns {c : Nat} (h : c ∈ dataColumns) : c < 256 ∧ 2 ≤ popcount 8 c := by
  simp only [dataColumns, List.mem_append, List.mem_filter, List.mem_range, beq_iff_eq] at h
  obtain (⟨hlt, hw⟩ | ⟨hlt, hw⟩) | h := h
  · exact ⟨hlt, hw.ge⟩
  · omega
  · have := List.mem_of_mem_take h
    simp only [List.mem_filter, List.mem_range, beq_iff_eq] at this
    omega

/-- The three parts of the list differ in the weight of their values. -/
theorem dataColumns_nodup : dataColumns.Nodup := by
  have part (n : Nat) : ((List.range 256).filter fun x => popcount 8 x == n).Nodup := List.nodup_range.filter _
  have weight {n x : Nat} (h : x ∈ (List.range 256).filter fun x => popcount 8 x == n) : popcount 8 x = n :=
    beq_iff_eq.1 (List.mem_filter.1 h).2
  refine List.nodup_append.2 ⟨List.nodup_append.2 ⟨part 2, part 3, fun a ha b hb => ?_⟩, (part 4).sublist (List.take_sublist _ _), fun a ha b hb => ?_⟩
  · have := weight ha
    have := weight hb
    rintro rfl
    omega
  · have := weight (List.mem_of_mem_take hb)
    rintro rfl
    rcases List.mem_append.1 ha with ha | ha
    all_goals
      have := weight ha
      omega

/-- The parity bits' columns have one 1 each, the others at least two. -/
theorem columns_nodup : columns.Nodup := by
  refine List.nodup_append.2 ⟨List.nodup_range.map (Nat.pow_right_injective (le_refl 2)), dataColumns_nodup, fun a ha b hb hab => ?_⟩
  obtain ⟨k, hk, rfl⟩ := List.mem_map.1 ha
  have one : ∀ k < 8, popcount 8 (2 ^ k) = 1 := by decide
  have := one k (List.mem_range.1 hk)
  have := (of_mem_dataColumns (hab ▸ hb)).2
  omega

theorem columns_length : columns.length = 144 := by rfl

theorem of_mem_columns {c : Nat} (h : c ∈ columns) : c ≠ 0 ∧ c < 256 := by
  rcases List.mem_append.1 h with h | h
  · obtain ⟨k, hk, rfl⟩ := List.mem_map.1 h
    exact ⟨(Nat.two_pow_pos k).ne', Nat.pow_lt_pow_right (by decide) (List.mem_range.1 hk)⟩
  · obtain ⟨hlt, hw⟩ := of_mem_dataColumns h
    refine ⟨?_, hlt⟩
    rintro rfl
    exact absurd hw (by decide)

/-! ### The hard-decision decoder (R200) -/

theorem hardDecode_of_syndrome_zero {w : Nat} (h : syndrome w = 0) : hardDecode w = some w := if_pos h

/-- The columns are distinct and none is 0, so the first column that matches is the one. -/
theorem hardDecode_of_column {w j : Nat} (h : columns[j]? = some (syndrome w)) : hardDecode w = some (w ^^^ 2 ^ j) := by
  obtain ⟨hj, hc⟩ := List.getElem?_eq_some_iff.1 h
  have nonzero : syndrome w ≠ 0 := (of_mem_columns (List.mem_of_getElem? h)).1
  have found : columns.findIdx? (· == syndrome w) = some j := by
    rw [List.findIdx?_eq_some_iff_getElem]
    refine ⟨hj, beq_iff_eq.2 hc, fun i hi hsame => hi.ne ?_⟩
    exact (columns_nodup.getElem_inj_iff).1 ((beq_iff_eq.1 hsame).trans hc.symm)
  simp only [hardDecode, nonzero, if_false, found, Option.map_some]

theorem hardDecode_eq_none {w : Nat} (h0 : syndrome w ≠ 0) (h : syndrome w ∉ columns) : hardDecode w = none := by
  have absent : columns.findIdx? (· == syndrome w) = none :=
    List.findIdx?_eq_none_iff.2 fun c hc => beq_eq_false_iff_ne.2 fun hcs => h (hcs ▸ hc)
  simp only [hardDecode, h0, if_false, absent, Option.map_none]

/-- What the decoder delivers is a codeword. -/
theorem syndrome_of_hardDecode {w c : Nat} (h : hardDecode w = some c) : syndrome c = 0 := by
  by_cases h0 : syndrome w = 0
  · rw [hardDecode_of_syndrome_zero h0] at h
    exact Option.some.inj h ▸ h0
  by_cases hmem : syndrome w ∈ columns
  · obtain ⟨j, hj⟩ := List.getElem?_of_mem hmem
    rw [hardDecode_of_column hj] at h
    rw [← Option.some.inj h, syndrome_xor, syndrome_two_pow hj, Nat.xor_self]
  · rw [hardDecode_eq_none h0 hmem] at h
    cases h

/-- The columns are 144 of the 255 non-zero values. -/
theorem length_unusedSyndromes : ((List.range 256).filter fun x => decide (x ≠ 0 ∧ x ∉ columns)).length = 111 := by
  have used : ((List.range 256).filter fun x => !decide (x ≠ 0 ∧ x ∉ columns)).Perm (0 :: columns) := by
    have nodup : (0 :: columns).Nodup := columns_nodup.cons fun h => (of_mem_columns h).1 rfl
    refine (List.perm_ext_iff_of_nodup (List.nodup_range.filter _) nodup).2 fun x => ?_
    have small : x ∈ columns → x < 256 := fun h => (of_mem_columns h).2
    simp only [List.mem_filter, List.mem_range, List.mem_cons, Bool.not_eq_true', decide_eq_false_iff_not]
    by_cases hx : x ∈ columns
    · simp [hx, small hx]
    · simp [hx]; omega
  have total := List.length_eq_length_filter_add (l := List.range 256) fun x => decide (x ≠ 0 ∧ x ∉ columns)
  rw [used.length_eq, List.length_cons, columns_length, List.length_range] at total
  omega

/-- Settles O53: the syndrome is 0, a column, or neither. -/
theorem hardDecision : Obligations.HardDecision := by
  unfold Obligations.HardDecision
  exact ⟨fun w => hardDecode_of_syndrome_zero, fun w j _ => hardDecode_of_column, fun w => hardDecode_eq_none, length_unusedSyndromes⟩

/-! ### The codeword of a payload (R198, R199) -/

theorem parity_lt (d : Nat) : syndromeFrom dataColumns 0 d < 256 :=
  syndromeFrom_lt (n := 8) (fun _ hc => (of_mem_dataColumns hc).1) 0 d

theorem innerEncode_mod (p : Nat) : innerEncode p % 256 = syndromeFrom dataColumns 0 (p % 2 ^ 136) := by
  rw [innerEncode, Nat.mul_comm, Nat.mul_add_mod, Nat.mod_eq_of_lt (parity_lt _)]

theorem innerEncode_div (p : Nat) : innerEncode p / 256 = p % 2 ^ 136 := by
  rw [innerEncode, Nat.mul_comm, Nat.mul_add_div (by decide), Nat.div_eq_of_lt (parity_lt _), Nat.add_zero]

/-- The parity bits cancel the columns of the data bits. -/
theorem syndrome_innerEncode (p : Nat) : syndrome (innerEncode p) = 0 := by
  rw [syndrome_eq, innerEncode_mod, innerEncode_div, Nat.xor_self]

/-- Settles O52: the parity stands in the low byte, and the columns 2^k of the parity bits give it back to cancel it. -/
theorem parityAndSyndrome : Obligations.ParityAndSyndrome := by
  unfold Obligations.ParityAndSyndrome
  refine ⟨fun p hp => ⟨?data, fun k hk => ?parity⟩, fun w k => testBit_syndromeFrom columns 0 w k, syndrome_innerEncode⟩
  case data => rw [innerEncode_div, Nat.mod_eq_of_lt hp]
  case parity =>
    have low : Nat.testBit (innerEncode p) k = Nat.testBit (innerEncode p % 2 ^ 8) k := by
      rw [Nat.testBit_mod_two_pow, decide_eq_true hk, Bool.true_and]
    rw [low]
    change Nat.testBit (innerEncode p % 256) k = _
    rw [innerEncode_mod, Nat.mod_eq_of_lt hp, testBit_syndromeFrom]

/-- The column of an inverted bit says which bit it is. -/
theorem hardDecode_innerEncode_xor (p : Nat) {j : Nat} (hj : j < 144) : hardDecode (innerEncode p ^^^ 2 ^ j) = some (innerEncode p) := by
  obtain ⟨c, hc⟩ : ∃ c, columns[j]? = some c := ⟨_, List.getElem?_eq_getElem (columns_length ▸ hj)⟩
  have column : columns[j]? = some (syndrome (innerEncode p ^^^ 2 ^ j)) := by
    rw [syndrome_xor, syndrome_innerEncode, Nat.zero_xor, syndrome_two_pow hc, hc]
  rw [hardDecode_of_column column, Nat.xor_xor_cancel_right]

/-- Settles O54: a codeword's syndrome is 0, and an inverted bit makes it that bit's column. -/
theorem oneErrorCorrected : Obligations.OneErrorCorrected := by
  unfold Obligations.OneErrorCorrected
  refine ⟨fun p hp => ⟨hardDecode_of_syndrome_zero (syndrome_innerEncode p), ?_⟩, fun p j _ => hardDecode_innerEncode_xor p⟩
  rw [innerEncode_div, Nat.mod_eq_of_lt hp]

/-! ### The Chase decoder (R201) -/

/-- Step 4 of the Chase procedure: a candidate replaces the best one before it only when its metric is lower. -/
def keepLower (metric : Nat → Nat) (best : Option (Nat × Nat)) (c : Nat) : Option (Nat × Nat) :=
  match best with
  | none => some (metric c, c)
  | some (m, c') => if metric c < m then some (metric c, c) else some (m, c')

/-- The best candidate of the patterns below `n`, with its metric: none where none is a candidate, and else one of lowest metric that no
earlier pattern reaches. -/
def IsBestBelow (cand : Nat → Option Nat) (metric : Nat → Nat) (n : Nat) : Option (Nat × Nat) → Prop
  | none => ∀ t < n, cand t = none
  | some (m, c) => m = metric c ∧ ∃ t < n, cand t = some c ∧
      ∀ u < n, ∀ x, cand u = some x → metric c < metric x ∨ metric c = metric x ∧ t ≤ u

section
variable {cand : Nat → Option Nat} {metric : Nat → Nat} {n c : Nat} {best : Option (Nat × Nat)}

/-- A pattern without a candidate changes nothing. -/
theorem IsBestBelow.skip (h : IsBestBelow cand metric n best) (hn : cand n = none) : IsBestBelow cand metric (n + 1) best := by
  cases best with
  | none => exact Nat.forall_lt_succ_right.2 ⟨h, hn⟩
  | some b =>
    obtain ⟨hm, t, ht, hct, hlow⟩ := h
    refine ⟨hm, t, Nat.lt_succ_of_lt ht, hct, Nat.forall_lt_succ_right.2 ⟨hlow, fun x hx => ?_⟩⟩
    rw [hn] at hx
    cases hx

/-- A candidate is the first one, a better one, or no better than the best of the earlier patterns. -/
theorem IsBestBelow.keep (h : IsBestBelow cand metric n best) (hn : cand n = some c) :
    IsBestBelow cand metric (n + 1) (keepLower metric best c) := by
  have last {x : Nat} (hx : cand n = some x) : c = x := Option.some.inj (hn.symm.trans hx)
  have own (x : Nat) (hx : cand n = some x) : metric c < metric x ∨ metric c = metric x ∧ n ≤ n := .inr ⟨congrArg metric (last hx), le_rfl⟩
  cases best with
  | none =>
    refine ⟨rfl, n, n.lt_succ_self, hn, Nat.forall_lt_succ_right.2 ⟨fun u hu x hx => ?_, own⟩⟩
    rw [h u hu] at hx
    cases hx
  | some b =>
    obtain ⟨m, c'⟩ := b
    obtain ⟨rfl, t, ht, hct, hlow⟩ := h
    by_cases hlt : metric c < metric c'
    · rw [keepLower, if_pos hlt]
      refine ⟨rfl, n, n.lt_succ_self, hn, Nat.forall_lt_succ_right.2 ⟨fun u hu x hx => ?_, own⟩⟩
      have := hlow u hu x hx
      omega
    · rw [keepLower, if_neg hlt]
      refine ⟨rfl, t, Nat.lt_succ_of_lt ht, hct, Nat.forall_lt_succ_right.2 ⟨hlow, fun x hx => ?_⟩⟩
      rw [← last hx]
      omega

theorem isBestBelow_foldl (cand : Nat → Option Nat) (metric : Nat → Nat) (n : Nat) :
    IsBestBelow cand metric n (((List.range n).filterMap cand).foldl (keepLower metric) none) := by
  induction n with
  | zero => exact fun t ht => absurd ht t.not_lt_zero
  | succ n ih =>
    rw [List.range_succ, List.filterMap_append, List.foldl_append]
    cases hn : cand n with
    | none => simpa [hn] using ih.skip hn
    | some c => simpa [hn] using ih.keep hn
end

/-- The candidate of a test pattern: the word that the hard-decision decoder makes of the word with the pattern's bits inverted. -/
def chaseCandidate (d w : Nat) (rel : List Nat) (t : Nat) : Option Nat := hardDecode (flipBits w t (weakest rel d) 0)

/-- The decoder delivers the best of the 2^d patterns, its metric taken over the bits in which it differs from the word. -/
theorem chaseDecode_isBest (d w : Nat) (rel : List Nat) :
    ∃ best, chaseDecode d w rel = best.map Prod.snd ∧
      IsBestBelow (chaseCandidate d w rel) (fun c => metricFrom rel 0 (c ^^^ w)) (2 ^ d) best :=
  ⟨_, rfl, isBestBelow_foldl _ _ _⟩

theorem chaseDecode_zero (w : Nat) (rel : List Nat) : chaseDecode 0 w rel = hardDecode w := by
  have only : (List.range (2 ^ 0)).filterMap (chaseCandidate 0 w rel) = (hardDecode w).toList := by
    cases h : hardDecode w <;> simp [chaseCandidate, weakest, flipBits, h]
  change ((((List.range (2 ^ 0)).filterMap (chaseCandidate 0 w rel)).foldl (keepLower _) none).map Prod.snd) = _
  rw [only]
  cases hardDecode w <;> rfl

/-- Settles O58: the fold over the candidates keeps the best of the patterns so far. -/
theorem softDecision : Obligations.SoftDecision := by
  unfold Obligations.SoftDecision
  refine ⟨fun d w rel => ?fails, fun d w c rel h => ?delivers, chaseDecode_zero⟩
  all_goals obtain ⟨best, hbest, hlow⟩ := chaseDecode_isBest d w rel
  case fails =>
    rw [hbest, Option.map_eq_none_iff]
    cases best with
    | none => exact ⟨fun _ => hlow, fun _ => rfl⟩
    | some b =>
      obtain ⟨-, t, ht, hct, -⟩ := hlow
      refine ⟨nofun, fun h => ?_⟩
      cases hct.symm.trans (h t ht)
  case delivers =>
    rw [hbest, Option.map_eq_some_iff] at h
    obtain ⟨⟨m, c'⟩, rfl, rfl⟩ := h
    obtain ⟨-, t, ht, hct, hlow⟩ := hlow
    exact ⟨syndrome_of_hardDecode hct, t, ht, hct, hlow⟩

end Sys2Proof.Machine

namespace Sys2Proof.Machine

/-! ## The bring-up of a host lane in AUI mode (R209, R223 to R225, R228 to R230, R236, R238, R241) -/

@[simp] theorem State.advanceTo_onIslandClock (s : State) (t : Instant) (n : Fin 64) : (s.advanceTo t).onIslandClock n = s.onIslandClock n := by
  simp only [State.onIslandClock, State.advanceTo_lanes, State.advanceTo_hosts, State.advanceTo_sys]

/-- Settles O34: each row's condition holds, and it makes its move.  A match overrun judged at once is log entry 60, a training request
answered as not updated with ADAPT 1 or 2 log entry 147. -/
theorem hostLanesMove : Obligations.HostLanesMove := by
  unfold Obligations.HostLanesMove
  refine ⟨fun s t n hostref hst haui hclk => ?signal, fun s t n hst haui => ?trained, fun s t n c hsince hst hlate hat => ?stepped,
    fun s t n hst htx => ?relocked, fun s t n bad skew hst haui => ?aligned, fun s t n what hst haui => ?lost, fun s t n hst haui => ?lostTraining,
    fun s t n hst => ?restored, fun s t n d hto hpast => ?timeout, fun s t n tap d hst => ?request, fun s t n tap d hst => ?refused,
    fun s t hsel => ?hostref, fun s t n up => rfl⟩
  case signal =>
    change execHostSignalDetect t n hostref s = _
    simp only [execHostSignalDetect, State.advanceTo_hosts, State.advanceTo_isRelay, State.advanceTo_onIslandClock, hst, haui, hclk, and_self,
      if_true]
  case trained =>
    change execHostTrainingComplete t n s = _
    simp only [execHostTrainingComplete, State.advanceTo_hosts, State.advanceTo_isRelay, State.advanceTo_active, State.advanceTo_now, hst, haui,
      and_self, if_true]
    by_cases hrate : s.hosts[n].rate < s.active.host[n].target
    · rw [if_pos hrate, if_pos hrate]
    · rw [if_neg hrate, if_neg hrate]
      by_cases hfull : s.active.host[n].target = 2
      · rw [if_pos hfull, if_pos hfull]
      · rw [if_neg hfull, if_neg hfull]
  case stepped =>
    change execHostRateStep t n s = _
    simp only [execHostRateStep, State.advanceTo_hosts, State.advanceTo_now, hsince, hst, hlate, hat, and_self, if_true]
  case relocked =>
    change execHostRxLocked t n s = _
    simp only [execHostRxLocked, State.advanceTo_hosts, hst, htx, and_self, if_true]
  case aligned =>
    change execHostAlignComplete t n bad skew s = _
    simp only [execHostAlignComplete, State.advanceTo_hosts, State.advanceTo_isRelay, State.advanceTo_grouping, hst, haui, and_self, if_true]
  case lost =>
    change execHostLaneLoss t n what s = _
    simp only [execHostLaneLoss, State.advanceTo_isRelay, State.advanceTo_hosts, State.advanceTo_grouping, hst, haui, Bool.false_eq_true,
      if_true, if_false]
  case lostTraining =>
    have hact : s.hosts[n].state ≠ .active := by rcases hst with h | h | h | h <;> simp only [h, ne_eq, reduceCtorEq, not_false_eq_true]
    change execHostLaneLoss t n .signal s = _
    simp only [execHostLaneLoss, State.advanceTo_isRelay, State.advanceTo_hosts, haui, hact, hst, and_self, if_true, Bool.false_eq_true, if_false,
      reduceCtorEq, ne_eq, not_true_eq_false, decide_false, Bool.and_false]
  case restored =>
    change execHostRecoverRestored t n s = _
    simp only [execHostRecoverRestored, State.advanceTo_hosts, State.advanceTo_grouping, hst, if_true]
  case timeout =>
    change execHostLaneTimeout t n s = _
    simp only [execHostLaneTimeout, State.advanceTo_hosts, hto, hpast, if_true]
  case request =>
    change execHostTrainingRequest t n tap d s = _
    simp only [execHostTrainingRequest, State.advanceTo_hosts, State.advanceTo_active, State.advanceTo_free, hst, if_true]
  case refused =>
    change execHostTrainingRequest t n tap d s = _
    simp only [execHostTrainingRequest, State.advanceTo_hosts, hst, if_false]
  case hostref =>
    change execHostrefLost t s = _
    simp only [execHostrefLost, State.advanceTo_active, hsel, if_true]

end Sys2Proof.Machine

namespace Sys2Proof.Machine

/-! ## Host-lane commands (R220, R224 to R227, R233, R247, R257, R259) -/

/-- Settles O33: each command's checks pass, and its work is the write or the reply that the statement names; that both modes' counts clear
with HOST_COUNTERS is log entry 148. -/
theorem hostCommands : Obligations.HostCommands := by
  unfold Obligations.HostCommands
  refine ⟨?mode, ?state, ?eq, ?eqExpert, fun n => ?loop, ?ref, fun n => ?faultMode, ?counters⟩
  case mode =>
    refine completes_ok cmdHostMode (fun _ _ _ => rfl) fun q e s hpre => ?_
    obtain ⟨hl, htg, h0⟩ := hpre
    unfold cmdHostMode
    exact checked_pass (by simp [hl]) (by simp [htg, h0])
  case state =>
    refine completes_ok cmdHostState (fun _ _ _ => rfl) fun q e s hpre => ?_
    obtain ⟨hl, h0⟩ := hpre
    exact checked_pass (by simp [hl]) h0
  case eq =>
    refine completes_ok cmdHostEq (fun _ _ _ => rfl) fun q e s hpre => ?_
    obtain ⟨hl, had, h0, hsome⟩ := hpre
    unfold cmdHostEq
    exact checked_pass (by simp [hl]) (by simp [had, h0, hsome])
  case eqExpert =>
    refine completes_ok cmdHostEqExpert (fun _ _ _ => rfl) fun q e s hpre => ?_
    obtain ⟨hl, h0, h2, h2', h2'', h3, h3', hffe, htaps, hsome⟩ := hpre
    unfold cmdHostEqExpert
    have hvalid : (!bit (bits (e.w 3) 16 4) 0 || hostTapsValid (Vector.ofFn fun j : Fin 5 => toSigned 8 (fieldAt e.cmd.payload (4 + j.val) 1))) = true := by
      simpa [Decidable.imp_iff_not_or] using htaps
    refine (checked_pass (by simp [hl]) (by rw [h0, h2, h2', h2'', h3, h3', hffe, hvalid]; simp [hsome])).trans ?_
    simp only [Fin.getElem_fin, Vector.getElem_ofFn]
    rfl
  case loop =>
    refine completes_ok cmdHostLoop (fun _ _ _ => rfl) fun q e s hpre => ?_
    obtain ⟨hn, hl, h0, h0'⟩ := hpre
    unfold cmdHostLoop
    simp only [hn]
    exact checked_pass (by simp [hl]) (by simp [h0, h0'])
  case ref =>
    refine completes_ok cmdHostRef (fun _ _ _ => rfl) fun q e s hpre => ?_
    obtain ⟨hl, h0⟩ := hpre
    exact checked_pass (by simp [hl]) h0
  case faultMode =>
    refine completes_ok cmdPortFaultMode (fun _ _ _ => rfl) fun q e s hpre => ?_
    obtain ⟨hn, hl, hlead, h0, h0'⟩ := hpre
    unfold cmdPortFaultMode
    simp only [hn]
    exact checked_pass (by simp [hl]) (by simp [hlead, h0, h0'])
  case counters =>
    refine completes_ok cmdHostCounters (fun _ _ _ => rfl) fun q e s hpre => ?_
    obtain ⟨hl, h0⟩ := hpre
    unfold cmdHostCounters
    exact checked_pass (by simp [hl]) h0

end Sys2Proof.Machine

namespace Sys2Proof.Machine

/-! ## Lane power states (R228, R249 to R252, R453, R472) -/

@[simp] theorem State.advanceTo_powerOf (s : State) (t : Instant) (r : LaneRef) : (s.advanceTo t).powerOf r = s.powerOf r := by
  cases r <;> simp only [State.powerOf, State.advanceTo_lanes, State.advanceTo_hosts]

@[simp] theorem State.advanceTo_engineTested (s : State) (t : Instant) (r : LaneRef) : (s.advanceTo t).engineTested r = s.engineTested r := by
  cases r <;> simp only [State.engineTested, State.testRun, State.advanceTo_lanes, State.advanceTo_sys]

/-- The power state that LANE_POWER's field names (R250). -/
def LanePower.ofField : Nat → LanePower
  | 0 => .l0 | 1 => .l1 | _ => .l2

/-- LANE_POWER with a good payload: refused for a lane held off, stored outside RUN or while an entry is in preparation (R472), and else each
lane is sent on its way (R250). -/
theorem cmdLanePower_good {q : QId} {e : QEntry} {s : State} (hl : e.len = 4) (hst : bits (e.w 0) 24 2 ≤ 2) (h0 : rsvHigh (e.w 0) 26 = true) :
    cmdLanePower q e s =
      let rs := powerLanes (e.w 0)
      let tg := LanePower.ofField (bits (e.w 0) 24 2)
      if rs.any s.isShed then .fail .precondition []
      else if s.sys.pstate ≠ 0 ∨ s.sys.pow.entry.isSome then .ok [] (s.forEach rs fun r s => s.commandPower r tg)
      else
        let s1 := s.forEach rs fun r s => (s.commandPower r tg).sendPower tg r
        if s1.powerDone rs then .ok [] s1 else .wait s1 := by
  unfold cmdLanePower
  exact checked_pass (by simp [hl]) (by simp [hst, h0])

/-- Settles O45: LANE_POWER by its checks, by RUN and by whether every lane is there, and an arrival by its time; that an entry in preparation
only stores the state commanded is log entry 56. -/
theorem lanePowerChanges : Obligations.LanePowerChanges := by
  unfold Obligations.LanePowerChanges
  refine ⟨fun tg => ?there, fun tg => ?going, fun tg => ?stored, ?shed, fun s t r hdue => ?entered, fun s t r hout hfree => ?left⟩
  case there =>
    refine completes_ok cmdLanePower (fun _ _ _ => rfl) fun q e s hpre => ?_
    obtain ⟨hl, hst, h0, hshed, rfl, hrun, hentry, hdone⟩ := hpre
    exact (cmdLanePower_good hl hst h0).trans ((if_neg (by simp [hshed])).trans ((if_neg (by simp [hrun, hentry])).trans (if_pos hdone)))
  case going =>
    refine starts_wait cmdLanePower (fun _ _ _ => rfl) fun q e s hpre => ?_
    obtain ⟨hl, hst, h0, hshed, rfl, hrun, hentry, hdone⟩ := hpre
    exact (cmdLanePower_good hl hst h0).trans
      ((if_neg (by simp [hshed])).trans ((if_neg (by simp [hrun, hentry])).trans (if_neg (ne_true_of_eq_false hdone))))
  case stored =>
    refine completes_ok cmdLanePower (fun _ _ _ => rfl) fun q e s hpre => ?_
    obtain ⟨hl, hst, h0, hshed, rfl, hlow⟩ := hpre
    exact (cmdLanePower_good hl hst h0).trans ((if_neg (by simp [hshed])).trans (if_pos (hlow.imp_right Option.isSome_iff_ne_none.2)))
  case shed =>
    refine completes_fail cmdLanePower (fun _ _ _ => rfl) fun q e s hpre => ?_
    obtain ⟨hl, hst, h0, hshed⟩ := hpre
    exact (cmdLanePower_good hl hst h0).trans (if_pos hshed)
  case entered =>
    change execLanePowerEntryComplete t r s = _
    simp only [execLanePowerEntryComplete, State.advanceTo_powerOf, State.advanceTo_now]
    exact if_pos hdue
  case left =>
    have hgo : ¬ ((s.powerOf r).1 = .l2 ∧ s.engineTested r = true) := fun ⟨hl2, htest⟩ => by simp [hl2, htest] at hfree
    change execLanePowerExitComplete t r s = _
    simp only [execLanePowerExitComplete, State.advanceTo_powerOf, State.advanceTo_engineTested]
    exact (if_neg hgo).trans (if_pos hout)

end Sys2Proof.Machine

namespace Sys2Proof.Machine

/-! ## A step of the queue of commands (R262) -/

/-- Settles O49: by the queue, that of an empty queue being log entry 2; no word spells a command. -/
theorem stepTakesTheFront : Obligations.StepTakesTheFront := by
  unfold Obligations.StepTakesTheFront
  refine ⟨fun s c rest hfront => ?front, fun s hempty => ?empty, fun s nbits w => ⟨rfl, rfl⟩⟩
  case front => simp only [step, hfront]
  case empty => simp only [step, hempty, idleTime, nsec]

end Sys2Proof.Machine

namespace Sys2Proof.Machine

/-! ## Commands of the time base and of the PTP unit (R265, R274 to R286, R321, R322) -/

/-- TIME_SET with a good payload: with MODE 1 it waits for an edge, where PPS_IN is enabled, and with MODE 0 its step waits for an epoch
tick (R281). -/
theorem cmdTimeSet_good {q : QId} {e : QEntry} {s : State} (hl : e.len = 16) (ht : (e.time 0).isSome = true) (h3 : rsvHigh (e.w 3) 1 = true) :
    cmdTimeSet q e s =
      if bit (e.w 3) 0 then (if s.active.servo.ppsIn then .wait s else .fail .precondition [])
      else
        let x := s.limitStep (((e.time 0).getD 0 : Int) - s.fnow)
        .wait (s.modTb fun b => b.hostStep e.seq x.1 x.2) :=
  checked_pass (by simp [hl]) (by simp [ht, h3])

/-- A range that is checked only where its group is selected. -/
theorem not_or_decide_iff {b : Bool} {p : Prop} [Decidable p] : (!b || decide p) = true ↔ (b = true → p) := by cases b <;> simp

/-- The state after SERVO_PARAMS in its expert form: each group that WRITE_MASK selects is written and pinned, STEP_THRESHOLD within
the maximum time step, and RATE_WORD's write is marked (R107, R275). -/
def State.servoGroups (s : State) (e : QEntry) : State :=
  let m := bits (e.w 0) 16 4
  let s1 := if bit m 0 then s.writeExpert .servo 0x4811 128 (Bank.srv fun p => { p with k := bits (e.w 0) 8 5 }) else s
  let s2 := if bit m 1 then s1.writeExpert .servo 0x4811 129 (Bank.srv fun p => { p with kp := e.w 1, ki := e.w 2 }) else s1
  let s3 := if bit m 2 then
      s2.writeExpert .servo 0x4811 130 (Bank.srv fun p => { p with stepThreshold := min (e.w 3) s.limits.maxStep, lockWindow := e.w 4 })
    else s2
  if bit m 3 then
    (s3.writeExpert .servo 0x4811 131 (Bank.srv fun p => { p with rateWord := toSigned 64 (fieldAt e.cmd.payload 20 8) })).mark .servo 0x4811
  else s3

/-- The reserved bits of SERVO_PARAMS in its expert form are 0, and each group that WRITE_MASK selects lies in its range (R275, Table 7.7). -/
def QEntry.servoGroupsOk (e : QEntry) : Prop :=
  let m := bits (e.w 0) 16 4
  rsv (e.w 0) 0 8 = true ∧ rsv (e.w 0) 13 3 = true ∧ rsvHigh (e.w 0) 20 = true ∧ rsvHigh (e.w 1) 24 = true ∧ rsvHigh (e.w 2) 24 = true ∧
    (bit m 0 = true → 4 ≤ bits (e.w 0) 8 5 ∧ bits (e.w 0) 8 5 ≤ 16) ∧ (bit m 1 = true → e.w 1 ≠ 0) ∧
    (bit m 2 = true → 1 ≤ e.w 3 ∧ e.w 3 ≤ 1000000000 ∧ 1 ≤ e.w 4 ∧ e.w 4 ≤ 1000000) ∧
    (bit m 3 = true → (toSigned 64 (fieldAt e.cmd.payload 20 8)).natAbs ≤ rateBound)

/-- SERVO_PARAMS in its expert form, with a good payload: the groups are written, and a STEP_THRESHOLD above the maximum time step is
reported as clamped (R107, R275). -/
theorem cmdServoParamsExpert_good {q : QId} {e : QEntry} {s : State} (hl : e.len = 28) (hg : e.servoGroupsOk) :
    cmdServoParamsExpert q e s =
      if bit (bits (e.w 0) 16 4) 2 ∧ s.limits.maxStep < e.w 3 then .clamped (servoReply (s.servoGroups e).shadow.servo) (s.servoGroups e)
      else .ok (servoReply (s.servoGroups e).shadow.servo) (s.servoGroups e) := by
  obtain ⟨h0, h13, h20, h1, h2, hk, hgain, hstep, hrate⟩ := hg
  unfold cmdServoParamsExpert
  refine (checked_pass (by simp [hl]) ?_).trans ?_
  · simp only [h0, h13, h20, h1, h2, Bool.and_self, Bool.true_and, Bool.and_eq_true, not_or_decide_iff]
    exact ⟨⟨⟨hk, hgain⟩, hstep⟩, hrate⟩
  · dsimp only [State.servoGroups]
    cases bit (bits (e.w 0) 16 4) 3 <;> rfl

/-- Settles O29: each command's checks pass, and its work is the reply and the write that the statement names. -/
theorem timeCommands : Obligations.TimeCommands := by
  unfold Obligations.TimeCommands
  refine ⟨?timeGet, fun f => ?setNow, ?setAtEdge, ?setNoEdge, fun x => ?timeStep, ?source, ?params, ?expert, ?expertClamped, ?status, ?timeref,
    ?ppsIn, ?ppsOut, ?refout, fun n => ?ptpConfig, fun n => ?ptpStatus⟩
  case timeGet => exact completes_ok cmdTimeGet (fun _ _ _ => rfl) fun q e s hl => checked_pass (by simp [hl]) rfl
  case setNow =>
    refine starts_wait cmdTimeSet (fun _ _ _ => rfl) fun q e s hpre => ?_
    obtain ⟨hl, ht, h3, hmode⟩ := hpre
    simp [cmdTimeSet_good hl (by simp [ht]) h3, hmode, ht]
  case setAtEdge =>
    refine starts_wait cmdTimeSet (fun _ _ _ => rfl) fun q e s hpre => ?_
    obtain ⟨hl, ht, h3, hmode, hin⟩ := hpre
    exact (cmdTimeSet_good hl ht h3).trans ((if_pos hmode).trans (if_pos hin))
  case setNoEdge =>
    refine completes_fail cmdTimeSet (fun _ _ _ => rfl) fun q e s hpre => ?_
    obtain ⟨hl, ht, h3, hmode, hin⟩ := hpre
    exact (cmdTimeSet_good hl ht h3).trans ((if_pos hmode).trans (if_neg (ne_true_of_eq_false hin)))
  case timeStep =>
    refine starts_wait cmdTimeStep (fun _ _ _ => rfl) fun q e s hpre => ?_
    obtain ⟨hl, hx⟩ := hpre
    exact (checked_pass (by simp [hl]) (by simp [hx])).trans (by simp [hx])
  case source =>
    refine completes_ok cmdServoSource (fun _ _ _ => rfl) fun q e s hpre => ?_
    obtain ⟨hl, h2, h20, hsrc, hgroup, hown⟩ := hpre
    unfold cmdServoSource
    refine (checked_pass (by simp [hl]) ?_).trans (if_neg fun ⟨hw, hf, hq⟩ => hq (hown hw hf))
    by_cases hline : bits (e.w 0) 0 2 = 1
    · have hone := hgroup hline
      cases hrelay : bit (e.w 0) 19 <;> simp [h2, h20, hline, hrelay] at hone ⊢ <;> exact hone
    · simp [h2, h20, hsrc, hline]
  case params =>
    refine completes_ok cmdServoParams (fun _ _ _ => rfl) fun q e s hpre => ?_
    obtain ⟨hl, href, h3, h13, h20⟩ := hpre
    unfold cmdServoParams
    exact checked_pass (by simp [hl]) (by simp [href, h3, h13, h20])
  case expert =>
    refine completes_ok cmdServoParamsExpert (fun _ _ _ => rfl) fun q e s hpre => ?_
    obtain ⟨hl, h0, h13, h20, h1, h2, hk, hgain, hstep, hrate, hwithin⟩ := hpre
    exact (cmdServoParamsExpert_good hl ⟨h0, h13, h20, h1, h2, hk, hgain, hstep, hrate⟩).trans (if_neg hwithin)
  case expertClamped =>
    refine completes_clamped cmdServoParamsExpert (fun _ _ _ => rfl) fun q e s hpre => ?_
    obtain ⟨hl, h0, h13, h20, h1, h2, hk, hgain, hstep, hrate, habove⟩ := hpre
    exact (cmdServoParamsExpert_good hl ⟨h0, h13, h20, h1, h2, hk, hgain, hstep, hrate⟩).trans (if_pos habove)
  case status => exact completes_ok cmdServoStatus (fun _ _ _ => rfl) fun q e s hl => checked_pass (by simp [hl]) rfl
  case timeref => exact completes_ok cmdTimerefConfig (fun _ _ _ => rfl) fun q e s ⟨hl, h0⟩ => checked_pass (by simp [hl]) h0
  case ppsIn => exact completes_ok cmdPpsInConfig (fun _ _ _ => rfl) fun q e s ⟨hl, h0⟩ => checked_pass (by simp [hl]) h0
  case ppsOut =>
    refine completes_ok cmdPpsOutConfig (fun _ _ _ => rfl) fun q e s hpre => ?_
    obtain ⟨hl, h4, h16, hgate, hmin, hmax, hlo, hhi⟩ := hpre
    unfold cmdPpsOutConfig
    exact checked_pass (by simp [hl])
      (by simp only [h4, h16, hgate, hmin, hmax, hlo, hhi, ne_eq, not_false_eq_true, and_self, decide_true, Bool.and_self])
  case refout => exact completes_ok cmdRefoutConfig (fun _ _ _ => rfl) fun q e s ⟨hl, h0⟩ => checked_pass (by simp [hl]) h0
  case ptpConfig =>
    refine completes_ok cmdPtpCorrConfig (fun _ _ _ => rfl) fun q e s hpre => ?_
    obtain ⟨hn, hl, hlead, h9, halo, hahi, hblo, hbhi⟩ := hpre
    unfold cmdPtpCorrConfig
    simp only [hn]
    exact checked_pass (by simp [hl]) (by simp [hlead, h9, halo, hahi, hblo, hbhi])
  case ptpStatus =>
    refine completes_ok cmdPtpCorrStatus (fun _ _ _ => rfl) fun q e s hpre => ?_
    obtain ⟨hn, hl, h4⟩ := hpre
    unfold cmdPtpCorrStatus
    simp only [hn]
    exact checked_pass (by simp [hl]) h4

end Sys2Proof.Machine

namespace Sys2Proof.Machine

/-! ## Faults (R264, R409, R432 to R445, Tables 12.1 and 12.2) -/

@[simp] theorem State.advanceTo_monitored (s : State) (t : Instant) : (s.advanceTo t).monitored = s.monitored := by
  simp only [State.monitored, State.advanceTo_sys]

/-- An uncorrectable word has one effect for each place in which it can lie (R438, R439, Table 12.2). -/
theorem exec_eccUncorrectable (t : Nat) (place : EccPlace) (s : State) : exec (.eccUncorrectable t place) s = execEccUncorrectable t place s := rfl

/-- The watchdog runs while the processor does, and its expiry restarts the firmware (R432, R445). -/
theorem exec_watchdogExpiry_running {s : State} {t : Nat} (hh : s.sys.fw.halted = false) (hd : s.sys.pow.held = false) (h2 : s.sys.pstate ≠ 2)
    (h3 : s.sys.pstate ≠ 3) :
    exec (.watchdogExpiry t) s = .next ((((s.advanceTo t).modInteg fun i => { i with
      watchdogs := satAdd 16 i.watchdogs 1 }).controlFault 6 0xFFFF).restartFirmware) := by
  change execWatchdogExpiry t s = _
  simp only [execWatchdogExpiry, State.advanceTo_sys, hh, hd, h2, h3, Bool.false_eq_true, or_self, if_false]

/-- The first loss of REFCLK is a clock loss of the time base (R264, R444). -/
theorem exec_referenceLost_refclk {s : State} {t : Nat} (h : s.tb.refclkLost = false) :
    exec (.referenceLost t false) s = .next (s.advanceTo t).refclkLoss := by
  change execReferenceLost t false s = _
  simp only [execReferenceLost, State.advanceTo_tb_refclkLost, h, Bool.false_eq_true, if_false]

/-- A clock loss of island 43, that of the time base, stands for the loss of REFCLK (R264). -/
theorem exec_clockLoss_refclk {s : State} {t : Nat} (h : s.tb.refclkLost = false) :
    exec (.clockLoss t 43) s = .next (s.advanceTo t).refclkLoss := by
  change execClockLoss t 43 s = _
  simp only [execClockLoss, State.advanceTo_tb_refclkLost, h, Bool.false_eq_true, if_true, if_false]

theorem exec_clockLoss_watched {s : State} {t : Nat} {n : Fin 64} (hw : watchedIsland n = true) (hc : s.sys.integ.clockHold.contains n.val = false) :
    exec (.clockLoss t n) s = .next ((((s.advanceTo t).modSys fun y => { y with islands := y.islands.set n false }).unalign n).clockLoss n.val) := by
  have h43 : n ≠ 43 := by rintro rfl; exact Bool.noConfusion hw
  change execClockLoss t n s = _
  simp only [execClockLoss, State.advanceTo_sys, h43, hw, hc, and_self, if_true, if_false]

theorem exec_clockRestored_held {s : State} {t : Nat} {n : Fin 64} (hw : watchedIsland n = true) (hc : s.sys.integ.clockHold.contains n.val = true) :
    exec (.clockRestored t n) s = .next ((s.advanceTo t).modSys fun y => { y with
      islands := y.islands.set n true, integ := { y.integ with clockHold := y.integ.clockHold.filter fun x => decide (x ≠ n.val) } }) := by
  change execClockRestored t n s = _
  simp only [execClockRestored, State.advanceTo_sys, hw, hc, and_self, if_true]

/-- Rails in their window that are found outside it, the lowest-numbered of them named (R444, R458). -/
theorem exec_supplyFault_out {s : State} {t rails : Nat} {r : Fin 8} {rs : List (Fin 8)}
    (hr : ((maskIdx 8 rails).filter fun x => s.sys.pow.railOk[x]) = r :: rs) (ho : s.sys.pow.isOff = false) (hp : s.sys.pow.powered = true)
    (hd : s.sys.pow.held = false) (h2 : s.sys.pstate ≠ 2) (h3 : s.sys.pstate ≠ 3) :
    exec (.supplyFault t rails) s = .next ((((((s.advanceTo t).modPow fun p => { p with
      railOk := updAll p.railOk (r :: rs) fun _ _ => false, railAt := updAll p.railAt (r :: rs) fun _ _ => max s.now t }).modInteg fun i =>
        { i with supplyFaults := satAdd 16 i.supplyFaults 1 }).controlFault 8 (0x2A + r.val)).parkJets)) := by
  change execSupplyFault t rails s = _
  simp only [execSupplyFault, State.advanceTo_sys, State.advanceTo_now, hr, ho, hp, hd, h2, h3, Bool.false_eq_true, Bool.true_eq_false,
    or_self, if_false]

/-- The temperatures as the thermal monitor has read them (R409). -/
def State.withTemps (s : State) (readings : List Int) : State :=
  (s.modHk fun h => { h with temps := vmap h.temps fun i x => readings.getD i.val x }).refreshGauge

/-- The first sensor at or above 125.0 °C (R409). -/
def State.tripping (s : State) : Option (Fin 13) := (List.finRange 13).find? fun i : Fin 13 => decide (500 ≤ s.hk.temps[i])

/-- A sensor at or above 125.0 °C trips, unless the trip has come already (R409). -/
theorem exec_thermalMonitorRead_monitored {s : State} {t : Nat} {readings : List Int} (h : s.monitored = true) :
    exec (.thermalMonitorRead t readings) s = .next (
      let s1 := (s.advanceTo t).withTemps readings
      match s1.tripping with
      | some i => if s.sys.thermalTrip = true then s1 else s1.thermalTrip i.val
      | none => s1) := by
  change execThermalMonitorRead t readings s = _
  simp only [execThermalMonitorRead, State.advanceTo_monitored, State.advanceTo_sys, h, Bool.true_eq_false, if_false]
  change (match ((s.advanceTo t).withTemps readings).tripping with
    | some _ => _
    | none => _) = _
  cases ((s.advanceTo t).withTemps readings).tripping <;> rfl

/-- Recovery accepts commands again and answers the epochs that the fault discarded (R351, R444, R445). -/
theorem exec_faultRecoveryComplete_recovering {s : State} {t : Nat} (hr : s.sys.recovering = true) (hb : s.sys.fw.romDue = none) :
    exec (.faultRecoveryComplete t) s = .next (let s1 := (s.advanceTo t).modSys fun y => { y with recovering := false }
      ((s1.forEach (s1.rill.workerEpochs.filter fun w => decide (w.outcome = 0xB) && w.commit.isSome) fun w s =>
        s.epochCame w.id 2 0xB 0xFFFF ⟨0, false⟩ []).sweep).settleFaults) := by
  change execFaultRecoveryComplete t s = _
  simp only [execFaultRecoveryComplete, State.advanceTo_sys, hr, hb, Bool.true_eq_false, Option.isSome_none, Bool.false_eq_true, or_self,
    if_false]

/-- Settles O48: by the kind of fault, and for a word that cannot be corrected by where it lies.  The fault of a snapshot is log entry 120,
the details are log entry 91, the firmware's reload is log entry 92, and the watched islands are log entry 93. -/
theorem faultsHandled : Obligations.FaultsHandled := by
  unfold Obligations.FaultsHandled
  refine ⟨?engine, ?buffer, ?capture, ?rill, ?shadow, ?snapshot, ?active, ?previous, ?adcEntry, ?gainEntry, ?dacEntry, ?delayTable, ?gaugeSet,
    ?jetsSet, ?filter, ?jetsQueue, ?gaugeFifo, ?mgmt, ?correctable, ?scrub, ?lineRx, ?lineTx, ?hostRx, ?hostTx,
    fun _ _ => exec_watchdogExpiry_running, fun _ _ => exec_referenceLost_refclk, ?timerefLost, ?timerefQualified, ?refclkQualified,
    fun _ _ _ => exec_clockLoss_watched, fun _ _ => exec_clockLoss_refclk, fun _ _ _ => exec_clockRestored_held,
    fun _ _ _ _ _ => exec_supplyFault_out, ?unmonitored, fun _ _ _ => exec_thermalMonitorRead_monitored,
    fun _ _ => exec_faultRecoveryComplete_recovering⟩
  case engine | buffer | capture | rill | shadow | snapshot | active | previous | adcEntry | gainEntry | dacEntry | delayTable | gaugeSet
      | jetsSet | filter | jetsQueue | gaugeFifo | mgmt =>
    intros
    exact exec_eccUncorrectable ..
  case lineRx =>
    intro s t n i
    change execResidueMismatch t (.lineRx n i) s = _
    simp only [execResidueMismatch, State.cycleBlocks, State.advanceTo_lanes]
  case unmonitored =>
    intro s t readings h
    change execThermalMonitorRead t readings s = _
    simp only [execThermalMonitorRead, State.advanceTo_monitored, h, if_true]
  case correctable | scrub | lineTx | hostRx | hostTx | timerefLost | timerefQualified | refclkQualified =>
    intros
    rfl

end Sys2Proof.Machine

namespace Sys2Proof.Machine

/-! ## Delivery hop by hop (R332 to R337, Table 9.5) -/

/-- A frame that resynchronises its link, or carries the LSEQ expected, is in sequence (R333). -/
theorem not_outOfSequence {f : Frame} {expected : Nat} (h : f.resync = true ∨ f.lseq = expected) :
    ¬ (f.resync = false ∧ f.lseq ≠ expected) := by
  rcases h with h | h <;> simp [h]

section
variable {s : State} {t : Instant} {p : Fin 16} {bs : List Byte}

/-- A router that is enabled, and not in recovery, judges a frame whose length and CRC are good by its type, its LSEQ and its format. -/
theorem execRillFrameReceive_sound (hbs : s.rill.links[p].rxFrame = some bs) (hon : s.active.rill.enable = true)
    (hrun : s.sys.fw.recovery = false) (hlo : 8 ≤ bs.length) (hhi : bs.length ≤ 1040) (halign : bs.length % 4 = 0) (hcrc : crcGood bs = true) :
    execRillFrameReceive t p s =
      let s1 := (s.advanceTo t).modLink p fun l => { l with rxFrame := none }
      let f := Frame.ofBytes bs
      let next := (f.lseq + 1) % 256
      if f.ftype = 0 then
        .next (if bs.length = 8 then s1.modLink p fun l => { l with ackIn := some (f.lseq, bit (wordAt bs 0) 16) }
          else s1.modRill fun r => { r with formatDrops := satAdd 32 r.formatDrops 1 })
      else if f.resync = false ∧ f.lseq ≠ s.rill.links[p].rxSeq then
        .next (s1.modLink p fun l => { l with ack := some (l.lastAck.getD (l.rxSeq, false)) })
      else if f.badFormat bs.length = true then
        .next ((s1.modLink p fun l => { l.acks next false with rxSeq := next }).modRill fun r =>
          { r with formatDrops := satAdd 32 r.formatDrops 1 })
      else .next (s1.acceptFrame p f) := by
  have hgood : ¬ (bs.length < 8 ∨ 1040 < bs.length ∨ bs.length % 4 ≠ 0 ∨ crcGood bs = false) := by
    simp [not_lt.mpr hlo, not_lt.mpr hhi, halign, hcrc]
  unfold execRillFrameReceive
  simp only [State.advanceTo_rill, State.advanceTo_active, State.advanceTo_sys, hbs, hon, hrun, hgood, Bool.true_eq_false, Bool.false_eq_true,
    or_self, if_false]

/-- The oldest frame of a window is unacknowledged past its time, and nothing else of the link's delivery is to come first (R334). -/
theorem execRillAckTimeout_late {f : Frame} {left : Instant} (hw : s.rill.links[p].window.head? = some (f, left))
    (hup : s.rill.links[p].lane ≠ none) (hack : s.rill.links[p].ackIn = none) (hsent : s.rill.links[p].sendIdx ≠ 0)
    (hresend : s.rill.links[p].resend = false) (hbusy : s.rill.links[p].busyAt = none)
    (hlate : (s.advanceTo t).pastCore (left + (s.advanceTo t).ackTime p) = true) :
    execRillAckTimeout t p s =
      if s.active.rill.maxRetries ≤ s.rill.links[p].retries then .next ((s.advanceTo t).settleLink p 2)
      else .next (((s.advanceTo t).modRill fun r => { r with retries := satAdd 32 r.retries 1 }).modLink p fun l =>
        { l with retries := l.retries + 1 }.again) := by
  unfold execRillAckTimeout
  simp only [State.advanceTo_rill, State.advanceTo_active, hw, hup, hack, hsent, hresend, hbusy, hlate, Option.isSome_none,
    Bool.true_eq_false, Bool.false_eq_true, or_self, if_false]
end

/-- Settles O36: a received frame by the checks in their order, a received ACK, then each timer under its condition.  That
FTYPE 0 is the ACK, whose length is then checked, and that a reserved type is bad in format are log entry 74; the answer to a frame out of
sequence before any ACK is log entry 145. -/
theorem rillDelivers : Obligations.RillDelivers := by
  unfold Obligations.RillDelivers
  refine ⟨fun s t p bs hbs hoff => ?discarded, fun s t p bs hbs hon hrun hbad => ?corrupt,
    fun s t p bs hbs hon hrun hlo hhi halign hcrc htype => ?ackFrame,
    fun s t p bs hbs hon hrun hlo hhi halign hcrc htype hsync hseq => ?outOfSequence,
    fun s t p bs hbs hon hrun hlo hhi halign hcrc htype hseq hformat => ?malformed,
    fun s t p bs hbs hon hrun hlo hhi halign hcrc htype hseq hformat => ?accepted, fun s t p seq busy hack => ?ack,
    fun s t p f left hw hup hack hsent hresend hbusy hlate hspent => ?givesUp,
    fun s t p f left hw hup hack hsent hresend hbusy hlate hleft => ?retries, fun s t p a ha hdue => ?busyResend,
    fun s t p a hack ha hdue => ?busyLimit, fun s t p hdown hdue => ?linkDown⟩
  case discarded =>
    change execRillFrameReceive t p s = _
    simp only [execRillFrameReceive, State.advanceTo_rill, State.advanceTo_active, State.advanceTo_sys, hbs, if_pos hoff]
  case corrupt =>
    change execRillFrameReceive t p s = _
    simp only [execRillFrameReceive, State.advanceTo_rill, State.advanceTo_active, State.advanceTo_sys, hbs, hon, hrun, Bool.true_eq_false,
      Bool.false_eq_true, or_self, if_false, if_pos hbad]
  case ackFrame => exact (execRillFrameReceive_sound hbs hon hrun hlo hhi halign hcrc).trans (if_pos htype)
  case outOfSequence =>
    exact (execRillFrameReceive_sound hbs hon hrun hlo hhi halign hcrc).trans ((if_neg htype).trans (if_pos ⟨hsync, hseq⟩))
  case malformed =>
    exact (execRillFrameReceive_sound hbs hon hrun hlo hhi halign hcrc).trans
      ((if_neg htype).trans ((if_neg (not_outOfSequence hseq)).trans (if_pos hformat)))
  case accepted =>
    exact (execRillFrameReceive_sound hbs hon hrun hlo hhi halign hcrc).trans
      ((if_neg htype).trans ((if_neg (not_outOfSequence hseq)).trans (if_neg (by simp [hformat]))))
  case ack =>
    change execAck t p s = _
    simp only [execAck, State.advanceTo_rill, State.advanceTo_now, hack]
  case givesUp => exact (execRillAckTimeout_late hw hup hack hsent hresend hbusy hlate).trans (if_pos hspent)
  case retries => exact (execRillAckTimeout_late hw hup hack hsent hresend hbusy hlate).trans (if_neg (not_le.mpr hleft))
  case busyResend =>
    change execRillBusyResend t p s = _
    simp only [execRillBusyResend, State.advanceTo_rill, State.advanceTo_now, ha, if_pos hdue]
  case busyLimit =>
    change execRillBusyLimit t p s = _
    simp only [execRillBusyLimit, State.advanceTo_rill, ha, hack, hdue, Option.isNone_none, and_self, if_true]
  case linkDown =>
    change execRillLinkDownTimeout t p s = _
    simp only [execRillLinkDownTimeout, State.advanceTo_rill, hdown, hdue, and_self, if_true]

end Sys2Proof.Machine

namespace Sys2Proof.Machine

/-! ## Commands of the hierarchy (R323, R337, R340 to R346, Tables 9.7, 9.11 and 9.12) -/

/-- DISCOVER with a good payload: one at a time, and only on a manager, whose links are then the first frontier (R340). -/
theorem cmdDiscover_good {q : QId} {e : QEntry} {s : State} (hl : e.len = 4) (hlo : 1 ≤ bits (e.w 0) 0 3) (hhi : bits (e.w 0) 0 3 ≤ 6)
    (h0 : rsvHigh (e.w 0) 4 = true) :
    cmdDiscover q e s =
      if s.rill.discovery.isSome then .fail .resourceBusy []
      else if s.isManager = false then .fail .precondition []
      else .wait ((s.modRill fun r => { r with
        table := r.table.map fun w => { w with present := false }
        discovery := some {
          seq := e.seq, maxHops := bits (e.w 0) 0 3, autoAssign := bit (e.w 0) 3, depth := 1
          frontier := s.linkPorts.map fun p => (p.val, 1, s.peerOf p), next := [], outstanding := [], assigning := []
          fresh := 0, assigned := 0, unreachable := 0, loops := 0, tableFull := false, deeper := false } }).discoverOn 8) := by
  unfold cmdDiscover
  exact checked_pass (by simp [hl]) (by simp [hlo, hhi, h0])

/-- A frame down a route whose first hop names a link goes to that link's port; what a new XTAG changes names no link (R332). -/
theorem State.sendDown_nextXtag {s : State} (hops route : Nat) (f : Frame) :
    s.nextXtag.2.sendDown hops route f =
      (s.canonical (hopPort route 1)).map fun c => s.nextXtag.2.enqueueOwn c { f with hops, hopPtr := 0, route, up := false } := rfl

/-- The payload of a WORKER_ASSIGN is good (R342, Table 9.11). -/
structure QEntry.AssignGood (e : QEntry) : Prop where
  len : e.len = 8
  rsv0 : rsv (e.w 0) 12 4 = true
  rsvHigh0 : rsvHigh (e.w 0) 19 = true
  rsvHigh1 : rsvHigh (e.w 1) 24 = true
  hopsLow : 1 ≤ bits (e.w 0) 16 3
  hopsHigh : bits (e.w 0) 16 3 ≤ 6

/-- The worker ID that a WORKER_ASSIGN names is held by a device other than the one that its route reaches (R342). -/
def State.idElsewhere (s : State) (e : QEntry) : Bool :=
  s.rill.table.any fun w => decide (w.id = some (bits (e.w 0) 0 12) ∧ some w.serial ≠ s.serialOf (bits (e.w 0) 16 3) (bits (e.w 1) 0 24))

/-- WORKER_ASSIGN with a good payload: refused for an ID in use elsewhere and off a manager; else the ASSIGN leaves by the first hop, if it
names a link (R342). -/
theorem cmdWorkerAssign_good {q : QId} {e : QEntry} {s : State} (h : e.AssignGood) :
    cmdWorkerAssign q e s =
      if s.idElsewhere e = true then .fail .resourceBusy []
      else if s.isManager = false then .fail .precondition []
      else match s.canonical (hopPort (bits (e.w 1) 0 24) 1) with
        | some c => .wait ((s.nextXtag.2.enqueueOwn c {
            ftype := 6, hops := bits (e.w 0) 16 3, hopPtr := 0, up := false, route := bits (e.w 1) 0 24, wid := bits (e.w 0) 0 12
            xtag := s.rill.xtag }).modRill fun r => { r with
              waits := r.waits ++ [⟨e.seq, s.rill.xtag, s.now + msec 100, some (bits (e.w 0) 0 12, bits (e.w 0) 16 3, bits (e.w 1) 0 24)⟩] })
        | none => .failWith .unreachable [] s.nextXtag.2 := by
  obtain ⟨hl, h0, h0', h1, hlo, hhi⟩ := h
  unfold cmdWorkerAssign
  refine (checked_pass (by simp [hl]) (by simp [h0, h0', h1, hlo, hhi])).trans ?_
  simp only [State.sendDown_nextXtag]
  cases s.canonical (hopPort (bits (e.w 1) 0 24) 1) <;> rfl

/-- The payload of a TUNNEL is good, its inner packet included (R346, Table 9.12). -/
structure QEntry.TunnelGood (e : QEntry) : Prop where
  lenLow : 20 ≤ e.len
  lenHigh : e.len ≤ 1024
  words : e.len % 4 = 0
  timeLow : 1 ≤ bits (e.w 0) 16 16
  timeHigh : bits (e.w 0) 16 16 ≤ 60000
  rsvHigh1 : rsvHigh (e.w 1) 24 = true
  inner : innerGood (e.cmd.payload.drop 8) = true
  hops : bit (e.w 0) 12 = true → 1 ≤ bits (e.w 0) 13 3 ∧ bits (e.w 0) 13 3 ≤ 6

/-- TUNNEL with a good payload: refused off a manager; else the packet leaves for the worker addressed, if there is one and the first hop
names a link (R346). -/
theorem cmdTunnel_good {q : QId} {e : QEntry} {s : State} (h : e.TunnelGood) :
    cmdTunnel q e s =
      if s.isManager = false then .fail .precondition []
      else match s.tunnelTo e with
        | none => .fail .unreachable []
        | some (hops, route, wid, check) => match s.canonical (hopPort route 1) with
          | some c => .wait ((s.nextXtag.2.enqueueOwn c {
              ftype := 1, hops, hopPtr := 0, up := false, route, wid, idValid := check, xtag := s.rill.xtag
              body := e.cmd.payload.drop 8 }).modRill fun r => { r with
                waits := r.waits ++ [⟨e.seq, s.rill.xtag, s.now + msec (bits (e.w 0) 16 16), none⟩] })
          | none => .failWith .unreachable [] s.nextXtag.2 := by
  obtain ⟨hlo, hhi, halign, htlo, hthi, h1, hinner, hhops⟩ := h
  unfold cmdTunnel
  refine (checked_pass (decide_eq_true ⟨hlo, hhi, halign⟩) ?_).trans ?_
  · simp only [decide_eq_true (And.intro htlo hthi), h1, hinner, Bool.and_self, Bool.true_and]
    exact not_or_decide_iff.mpr hhops
  · cases s.tunnelTo e with
    | none => rfl
    | some x =>
      obtain ⟨hops, route, wid, check⟩ := x
      simp only [State.sendDown_nextXtag]
      cases s.canonical (hopPort route 1) <;> rfl

/-- Settles O37: each command once its payload is good, by what its own conditions decide, then the timers.  The refusal of a second DISCOVER
is log entry 76, and that it is judged before the role is log entry 25. -/
theorem rillCommands : Obligations.RillCommands := by
  unfold Obligations.RillCommands
  refine ⟨?role, ?status, ?config, ?configExpert, ?discover, fun c => ?assign, ?assignNoLink, ?list, fun hops route wid check c => ?tunnel,
    ?discoverBusy, ?discoverOff, ?assignBusy, ?assignOff, ?tunnelOff, ?tunnelNobody, fun hops route wid check => ?tunnelNoLink,
    fun s t => ?tunnelTimeout, fun s t => ?probeTimeout⟩
  case role =>
    refine completes_ok cmdRoleSet (fun _ _ _ => rfl) fun q e s hpre => ?_
    obtain ⟨hl, hrole, h0, hw⟩ := hpre
    unfold cmdRoleSet
    exact checked_pass (by simp [hl]) (by simp only [decide_eq_true hrole, h0, hw]; rfl)
  case status => exact completes_ok cmdHierStatus (fun _ _ _ => rfl) fun q e s hl => checked_pass (by simp [hl]) rfl
  case config =>
    refine completes_ok cmdRillConfig (fun _ _ _ => rfl) fun q e s hpre => ?_
    obtain ⟨hl, h1, h19⟩ := hpre
    unfold cmdRillConfig
    exact checked_pass (by simp [hl]) (by simp [h1, h19])
  case configExpert =>
    refine completes_ok cmdRillConfigExpert (fun _ _ _ => rfl) fun q e s hpre => ?_
    obtain ⟨hl, h1, h19, h16, hretries, hlo, hhi⟩ := hpre
    unfold cmdRillConfigExpert
    exact checked_pass (by simp [hl]) (by simp [h1, h19, h16, hretries, hlo, hhi])
  case discover =>
    refine starts_wait cmdDiscover (fun _ _ _ => rfl) fun q e s hpre => ?_
    obtain ⟨hl, hlo, hhi, h0, hfree, hm⟩ := hpre
    rw [cmdDiscover_good hl hlo hhi h0, if_neg (by simp [hfree]), if_neg (by simp [hm])]
  case assign =>
    refine starts_wait cmdWorkerAssign (fun _ _ _ => rfl) fun q e s hpre => ?_
    obtain ⟨hl, h0, h0', h1, hlo, hhi, (hid : s.idElsewhere e = false), hm, hc⟩ := hpre
    rw [cmdWorkerAssign_good ⟨hl, h0, h0', h1, hlo, hhi⟩, if_neg (ne_true_of_eq_false hid), if_neg (by simp [hm]), hc]
  case assignNoLink =>
    refine completes_failWith cmdWorkerAssign (fun _ _ _ => rfl) (fun _ _ _ => rfl) fun q e s hpre => ?_
    obtain ⟨hl, h0, h0', h1, hlo, hhi, (hid : s.idElsewhere e = false), hm, hc⟩ := hpre
    rw [cmdWorkerAssign_good ⟨hl, h0, h0', h1, hlo, hhi⟩, if_neg (ne_true_of_eq_false hid), if_neg (by simp [hm]), hc]
  case list => exact completes_ok cmdWorkerList (fun _ _ _ => rfl) fun q e s ⟨hl, h0⟩ => checked_pass (by simp [hl]) h0
  case tunnel =>
    refine starts_wait cmdTunnel (fun _ _ _ => rfl) fun q e s hpre => ?_
    obtain ⟨hlo, hhi, halign, htlo, hthi, h1, hinner, hhops, hm, hto, hc⟩ := hpre
    rw [cmdTunnel_good ⟨hlo, hhi, halign, htlo, hthi, h1, hinner, hhops⟩, if_neg (by simp [hm])]
    simp only [hto, hc]
  case discoverBusy =>
    refine completes_fail cmdDiscover (fun _ _ _ => rfl) fun q e s hpre => ?_
    obtain ⟨hl, hlo, hhi, h0, hbusy⟩ := hpre
    rw [cmdDiscover_good hl hlo hhi h0, if_pos (Option.isSome_iff_ne_none.mpr hbusy)]
  case discoverOff =>
    refine completes_fail cmdDiscover (fun _ _ _ => rfl) fun q e s hpre => ?_
    obtain ⟨hl, hlo, hhi, h0, hfree, hm⟩ := hpre
    rw [cmdDiscover_good hl hlo hhi h0, if_neg (by simp [hfree]), if_pos hm]
  case assignBusy =>
    refine completes_fail cmdWorkerAssign (fun _ _ _ => rfl) fun q e s hpre => ?_
    obtain ⟨hl, h0, h0', h1, hlo, hhi, (hid : s.idElsewhere e = true)⟩ := hpre
    rw [cmdWorkerAssign_good ⟨hl, h0, h0', h1, hlo, hhi⟩, if_pos hid]
  case assignOff =>
    refine completes_fail cmdWorkerAssign (fun _ _ _ => rfl) fun q e s hpre => ?_
    obtain ⟨hl, h0, h0', h1, hlo, hhi, (hid : s.idElsewhere e = false), hm⟩ := hpre
    rw [cmdWorkerAssign_good ⟨hl, h0, h0', h1, hlo, hhi⟩, if_neg (ne_true_of_eq_false hid), if_pos hm]
  case tunnelOff =>
    refine completes_fail cmdTunnel (fun _ _ _ => rfl) fun q e s hpre => ?_
    obtain ⟨hlo, hhi, halign, htlo, hthi, h1, hinner, hhops, hm⟩ := hpre
    rw [cmdTunnel_good ⟨hlo, hhi, halign, htlo, hthi, h1, hinner, hhops⟩, if_pos hm]
  case tunnelNobody =>
    refine completes_fail cmdTunnel (fun _ _ _ => rfl) fun q e s hpre => ?_
    obtain ⟨hlo, hhi, halign, htlo, hthi, h1, hinner, hhops, hm, hto⟩ := hpre
    rw [cmdTunnel_good ⟨hlo, hhi, halign, htlo, hthi, h1, hinner, hhops⟩, if_neg (by simp [hm]), hto]
  case tunnelNoLink =>
    refine completes_failWith cmdTunnel (fun _ _ _ => rfl) (fun _ _ _ => rfl) fun q e s hpre => ?_
    obtain ⟨hlo, hhi, halign, htlo, hthi, h1, hinner, hhops, hm, hto, hc⟩ := hpre
    rw [cmdTunnel_good ⟨hlo, hhi, halign, htlo, hthi, h1, hinner, hhops⟩, if_neg (by simp [hm])]
    simp only [hto, hc]
  case tunnelTimeout =>
    change execTunnelTimeout t s = _
    simp only [execTunnelTimeout, State.advanceTo_rill]
  case probeTimeout => rfl

end Sys2Proof.Machine

namespace Sys2Proof.Machine

/-! ## Settings of acquisition (R357, R359, R363 to R367, R371, R374) -/

/-- FILTER_LOAD with a good payload: refused while its decimator runs, left out where the bank is pinned, and else the preset replaces the
bank (R364, R365). -/
theorem cmdFilterLoad_good {q : QId} {e : QEntry} {s : State} (hl : e.len = 4) (h2 : rsv (e.w 0) 2 22 = true) (h27 : rsvHigh (e.w 0) 27 = true)
    (hpreset : bits (e.w 0) 24 3 ≤ 2) :
    cmdFilterLoad q e s =
      if s.decimRunning e.four then .fail .filterRunning []
      else if s.acq.banks[e.four].pinned then .ok [] (s.modMeta (.decim e.four) fun m => { m with pinnedSkips := satAdd 16 m.pinnedSkips 1 })
      else .ok [] (s.modBank e.four fun _ => { preset := bits (e.w 0) 24 3 }) := by
  unfold cmdFilterLoad
  exact checked_pass (by simp [hl]) (by simp [h2, h27, hpreset])

/-- Settles O39: each command's checks pass, and its work is the write that the statement names; FILTER_LOAD by whether its decimator runs and
its bank is pinned. -/
theorem acquisitionSettings : Obligations.AcquisitionSettings := by
  unfold Obligations.AcquisitionSettings
  refine ⟨?source, ?decimator, ?decimatorExpert, ?filter, ?filterRunning, ?filterExpert, ?minmax, fun h => ?trigger, ?triggerExpert, ?combine,
    ?record⟩
  case source =>
    refine completes_ok cmdChannelSource (fun _ _ _ => rfl) fun q e s hpre => ?_
    obtain ⟨hl, h3, h21, hsrc, hdecim, hstream, hgauge⟩ := hpre
    unfold cmdChannelSource
    exact checked_pass (by simp [hl]) (by simp only [h3, h21, hsrc, decide_eq_true hdecim, hstream, hgauge]; rfl)
  case decimator =>
    refine completes_ok cmdDecimatorConfig (fun _ _ _ => rfl) fun q e s hpre => ?_
    obtain ⟨hl, h2, h16, hw2, hsrc, hrate⟩ := hpre
    unfold cmdDecimatorConfig
    exact checked_pass (by simp [hl]) (by simp only [h2, h16, decide_eq_true hw2, hsrc, hrate]; rfl)
  case decimatorExpert =>
    refine completes_ok cmdDecimatorConfigExpert (fun _ _ _ => rfl) fun q e s hpre => ?_
    obtain ⟨hl, h2, h20, hvalues⟩ := hpre
    unfold cmdDecimatorConfigExpert
    exact checked_pass (by simp [hl]) (by simp only [h2, h20, decide_eq_true hvalues]; rfl)
  case filter =>
    refine completes_ok cmdFilterLoad (fun _ _ _ => rfl) fun q e s hpre => ?_
    obtain ⟨hl, h2, h27, hpreset, hrun⟩ := hpre
    rw [cmdFilterLoad_good hl h2 h27 hpreset, if_neg (ne_true_of_eq_false hrun)]
    split <;> rfl
  case filterRunning =>
    refine completes_fail cmdFilterLoad (fun _ _ _ => rfl) fun q e s hpre => ?_
    obtain ⟨hl, h2, h27, hpreset, hrun⟩ := hpre
    rw [cmdFilterLoad_good hl h2 h27 hpreset, if_pos hrun]
  case filterExpert =>
    refine completes_ok cmdFilterLoadExpert (fun _ _ _ => rfl) fun q e s hpre => ?_
    obtain ⟨hl, h2, h24, hfirst, hcount, hlast, hcoefs, hrun⟩ := hpre
    have hrange : bits (e.w 0) 4 12 < 3072 ∧ 1 ≤ bits (e.w 0) 16 8 ∧ bits (e.w 0) 4 12 + bits (e.w 0) 16 8 ≤ 3072 := ⟨hfirst, hcount, hlast⟩
    unfold cmdFilterLoadExpert
    exact (checked_pass (decide_eq_true hl) (by simp only [h2, h24, decide_eq_true hrange, hcoefs]; rfl)).trans
      (if_neg (ne_true_of_eq_false hrun))
  case minmax =>
    refine completes_ok cmdMinmaxConfig (fun _ _ _ => rfl) fun q e s hpre => ?_
    obtain ⟨hl, h3, h9, h25, hinterval⟩ := hpre
    unfold cmdMinmaxConfig
    exact checked_pass (by simp [hl]) (by simp only [h3, h9, h25, decide_eq_true hinterval]; rfl)
  case trigger =>
    refine completes_ok cmdTriggerConfig (fun _ _ _ => rfl) fun q e s hpre => ?_
    obtain ⟨hl, hwords, rfl, hok⟩ := hpre
    unfold cmdTriggerConfig
    exact checked_pass (by simp [hl]) (by simp only [hwords, hok]; rfl)
  case triggerExpert =>
    refine completes_ok cmdTriggerConfigExpert (fun _ _ _ => rfl) fun q e s hpre => ?_
    obtain ⟨hl, hwords, hok⟩ := hpre
    unfold cmdTriggerConfigExpert
    exact checked_pass (by simp [hl]) (by simp only [hwords, hok]; rfl)
  case combine =>
    refine completes_ok cmdTriggerCombine (fun _ _ _ => rfl) fun q e s hpre => ?_
    obtain ⟨hl, h1, h17, h20, h16, hlo, hhi, hoption⟩ := hpre
    unfold cmdTriggerCombine
    exact checked_pass (by simp [hl]) (by simp only [h1, h17, h20, h16, decide_eq_true (And.intro hlo hhi), hoption]; rfl)
  case record =>
    refine completes_ok cmdRecordConfig (fun _ _ _ => rfl) fun q e s hpre => ?_
    obtain ⟨hl, h3, h9, hpre28, hpost28, hpost⟩ := hpre
    unfold cmdRecordConfig
    exact checked_pass (by simp [hl]) (by simp only [h3, h9, hpre28, hpost28, decide_eq_true hpost]; rfl)

end Sys2Proof.Machine

namespace Sys2Proof.Machine

/-! ## Records taken (R356, R359, R368 to R387) -/

@[simp] theorem State.advanceTo_isArmed (s : State) (t : Instant) : (s.advanceTo t).isArmed = s.isArmed := by simp [State.isArmed]

/-! ### ARM, DISARM and RECORD_READ (R381, R383, R387) -/

/-- ARM with its empty payload is refused as Table 10.11 orders the reasons, or admitted (R381). -/
theorem cmdArm_good {q : QId} {e : QEntry} {s : State} (hl : e.len = 0) :
    cmdArm q e s =
      match s.armBusy s.shadow with
      | some i => .fail .resourceBusy (s.armReply s.shadow 0x20 i ⟨0, false⟩)
      | none => match s.armFault s.shadow with
        | some x => .fail .precondition (s.armReply s.shadow x.1 x.2 ⟨0, false⟩)
        | none =>
          if 256000000000 < (s.loads s.shadow).1 then .fail .bandwidth (s.armReply s.shadow 0x01 0xFF ⟨0, false⟩)
          else if 64000000000 < (s.loads s.shadow).2.1 then .fail .bandwidth (s.armReply s.shadow 0x02 0xFF ⟨0, false⟩)
          else if 25000000000 < (s.loads s.shadow).2.2 then .fail .bandwidth (s.armReply s.shadow 0x03 0xFF ⟨0, false⟩)
          else .ok (s.armReply s.shadow 0 0xFF (s.endTests [0x30, 0x31] 2).armNow.acq.armStamp) (s.endTests [0x30, 0x31] 2).armNow := by
  unfold cmdArm
  exact checked_pass (by simp [hl]) rfl

theorem cmdDisarm_good {q : QId} {e : QEntry} {s : State} (hl : e.len = 0) :
    cmdDisarm q e s = if s.isArmed then .wait (s.disarm 1 [e.seq]) else .ok [] s := by
  unfold cmdDisarm
  exact checked_pass (by simp [hl]) rfl

theorem cmdForceTrigger_good {q : QId} {e : QEntry} {s : State} (hl : e.len = 0) :
    cmdForceTrigger q e s =
      if s.isArmed = false then .fail .precondition []
      else .wait (s.modAcq fun a => { a with
        firings := a.firings ++ [{ unit := 0, stamp := s.stampWeir, decided := false, forced := some e.seq }] }) := by
  unfold cmdForceTrigger
  exact checked_pass (by simp [hl]) rfl

/-- RECORD_READ with a good payload finds its record and, from an offset within the image, a part of it, and frees the record at wish
(R387). -/
theorem cmdRecordRead_good {q : QId} {e : QEntry} {s : State} (hl : e.len = 12) (h17 : rsvHigh (e.w 0) 17 = true) (hlo : 1 ≤ e.w 2)
    (hhi : e.w 2 ≤ 1008) :
    cmdRecordRead q e s =
      match s.acq.records.find? fun r => decide (r.index = bits (e.w 0) 0 16) with
      | none => .fail .precondition []
      | some r =>
        if r.image.length ≤ e.w 1 then .fail .badParam []
        else
          let part := (r.image.drop (e.w 1)).take (e.w 2)
          .ok (wordsLe [bits (e.w 0) 0 16, e.w 1] ++ part ++ List.replicate (e.w 2 - part.length) 0)
            (if bit (e.w 0) 16 then s.freeRecord (bits (e.w 0) 0 16) else s) := by
  unfold cmdRecordRead
  exact checked_pass (by simp [hl]) (by simp [h17, hlo, hhi])

/-! ### Triggers (R370, R372, R373) -/

/-- A TIMEOUT unit whose T1 has passed leaves its crossing behind, and fires unless its source is stopped (R370, R383). -/
theorem execTriggerTimeoutFire_due {s : State} {t : Instant} {n : Fin 4} {tr : FTime} (harm : (s.advanceTo t).isArmed = true)
    (hcond : (s.advanceTo t).active.weir.units[n].cond = 4) (hrise : (s.advanceTo t).acq.units[n].rise = some tr)
    (hpast : (tr + (s.advanceTo t).active.weir.units[n].t1) / 65536 < (s.advanceTo t).fnow / 65536) :
    execTriggerTimeoutFire t n s =
      let u := s.advanceTo t
      let u1 := u.modAcq fun a => { a with units := upd a.units n fun x => { x with rise := none } }
      .next (if u.carries (underlying u.active u.active.weir.units[n].src).1 then u1.fire n ⟨tr + u.active.weir.units[n].t1, u.stampWeir.valid⟩
        else u1) := by
  unfold execTriggerTimeoutFire
  simp only [hrise]
  exact if_pos ⟨harm, hcond, hpast⟩

/-- Weir's decision on the earliest firing, once its delay has passed (R372, R373). -/
theorem execTriggerDecision_due {s : State} {t : Instant} {f : Firing} (hf : earliest s.acq.firings = some f) (harm : s.isArmed = true)
    (hdelay : f.stamp.time + nsec s.active.weir.delay ≤ (s.advanceTo t).fnow) :
    execTriggerDecision t s =
      let u := s.advanceTo t
      match f.forced with
      | some c =>
        let r := (u.modAcq fun a => { a with firings := a.firings.filter fun g => decide (g ≠ f) }).recordTrigger f.stamp 0 0 true
        .next (r.1.complete c .ok (forceReply f.stamp r.2))
      | none => match u.joins f with
        | none => .next (u.modAcq fun a => { a with
            firings := (a.firings.filter fun g => decide (f.stamp.time ≤ g.stamp.time + nsec s.active.weir.window)).map fun g =>
              if g = f then { g with decided := true } else g })
        | some js =>
          let cause := idxMask (js.map Firing.unit)
          let primary := ((maskIdx 4 cause).head?.map Fin.val).getD 0
          let stamp := ((js.filter fun g => decide (g.unit.val = primary)).head?.map Firing.stamp).getD f.stamp
          .next ((u.modAcq fun a => { a with firings := a.firings.filter fun g => !js.contains g }).recordTrigger stamp cause primary false).1 := by
  have hdue : ¬ ((s.advanceTo t).isArmed = false ∨ (s.advanceTo t).fnow < f.stamp.time + nsec (s.advanceTo t).active.weir.delay) := by
    simp [harm, hdelay]
  unfold execTriggerDecision
  simp only [State.advanceTo_acq, hf]
  rw [if_neg hdue, State.advanceTo_active]
  cases f.forced <;> rfl

/-! ### A record closed (R376, R383) -/

/-- The samples that the sources of the channels have brought pass their decimators (R359). -/
def State.brought (s : State) (data : List Captured) : State :=
  s.forEach data fun d s => s.saturate s.active.channel[d.channel].source d.samples

/-- The segments of the record channels, given what their sources have brought. -/
def State.segments (s : State) (r : Record) (data : List Captured) : List Segment := (recordChans s.active).map (s.segment r.stamp.time data)

/-- A record channel has not written all its POST samples. -/
def State.lacksPost (s : State) (r : Record) (data : List Captured) : Bool :=
  (s.segments r data).any fun g => decide (g.postWritten < s.active.channel[g.channel].post)

/-- The record as it is kept. -/
def State.closed (s : State) (r : Record) (data : List Captured) : Record :=
  { r with
    truncated := s.lacksPost r data, segs := (s.segments r data).map s.describe
    shortPre := (s.segments r data).any fun g => decide (g.preValid < s.active.channel[g.channel].pre) }

/-- The record is kept and reported, and re-arm begins. -/
def State.closeRecord (s : State) (r : Record) (data : List Captured) : State :=
  let r1 := s.closed r data
  (s.modAcq fun a => { a with
    state := .rearm, cur := none, records := a.records ++ [r1], taken := a.taken + 1, lastPost := s.stampWeir.time }).event 0xE030 0
    (wordsLe [pack [(r1.index, 16), (r1.cause, 4), (r1.primary, 2), (flag r1.forced, 1), (flag r1.shortPre, 1)]] ++ timeWords r1.stamp.time ++
      wordsLe [flag r1.stamp.valid])

@[simp] theorem State.closeRecord_disarming (s : State) (r : Record) (data : List Captured) :
    (s.closeRecord r data).acq.disarming = s.acq.disarming := by simp [State.closeRecord, State.modAcq]

@[simp] theorem State.closeRecord_taken (s : State) (r : Record) (data : List Captured) :
    (s.closeRecord r data).acq.taken = s.acq.taken + 1 := by simp [State.closeRecord, State.modAcq]

/-- A record closes once its channels have written POST samples or a disarm waits for it; then the disarm that waits goes on, or the record
limit is judged (R376, R383). -/
theorem execRecordComplete_closes {s u : State} {t : Instant} {data : List Captured} {r : Record} (hu : (s.advanceTo t).brought data = u)
    (hcur : u.acq.cur = some r) (h : u.lacksPost r data = false ∨ u.acq.disarming ≠ none) :
    execRecordComplete t data s =
      match u.acq.disarming with
      | some d => .next ((u.closeRecord r data).disarmNow d.1 d.2)
      | none =>
        if u.active.weir.recordLimit ≠ 0 ∧ u.active.weir.recordLimit ≤ u.acq.taken + 1 then .next ((u.closeRecord r data).disarmNow 2 [])
        else .next (u.closeRecord r data) := by
  have hgo : ¬ (u.lacksPost r data = true ∧ u.acq.disarming.isNone = true) := by
    rw [Option.isNone_iff_eq_none]
    rcases h with h | h <;> simp [h]
  subst hu
  rw [← State.closeRecord_disarming _ r data, ← State.closeRecord_taken _ r data]
  unfold execRecordComplete
  change (match ((s.advanceTo t).brought data).acq.cur with | none => _ | some r => _) = _
  rw [hcur]
  exact if_neg hgo

/-- Settles O40: the commands by what decides each of them, then Weir's events.  The order and the figures of ARM's refusals are log entry 82,
and that a unit whose source is stopped never fires for that crossing is log entry 150. -/
theorem recordsTaken : Obligations.RecordsTaken := by
  unfold Obligations.RecordsTaken
  refine ⟨?arm, fun i => ?armBusy, fun k i => ?armFault, fun k => ?armBandwidth, ?disarmIdle, ?disarm, ?force, ?forceIdle, ?readNone,
    fun r => ?readPast, fun r => ?read, ?status, fun s t n xs harm hcond hclock => ?fires, fun s t n tr harm hcond hrise hpast hcarries => ?timeout,
    fun s t n tr harm hcond hrise hpast hstopped => ?timeoutStopped, fun s t f js hf harm hdelay hforced hjoins => ?decides,
    fun s t f hf harm hdelay hforced hjoins => ?goesOn, fun s t f c hf harm hdelay hforced => ?forced,
    fun s t data r hcur (hstay : ((s.advanceTo t).brought data).acq.disarming = none) hpost hlimit => ?closes,
    fun s t data r hcur (hstay : ((s.advanceTo t).brought data).acq.disarming = none) hpost hlimit hlast => ?closesLast,
    fun s t data r d hcur (hdisarm : ((s.advanceTo t).brought data).acq.disarming = some d) => ?closesDisarmed, fun s src xs => rfl,
    fun s t hstate hfree => ?rearm⟩
  case arm =>
    refine completes_ok cmdArm (fun _ _ _ => rfl) fun q e s hpre => ?_
    obtain ⟨hl, hbusy, hfault, hburst, hbulk, hstream⟩ := hpre
    simp only [cmdArm_good hl, hbusy, hfault, if_neg (Nat.not_lt.mpr hburst), if_neg (Nat.not_lt.mpr hbulk), if_neg (Nat.not_lt.mpr hstream)]
  case armBusy =>
    refine completes_fail cmdArm (fun _ _ _ => rfl) fun q e s hpre => ?_
    obtain ⟨hl, hbusy⟩ := hpre
    simp only [cmdArm_good hl, hbusy]
  case armFault =>
    refine completes_fail cmdArm (fun _ _ _ => rfl) fun q e s hpre => ?_
    obtain ⟨hl, hbusy, hfault⟩ := hpre
    simp only [cmdArm_good hl, hbusy, hfault]
  case armBandwidth =>
    refine completes_fail cmdArm (fun _ _ _ => rfl) fun q e s hpre => ?_
    obtain ⟨hl, hbusy, hfault, hload⟩ := hpre
    simp only [cmdArm_good hl, hbusy, hfault]
    obtain ⟨rfl, hburst⟩ | ⟨rfl, hburst, hbulk⟩ | ⟨rfl, hburst, hbulk, hstream⟩ := hload
    · exact if_pos hburst
    · rw [if_neg (Nat.not_lt.mpr hburst), if_pos hbulk]
    · rw [if_neg (Nat.not_lt.mpr hburst), if_neg (Nat.not_lt.mpr hbulk), if_pos hstream]
  case disarmIdle =>
    refine completes_ok cmdDisarm (fun _ _ _ => rfl) fun q e s hpre => ?_
    obtain ⟨hl, harm⟩ := hpre
    rw [cmdDisarm_good hl, if_neg (ne_true_of_eq_false harm)]
  case disarm =>
    refine starts_wait cmdDisarm (fun _ _ _ => rfl) fun q e s hpre => ?_
    obtain ⟨hl, harm⟩ := hpre
    rw [cmdDisarm_good hl, if_pos harm]
  case force =>
    refine starts_wait cmdForceTrigger (fun _ _ _ => rfl) fun q e s hpre => ?_
    obtain ⟨hl, harm⟩ := hpre
    rw [cmdForceTrigger_good hl, if_neg (ne_false_of_eq_true harm)]
  case forceIdle =>
    refine completes_fail cmdForceTrigger (fun _ _ _ => rfl) fun q e s hpre => ?_
    obtain ⟨hl, harm⟩ := hpre
    rw [cmdForceTrigger_good hl, if_pos harm]
  case readNone =>
    refine completes_fail cmdRecordRead (fun _ _ _ => rfl) fun q e s hpre => ?_
    obtain ⟨hl, h17, hlo, hhi, hfind⟩ := hpre
    rw [cmdRecordRead_good hl h17 hlo hhi, hfind]
  case readPast =>
    refine completes_fail cmdRecordRead (fun _ _ _ => rfl) fun q e s hpre => ?_
    obtain ⟨hl, h17, hlo, hhi, hfind, hpast⟩ := hpre
    rw [cmdRecordRead_good hl h17 hlo hhi, hfind]
    exact if_pos hpast
  case read =>
    refine completes_ok cmdRecordRead (fun _ _ _ => rfl) fun q e s hpre => ?_
    obtain ⟨hl, h17, hlo, hhi, hfind, hin⟩ := hpre
    rw [cmdRecordRead_good hl h17 hlo hhi, hfind]
    exact if_neg (Nat.not_le.mpr hin)
  case status => exact completes_ok cmdAcqStatus (fun _ _ _ => rfl) fun q e s hl => checked_pass (by simp [hl]) rfl
  case fires =>
    exact if_neg (by simp only [harm, hcond, hclock, Bool.true_eq_false, or_self, not_false_eq_true])
  case timeout => exact (execTriggerTimeoutFire_due harm hcond hrise hpast).trans (congrArg Host.Outcome.next (if_pos hcarries))
  case timeoutStopped =>
    exact (execTriggerTimeoutFire_due harm hcond hrise hpast).trans (congrArg Host.Outcome.next (if_neg (ne_true_of_eq_false hstopped)))
  case decides =>
    refine (execTriggerDecision_due hf harm hdelay).trans ?_
    simp only [hforced, hjoins]
  case goesOn =>
    refine (execTriggerDecision_due hf harm hdelay).trans ?_
    simp only [hforced, hjoins]
  case forced =>
    refine (execTriggerDecision_due hf harm hdelay).trans ?_
    simp only [hforced]
    rfl
  case closes =>
    refine (execRecordComplete_closes rfl hcur (.inl hpost)).trans ?_
    rw [hstay]
    exact if_neg fun ⟨hsome, hdone⟩ => hlimit.elim hsome (Nat.not_lt.mpr hdone)
  case closesLast =>
    refine (execRecordComplete_closes rfl hcur (.inl hpost)).trans ?_
    rw [hstay]
    exact if_pos ⟨hlimit, hlast⟩
  case closesDisarmed =>
    refine (execRecordComplete_closes rfl hcur (.inr (hdisarm ▸ Option.some_ne_none d))).trans ?_
    rw [hdisarm]
    rfl
  case rearm =>
    change execRearm t s = _
    simp only [execRearm, State.advanceTo_acq, State.advanceTo_active, State.advanceTo_now]
    exact if_pos ⟨hstate, hfree⟩

end Sys2Proof.Machine

namespace Sys2Proof.Machine

/-! ## The record port (R388 to R395, Tables 10.14 and 10.15) -/

@[simp] theorem State.modSpw_spw (s : State) (f : Spillway → Spillway) : (s.modSpw f).acq.spw = f s.acq.spw := rfl

/-- SPILLWAY_START with a good payload: refused on the port's state and on bandwidth, or a run begins (R388, R392). -/
theorem cmdSpillwayStart_good {q : QId} {e : QEntry} {s : State} (hw : s.sys.optionW = false) (hl : e.len = 4) (h2 : rsv (e.w 0) 2 6 = true)
    (h9 : rsvHigh (e.w 0) 9 = true) (hmode : bits (e.w 0) 0 2 = 1 ∨ bits (e.w 0) 0 2 = 2) :
    cmdSpillwayStart q e s =
      if s.acq.spw.state ≠ .off ∨ s.shadow.spillway.size = 0 ∨ s.acq.spw.fault = true ∨ 1 ≤ s.sys.shedStage ∨
          (bits (e.w 0) 0 2 = 2 ∧ s.isArmed = true) then .fail .precondition []
      else if bits (e.w 0) 0 2 = 1 ∧ 25000000000 < (s.loads s.shadow).2.2 then .fail .bandwidth []
      else
        let x := (s.commitShadow .spillway s.stampWeir).draw
        .wait (x.2.modSpw fun w =>
          let a := if bit (e.w 0) 8 then s.shadow.spillway.base else s.shadow.spillway.wrap w.next
          { w with
            state := .starting, next := a, start := a, seq := 0, wraps := 0, wrapped := false, id := (w.id + 1) % 2 ^ 32, startAt := s.now
            toDrain := decide (bits (e.w 0) 0 2 = 2), startCmd := e.seq, offset := 0, slots := 0
            scramblers := Vector.ofFn fun l => Config.reading (0x6041 + l.val) x.1 % 2 ^ 58 }) := by
  unfold cmdSpillwayStart
  exact checked_pass (by simp [hl]) (by simp only [hw, h2, h9, decide_eq_true hmode]; rfl)

/-- SPILLWAY_STOP with its empty payload replies in OFF, and else waits for the run to end (R394, R395). -/
theorem cmdSpillwayStop_good {q : QId} {e : QEntry} {s : State} (hw : s.sys.optionW = false) (hl : e.len = 0) :
    cmdSpillwayStop q e s =
      match s.acq.spw.state with
      | .off => .ok (leBytes 8 (s.acq.spw.next * 4096) ++ wordsLe [s.acq.spw.seq]) s
      | .starting => .wait ((s.modSpw fun w => { w with stopCmds := w.stopCmds ++ [e.seq] }).spwOff 1)
      | _ => .wait (s.modSpw fun w => { w with state := .stopping, stopCmds := w.stopCmds ++ [e.seq] }) := by
  unfold cmdSpillwayStop
  exact checked_pass (by simp [hl]) (by simp [hw])

/-- With both lanes of the port on their clock, what leaves is decided by the port's state and by what is there to send (R393, R394). -/
theorem execSpillwayUnitSend_clocked {s : State} {t : Instant} (u : Option Captured) (h0 : s.onIslandClock 41 = true)
    (h1 : s.onIslandClock 42 = true) :
    execSpillwayUnitSend t u s = .next (match s.acq.spw.state, u with
      | .stream, some x => if (s.advanceTo t).unitReady x then (s.advanceTo t).sendStream x else s.advanceTo t
      | .drain, _ => (s.advanceTo t).sendDrain
      | .stopping, some x => if (s.advanceTo t).unitReady x ∧ s.acq.spw.toDrain = false then (s.advanceTo t).sendStream x else s.advanceTo t
      | .stopping, none => (s.advanceTo t).sendEnd.spwOff 1
      | _, _ => s.advanceTo t) := by
  unfold execSpillwayUnitSend
  simp only [State.advanceTo_onIslandClock, State.advanceTo_acq]
  exact if_neg (by simp [h0, h1])

/-- The port shows the level of SPW_FAULT, and is cut once it has stood for 1 µs (R394, R395). -/
theorem execSpwFaultStop_port {s : State} {t : Instant} (high : Bool) (since : Nat) (hw : s.sys.optionW = false) :
    execSpwFaultStop t high since s =
      .next (if high = true ∧ since + usec 1 ≤ max s.now t then ((s.advanceTo t).modSpw fun w => { w with fault := high }).spwCut 3
        else (s.advanceTo t).modSpw fun w => { w with fault := high }) := by
  have hport : ¬ (s.advanceTo t).sys.optionW = true := by simp [hw]
  rw [← State.advanceTo_now]
  exact if_neg hport

/-- A command whose length is good and whose parameters are not is refused for them (R86). -/
theorem checked_badParam {e : QEntry} {len : Nat → Bool} {params : Bool} {rest : Unit → Res} (hl : len e.len = true)
    (hp : params = false) : checked e len params rest = .fail .badParam [] := by
  rw [checked, if_neg (ne_false_of_eq_true hl), if_pos hp]

/-- Settles O41: the commands by what decides each of them, then the port's events.  The scramblers' first values and the first block are log
entry 153; a stop while starting and the END unit are log entries 83 and 116. -/
theorem spillwayPort : Obligations.SpillwayPort := by
  unfold Obligations.SpillwayPort
  refine ⟨?config, ?start, ?startRefused, ?stopOff, ?stopStarting, ?stop, ?status, ?configW, ?startW, ?stopW, ?statusW, ?startBandwidth,
    fun s t hstate hdue => ?started, fun s t u hstate hready h0 h1 => ?stream, fun s t u hstate h0 h1 => ?drain, fun s t hstate h0 h1 => ?ending,
    fun s t high since hw => ?fault, fun s t high since hw => ?faultW⟩
  case config =>
    refine completes_ok cmdSpillwayConfig (fun _ _ _ => rfl) fun q e s hpre => ?_
    obtain ⟨hw, hl, h29, h31, hring⟩ := hpre
    unfold cmdSpillwayConfig
    exact checked_pass (by simp [hl]) (by simp only [hw, h29, h31, decide_eq_true hring]; rfl)
  case start =>
    refine starts_wait cmdSpillwayStart (fun _ _ _ => rfl) fun q e s hpre => ?_
    obtain ⟨hw, hl, h2, h9, hoff, hsize, hfault, hshed, hmode⟩ := hpre
    rw [cmdSpillwayStart_good hw hl h2 h9 (hmode.imp And.left And.left), if_neg, if_neg]
    · rintro ⟨hm, hload⟩
      obtain ⟨_, hfits⟩ | ⟨hm2, _⟩ := hmode
      · exact Nat.not_lt.mpr hfits hload
      · simp [hm] at hm2
    · rintro (hst | hsz | hf | hs | ⟨hm, harm⟩)
      · exact hst hoff
      · exact hsize hsz
      · simp [hfault] at hf
      · simp [hshed] at hs
      · obtain ⟨hm1, _⟩ | ⟨_, hidle⟩ := hmode
        · simp [hm] at hm1
        · simp [hidle] at harm
  case startRefused =>
    refine completes_fail cmdSpillwayStart (fun _ _ _ => rfl) fun q e s hpre => ?_
    obtain ⟨hw, hl, h2, h9, hmode, hrefused⟩ := hpre
    rw [cmdSpillwayStart_good hw hl h2 h9 hmode, if_pos hrefused]
  case stopOff =>
    refine completes_ok cmdSpillwayStop (fun _ _ _ => rfl) fun q e s hpre => ?_
    obtain ⟨hw, hl, hstate⟩ := hpre
    rw [cmdSpillwayStop_good hw hl, hstate]
  case stopStarting =>
    refine starts_wait cmdSpillwayStop (fun _ _ _ => rfl) fun q e s hpre => ?_
    obtain ⟨hw, hl, hstate⟩ := hpre
    rw [cmdSpillwayStop_good hw hl, hstate]
  case stop =>
    refine starts_wait cmdSpillwayStop (fun _ _ _ => rfl) fun q e s hpre => ?_
    obtain ⟨hw, hl, hoff, hstarting⟩ := hpre
    rw [cmdSpillwayStop_good hw hl]
    split
    · exact absurd ‹_› hoff
    · exact absurd ‹_› hstarting
    · rfl
  case status =>
    refine completes_ok cmdSpillwayStatus (fun _ _ _ => rfl) fun q e s hpre => ?_
    obtain ⟨hw, hl⟩ := hpre
    exact checked_pass (by simp [hl]) (by simp [hw])
  case configW =>
    refine completes_fail cmdSpillwayConfig (fun _ _ _ => rfl) fun q e s hpre => ?_
    obtain ⟨hw, hl⟩ := hpre
    unfold cmdSpillwayConfig
    exact checked_badParam (by simp [hl]) (by simp [hw])
  case startW =>
    refine completes_fail cmdSpillwayStart (fun _ _ _ => rfl) fun q e s hpre => ?_
    obtain ⟨hw, hl⟩ := hpre
    unfold cmdSpillwayStart
    exact checked_badParam (by simp [hl]) (by simp [hw])
  case stopW =>
    refine completes_fail cmdSpillwayStop (fun _ _ _ => rfl) fun q e s hpre => ?_
    obtain ⟨hw, hl⟩ := hpre
    unfold cmdSpillwayStop
    exact checked_badParam (by simp [hl]) (by simp [hw])
  case statusW =>
    refine completes_fail cmdSpillwayStatus (fun _ _ _ => rfl) fun q e s hpre => ?_
    obtain ⟨hw, hl⟩ := hpre
    unfold cmdSpillwayStatus
    exact checked_badParam (by simp [hl]) (by simp [hw])
  case startBandwidth =>
    refine completes_fail cmdSpillwayStart (fun _ _ _ => rfl) fun q e s hpre => ?_
    obtain ⟨hw, hl, h2, h9, hmode, hoff, hsize, hfault, hshed, hload⟩ := hpre
    rw [cmdSpillwayStart_good hw hl h2 h9 (.inl hmode), if_neg (by simp [hoff, hsize, hfault, hshed, hmode]), if_pos ⟨hmode, hload⟩]
  case started =>
    change execSpillwayStartComplete t s = _
    simp only [execSpillwayStartComplete, State.advanceTo_acq, State.advanceTo_shadow, State.advanceTo_now]
    exact if_pos ⟨hstate, hdue⟩
  case stream =>
    refine (execSpillwayUnitSend_clocked (some u) (by simpa using h0) (by simpa using h1)).trans ?_
    obtain hstream | ⟨hstopping, hmode⟩ := hstate
    · simp only [hstream, hready, if_true]
    · simp only [hstopping, hready, hmode, and_self, if_true]
  case drain => exact (execSpillwayUnitSend_clocked u h0 h1).trans (by simp only [hstate])
  case ending => exact (execSpillwayUnitSend_clocked none h0 h1).trans (by simp only [hstate])
  case fault =>
    refine (execSpwFaultStop_port high since hw).trans ?_
    by_cases hdue : high = true ∧ since + usec 1 ≤ max s.now t
    · rw [if_pos hdue, State.spwCut, State.modSpw_spw, State.advanceTo_acq]
      by_cases hoff : s.acq.spw.state = .off
      · rw [if_pos hoff, if_neg fun h => h.2.2 hoff]
      · rw [if_neg hoff, if_pos ⟨hdue.1, hdue.2, hoff⟩]
    · rw [if_neg hdue, if_neg fun h => hdue ⟨h.1, h.2.1⟩]
  case faultW =>
    change execSpwFaultStop t high since s = _
    simp only [execSpwFaultStop, State.advanceTo_sys, hw, if_true]

end Sys2Proof.Machine

namespace Sys2Proof.Machine

/-! ## Settings of housekeeping analog (R402, R403, R406 to R408, R411 to R413, R418, R422, R423) -/

/-- GAUGE_INJECT with a good payload: refused beyond four entries that wait; else the entries join those that wait, and a converter that does
nothing starts the first (R406). -/
theorem cmdGaugeInject_good {q : QId} {e : QEntry} {s : State} (hl : e.len = 20) (h5 : rsvHigh (e.w 0) 5 = true) (hlo : 1 ≤ bits (e.w 0) 2 3)
    (hhi : bits (e.w 0) 2 3 ≤ 4)
    (hentries : ((List.range 4).all fun i =>
      if i < bits (e.w 0) 2 3 then gaugeEntryOk (e.w (1 + i)) && !bit (e.w (1 + i)) 10 else e.w (1 + i) == 0) = true) :
    cmdGaugeInject q e s =
      if 4 < s.hk.gauge[e.conv].injected.length + bits (e.w 0) 2 3 then .fail .precondition []
      else
        let s1 := (s.afterSlice e.conv).2.modConv e.conv fun c =>
          { c with injected := c.injected ++ (List.range (bits (e.w 0) 2 3)).map fun i => gaugeEntryOf (e.w (1 + i)) }
        .ok [] (if s.hk.gauge[e.conv].cur.isNone ∧ s.hk.gauge[e.conv].calRun.isNone then s1.converterNext e.conv (s.afterSlice e.conv).1 else s1) := by
  unfold cmdGaugeInject
  exact checked_pass (by simp [hl]) (by simp only [h5, decide_eq_true (And.intro hlo hhi), hentries]; rfl)

/-- The codes that a JETS_QUEUE of a channel leaves in its queue before its own: none with CLEAR (R412). -/
def State.keptCodes (s : State) (e : QEntry) (j : Fin 24) : List Nat := if bit (e.w 0) 8 = true then [] else s.hk.jets[j].queue

/-- The codes that a JETS_QUEUE carries. -/
def QEntry.codes (e : QEntry) : List Nat := (List.range (bits (e.w 0) 16 7)).map fun i => fieldAt e.cmd.payload (4 + 2 * i) 2

/-- JETS_QUEUE with a good payload that the queue has room for: the codes join it held to the limits, and the reply says how many the limits
changed (R412; the LENGTH is log entry 87). -/
theorem cmdJetsQueue_good {q : QId} {e : QEntry} {s : State} {j : Fin 24} {put : List Nat} {clamped : Nat} (hj : idx? 24 (bits (e.w 0) 0 5) = some j)
    (hl : e.len = 4 + 2 * bits (e.w 0) 16 7) (h5 : rsv (e.w 0) 5 3 = true) (h9 : rsv (e.w 0) 9 7 = true) (h23 : rsvHigh (e.w 0) 23 = true)
    (hn : bits (e.w 0) 16 7 ≤ 64) (hroom : (s.keptCodes e j).length + bits (e.w 0) 16 7 ≤ 64)
    (hput : put = e.codes.map (clampTo s.limits.jetsMin[j] s.limits.jetsMax[j]))
    (hclamped : clamped = ((e.codes.zip put).filter fun x => decide (x.1 ≠ x.2)).length) :
    cmdJetsQueue q e s =
      let reply := wordsLe [pack [((s.keptCodes e j).length + bits (e.w 0) 16 7, 7), (0, 9), (clamped, 7)]] ++ put.flatMap (leBytes 2)
      let s1 := s.modJets j fun c => { c with queue := s.keptCodes e j ++ put }
      if clamped = 0 then .ok reply s1 else .clamped reply s1 := by
  subst hput hclamped
  unfold cmdJetsQueue
  simp only [QEntry.jet, hj]
  exact (checked_pass (decide_eq_true hl) (by simp only [h5, h9, h23, decide_eq_true hn]; rfl)).trans (if_neg (Nat.not_lt.mpr hroom))

/-! ### PWM_CONFIG (R422, R423) -/

/-- A duty within the unit's limit: the command answers OK. -/
theorem State.pwmDone_ok {s : State} {n : Fin 8} (h : (s.pwmClamp n).2 = false) :
    s.pwmDone n = .ok ((s.pwmClamp n).1.pwmReply n) (s.pwmClamp n).1 := if_neg (ne_true_of_eq_false h)

/-- A duty that the unit's limit held: the command answers LIMIT_CLAMPED. -/
theorem State.pwmDone_clamped {s : State} {n : Fin 8} (h : (s.pwmClamp n).2 = true) :
    s.pwmDone n = .clamped ((s.pwmClamp n).1.pwmReply n) (s.pwmClamp n).1 := if_pos h

/-- What the basic PWM_CONFIG writes, before the duty is held to the limit: the period and the edges of the frequency and the duty. -/
def State.pwmBasic (s : State) (e : QEntry) : State :=
  let x := ((s.modShadow (Bank.pw e.unit fun p => { pwmHead e p with freq := bits (e.w 1) 0 26, duty := bits (e.w 2) 0 17 })).writeBasic
    (.pwm e.unit) 0x7820 128 (Bank.pw e.unit fun p => { p with period := roundDivN 100000000 (bits (e.w 1) 0 26) })).writeBasic
    (.pwm e.unit) 0x7820 129 (Bank.pw e.unit fun p => { p with psrc := 0 })
  (x.writeBasic (.pwm e.unit) 0x7820 130 (Bank.pw e.unit fun p => { p with rise := 0 })).writeBasic (.pwm e.unit) 0x7820 131
    (Bank.pw e.unit fun p => { p with
      fall := if bits (e.w 2) 0 17 = 65536 then 0xFFFF else roundDivN (bits (e.w 2) 0 17 * x.shadow.pwm[e.unit].periodIn s.active.timer) 65536 })

/-- What the expert PWM_CONFIG writes and pins, before the duty is held to the limit. -/
def State.pwmExpert (s : State) (e : QEntry) : State :=
  let write := fun (el : Nat) (f : PwmP → PwmP) (s : State) => s.writeExpert (.pwm e.unit) 0x7820 el (Bank.pw e.unit f)
  write 132 (fun p => { p with dead := bits (e.w 5) 0 10 }) <| write 131 (fun p => { p with fall := bits (e.w 4) 16 16 }) <|
    write 130 (fun p => { p with rise := bits (e.w 4) 0 16 }) <| write 129 (fun p => { p with psrc := bits (e.w 3) 16 3 }) <|
    write 128 (fun p => { p with period := bits (e.w 3) 0 16 }) <| s.modShadow (Bank.pw e.unit (pwmHead e))

theorem cmdPwmConfig_good {q : QId} {e : QEntry} {s : State} (hl : e.len = 24) (hhead : pwmHeadOk e = true) (h1 : rsvHigh (e.w 1) 26 = true)
    (h2 : rsvHigh (e.w 2) 17 = true) (hlo : 1526 ≤ bits (e.w 1) 0 26) (hhi : bits (e.w 1) 0 26 ≤ 50000000) (hduty : bits (e.w 2) 0 17 ≤ 65536) :
    cmdPwmConfig q e s = (s.pwmBasic e).pwmDone e.unit := by
  unfold cmdPwmConfig
  exact checked_pass (by simp [hl]) (by simp only [hhead, h1, h2, decide_eq_true (And.intro hlo (And.intro hhi hduty))]; rfl)

/-- The edges of the expert form lie within the period, or the period is a timer's (R423). -/
theorem cmdPwmConfigExpert_good {q : QId} {e : QEntry} {s : State} (hl : e.len = 24) (hhead : pwmHeadOk e = true) (h1 : e.w 1 = 0) (h2 : e.w 2 = 0)
    (hper : 2 ≤ bits (e.w 3) 0 16) (hsrc : bits (e.w 3) 16 3 ≤ 4)
    (hedges : bits (e.w 3) 16 3 ≠ 0 ∨
      (bits (e.w 4) 0 16 < bits (e.w 3) 0 16 ∧ (bits (e.w 4) 16 16 < bits (e.w 3) 0 16 ∨ bits (e.w 4) 16 16 = 0xFFFF))) :
    cmdPwmConfigExpert q e s = (s.pwmExpert e).pwmDone e.unit := by
  unfold cmdPwmConfigExpert
  refine checked_pass (by simp [hl]) ?_
  simp only [hhead, decide_eq_true (And.intro h1 h2), decide_eq_true (And.intro hper hsrc), Bool.true_and]
  simpa only [Bool.or_eq_true, Bool.and_eq_true, decide_eq_true_eq] using hedges

/-- Settles O42: each command's checks pass, and its work is the write that the statement names; JETS_QUEUE and PWM_CONFIG by whether a limit
held a value.  When injected entries start is log entries 85 and 95, and the LENGTH of JETS_QUEUE is log entry 87. -/
theorem housekeepingSettings : Obligations.HousekeepingSettings := by
  unfold Obligations.HousekeepingSettings
  refine ⟨?sequence, ?sequenceExpert, ?inject, ?run, ?read, fun j => ?jets, fun j old codes put clamped => ?queue,
    fun j old codes put clamped => ?queueClamped, fun tm => ?enable, ?pwm, ?pwmClamped, ?pwmExpert, ?pwmExpertClamped, ?timer⟩
  case sequence =>
    refine completes_ok cmdGaugeSequence (fun _ _ _ => rfl) fun q e s hpre => ?_
    obtain ⟨hl, h2, h13, hlo, hhi, hchannels⟩ := hpre
    unfold cmdGaugeSequence
    exact checked_pass (by simp [hl]) (by simp only [h2, h13, decide_eq_true (And.intro hlo hhi), hchannels]; rfl)
  case sequenceExpert =>
    refine completes_ok cmdGaugeSequenceExpert (fun _ _ _ => rfl) fun q e s hpre => ?_
    obtain ⟨hl, h2, h13, hlo, hhi, hentries⟩ := hpre
    unfold cmdGaugeSequenceExpert
    exact checked_pass (by simp [hl]) (by simp only [h2, h13, decide_eq_true (And.intro hlo hhi), hentries]; rfl)
  case inject =>
    refine completes_ok cmdGaugeInject (fun _ _ _ => rfl) fun q e s hpre => ?_
    obtain ⟨hl, h5, hlo, hhi, hentries, hroom⟩ := hpre
    rw [cmdGaugeInject_good hl h5 hlo hhi hentries, if_neg (Nat.not_lt.mpr hroom)]
    simp only [Option.isNone_iff_eq_none]
  case run =>
    refine completes_ok cmdGaugeRun (fun _ _ _ => rfl) fun q e s hpre => ?_
    obtain ⟨hl, h3, htrig⟩ := hpre
    unfold cmdGaugeRun
    exact checked_pass (by simp [hl]) (by simp [h3, htrig])
  case read =>
    refine completes_ok cmdGaugeRead (fun _ _ _ => rfl) fun q e s hpre => ?_
    obtain ⟨hl, h2, h14, hcount⟩ := hpre
    unfold cmdGaugeRead
    exact checked_pass (by simp [hl]) (by simp [h2, h14, hcount])
  case jets =>
    refine completes_ok cmdJetsConfig (fun _ _ _ => rfl) fun q e s hpre => ?_
    obtain ⟨hj, hl, h5, h11, h14, hpark⟩ := hpre
    unfold cmdJetsConfig
    simp only [QEntry.jet, hj]
    exact checked_pass (by simp [hl]) (by simp [h5, h11, h14, hpark])
  case queue =>
    refine completes_ok cmdJetsQueue (fun _ _ _ => rfl) fun q e s hpre => ?_
    obtain ⟨hj, hl, h5, h9, h23, hn, rfl, hroom, rfl, hput, hclamped, hzero⟩ := hpre
    exact (cmdJetsQueue_good hj hl h5 h9 h23 hn hroom hput hclamped).trans (if_pos hzero)
  case queueClamped =>
    refine completes_clamped cmdJetsQueue (fun _ _ _ => rfl) fun q e s hpre => ?_
    obtain ⟨hj, hl, h5, h9, h23, hn, rfl, hroom, rfl, hput, hclamped, hsome⟩ := hpre
    exact (cmdJetsQueue_good hj hl h5 h9 h23 hn hroom hput hclamped).trans (if_neg hsome)
  case enable =>
    refine completes_ok cmdJetsEnable (fun _ _ _ => rfl) fun q e s hpre => ?_
    obtain ⟨hl, h0, h1, h2, h26, hlo, hhi, htm⟩ := hpre
    have htimer : (⟨bits (e.w 2) 0 2, htm ▸ tm.isLt⟩ : Fin 4) = tm := Fin.ext htm
    rw [← htimer]
    unfold cmdJetsEnable
    exact checked_pass (by simp [hl]) (by simp [h0, h1, h2, h26, hlo, hhi])
  case pwm =>
    refine completes_ok cmdPwmConfig (fun _ _ _ => rfl) fun q e s hpre => ?_
    obtain ⟨hl, hhead, h1, h2, hlo, hhi, hduty, hwithin⟩ := hpre
    exact (cmdPwmConfig_good hl hhead h1 h2 hlo hhi hduty).trans (State.pwmDone_ok hwithin)
  case pwmClamped =>
    refine completes_clamped cmdPwmConfig (fun _ _ _ => rfl) fun q e s hpre => ?_
    obtain ⟨hl, hhead, h1, h2, hlo, hhi, hduty, hheld⟩ := hpre
    exact (cmdPwmConfig_good hl hhead h1 h2 hlo hhi hduty).trans (State.pwmDone_clamped hheld)
  case pwmExpert =>
    refine completes_ok cmdPwmConfigExpert (fun _ _ _ => rfl) fun q e s hpre => ?_
    obtain ⟨hl, hhead, h1, h2, hper, hsrc, hedges, hwithin⟩ := hpre
    exact (cmdPwmConfigExpert_good hl hhead h1 h2 hper hsrc hedges).trans (State.pwmDone_ok hwithin)
  case pwmExpertClamped =>
    refine completes_clamped cmdPwmConfigExpert (fun _ _ _ => rfl) fun q e s hpre => ?_
    obtain ⟨hl, hhead, h1, h2, hper, hsrc, hedges, hheld⟩ := hpre
    exact (cmdPwmConfigExpert_good hl hhead h1 h2 hper hsrc hedges).trans (State.pwmDone_clamped hheld)
  case timer =>
    refine completes_ok cmdTimerConfig (fun _ _ _ => rfl) fun q e s hpre => ?_
    obtain ⟨hl, h4, hper, hgrid⟩ := hpre
    unfold cmdTimerConfig
    exact checked_pass (by simp [hl]) (by simp only [h4, decide_eq_true hper, Bool.and_self, Bool.true_and]; exact not_or_decide_iff.mpr hgrid)

end Sys2Proof.Machine

namespace Sys2Proof.Machine

/-! ## Housekeeping analog runs (R400, R401, R403, R404, R406, R407, R413, R415, R418, R424, R426 to R428) -/

/-! ### Timers and converters (R400, R401, R403, R404, R406, R407, R413, R418) -/

theorem execTimerTick_due {s : State} {t : Instant} {n : Fin 4} {a : Instant} (h : (s.advanceTo t).tickAt n = some a) :
    execTimerTick t n s =
      .next ((((s.advanceTo t).tickUsers n a).modTimer n fun u => { u with start := a, ticked := true }).boundary (.timer n)) := by
  simp only [execTimerTick, h]

/-- An event announced to a converter that has nothing to run falls without effect (R404, R429). -/
theorem execGaugeTriggerEvent_nothing {s : State} {t : Instant} {g : Fin 4} {a : Instant} {rest : List Instant}
    (h : s.hk.gauge[g].trigs = a :: rest) (hnone : s.active.gauge[g].run = false ∨ (s.advanceTo t).nothingToRun g = true) :
    execGaugeTriggerEvent t g s = .next ((s.advanceTo t).modConv g fun c => { c with trigs := rest }) := by
  simp only [execGaugeTriggerEvent, State.advanceTo_hk, State.advanceTo_active, h]
  exact if_pos hnone

/-- An event announced to a converter that has entries to run falls: it counts as an overrun, is served by the pass that is held back, or sets
the start of a pass (R404). -/
theorem execGaugeTriggerEvent_falls {s : State} {t : Instant} {g : Fin 4} {a : Instant} {rest : List Instant}
    (h : s.hk.gauge[g].trigs = a :: rest) (hrun : s.active.gauge[g].run = true) (hany : (s.advanceTo t).nothingToRun g = false) :
    execGaugeTriggerEvent t g s =
      let s1 := (s.advanceTo t).modConv g fun c => { c with trigs := rest }
      if s.hk.gauge[g].overrun a = true then .next (s1.modConv g fun c => { c with overruns := satAdd 16 c.overruns 1 })
      else if s.hk.gauge[g].startAt.isSome then .next s1
      else .next (s1.modConv g fun c => { c with startAt := some (a + tenNs s.active.gauge[g].delay) }) := by
  simp only [execGaugeTriggerEvent, State.advanceTo_hk, State.advanceTo_active, h]
  exact if_neg (not_or.mpr ⟨ne_false_of_eq_true hrun, ne_true_of_eq_false hany⟩)

/-- A converter that runs no pass and waits for none takes an event as no overrun (R404). -/
theorem GaugeConv.overrun_idle {c : GaugeConv} (a : Instant) (hpass : c.pass = none) (hstart : c.startAt = none) : c.overrun a = false := by
  simp [GaugeConv.overrun, hpass, hstart]

theorem execGaugePassStart_free {s : State} {t : Instant} {g : Fin 4} {a : Instant} (hstart : s.hk.gauge[g].startAt = some a)
    (hdue : a ≤ max s.now t) (hcur : s.hk.gauge[g].cur = none) (hpass : s.hk.gauge[g].pass = none) (hcal : s.hk.gauge[g].calRun = none)
    (hinj : s.hk.gauge[g].injected = []) (hps : s.sys.pstate ≤ 1) :
    execGaugePassStart t g s =
      .next (((s.advanceTo t).modConv g fun c => { c with
        startAt := none, pass := some { next := 0, late := decide (a < c.freeAt), shed := false }
        cal := c.cal.take (s.advanceTo t).dt11 }).converterNext g (max a s.hk.gauge[g].freeAt)) := by
  simp only [execGaugePassStart, State.advanceTo_hk, State.advanceTo_now, State.advanceTo_sys, hstart]
  simp only [Option.isNone_iff_eq_none]
  exact if_pos ⟨hdue, hcur, hpass, hcal, hinj, hps⟩

/-- The conversion of a converter ends: its result is taken, the converter goes on, and with its last entry the pass ends (R401, R407). -/
theorem State.gaugeEnd_due {s : State} {g : Fin 4} {v : GaugeCur} (raw : Int) (hcur : s.hk.gauge[g].cur = some v) (hdue : v.boundary ≤ s.now) :
    s.gaugeEnd g raw =
      let s1 := (s.gaugeResult g v raw).converterNext g v.boundary
      (if s.hk.gauge[g].pass ≠ none ∧ s1.hk.gauge[g].pass = none then s1.passEnd g v.boundary else s1,
        [(v.entry.channel, (s.gaugeValueOf g v raw).1)]) := by
  simp only [State.gaugeEnd, hcur, if_neg (Nat.not_lt.mpr hdue), Option.isSome_iff_ne_none, Option.isNone_iff_eq_none]

/-! ### Jets and PWM units (R413, R415, R424) -/

theorem execJetsTick_due {s : State} {t : Instant} {j : Fin 24} (h : s.hk.jets[j].tickDue = true) :
    execJetsTick t j s = .next (
      let s1 := ((s.advanceTo t).modJets j fun c => { c with tickDue := false, cal := c.cal.take (s.advanceTo t).dt11 }).boundary (.jets j)
      if s1.parked j = true then s1 else s1.modJets j fun c => c.play s1.limits.jetsMin[j] s1.limits.jetsMax[j] s1.now) := by
  simp only [execJetsTick, State.advanceTo_hk, h, if_true]

theorem execJetsDeglitchEnd_due {s : State} {t : Instant} {j : Fin 24} {x : Nat} {a : Instant} (h : s.hk.jets[j].hold = some (x, a))
    (hdue : a + nsec 300 ≤ max s.now t) :
    execJetsDeglitchEnd t j s = .next ((s.advanceTo t).modJets j fun c => { c with hold := none }) := by
  simp only [execJetsDeglitchEnd, State.advanceTo_hk, State.advanceTo_now, h, hdue, if_true]

theorem execJetsParkTimer_due {s : State} {t : Instant} {j : Fin 24} {a : Instant} (h : s.hk.jets[j].rangePark = some a)
    (hdue : a + usec 20 ≤ max s.now t) :
    execJetsParkTimer t j s = .next ((s.advanceTo t).modJets j fun c => { c with rangePark := none }) := by
  simp only [execJetsParkTimer, State.advanceTo_hk, State.advanceTo_now, h, hdue, if_true]

theorem execPwmPeriodEnd_due {s : State} {t : Instant} {n : Fin 8} {a : Instant} (h : (s.advanceTo t).periodEnd n = some a) :
    execPwmPeriodEnd t n s = .next (
      let s1 := (s.advanceTo t).boundary (.pwm n)
      if s1.active.pwm[n].enable = true then s1.startPeriod n a else s1.modPwm n fun _ => {}) := by
  simp only [execPwmPeriodEnd, h]

theorem execPwmCentreEvent_due {s : State} {t : Instant} {n : Fin 8} (hrun : s.hk.pwm[n].running = true) (hcentre : s.hk.pwm[n].centre = true)
    (hdue : (s.advanceTo t).centreAt n ≤ max s.now t) :
    execPwmCentreEvent t n s = .next (((s.advanceTo t).modPwm n fun u => { u with centre := false }).trigger (0x20 + n.val)
      ((s.advanceTo t).centreAt n)) := by
  simp only [execPwmCentreEvent, State.advanceTo_hk, State.advanceTo_now, hrun, hcentre, hdue, and_self, if_true]

/-! ### Calibrations (R426 to R428) -/

@[simp] theorem State.afterSlice_hk (s : State) (g : Fin 4) : (s.afterSlice g).2.hk = s.hk := by
  simp only [State.afterSlice]
  split <;> rfl

/-- A change of a converter is told by what it makes of the converter's present state. -/
theorem State.modConv_congr {s : State} {g : Fin 4} {f f' : GaugeConv → GaugeConv} (h : f s.hk.gauge[g] = f' s.hk.gauge[g]) :
    s.modConv g f = s.modConv g f' := by
  simp only [State.modConv, State.modHk, upd, h]

/-- HK_CALIBRATE of a converter: refused while it runs a sequence, a pass or a calibration; else it starts, or waits for the injected
conversion in progress (R427; the refusal of a second one is log entry 86). -/
theorem cmdHkCalibrate_gauge {q : QId} {e : QEntry} {s : State} {g : Fin 4} (hl : e.len = 4) (h16 : rsvHigh (e.w 0) 16 = true)
    (hk : bits (e.w 0) 0 8 = 1) (hg : idx? 4 (bits (e.w 0) 8 8) = some g) :
    cmdHkCalibrate q e s =
      if s.active.gauge[g].run = true ∨ s.hk.gauge[g].pass ≠ none ∨ s.hk.gauge[g].calRun ≠ none then .fail .precondition []
      else .wait ((s.afterSlice g).2.modConv g fun c => { c with
        calRun := some { seq := e.seq, kind := 1, start := if c.cur = none then some (s.afterSlice g).1 else none, temp := s.dt11 } }) := by
  unfold cmdHkCalibrate
  refine (checked_pass (by simp [hl]) (by simp [h16, hk, lt_of_idx? hg])).trans ((if_pos hk).trans ?_)
  simp only [hg, hk, Option.isSome_iff_ne_none]
  congr 2
  apply State.modConv_congr
  simp only [State.afterSlice_hk]
  cases s.hk.gauge[g].cur <;> rfl

/-- HK_CALIBRATE of a Jets channel: refused while codes are queued or a calibration runs; else it starts, and parks the channel (R426). -/
theorem cmdHkCalibrate_jets {q : QId} {e : QEntry} {s : State} {j : Fin 24} (hl : e.len = 4) (h16 : rsvHigh (e.w 0) 16 = true)
    (hk : bits (e.w 0) 0 8 = 2 ∨ bits (e.w 0) 0 8 = 3) (hj : idx? 24 (bits (e.w 0) 8 8) = some j) :
    cmdHkCalibrate q e s =
      if s.hk.jets[j].queue ≠ [] ∨ s.hk.jets[j].calRun ≠ none then .fail .precondition []
      else .wait (s.modJets j fun c => { c with
        calRun := some { seq := e.seq, kind := bits (e.w 0) 0 8, start := some s.now, temp := s.dt11 } }).parkJets := by
  unfold cmdHkCalibrate
  refine (checked_pass (by simp [hl]) (by simp [h16, hk, lt_of_idx? hj])).trans ((if_neg (by omega)).trans ?_)
  simp only [hj, Option.isSome_iff_ne_none]

theorem execHkCalibrationEnd_gauge {s : State} {t : Instant} {g : Fin 4} {m : List (Int × Int)} {k : HkCal} {a : Instant}
    (hrun : s.hk.gauge[g].calRun = some k) (hstart : k.start = some a) (hdue : a + usec (hkMicros k.kind) ≤ max s.now t) :
    execHkCalibrationEnd t (.gauge g) m s = .next (
      let x := s.hk.gauge[g].cal.judge k.kind 0 k.temp m
      ((((s.advanceTo t).modConv g fun c => { c with
        calRun := none, freeAt := max s.now t, idleAt := max s.now t, cal := x.2 }).converterNext g (max s.now t)).refreshGauge).hkDone
          k g.val 0 (.gauge g) s.hk.gauge[g].cal.pinCount x.1 m) := by
  simp only [execHkCalibrationEnd, State.advanceTo_hk, State.advanceTo_now, hrun, hstart, decide_eq_true hdue, if_true]

theorem execHkCalibrationEnd_jets {s : State} {t : Instant} {j : Fin 24} {m : List (Int × Int)} {k : HkCal} {a : Instant}
    (hrun : s.hk.jets[j].calRun = some k) (hstart : k.start = some a) (hdue : a + usec (hkMicros k.kind) ≤ max s.now t) :
    execHkCalibrationEnd t (.jets j) m s = .next (
      let x := s.hk.jets[j].cal.judge k.kind s.active.jets[j].range k.temp m
      ((s.advanceTo t).modJets j fun c => { c with calRun := none, cal := x.2 }).hkDone
        k j.val s.active.jets[j].range (.jets j) s.hk.jets[j].cal.pinCount x.1 m) := by
  simp only [execHkCalibrationEnd, State.advanceTo_hk, State.advanceTo_now, State.advanceTo_active, hrun, hstart, decide_eq_true hdue, if_true]

/-- Settles O43: the events by their due times, then the calibrations.  The refusal of a second HK_CALIBRATE is log entry 86, that one pass
serves the triggers it held back is log entry 118, that the results of a row are one result interval is log entry 88, and when a calibration
starts that aborts a slice is log entry 95. -/
theorem housekeepingRuns : Obligations.HousekeepingRuns := by
  unfold Obligations.HousekeepingRuns
  refine ⟨fun _ _ _ _ => execTimerTick_due, fun s t g a rest htrigs hrun hany hpass hstart => ?starts,
    fun s t g a rest htrigs hrun hany hover => ?overruns, fun s t g a b rest htrigs hrun hany hover hstart => ?served,
    fun s t g a rest htrigs hnone => ?nothing, fun _ _ _ _ => execGaugePassStart_free, fun s t g raw more v hcur hdue => ?result,
    fun _ _ _ => execJetsTick_due, fun _ _ _ _ _ => execJetsDeglitchEnd_due, fun _ _ _ _ => execJetsParkTimer_due,
    fun _ _ _ _ => execPwmPeriodEnd_due, fun _ _ _ => execPwmCentreEvent_due, fun k g => ?setGauge, fun k j => ?setJets,
    fun g => ?calGauge, fun j => ?calJets, fun g => ?calGaugeBusy, fun j => ?calJetsBusy,
    fun _ _ _ _ _ _ => execHkCalibrationEnd_gauge, fun _ _ _ _ _ _ => execHkCalibrationEnd_jets⟩
  case starts =>
    refine (execGaugeTriggerEvent_falls htrigs hrun hany).trans ((if_neg ?_).trans (if_neg ?_))
    · exact ne_true_of_eq_false (GaugeConv.overrun_idle a hpass hstart)
    · rw [hstart]; exact Bool.false_ne_true
  case overruns => exact (execGaugeTriggerEvent_falls htrigs hrun hany).trans (if_pos hover)
  case served =>
    refine (execGaugeTriggerEvent_falls htrigs hrun hany).trans ((if_neg (ne_true_of_eq_false hover)).trans (if_pos ?_))
    rw [hstart]; rfl
  case nothing => exact execGaugeTriggerEvent_nothing htrigs hnone
  case result =>
    have hend := State.gaugeEnd_due (s := s.advanceTo t) raw (by rwa [State.advanceTo_hk]) (by rwa [State.advanceTo_now])
    change execGaugeResult t g (raw, more) s = _
    simp only [execGaugeResult, State.gaugeEnds, hend, List.singleton_append, State.advanceTo_hk]
  case setGauge =>
    refine completes_ok cmdHkCalibrateExpert (fun _ _ _ => rfl) fun q e s hpre => ?_
    obtain ⟨hk, hl, h19, hkind, hg⟩ := hpre
    unfold cmdHkCalibrateExpert
    simp only [hk]
    refine (checked_pass (by simp [hl]) (by simp [h19, hkind, lt_of_idx? hg])).trans ((if_pos hkind).trans ?_)
    simp only [hg]
  case setJets =>
    refine completes_ok cmdHkCalibrateExpert (fun _ _ _ => rfl) fun q e s hpre => ?_
    obtain ⟨hk, hl, h19, hkind, hj⟩ := hpre
    unfold cmdHkCalibrateExpert
    simp only [hk]
    refine (checked_pass (by simp [hl]) (by simp [h19, hkind, lt_of_idx? hj])).trans ((if_neg (by simp [hkind])).trans ?_)
    simp only [hj]
  case calGauge =>
    refine starts_wait cmdHkCalibrate (fun _ _ _ => rfl) fun q e s hpre => ?_
    obtain ⟨hl, h16, hk, hg, hrun, hpass, hcal⟩ := hpre
    exact (cmdHkCalibrate_gauge hl h16 hk hg).trans (if_neg (by simp [-Fin.getElem_fin, hrun, hpass, hcal]))
  case calJets =>
    refine starts_wait cmdHkCalibrate (fun _ _ _ => rfl) fun q e s hpre => ?_
    obtain ⟨hl, h16, hk, hj, hqueue, hcal⟩ := hpre
    exact (cmdHkCalibrate_jets hl h16 hk hj).trans (if_neg (by simp [-Fin.getElem_fin, hqueue, hcal]))
  case calGaugeBusy =>
    refine completes_fail cmdHkCalibrate (fun _ _ _ => rfl) fun q e s hpre => ?_
    obtain ⟨hl, h16, hk, hg, hbusy⟩ := hpre
    exact (cmdHkCalibrate_gauge hl h16 hk hg).trans (if_pos hbusy)
  case calJetsBusy =>
    refine completes_fail cmdHkCalibrate (fun _ _ _ => rfl) fun q e s hpre => ?_
    obtain ⟨hl, h16, hk, hj, hbusy⟩ := hpre
    exact (cmdHkCalibrate_jets hl h16 hk hj).trans (if_pos hbusy)

end Sys2Proof.Machine

namespace Sys2Proof.Machine

/-! ## Self-tests and the rotating spare (R430, R449 to R455) -/

/-! ### Commands (R450, R451, R453) -/

/-- BIST_RUN with a good payload: a test in progress takes the command unless it has one already; else the test is refused, or starts, or waits
for the spare to take over the lane of its engine (R451, R453). -/
theorem cmdBistRun_good {q : QId} {e : QEntry} {s : State} (hl : e.len = 4) (hid : testOk (bits (e.w 0) 0 8) = true)
    (h8 : rsvHigh (e.w 0) 8 = true) :
    cmdBistRun q e s =
      match s.testRun (bits (e.w 0) 0 8) with
      | some r =>
        if r.cmd.isSome then .fail .resourceBusy []
        else .wait (s.modRun (bits (e.w 0) 0 8) fun r => { r with cmd := some (e.seq, e.cmd.tag) })
      | none =>
        if s.sys.pstate ≠ 0 ∨ s.testAllowed (bits (e.w 0) 0 8) = false then .fail .precondition []
        else match (testEngine (bits (e.w 0) 0 8)).map s.engineRun with
          | some (.takeOver n x) =>
            if s.sys.bist.takeover.any fun k => decide (k.kind ≠ .periodic) then .fail .precondition []
            else .wait ((s.freeSpare x).modBist fun b => { b with takeover := some { lane := n, kind := .onDemand e.seq e.cmd.tag, start := s.now } })
          | _ => .wait (s.startDemand (bits (e.w 0) 0 8) (e.seq, e.cmd.tag)) := by
  unfold cmdBistRun
  exact checked_pass (by simp [hl]) (by simp [hid, h8])

theorem cmdBistResult_good {q : QId} {e : QEntry} {s : State} (hl : e.len = 4)
    (hid : testOk (bits (e.w 0) 0 8) = true ∨ bits (e.w 0) 0 8 = 0) (h8 : rsvHigh (e.w 0) 8 = true) :
    cmdBistResult q e s =
      if bits (e.w 0) 0 8 = 0 then .ok (wordsLe s.integrityWords ++ s.sys.integ.lastStamp.bytes) s
      else .ok ((((s.sys.bist.records.find? fun x => decide (x.1 = bits (e.w 0) 0 8)).map Prod.snd).getD {}).bytes (bits (e.w 0) 0 8)) s := by
  unfold cmdBistResult
  exact checked_pass (by simp [hl]) (by simpa [h8] using hid)

theorem cmdBistAbort_good {q : QId} {e : QEntry} {s : State} (hl : e.len = 4) (hid : testOk (bits (e.w 0) 0 8) = true)
    (h8 : rsvHigh (e.w 0) 8 = true) :
    cmdBistAbort q e s =
      if (s.testRun (bits (e.w 0) 0 8)).isNone then .fail .precondition []
      else .wait (s.modRun (bits (e.w 0) 0 8) fun r => { r with stop := 1, aborts := r.aborts ++ [e.seq] }) := by
  unfold cmdBistAbort
  exact checked_pass (by simp [hl]) (by simp [hid, h8])

/-! ### The schedule and the rotation (R449, R452 to R454) -/

@[simp] theorem State.advanceTo_testing (s : State) (t : Instant) : (s.advanceTo t).testing = s.testing := by simp [State.testing]
@[simp] theorem State.advanceTo_testRun (s : State) (t : Instant) (id : Nat) : (s.advanceTo t).testRun id = s.testRun id := by simp [State.testRun]
@[simp] theorem State.advanceTo_nextRotation (s : State) (t : Instant) : (s.advanceTo t).nextRotation = s.nextRotation := by
  simp [State.nextRotation]

theorem State.serveDue_of_none_due {s : State} (h : s.sys.bist.due = []) : s.serveDue = s := by simp only [State.serveDue, h]

theorem execCisternTestSchedule_due {s : State} {t : Instant} {bulk : Bool} (htest : s.testing = true) (hfree : (s.advanceTo t).cisternFree bulk = true)
    (hdue : s.sys.bist.cisternAt[(if bulk then 1 else 0 : Fin 2)] + secs 10 ≤ max s.now t) :
    execCisternTestSchedule t bulk s =
      .next (((s.advanceTo t).modBist fun b => { b with
        cisternAt := b.cisternAt.set (if bulk then 1 else 0 : Fin 2) (max s.now t) }).startPeriodic (if bulk = true then 0x31 else 0x30)) := by
  simp only [execCisternTestSchedule, State.advanceTo_testing, State.advanceTo_sys, State.advanceTo_now]
  exact if_pos ⟨htest, hfree, hdue⟩

/-- A rotation step that falls due while no priority takeover waits, and the spare neither takes over a lane nor is under test: it begins to
shadow the next LOCKED lane, and with none it is tested again (R452). -/
theorem execRotationStep_due {s : State} {t : Instant} {e : Fin 9} (hdue : s.sys.bist.due = []) (hspare : s.sys.bist.spare = some e)
    (htest : s.testing = true) (htime : s.sys.bist.stepAt + msec 250 ≤ max s.now t) (htake : s.sys.bist.takeover = none)
    (hrun : s.testRun (0x10 + e.val) = none) :
    execRotationStep t s =
      let s1 := (s.advanceTo t).modBist fun b => { b with stepAt := max s.now t }
      match s.nextRotation with
      | none => .next (s1.startPeriodic (0x10 + e.val))
      | some n => .next (s1.modBist fun b => { b with
          lastLane := some n, takeover := some { lane := n, kind := .periodic, start := max s.now t } }) := by
  have hserved : (s.advanceTo t).serveDue = s.advanceTo t := State.serveDue_of_none_due (by rwa [State.advanceTo_sys])
  have hwait : ¬ (s.testing = false ∨ max s.now t < s.sys.bist.stepAt + msec 250) :=
    not_or.mpr ⟨ne_false_of_eq_true htest, Nat.not_lt.mpr htime⟩
  simp only [execRotationStep, hserved, State.advanceTo_sys, hspare, State.advanceTo_testing, State.advanceTo_now, htake,
    State.advanceTo_testRun, hrun, State.advanceTo_nextRotation]
  exact (if_neg hwait).trans (if_neg (by simp))

/-- The received marker at or after 12 µs of a takeover, with the spare not under test: after a mismatch of a periodic step the spare is tested,
else it takes the lane's place (R142, R452, R454). -/
theorem execEngineSwap_marker {s : State} {t : Instant} {k : Takeover} {e : Fin 9} (same : Bool) (htake : s.sys.bist.takeover = some k)
    (hspare : s.sys.bist.spare = some e) (hlock : s.lanes[k.lane].acq.state = .locked) (htime : k.start + usec 12 ≤ max s.now t)
    (hmark : s.lanes[k.lane].rx.markAt = some (max s.now t)) (hrun : s.testRun (0x10 + e.val) = none) :
    execEngineSwap t same s =
      if k.kind = .periodic ∧ same = false then
        .next (((s.advanceTo t).modBist fun b => { b with takeover := none }).startTest (0x10 + e.val) none true (some k.lane))
      else match idx? 9 s.lanes[k.lane].eq.engine with
        | some old => .next (((s.advanceTo t).swapEngine k e old same).serveDue)
        | none => .next (s.advanceTo t) := by
  simp only [execEngineSwap, State.advanceTo_sys, State.advanceTo_lanes, State.advanceTo_now, State.advanceTo_testRun, htake, hspare, hrun]
  exact if_pos ⟨hlock, htime, hmark, rfl⟩

/-! ### Slices (R449, R455) -/

/-- A test in progress whose slice ends: the slice is counted with what it found. -/
def State.countSlice (s : State) (id : Nat) (failure : Option Nat) : State :=
  s.modRun id fun r => { r with slices := r.slices + 1, sliceAt := s.now, fail := r.fail.orElse fun _ => failure }

/-- A test in progress goes on where it is: no periodic converter test begins in its place. -/
theorem State.beginGauge_of_run {s : State} {id : Nat} {r : TestRun} (h : s.testRun id = some r) : s.beginGauge id = s := by
  simp only [State.beginGauge, h, Option.isNone_some, Bool.false_eq_true, false_and, if_false]
  split <;> rfl

/-- A slice that can have run is counted, and ends the test after the last one or where the test is to go no further; else the test ends
before its slice has run where it is to go no further (R449, R455). -/
theorem execBistSliceEnd_run {s : State} {t : Instant} {id : Nat} {r : TestRun} (failure : Option Nat) (h : s.testRun id = some r) :
    execBistSliceEnd t id failure s =
      if (s.advanceTo t).sliceRan r = true then
        .next (if testSlices id ≤ r.slices + 1 then (((s.advanceTo t).countSlice id failure).endTest id (if r.stop = 1 then 1 else 0)).serveDue
          else if (s.advanceTo t).sliceStop r ≠ 0 then (((s.advanceTo t).countSlice id failure).endTest id ((s.advanceTo t).sliceStop r)).serveDue
          else (s.advanceTo t).countSlice id failure)
      else if (s.advanceTo t).sliceStop r ≠ 0 then .next ((s.advanceTo t).endTest id ((s.advanceTo t).sliceStop r)).serveDue
      else .next (s.advanceTo t) := by
  have hrun : (s.advanceTo t).testRun id = some r := by rwa [State.advanceTo_testRun]
  simp only [execBistSliceEnd, State.beginGauge_of_run hrun, hrun]
  rfl

/-- Settles O44: the commands by what decides each of them, then the events of the schedule, the rotation and the slices.  That a test in
progress on the spare puts off a rotation step, and the cause of a pause, are log entry 95. -/
theorem selfTestsRun : Obligations.SelfTestsRun := by
  unfold Obligations.SelfTestsRun
  refine ⟨?run, fun n x => ?takesOver, fun r => ?busy, fun r => ?joins, ?refused, ?integrity, ?record, ?schedule, ?abort, ?abortNone,
    fun _ _ _ => execCisternTestSchedule_due, fun s t e n hdue hspare htest htime htake hrun hnext => ?rotates,
    fun s t e hdue hspare htest htime htake hrun hnext => ?retests,
    fun s t k e old same htake hspare hlock htime hmark hok hold hrun => ?swaps,
    fun s t k e htake hspare hlock htime hmark hper hrun => ?mismatch, fun s t id failure r hr hran hmore hgo => ?counts,
    fun s t id failure r hr hran hlast => ?last, fun s t id failure r hr hran hmore hstop => ?stops,
    fun s t id failure r hr hran hstop => ?stopsEarly⟩
  case run =>
    refine starts_wait cmdBistRun (fun _ _ _ => rfl) fun q e s hpre => ?_
    obtain ⟨hl, hid, h8, hrun, hps, hallowed, hengine⟩ := hpre
    rw [cmdBistRun_good hl hid h8, hrun]
    refine (if_neg (by simp [hps, hallowed])).trans ?_
    obtain hnone | hnow := hengine
    · rw [hnone]; rfl
    · rw [hnow]; rfl
  case takesOver =>
    refine starts_wait cmdBistRun (fun _ _ _ => rfl) fun q e s hpre => ?_
    obtain ⟨hl, hid, h8, hrun, hps, hallowed, hengine, hfree⟩ := hpre
    rw [cmdBistRun_good hl hid h8, hrun]
    refine (if_neg (by simp [hps, hallowed])).trans ?_
    rw [hengine]
    exact if_neg (ne_true_of_eq_false hfree)
  case busy =>
    refine completes_fail cmdBistRun (fun _ _ _ => rfl) fun q e s hpre => ?_
    obtain ⟨hl, hid, h8, hrun, hcmd⟩ := hpre
    rw [cmdBistRun_good hl hid h8, hrun]
    exact if_pos (Option.isSome_iff_ne_none.mpr hcmd)
  case joins =>
    refine starts_wait cmdBistRun (fun _ _ _ => rfl) fun q e s hpre => ?_
    obtain ⟨hl, hid, h8, hrun, hcmd⟩ := hpre
    rw [cmdBistRun_good hl hid h8, hrun]
    exact if_neg (by simp [hcmd])
  case refused =>
    refine completes_fail cmdBistRun (fun _ _ _ => rfl) fun q e s hpre => ?_
    obtain ⟨hl, hid, h8, hrun, hbar⟩ := hpre
    rw [cmdBistRun_good hl hid h8, hrun]
    exact if_pos hbar
  case integrity =>
    refine completes_ok cmdBistResult (fun _ _ _ => rfl) fun q e s hpre => ?_
    obtain ⟨hl, hzero, h8⟩ := hpre
    rw [cmdBistResult_good hl (.inr hzero) h8, if_pos hzero]
  case record =>
    refine completes_ok cmdBistResult (fun _ _ _ => rfl) fun q e s hpre => ?_
    obtain ⟨hl, hid, h8, hne⟩ := hpre
    rw [cmdBistResult_good hl (.inl hid) h8, if_neg hne]
  case schedule =>
    refine completes_ok cmdBistSchedule (fun _ _ _ => rfl) fun q e s hpre => ?_
    obtain ⟨hl, h1⟩ := hpre
    unfold cmdBistSchedule
    refine (checked_pass (by simp [hl]) h1).trans ?_
    cases bit (e.w 0) 0 <;> rfl
  case abort =>
    refine starts_wait cmdBistAbort (fun _ _ _ => rfl) fun q e s hpre => ?_
    obtain ⟨hl, hid, h8, hrun⟩ := hpre
    rw [cmdBistAbort_good hl hid h8, if_neg (by simpa using hrun)]
  case abortNone =>
    refine completes_fail cmdBistAbort (fun _ _ _ => rfl) fun q e s hpre => ?_
    obtain ⟨hl, hid, h8, hrun⟩ := hpre
    rw [cmdBistAbort_good hl hid h8, if_pos (by simp [hrun])]
  case rotates =>
    refine (execRotationStep_due hdue hspare htest htime htake hrun).trans ?_
    rw [hnext]
  case retests =>
    refine (execRotationStep_due hdue hspare htest htime htake hrun).trans ?_
    rw [hnext]
  case swaps =>
    refine (execEngineSwap_marker same htake hspare hlock htime hmark hrun).trans ((if_neg ?_).trans ?_)
    · rintro ⟨hper, hsame⟩
      exact hok.elim (· hper) (ne_true_of_eq_false hsame)
    · rw [hold]
  case mismatch =>
    exact (execEngineSwap_marker false htake hspare hlock htime hmark hrun).trans (if_pos ⟨hper, rfl⟩)
  case counts =>
    refine (execBistSliceEnd_run failure hr).trans ((if_pos hran).trans ?_)
    rw [if_neg (Nat.not_le.mpr hmore), if_neg (not_not.mpr hgo), State.countSlice, State.advanceTo_now]
  case last =>
    refine (execBistSliceEnd_run failure hr).trans ((if_pos hran).trans ?_)
    rw [if_pos hlast, State.countSlice, State.advanceTo_now]
  case stops =>
    refine (execBistSliceEnd_run failure hr).trans ((if_pos hran).trans ?_)
    rw [if_neg (Nat.not_le.mpr hmore), if_pos hstop, State.countSlice, State.advanceTo_now]
  case stopsEarly =>
    exact (execBistSliceEnd_run failure hr).trans ((if_neg (ne_true_of_eq_false hran)).trans (if_pos hstop))

end Sys2Proof.Machine

namespace Sys2Proof.Machine

/-! ## Shedding (R464 to R469, R480) -/

/-! ### The readings of VIN (R465, R469) -/

/-- A reading of VIN is taken, at the boundary of its class (R469, Table 1.4). -/
def State.readVin (s : State) (mv : Nat) : State := (s.boundary .sluice).modPow fun p => { p with vin := mv, vinPrev := some mv }

/-- One restoration: the latest step of stage 6 while that stage has one, else the stage in force (R465, R466). -/
def State.restoreLatest (s : State) : State :=
  match s.sys.pow.step with
  | some 0 => restoreTo 5 (s.undoStep 0)
  | some (k + 1) => (s.undoStep (k + 1)).setStage 6
  | none => restoreTo (s.sys.shedStage - 1) s

theorem State.restoreLatest_stage {s : State} (h : s.sys.pow.step = none) : s.restoreLatest = restoreTo (s.sys.shedStage - 1) s := by
  simp only [State.restoreLatest, h]

theorem State.restoreLatest_lastStep {s : State} (h : s.sys.pow.step = some 0) : s.restoreLatest = restoreTo 5 (s.undoStep 0) := by
  simp only [State.restoreLatest, h]

theorem State.restoreLatest_step {s : State} {k : Nat} (h : s.sys.pow.step = some (k + 1)) :
    s.restoreLatest = (s.undoStep (k + 1)).setStage 6 := by
  simp only [State.restoreLatest, h]

section
variable {s : State} {t mv prev : Nat} (hh : s.sys.pow.held = false) (hp : s.sys.pow.powered = true) (hps : s.sys.pstate ≤ 1)
include hh hp hps

/-- The comparator is read in RUN and STANDBY, while no reset is held and VIN is there. -/
theorem comparator_reads : ¬ (s.sys.pow.held = true ∨ s.sys.pow.powered = false ∨ s.sys.pstate = 2 ∨ s.sys.pstate = 3) := by
  simp only [hh, hp, Bool.false_eq_true, Bool.true_eq_false, false_or]
  omega

theorem execSupplyComparatorUpdate_first (hprev : s.sys.pow.vinPrev = none) :
    execSupplyComparatorUpdate t mv s = .next ((s.advanceTo t).readVin mv) := by
  simp only [execSupplyComparatorUpdate, State.advanceTo_sys, hprev]
  exact if_neg (comparator_reads hh hp hps)

/-- A second reading sheds down to the deepest stage whose threshold both lie below, or restores, or only takes the reading (R465). -/
theorem execSupplyComparatorUpdate_second (hprev : s.sys.pow.vinPrev = some prev) :
    execSupplyComparatorUpdate t mv s =
      let s1 := (s.advanceTo t).readVin mv
      let n := s1.active.sluice.deepest prev mv
      if s1.sys.shedStage < n then
        .next (((s1.forEach ((List.range 7).filter fun i => decide (s1.sys.shedStage < i ∧ i ≤ n)) fun i s => s.shedStage i).setStage n).shedEvent true)
      else if 0 < s1.sys.shedStage ∧ s1.sys.pow.shedAt + msec 1 ≤ s1.now ∧ s1.active.sluice.restores s1.sys.shedStage prev mv = true then
        .next (s1.restoreLatest.shedEvent false)
      else .next s1 := by
  have hcase (s1 : State) :
      (match s1.sys.pow.step with
        | some 0 => Host.Outcome.next ((restoreTo 5 (s1.undoStep 0)).shedEvent false)
        | some (k + 1) => .next (((s1.undoStep (k + 1)).setStage 6).shedEvent false)
        | none => .next ((restoreTo (s1.sys.shedStage - 1) s1).shedEvent false) : Out) = .next (s1.restoreLatest.shedEvent false) := by
    unfold State.restoreLatest
    rcases s1.sys.pow.step with _ | _ | k <;> rfl
  simp only [execSupplyComparatorUpdate, State.advanceTo_sys, hprev]
  refine (if_neg (comparator_reads hh hp hps)).trans ?_
  rw [← hcase]
  rfl

theorem execSupplyComparatorUpdate_restores (hprev : s.sys.pow.vinPrev = some prev)
    (h : let s1 := (s.advanceTo t).readVin mv
      s1.active.sluice.deepest prev mv ≤ s1.sys.shedStage ∧ 0 < s1.sys.shedStage ∧ s1.sys.pow.shedAt + msec 1 ≤ s1.now ∧
        s1.active.sluice.restores s1.sys.shedStage prev mv = true) :
    execSupplyComparatorUpdate t mv s = .next (((s.advanceTo t).readVin mv).restoreLatest.shedEvent false) := by
  obtain ⟨hdeep, hrest⟩ := h
  exact (execSupplyComparatorUpdate_second hh hp hps hprev).trans ((if_neg (Nat.not_lt.mpr hdeep)).trans (if_pos hrest))

end

/-- The next step of stage 6 comes 100 µs after the last while VIN lies below VSHED6 (R466). -/
theorem execShedStep_due {s : State} {t k : Nat} (hstep : s.sys.pow.step = some k) (hstage : s.sys.shedStage = 6) (hk : k < 8)
    (htime : s.sys.pow.shedAt + usec 100 ≤ max s.now t) (hvin : s.sys.pow.vin < s.active.sluice.level 6) :
    execShedStep t s = .next ((((s.advanceTo t).takeStep (k + 1)).setStage 6).shedEvent true) := by
  simp only [execShedStep, State.advanceTo_sys, State.advanceTo_now, State.advanceTo_active, hstep]
  exact if_pos ⟨hstage, hk, htime, hvin⟩

/-! ### SHED_CONFIG (R468) -/

/-- A field read by its place in the list of the fields. -/
theorem getD_map_range {n : Nat} (f : Nat → Nat) (i : Fin n) : ((List.range n).map f).getD i.val 0 = f i.val := by
  simp [List.getD_eq_getElem?_getD]

theorem cmdShedConfigExpert_good {q : QId} {e : QEntry} {s : State} (hl : e.len = 24) (h0 : e.w 0 = 0) (h16 : rsvHigh (e.w 5) 16 = true)
    (hshed : shedOk ((List.range 6).map fun i => fieldAt e.cmd.payload (4 + 2 * i) 2) = true)
    (hhyst : ∀ i : Fin 6, 5 ≤ fieldAt e.cmd.payload (16 + i.val) 1 ∧ fieldAt e.cmd.payload (16 + i.val) 1 ≤ 100) :
    let s1 := s.forEach (List.finRange 6) fun i s =>
      (s.writeExpert .sluice 0x9810 (128 + i.val) fun k =>
        { k with sluice := { k.sluice with shed := k.sluice.shed.set i (fieldAt e.cmd.payload (4 + 2 * i.val) 2) } }).writeExpert
        .sluice 0x9810 (134 + i.val) fun k => { k with sluice := { k.sluice with hyst := k.sluice.hyst.set i (fieldAt e.cmd.payload (16 + i.val) 1) } }
    cmdShedConfigExpert q e s = .ok (wordsLe s1.shadow.sluice.words) s1 := by
  have hall : (((List.range 6).map fun i => fieldAt e.cmd.payload (16 + i) 1).all fun h => decide (5 ≤ h ∧ h ≤ 100)) = true := by
    simp only [List.all_map, List.all_eq_true, List.mem_range]
    exact fun i hi => decide_eq_true (hhyst ⟨i, hi⟩)
  simp only [cmdShedConfigExpert, getD_map_range]
  refine (checked_pass ?_ ?_).trans ?_
  · simp [hl]
  · simp only [h0, h16, hshed, hall, decide_true, Bool.and_self]
  · with_reducible rfl

/-- Settles O27: the readings by the one before and by what they cross, then the steps of stage 6 and the commands.  That the basic form
chooses its thresholds and bands is log entry 40, the readings of POWER_STATUS are log entry 6. -/
theorem shedding : Obligations.Shedding := by
  unfold Obligations.Shedding
  refine ⟨fun _ _ _ => execSupplyComparatorUpdate_first, fun s t mv prev hh hp hps hprev h => ?sheds,
    fun s t mv prev k hh hp hps hprev h => ?stage, fun s t mv prev k hh hp hps hprev h => ?lastStep, fun s t mv prev k hh hp hps hprev h => ?step,
    fun _ _ _ => execShedStep_due, ?config, ?configExpert, ?status⟩
  case sheds => exact (execSupplyComparatorUpdate_second hh hp hps hprev).trans (if_pos h)
  case stage =>
    obtain ⟨hdeep, hon, htime, hrest, hstep⟩ := h
    refine (execSupplyComparatorUpdate_restores hh hp hps hprev ⟨hdeep, hon, htime, hrest⟩).trans ?_
    rw [State.restoreLatest_stage (s := (s.advanceTo t).readVin mv) hstep]
    rfl
  case lastStep =>
    obtain ⟨hdeep, hon, htime, hrest, hstep⟩ := h
    refine (execSupplyComparatorUpdate_restores hh hp hps hprev ⟨hdeep, hon, htime, hrest⟩).trans ?_
    rw [State.restoreLatest_lastStep (s := (s.advanceTo t).readVin mv) hstep]
    rfl
  case step =>
    obtain ⟨hdeep, hon, htime, hrest, hstep⟩ := h
    refine (execSupplyComparatorUpdate_restores hh hp hps hprev ⟨hdeep, hon, htime, hrest⟩).trans ?_
    rw [State.restoreLatest_step (s := (s.advanceTo t).readVin mv) hstep]
    rfl
  case config =>
    refine completes_ok cmdShedConfig (fun _ _ _ => rfl) fun q e s hpre => ?_
    obtain ⟨hl, hlo, hhi⟩ := hpre
    unfold cmdShedConfig
    refine (checked_pass (by simp [hl]) (by simp [hlo, hhi])).trans ?_
    with_reducible rfl
  case configExpert =>
    refine completes_ok cmdShedConfigExpert (fun _ _ _ => rfl) fun q e s hpre => ?_
    obtain ⟨hl, h0, h16, hshed, hhyst⟩ := hpre
    refine (cmdShedConfigExpert_good hl h0 h16 hshed hhyst).trans ?_
    with_reducible rfl
  case status => exact completes_ok cmdPowerStatus (fun _ _ _ => rfl) fun q e s hl => checked_pass (by simp [hl]) rfl

end Sys2Proof.Machine

namespace Sys2Proof.Machine

/-! ## The device power states (R470 to R479) -/

/-! ### POWER_ENTER and the entry (R471, R472) -/

/-- POWER_ENTER with a good payload: refused, or the entry is noted and the device prepares; STANDBY waits for the preparation, SLEEP and DEEP
reply at once (R471, R472). -/
theorem cmdPowerEnter_good {q : QId} {e : QEntry} {s : State} (hl : e.len = 4) (h0 : bits (e.w 0) 0 2 ≠ 0) (h2 : rsv (e.w 0) 2 6 = true)
    (h12 : rsvHigh (e.w 0) 12 = true) :
    cmdPowerEnter q e s =
      if s.enterRefused e.seq (bits (e.w 0) 0 2) (bits (e.w 0) 8 4) then .fail .precondition []
      else
        let s1 := s.modPow fun p => { p with
          mask := if bits (e.w 0) 0 2 = 1 then bits (e.w 0) 8 4 - bits (e.w 0) 8 4 % 2 else bits (e.w 0) 8 4
          entry := some { queue := q, seq := e.seq, target := bits (e.w 0) 0 2, at' := s.now, replied := decide (bits (e.w 0) 0 2 ≠ 1) } }
        if bits (e.w 0) 0 2 = 1 then .wait (s1.prepare true) else .ok [] (s1.prepare (decide (q ≠ .q2))) := by
  unfold cmdPowerEnter
  exact checked_pass (by simp [hl]) (by simp [h0, h2, h12])

/-- The lanes sent down once the reply of an entry is gone. -/
def State.lanesDown (s : State) : State := s.forEach allLanes fun r s => s.sendPower .l2 r

/-- Once the reply is gone and the device is prepared the sleep request follows, and STANDBY replies with it (R472). -/
theorem execSleepRequest_prepared {s : State} {t : Nat} {e : PowerEntry} (he : s.sys.pow.entry = some e) (hr : e.request = none)
    (hgone : e.target = 1 ∨ ((s.advanceTo t).queueOf e.seq).isNone = true ∨ (s.advanceTo t).pastMgmt (e.at' + msec 1) = true)
    (hprep : (s.advanceTo t).lanesDown.prepared = true) :
    execSleepRequest t s =
      let s2 := (s.advanceTo t).lanesDown.modPow fun p => { p with entry := some { e with request := some (max s.now t), replied := true } }
      .next (if e.replied then s2 else s2.complete e.seq .ok []) := by
  have hgone' : (decide (e.target = 1) || ((s.advanceTo t).queueOf e.seq).isNone || (s.advanceTo t).pastMgmt (e.at' + msec 1)) = true := by
    simpa only [Bool.or_eq_true, decide_eq_true_eq, or_assoc] using hgone
  simp only [execSleepRequest, State.advanceTo_sys, State.advanceTo_now, he, hr, hgone', Option.isSome_none, Bool.false_eq_true, if_false, if_true]
  exact if_pos ⟨trivial, hprep⟩

/-- 160 ns after the request the state is entered: tests end, the timer starts where it is a source, and an active level source wakes the device
at once (R472, R473). -/
theorem execPowerStateEntry_due {s : State} {t r : Nat} {e : PowerEntry} (he : s.sys.pow.entry = some e) (hr : e.request = some r)
    (htime : r + nsec 160 ≤ max s.now t) :
    execPowerStateEntry t s = .next (
      let s1 := ((s.advanceTo t).endTests (s.sys.bist.runs.map TestRun.id) 5).modPow fun p => { p with entry := none }
      let s2 := match e.target with
        | 1 => (s1.islandsOff offInStandby).modSys fun y => { y with pstate := 1 }
        | 2 => s1.toSleep
        | _ => s1.toDeep
      let s3 := s2.modPow fun p => { p with timerFrom := if bit p.mask 3 then some (max s.now t) else none, timerUp := false }
      if bit s3.sys.pow.mask 1 = true ∧ s3.sys.pow.levels ≠ 0 then s3.activity 1 else s3) := by
  simp only [execPowerStateEntry, State.advanceTo_sys, State.advanceTo_now, he, hr]
  exact if_neg (Nat.not_lt.mpr htime)

/-! ### The wake sources (R473, R474) -/

/-- WAKE_N is a source at its level, or at its falling edge where WAKE_CONFIG says so. -/
theorem execWakeSource_wakeN (s : State) (t : Nat) (active : Bool) :
    execWakeSource t 1 active s =
      let s1 := (s.advanceTo t).modPow fun p => { p with wakeN := !active }
      .next (if ((s.sys.pow.wakeEdge && (s.sys.pow.wakeN && active)) || (!s.sys.pow.wakeEdge && active)) = true then s1.activity 1 else s1) := by
  simp only [execWakeSource, State.advanceTo_sys]
  rfl

theorem execWakeSource_timer {s : State} (t : Nat) (active : Bool) (h : s.sys.pow.timerUp = true) :
    execWakeSource t 3 active s = .next ((s.advanceTo t).activity 3) := by
  simp only [execWakeSource, State.advanceTo_sys]
  exact congrArg Host.Outcome.next (if_pos h)

/-- An address header is a source of a device that holds an address. -/
theorem execWakeSource_address {s : State} (t : Nat) (h : s.bus.dynAddr.isSome = true) :
    execWakeSource t 0 true s = .next ((s.advanceTo t).activity 0) := by
  simp only [execWakeSource, State.advanceTo_bus]
  exact congrArg Host.Outcome.next (if_pos ⟨trivial, fun _ => h⟩)

theorem execWakeSource_pps (s : State) (t : Nat) : execWakeSource t 2 true s = .next ((s.advanceTo t).activity 2) :=
  congrArg Host.Outcome.next (if_pos ⟨rfl, fun h => absurd h (by decide)⟩)

/-- An enabled source that fires in a device that neither enters a state nor wakes and is not stuck wakes it, from SLEEP and DEEP through the
stages and from STANDBY past them (R473, R475). -/
theorem State.activity_enabled {s : State} {src : Nat} (he : s.sys.pow.entry = none) (hw : s.sys.pow.wake = none) (hr : s.sys.pow.retryOf = none)
    (hk : s.sys.pow.stuck = false) (hm : bit s.sys.pow.mask src = true) (hp : s.sys.pstate = 1 ∨ s.sys.pstate = 2 ∨ s.sys.pstate = 3) :
    s.activity src = s.startWake s.sys.pstate (s.sys.pow.sources (2 ^ src)) (if s.sys.pstate = 1 then 4 else 1) false false := by
  simp only [State.activity, he, hw, hr, hk, hm, Option.isSome_none, Bool.false_eq_true, Bool.true_eq_false, or_self, if_false]
  rcases hp with hp | hp | hp <;> simp only [hp] <;> rfl

theorem execAlwaysOnTimer_due {s : State} {t a : Nat} (h : s.sys.pow.timerFrom = some a)
    (hd : 1000 * a + 999 * msec s.sys.pow.timerMs ≤ 1000 * max s.now t) :
    execAlwaysOnTimer t s = .next (((s.advanceTo t).modPow fun p => { p with timerFrom := none, timerUp := true }).activity 3) := by
  simp only [execAlwaysOnTimer, State.advanceTo_sys, State.advanceTo_now, h]
  exact if_pos hd

/-! ### The stages of a wake and its failures (R475, R476) -/

/-- A stage completes and the next begins; after the last one a device that wakes from DEEP runs its boot ROM (R475). -/
theorem execWakeStageComplete_stage {s : State} {w : Wake} (t : Nat) (hw : s.sys.pow.wake = some w) (hlo : 1 ≤ w.stage) (hhi : w.stage ≤ 3) :
    execWakeStageComplete t s =
      let s1 := (s.advanceTo t).modPow fun p => { p with wake := some { w with stage := w.stage + 1, stageAt := max s.now t } }
      .next (if w.stage = 3 ∧ w.origin = 3 then (s1.modSys fun y => { y with pstate := 4 }).modFw fun f => { f with romDue := some .deep } else s1) := by
  have hin : ¬ (w.stage = 0 ∨ 3 < w.stage) := by omega
  simp only [execWakeStageComplete, State.advanceTo_sys, State.advanceTo_now, hw]
  exact if_neg hin

theorem execWakeStageTimeout_late {s : State} {w : Wake} {t : Nat} (rails : Nat) (hw : s.sys.pow.wake = some w) (hlo : 1 ≤ w.stage)
    (hhi : w.stage ≤ 3) (hlate : (s.advanceTo t).pastAlwaysOn (w.stageAt + msec 2) = true) :
    execWakeStageTimeout t rails s = .next (((s.advanceTo t).modSys fun y => { y with wakeFail := true }).modPow fun p => { p with
      failures := (p.failures ++ [({ stage := w.stage, retry := w.retry, origin := w.origin
                                     rails := if w.stage = 1 then rails % 256 else 0 } : WakeFailure)]).take 4
      wake := none, retryOf := if w.recovery then none else some (max s.now t, w) }) := by
  have hin : ¬ (w.stage = 0 ∨ 3 < w.stage ∨ (s.advanceTo t).pastAlwaysOn (w.stageAt + msec 2) = false) := by
    rw [hlate]
    simp only [Bool.true_eq_false, or_false]
    omega
  simp only [execWakeStageTimeout, State.advanceTo_sys, State.advanceTo_now, hw]
  exact if_neg hin

theorem execWakeRetry_due {s : State} {t a : Nat} {w : Wake} (h : s.sys.pow.retryOf = some (a, w)) (ha : a + msec 10 ≤ max s.now t) :
    execWakeRetry t s = .next (if 3 ≤ w.retry then (s.advanceTo t).getStuck else (s.advanceTo t).modPow fun p => { p with
      retryOf := none, wake := some { w with stage := 1, stageAt := max s.now t, retry := w.retry + 1 } }) := by
  simp only [execWakeRetry, State.advanceTo_sys, State.advanceTo_now, h]
  refine (if_neg (Nat.not_lt.mpr ha)).trans ?_
  split <;> rfl

/-! ### Command-ready and POWER_RECOVER (R475 to R479) -/

/-- Failures and the restriction of a recovery attempt are cleared (R478). -/
def State.clearFailures (s : State) : State :=
  s.modSys fun y => { y with wakeFail := false, pow := { y.pow with failures := [], restricted := none } }

/-- POWER_RECOVER outside a recovery window: a device in STANDBY wakes first (R478). -/
theorem cmdPowerRecover_open {q : QId} {e : QEntry} {s : State} (hl : e.len = 0) (hr : s.sys.pow.restricted = none) :
    cmdPowerRecover q e s =
      if s.sys.pstate = 1 then
        .wait (if s.sys.pow.wake.isSome then s.clearFailures else s.clearFailures.startWake 1 (s.sys.pow.sources 0) 4 false false)
      else .ok [] s.clearFailures := by
  unfold cmdPowerRecover
  exact (checked_pass (by simp [hl]) rfl).trans (if_neg (by simp [hr]))

/-- POWER_RECOVER within a recovery window ends it; a device that is command-ready sends its WAKE event then (R477, R479). -/
theorem cmdPowerRecover_window {q : QId} {e : QEntry} {s : State} (hl : e.len = 0) (hr : s.sys.pow.restricted ≠ none) :
    cmdPowerRecover q e s = .ok [] (match s.sys.pow.wake with
      | some w => if w.stage = 5 then (s.clearFailures.modPow fun p => { p with wake := none }).wakeEvent w else s.clearFailures
      | none => s.clearFailures) := by
  unfold cmdPowerRecover
  refine (checked_pass (by simp [hl]) rfl).trans ((if_pos (Option.isSome_iff_ne_none.mpr hr)).trans ?_)
  rcases s.sys.pow.wake with _ | w <;> rfl

/-- The device is command-ready once the stages are done and, from DEEP, the firmware has booted (R475). -/
theorem execCommandReady_ready {s : State} {t : Nat} {w : Wake} (hw : s.sys.pow.wake = some w) (hst : w.stage = 4)
    (hb : w.origin ≠ 3 ∨ w.cancelled = true ∨ s.sys.booted = true) :
    execCommandReady t s = .next (
      let s1 := (s.advanceTo t).modSys fun y => { y with
        pstate := 0
        islands := if w.origin = 1 ∧ w.cancelled = false then vmap y.islands fun i b => b || (offInStandby i.val && !(s.advanceTo t).absentIsland i)
          else y.islands
        pow := { y.pow with
          wake := if y.pow.restricted.isSome = true then some { w with stage := 5 } else none, timerFrom := none, timerUp := false, failures := [] } }
      let s2 := s1.lanesBack.forEach s.sys.pow.failures fun f s => s.wakeFailEvent f
      let s3 := if s.sys.pow.restricted.isSome = true then s2 else s2.wakeEvent w
      (s3.forEach (s3.q.all.filter fun e => decide (e.phase = .running ∧ e.cmd.op = 0x9001)) fun e s => s.complete e.seq .ok []).sweep) := by
  have hgo : ¬ (w.stage ≠ 4 ∨ (w.origin = 3 ∧ w.cancelled = false ∧ s.sys.booted = false)) := by
    rintro (h | ⟨ho, hc, hn⟩)
    · exact h hst
    · rcases hb with hb | hb | hb
      · exact hb ho
      · exact ne_true_of_eq_false hc hb
      · exact ne_true_of_eq_false hn hb
  simp only [execCommandReady, State.advanceTo_sys, hw]
  exact if_neg hgo

theorem execRecoveryWindowExpiry_late {s : State} {t a : Nat} (hr : s.sys.pow.restricted = some a)
    (hlate : (s.advanceTo t).pastMgmt (a + secs 1) = true) :
    execRecoveryWindowExpiry t s = .next (s.advanceTo t).toDeep.getStuck := by
  simp only [execRecoveryWindowExpiry, State.advanceTo_sys, hr, hlate, if_true]

/-- Settles O28: the entry by its target, the sources one by one, the stages, and POWER_RECOVER by whether a recovery window is open.  The bound of
the timer and the wake that POWER_RECOVER begins in STANDBY are log entry 100, the device stuck after its fourth failure log entry 103. -/
theorem powerStates : Obligations.PowerStates := by
  unfold Obligations.PowerStates
  refine ⟨?config, ?standby, ?lower, ?refused, fun s t e he hr htarget hrep hprep => ?standbyRequest,
    fun s t e he hr htarget hrep hgone hprep => ?lowerRequest, fun _ _ _ _ => execPowerStateEntry_due, fun _ t => execWakeSource_address t,
    fun s t hedge => ?level, fun s t hedge hn => ?edge, fun s t => ?released, execWakeSource_pps, fun _ t a => execWakeSource_timer t a,
    fun s src he hw hr hk hm hps => ?wakes, fun s src he hw hr hk hm hps => ?wakesStandby, fun _ _ _ => execAlwaysOnTimer_due,
    fun s t w hw hlo hhi hmore => ?stage, fun s t w hw h3 hdeep => ?lastStage, fun _ _ x _ => execWakeStageTimeout_late x,
    fun _ _ _ _ => execWakeRetry_due, fun _ _ _ => execCommandReady_ready, ?recover, ?recoverStandby, ?recoverWindow,
    fun _ _ _ => execRecoveryWindowExpiry_late⟩
  case config =>
    refine completes_ok cmdWakeConfig (fun _ _ _ => rfl) fun q e s hpre => ?_
    obtain ⟨hl, h1⟩ := hpre
    exact checked_pass (by simp [hl]) h1
  case standby =>
    refine starts_wait cmdPowerEnter (fun _ _ _ => rfl) fun q e s hpre => ?_
    obtain ⟨hl, h0, h2, h12, hgo⟩ := hpre
    rw [cmdPowerEnter_good hl (by omega) h2 h12, h0, if_neg (ne_true_of_eq_false hgo)]
    rfl
  case lower =>
    refine completes_ok cmdPowerEnter (fun _ _ _ => rfl) fun q e s hpre => ?_
    obtain ⟨hl, h0, h2, h12, hgo⟩ := hpre
    have hne : bits (e.w 0) 0 2 ≠ 1 := by omega
    rw [cmdPowerEnter_good hl (by omega) h2 h12, if_neg (ne_true_of_eq_false hgo)]
    simp only [hne, if_false, ne_eq, not_false_eq_true, decide_true]
  case refused =>
    refine completes_fail cmdPowerEnter (fun _ _ _ => rfl) fun q e s hpre => ?_
    obtain ⟨hl, h0, h2, h12, hbar⟩ := hpre
    rw [cmdPowerEnter_good hl h0 h2 h12, if_pos hbar]
  case standbyRequest =>
    refine (execSleepRequest_prepared he hr (.inl htarget) hprep).trans ?_
    rw [hrep]
    exact congrArg Host.Outcome.next (if_neg Bool.false_ne_true)
  case lowerRequest =>
    refine (execSleepRequest_prepared he hr (.inr hgone) hprep).trans ?_
    rw [hrep]
    exact congrArg Host.Outcome.next (if_pos rfl)
  case level =>
    refine (execWakeSource_wakeN s t true).trans ?_
    rw [hedge]
    exact congrArg Host.Outcome.next (if_pos rfl)
  case edge =>
    refine (execWakeSource_wakeN s t true).trans ?_
    rw [hedge, hn]
    exact congrArg Host.Outcome.next (if_pos rfl)
  case released =>
    refine (execWakeSource_wakeN s t false).trans ?_
    exact congrArg Host.Outcome.next (if_neg (by simp))
  case wakes =>
    rw [State.activity_enabled he hw hr hk hm (.inr hps), if_neg (by omega)]
    rfl
  case wakesStandby =>
    rw [State.activity_enabled he hw hr hk hm (.inl hps), if_pos hps, hps]
    rfl
  case stage => exact (execWakeStageComplete_stage t hw hlo hhi).trans (congrArg Host.Outcome.next (if_neg hmore))
  case lastStage =>
    refine (execWakeStageComplete_stage t hw (by omega) (by omega)).trans ((congrArg Host.Outcome.next (if_pos ⟨h3, hdeep⟩)).trans ?_)
    rw [h3]
  case recover =>
    refine completes_ok cmdPowerRecover (fun _ _ _ => rfl) fun q e s hpre => ?_
    obtain ⟨hl, hr, hps⟩ := hpre
    exact (cmdPowerRecover_open hl hr).trans (if_neg hps)
  case recoverStandby =>
    refine starts_wait cmdPowerRecover (fun _ _ _ => rfl) fun q e s hpre => ?_
    obtain ⟨hl, hr, hps⟩ := hpre
    exact (cmdPowerRecover_open hl hr).trans (if_pos hps)
  case recoverWindow =>
    refine completes_ok cmdPowerRecover (fun _ _ _ => rfl) fun q e s hpre => ?_
    obtain ⟨hl, hr⟩ := hpre
    exact cmdPowerRecover_window hl hr

end Sys2Proof.Machine

namespace Sys2Proof.Machine

/-! ## Identity, keys, the log, the debug port and the CMIS profile (R490, R497 to R509) -/

/-! ### What the identity, the chain and the logs answer (R490, R501, R502, R505) -/

/-- A string of the length asked for is neither cut nor padded. -/
theorem fitTo_of_length {n : Nat} {bs : List Byte} (h : bs.length = n) : fitTo n bs = bs := List.take_left' h

theorem attest_completes (sig : List Byte) :
    Completes (fun t q => .attest t q sig) 0xA010 false (fun _ e _ => e.len = 32) .ok
      (fun _ e s _ => s.attestBody e.cmd.payload ++ fitTo 96 sig) (fun _ _ s => s) :=
  completes_ok (cmdAttest sig) (fun _ _ _ => rfl) fun _ _ _ hl => checked_pass (by simp [hl]) rfl

/-- Settles O14: each read's checks pass, and its reply is made of the state alone.  The chain and its length are log entry 14, the version of the
boot ROM log entry 13. -/
theorem identityReads : Obligations.IdentityReads := by
  unfold Obligations.IdentityReads
  refine ⟨completes_ok cmdIdentify (fun _ _ _ => rfl) fun q e s hl => checked_pass (by simp [hl]) rfl, fun sig hsig => ?attest, ?cert, ?log⟩
  case attest => simpa only [fitTo_of_length hsig] using attest_completes sig
  case cert =>
    refine completes_ok cmdCertRead (fun _ _ _ => rfl) fun q e s hpre => ?_
    obtain ⟨hl, h10, hlo, hhi, hoff⟩ := hpre
    unfold cmdCertRead
    exact checked_pass (by simp [hl]) (by simp [h10, hlo, hhi, hoff])
  case log =>
    refine completes_ok cmdLogRead (fun _ _ _ => rfl) fun q e s hpre => ?_
    obtain ⟨hl, h1, h13, hlo, hhi⟩ := hpre
    unfold cmdLogRead
    exact checked_pass (by simp [hl]) (by simp [h1, h13, hlo, hhi])

/-! ### Keys and the debug unlock (R497 to R499, R506) -/

/-- KEY_REVOKE with a good payload: step 2 of the authentication, the serial number and step 3 in turn refuse it and log it; then the key has to
be live, not the last, and not the running image's (R497 to R499). -/
theorem cmdKeyRevoke_good {keyOk sigOk : Bool} {q : QId} {e : QEntry} {s : State} {target key : Fin 4}
    (ht : idx? 4 (bits (e.w 0) 8 8) = some target) (hk : idx? 4 (bits (e.w 0) 16 8) = some key) (hl : e.len = 204)
    (h1 : bits (e.w 0) 0 8 = 1) (h24 : rsvHigh (e.w 0) 24 = true) :
    cmdKeyRevoke keyOk sigOk q e s =
      if s.sys.fw.keyLive key = false ∨ keyOk = false then .failWith .authFailed [] (s.logAuth 0xA040 2)
      else if fieldAt e.cmd.payload 4 8 ≠ s.sys.serial then .failWith .authFailed [] (s.logAuth 0xA040 0)
      else if sigOk = false then .failWith .authFailed [] (s.logAuth 0xA040 3)
      else if s.sys.fw.keyLive target = false ∨ ((List.finRange 4).filter s.sys.fw.keyLive).length ≤ 1 ∨
          s.sys.fw.running.bind Image.keySlot = some target then .fail .precondition []
      else .ok [] ((s.modFw fun f => { f with
        revoked := f.revoked.set target true
        slots := vmap f.slots fun _ x => if x.image.bind Image.keySlot = some target then { x with verified := false } else x }).logEntry
          0x0505 0 2 0xFFFF [pack [(target.val, 4), (key.val, 4)]]) := by
  unfold cmdKeyRevoke
  simp only [ht, hk]
  exact checked_pass (by simp [hl]) (by simp [h1, h24])

/-- DEBUG_UNLOCK with a good payload: the serial number or the boot count, then steps 2 and 3 of the authentication refuse it and log it; else
the scope asked for opens (R499, R506). -/
theorem cmdDebugUnlock_good {keyOk sigOk : Bool} {q : QId} {e : QEntry} {s : State} {key : Fin 4} (hk : idx? 4 (bits (e.w 0) 16 8) = some key)
    (hl : e.len = 208) (h1 : bits (e.w 0) 0 8 = 1) (h12 : rsv (e.w 0) 12 4 = true) (h24 : rsvHigh (e.w 0) 24 = true) :
    cmdDebugUnlock keyOk sigOk q e s =
      if fieldAt e.cmd.payload 4 8 ≠ s.sys.serial ∨ e.w 3 ≠ s.sys.bootCount ∨ s.sys.bootCount = 0xFFFFFFFF then
        .failWith .authFailed [] (s.logAuth 0xA030 0)
      else if s.sys.fw.keyLive key = false ∨ keyOk = false then .failWith .authFailed [] (s.logAuth 0xA030 2)
      else if sigOk = false then .failWith .authFailed [] (s.logAuth 0xA030 3)
      else .ok [] ((s.modFw fun f => { f with dbgScope := some (bits (e.w 0) 8 4) }).logEntry 0x0506 0 2 0xFFFF
        [pack [(bits (e.w 0) 8 4, 4), (key.val, 4)]]) := by
  unfold cmdDebugUnlock
  simp only [hk]
  exact checked_pass (by simp [hl]) (by simp [h1, h12, h24])

/-- A row whose command does not authenticate: the failure is logged with the step that failed (R499). -/
theorem completes_authFailed {row : Instant → QId → Instr} {op : Nat} {pre : QId → QEntry → State → Prop} (step : Nat)
    (body : QId → QEntry → State → Res) (hrow : ∀ t q s, exec (row t q) s = .next (runCmd t q op false body s))
    (hb : ∀ q e s, pre q e s → body q e s = .failWith .authFailed [] (s.logAuth op step)) :
    Completes row op false pre .authFailed (fun _ _ _ _ => []) fun _ _ s => s.logAuth op step :=
  completes_failWith body hrow (fun _ _ _ => rfl) hb

theorem cmdCmisProfile_good {q : QId} {e : QEntry} {s : State} (hl : e.len = 4) (hlo : 1 ≤ bits (e.w 0) 0 8) (hhi : bits (e.w 0) 0 8 ≤ 3)
    (h8 : rsvHigh (e.w 0) 8 = true) :
    cmdCmisProfile q e s =
      if bits (e.w 0) 0 8 = 3 ∧ s.sys.fw.hasCmis = false then .fail .precondition []
      else .ok [] (s.modFw fun f => { f with cmisProfile := bits (e.w 0) 0 8 }) := by
  unfold cmdCmisProfile
  exact checked_pass (by simp [hl]) (by simp [hlo, hhi, h8])

/-! ### The copy of the event log in flash (R503, R504) -/

/-- The copies of the last second at an instant. -/
def Firmware.copiedWithin (f : Firmware) (a : Instant) : List Instant := f.copied.filter fun x => decide (a < x + secs 1)

/-- The firmware runs and may write flash: no reset holds it, and it is not in SLEEP or DEEP. -/
def State.awake (s : State) : Prop := s.sys.pow.held = false ∧ s.sys.pstate ≠ 2 ∧ s.sys.pstate ≠ 3

/-- The oldest entry that waits is copied to flash, and stays in RAM only where the second has taken its 32 (R504). -/
theorem execLogFlashCopy_waiting {s : State} {t : Instant} {x : LogEntry} (hx : s.sys.log.find? LogEntry.toFlash = some x) (hs : s.awake) :
    execLogFlashCopy t s =
      let recent := s.sys.fw.copiedWithin (max s.now t)
      let l := s.sys.fw.flashLog ++ [{ x with inFlash := true }]
      if 32 ≤ recent.length then
        .next ((s.advanceTo t).modSys fun y => { y with
          log := s.sys.log.map fun z => if z.seq = x.seq then { z with skipped := true } else z
          fw := { s.sys.fw with flashSkipped := satAdd 16 s.sys.fw.flashSkipped 1, copied := recent } })
      else
        .next ((s.advanceTo t).modSys fun y => { y with
          log := s.sys.log.map fun z => if z.seq = x.seq then { z with inFlash := true } else z
          fw := { s.sys.fw with flashLog := l.drop (l.length - 4096), copied := recent ++ [max s.now t] } }) := by
  obtain ⟨hh, h2, h3⟩ := hs
  have hgo : ¬ (s.sys.pow.held = true ∨ 2 ≤ s.sys.pstate ∧ s.sys.pstate ≤ 3) := by simp [hh]; omega
  simp only [execLogFlashCopy, State.advanceTo_sys, State.advanceTo_now, hx]
  exact if_neg hgo

/-! ### The debug port (R506, R507) -/

/-- The port of a device that is awake acts within the scope unlocked. -/
theorem State.awake.scope {s : State} (hs : s.awake) :
    (if s.sys.pow.held = true ∨ s.sys.pstate = 2 ∨ s.sys.pstate = 3 then 0 else s.sys.fw.dbgScope.getD 0) = s.sys.fw.dbgScope.getD 0 := by
  obtain ⟨hh, h2, h3⟩ := hs
  exact if_neg (by simp [hh, h2, h3])

theorem execDebugPortAccess_halt {s : State} {t : Instant} (hs : s.awake) (hb : bit (s.sys.fw.dbgScope.getD 0) 0 = true) :
    execDebugPortAccess t .halt s = .next ((s.advanceTo t).modFw fun f => { f with halted := true }) := by
  simp only [execDebugPortAccess, State.advanceTo_sys, hs.scope, hb, if_true]

theorem execDebugPortAccess_resume {s : State} {t : Instant} (hs : s.awake) (hb : bit (s.sys.fw.dbgScope.getD 0) 0 = true) :
    execDebugPortAccess t .resume s = .next (((s.advanceTo t).modFw fun f => { f with halted := false }).sweep) := by
  simp only [execDebugPortAccess, State.advanceTo_sys, hs.scope, hb, if_true]

theorem execDebugPortAccess_write {s : State} {t : Instant} (a : Nat) (v : Byte) (hs : s.awake) (hb : bit (s.sys.fw.dbgScope.getD 0) 2 = true) :
    execDebugPortAccess t (.write a v) s = .next ((s.advanceTo t).modFw fun f => { f with mem := setByte f.mem a v }) := by
  simp only [execDebugPortAccess, State.advanceTo_sys, hs.scope, hb, if_true]

/-- A byte that the port has written reads back. -/
theorem execDebugPortAccess_read_written {s : State} {t : Instant} {a : Nat} {m : Nat × Byte} (hs : s.awake)
    (hb : bit (s.sys.fw.dbgScope.getD 0) 1 = true) (hm : s.sys.fw.mem.find? (fun x => decide (x.1 = a)) = some m) :
    execDebugPortAccess t (.read a) s = .next ((s.advanceTo t).modFw fun f => { f with dbgOut := some m.2 }) := by
  simp only [execDebugPortAccess, State.advanceTo_sys, hs.scope, hb, if_true, hm]

/-- Any other byte reads as a free value (log entry 107). -/
theorem execDebugPortAccess_read_free {s : State} {t : Instant} {a : Nat} (hs : s.awake)
    (hb : bit (s.sys.fw.dbgScope.getD 0) 1 = true) (hm : s.sys.fw.mem.find? (fun x => decide (x.1 = a)) = none) :
    execDebugPortAccess t (.read a) s =
      .next (((s.advanceTo t).draw.2).modFw fun f => { f with dbgOut := some (BitVec.ofNat 8 (Config.reading 0x1002 s.free)) }) := by
  simp only [execDebugPortAccess, State.advanceTo_sys, hs.scope, hb, if_true, hm, State.draw, State.advanceTo_free]

theorem bit_zero_left (k : Nat) : bit 0 k = false := Nat.zero_testBit k

/-- The port does nothing while it is locked or reset is held; a step and a factory operation change nothing that the model holds. -/
theorem execDebugPortAccess_ignored {s : State} {op : DebugOp} (t : Instant)
    (h : s.sys.fw.dbgScope = none ∨ s.sys.pow.held = true ∨ op = .step ∨ op = .factory) :
    execDebugPortAccess t op s = .next (s.advanceTo t) := by
  have closed (hc : s.sys.fw.dbgScope = none ∨ s.sys.pow.held = true) :
      (if s.sys.pow.held = true ∨ s.sys.pstate = 2 ∨ s.sys.pstate = 3 then 0 else s.sys.fw.dbgScope.getD 0) = 0 := by
    rcases hc with hc | hc <;> simp [hc]
  rcases h with h | h | rfl | rfl
  · cases op <;> simp [execDebugPortAccess, closed (.inl h), bit_zero_left]
  · cases op <;> simp [execDebugPortAccess, closed (.inr h), bit_zero_left]
  · rfl
  · rfl

/-- Settles O47: the commands by what refuses each of them, then the copy of the log and the debug port.  The step logged for a serial number or
a boot count that does not match is log entry 96, that LPMODE only records its level log entry 104. -/
theorem identityKeysAndDebug : Obligations.IdentityKeysAndDebug := by
  unfold Obligations.IdentityKeysAndDebug
  refine ⟨attest_completes, fun keyOk sigOk target key => ?revoke, fun keyOk sigOk target key => ?revokeSig, fun keyOk sigOk target key => ?revokeKey,
    fun keyOk sigOk target key => ?revokeSerial, fun keyOk sigOk target key => ?revokeRefused, fun keyOk sigOk key => ?unlock,
    fun keyOk sigOk key => ?unlockDevice, fun keyOk sigOk key => ?unlockKey, fun keyOk sigOk key => ?unlockSig,
    fun s t x hx hh h2 h3 hroom => ?copied, fun s t x hx hh h2 h3 hfull => ?skipped, fun _ _ hh h2 h3 => execDebugPortAccess_halt ⟨hh, h2, h3⟩,
    fun _ _ hh h2 h3 => execDebugPortAccess_resume ⟨hh, h2, h3⟩, fun _ _ a v hh h2 h3 => execDebugPortAccess_write a v ⟨hh, h2, h3⟩,
    fun _ _ _ _ hh h2 h3 => execDebugPortAccess_read_written ⟨hh, h2, h3⟩, fun _ _ _ hh h2 h3 => execDebugPortAccess_read_free ⟨hh, h2, h3⟩,
    fun _ t _ => execDebugPortAccess_ignored t, ?profile, ?profileRefused, fun _ _ _ => rfl⟩
  case revoke =>
    refine completes_ok (cmdKeyRevoke keyOk sigOk) (fun _ _ _ => rfl) fun q e s hpre => ?_
    obtain ⟨ht, hk, hl, h1, h24, hlive, hserial, hkey, hsig, htarget, hmore, hrun⟩ := hpre
    rw [cmdKeyRevoke_good ht hk hl h1 h24, if_neg (by simp [hlive, hkey]), if_neg (not_not.mpr hserial), if_neg (by simp [hsig]),
      if_neg (by simp only [htarget, hrun, Nat.not_le.mpr hmore, Bool.true_eq_false, or_self, not_false_eq_true])]
  case revokeSig =>
    refine completes_authFailed 3 (cmdKeyRevoke keyOk sigOk) (fun _ _ _ => rfl) fun q e s hpre => ?_
    obtain ⟨ht, hk, hl, h1, h24, hlive, hserial, hkey, hsig⟩ := hpre
    rw [cmdKeyRevoke_good ht hk hl h1 h24, if_neg (by simp [hlive, hkey]), if_neg (not_not.mpr hserial), if_pos hsig]
  case revokeKey =>
    refine completes_authFailed 2 (cmdKeyRevoke keyOk sigOk) (fun _ _ _ => rfl) fun q e s hpre => ?_
    obtain ⟨ht, hk, hl, h1, h24, hbad⟩ := hpre
    rw [cmdKeyRevoke_good ht hk hl h1 h24, if_pos hbad]
  case revokeSerial =>
    refine completes_authFailed 0 (cmdKeyRevoke keyOk sigOk) (fun _ _ _ => rfl) fun q e s hpre => ?_
    obtain ⟨ht, hk, hl, h1, h24, hlive, hkey, hserial⟩ := hpre
    rw [cmdKeyRevoke_good ht hk hl h1 h24, if_neg (by simp [hlive, hkey]), if_pos hserial]
  case revokeRefused =>
    refine completes_fail (cmdKeyRevoke keyOk sigOk) (fun _ _ _ => rfl) fun q e s hpre => ?_
    obtain ⟨ht, hk, hl, h1, h24, hlive, hserial, hkey, hsig, hbar⟩ := hpre
    rw [cmdKeyRevoke_good ht hk hl h1 h24, if_neg (by simp [hlive, hkey]), if_neg (not_not.mpr hserial), if_neg (by simp [hsig]), if_pos hbar]
  case unlock =>
    refine completes_ok (cmdDebugUnlock keyOk sigOk) (fun _ _ _ => rfl) fun q e s hpre => ?_
    obtain ⟨hk, hl, h1, h12, h24, hserial, hcount, hmax, hlive, hkey, hsig⟩ := hpre
    rw [cmdDebugUnlock_good hk hl h1 h12 h24, if_neg (by simp [hserial, hcount, hmax]), if_neg (by simp [hlive, hkey]), if_neg (by simp [hsig])]
  case unlockDevice =>
    refine completes_authFailed 0 (cmdDebugUnlock keyOk sigOk) (fun _ _ _ => rfl) fun q e s hpre => ?_
    obtain ⟨hk, hl, h1, h12, h24, hother⟩ := hpre
    rw [cmdDebugUnlock_good hk hl h1 h12 h24, if_pos hother]
  case unlockKey =>
    refine completes_authFailed 2 (cmdDebugUnlock keyOk sigOk) (fun _ _ _ => rfl) fun q e s hpre => ?_
    obtain ⟨hk, hl, h1, h12, h24, hserial, hcount, hmax, hbad⟩ := hpre
    rw [cmdDebugUnlock_good hk hl h1 h12 h24, if_neg (by simp [hserial, hcount, hmax]), if_pos hbad]
  case unlockSig =>
    refine completes_authFailed 3 (cmdDebugUnlock keyOk sigOk) (fun _ _ _ => rfl) fun q e s hpre => ?_
    obtain ⟨hk, hl, h1, h12, h24, hserial, hcount, hmax, hlive, hkey, hsig⟩ := hpre
    rw [cmdDebugUnlock_good hk hl h1 h12 h24, if_neg (by simp [hserial, hcount, hmax]), if_neg (by simp [hlive, hkey]), if_pos hsig]
  case copied => exact (execLogFlashCopy_waiting hx ⟨hh, h2, h3⟩).trans (if_neg (Nat.not_le.mpr hroom))
  case skipped => exact (execLogFlashCopy_waiting hx ⟨hh, h2, h3⟩).trans (if_pos hfull)
  case profile =>
    refine completes_ok cmdCmisProfile (fun _ _ _ => rfl) fun q e s hpre => ?_
    obtain ⟨hl, hlo, hhi, h8, hcmis⟩ := hpre
    rw [cmdCmisProfile_good hl hlo hhi h8, if_neg fun h => ne_false_of_eq_true (hcmis h.1) h.2]
  case profileRefused =>
    refine completes_fail cmdCmisProfile (fun _ _ _ => rfl) fun q e s hpre => ?_
    obtain ⟨hl, h3, h8, hcmis⟩ := hpre
    rw [cmdCmisProfile_good hl (by omega) (by omega) h8, if_pos ⟨h3, hcmis⟩]

end Sys2Proof.Machine

namespace Sys2Proof.Machine

/-! ## Updating and booting (R486 to R496, R500) -/

/-! ### What a command finds when it runs -/

@[simp] theorem State.running_sys (s : State) (t : Instant) (q : QId) (e : QEntry) : (s.running t q e).sys = s.sys := by
  simp [State.running, State.accept, State.modEntry]

/-- Of the system state two states share, when they are one device, the boot and its records, the power state and the request for the IBI of
BOOT_DONE: replies touch none of it. -/
theorem State.boot_of_device_eq {s u : State} (h : s.device = u.device) :
    s.sys.fw.records = u.sys.fw.records ∧ s.sys.booted = u.sys.booted ∧ s.sys.pstate = u.sys.pstate ∧ s.sys.fw.boot = u.sys.fw.boot ∧
      s.sys.fw.trial = u.sys.fw.trial ∧ s.bus.ibiBoot = u.bus.ibiBoot := by
  have same {α : Type} (f : State → α) : f s.device = f u.device := congrArg f h
  exact ⟨same fun d => d.sys.fw.records, same fun d => d.sys.booted, same fun d => d.sys.pstate, same fun d => d.sys.fw.boot,
    same fun d => d.sys.fw.trial, same fun d => d.bus.ibiBoot⟩

/-! ### The reception of an image (R492 to R494) -/

section
variable {key : Option (Fin 4)} {sigOk digestOk : Bool} {q : QId} {e : QEntry} {s : State} {i : Fin 4} {n : Nat}

/-- UPDATE_END of a reception whose bytes are all there closes it, and answers what the verification of the slot finds (R494). -/
theorem cmdUpdateEnd_verified (hl : e.len = 0) (hrec : s.sys.fw.reception = some (i, n, false)) (hn : n ≤ s.sys.fw.slots[i].data.length)
    (hv : (s.closeReception i n key sigOk digestOk).1 = none) :
    cmdUpdateEnd key sigOk digestOk q e s =
      let c := s.closeReception i n key sigOk digestOk
      .ok (wordsLe [c.2.1.version] ++ leBytes 8 c.2.1.rollback ++
        wordsLe [pack [((c.2.1.keySlot.map Fin.val).getD 0xF, 4), (0, 4), (if c.2.1.config = true then 2 else 1, 8)]]) c.2.2 := by
  unfold cmdUpdateEnd
  refine (checked_pass (by simp [hl]) rfl).trans ?_
  simp only [hrec]
  refine (if_neg (Nat.not_lt.mpr hn)).trans ?_
  rcases hc : s.closeReception i n key sigOk digestOk with ⟨bad, x, s1⟩
  obtain rfl : bad = none := by rwa [hc] at hv
  rfl

theorem cmdUpdateEnd_refused {st : Status} (hl : e.len = 0) (hrec : s.sys.fw.reception = some (i, n, false))
    (hn : n ≤ s.sys.fw.slots[i].data.length) (hv : (s.closeReception i n key sigOk digestOk).1 = some st) :
    cmdUpdateEnd key sigOk digestOk q e s = .failWith st [] (s.closeReception i n key sigOk digestOk).2.2 := by
  unfold cmdUpdateEnd
  refine (checked_pass (by simp [hl]) rfl).trans ?_
  simp only [hrec]
  refine (if_neg (Nat.not_lt.mpr hn)).trans ?_
  rcases hc : s.closeReception i n key sigOk digestOk with ⟨bad, x, s1⟩
  obtain rfl : bad = some st := by rwa [hc] at hv
  rfl

end

/-- An image that does not verify: UPDATE_END closes the reception all the same, and answers the status of the step that failed (R486, R494). -/
theorem updateEnd_refused (key : Option (Fin 4)) (sigOk digestOk : Bool) (i : Fin 4) (n : Nat) (st : Status) :
    Completes (fun t q => .updateEnd t q key sigOk digestOk) 0xA002 false
      (fun _ e s => e.len = 0 ∧ s.sys.fw.reception = some (i, n, false) ∧ n ≤ s.sys.fw.slots[i].data.length ∧
        (s.closeReception i n key sigOk digestOk).1 = some st) st
      (fun _ _ _ _ => []) (fun _ _ s => (s.closeReception i n key sigOk digestOk).2.2) := by
  refine completes_failWith (cmdUpdateEnd key sigOk digestOk) (fun _ _ _ => rfl) (fun _ _ _ => rfl) fun q e s hpre => ?_
  obtain ⟨hl, hrec, hn, hv⟩ := hpre
  exact cmdUpdateEnd_refused hl hrec hn hv

/-! ### Activation (R487, R495, R496) -/

/-- A boot record is written over the one that does not govern, and governs from then on with the next number (R487). -/
theorem Firmware.writeRecord_seq (f : Firmware) (r : BootRecord) : (f.writeRecord r).record.seq = f.record.seq + 1 := by
  by_cases h : f.records[0].seq < f.records[1].seq <;> simp [Firmware.writeRecord, Firmware.record, Firmware.governs, h]

theorem Firmware.activate_seq (f : Firmware) (i : Fin 4) : (f.activate i).record.seq = f.record.seq + 1 := f.writeRecord_seq _

/-- The governing record is one of the two, and rests on nothing else. -/
theorem Firmware.record_congr {f g : Firmware} (h : f.records = g.records) : f.record = g.record := by
  simp only [Firmware.record, Firmware.governs, h]

/-- The record that UPDATE_ACTIVATE leaves and the log entry of it (R495, Table 14.5). -/
def State.activateSlot (s : State) (i : Fin 4) (now : Bool) : State :=
  (s.modFw fun f => f.activate i).logEntry 0x0503 0 0 0xFFFF [pack [(i.val, 2), (0, 6), (flag now, 1)]]

/-- UPDATE_ACTIVATE of a slot that verifies writes the record; with NOW only for a firmware slot, and with no other command of Q0 and Q2 left
(R495, R496). -/
theorem cmdUpdateActivate_verified {q : QId} {e : QEntry} {s : State} {i : Fin 4} {x : Image} {now : Bool} (hl : e.len = 4)
    (h2 : rsv (e.w 0) 2 6 = true) (h9 : rsvHigh (e.w 0) 9 = true) (hi : slotOf (e.w 0) = i) (hx : s.sys.fw.slots[i].image = some x)
    (hver : s.sys.fw.slots[i].verified = true) (hv : s.sys.fw.verifyImage s.sys.optionW i x = none) (hb : bit (e.w 0) 8 = now)
    (hnow : now = true → isConfigSlot i = false ∧ (s.q.q0 ++ s.q.q2).any (fun y => decide (y.phase ≠ .replied ∧ y.seq ≠ e.seq)) = false) :
    cmdUpdateActivate q e s = .ok [] (s.activateSlot i now) := by
  subst hi hb
  have hslot : (bit (e.w 0) 8 && isConfigSlot (slotOf (e.w 0))) = false := by
    cases hc : bit (e.w 0) 8
    · rfl
    · exact (hnow hc).1
  have hgo : ¬ (s.sys.fw.slots[slotOf (e.w 0)].verified = false ∨ (bit (e.w 0) 8 = true ∧
      (s.q.q0 ++ s.q.q2).any (fun y => decide (y.phase ≠ .replied ∧ y.seq ≠ e.seq)) = true)) := by
    rintro (h | ⟨hc, hany⟩)
    · exact ne_false_of_eq_true hver h
    · exact ne_true_of_eq_false (hnow hc).2 hany
  unfold cmdUpdateActivate
  refine (checked_pass (by simp [hl]) (by simp only [h2, h9, hslot]; rfl)).trans ?_
  simp only [hx]
  refine (if_neg hgo).trans ?_
  rw [hv]
  rfl

/-- The restart of UPDATE_ACTIVATE follows where the command asked for it and has written the record. -/
theorem execUpdateActivate_ready {s : State} {t : Nat} {q : QId} {e : QEntry} (h : Ready s t q 0xA003 false e) :
    execUpdateActivate t q s =
      let s1 := runCmd t q 0xA003 false cmdUpdateActivate s
      .next (if (bit ((s.accepted t e).w 0) 8 && decide (s1.sys.fw.record.seq ≠ s.sys.fw.record.seq)) = true then s1.restartNow else s1) := by
  obtain ⟨hacc, -, hop, -⟩ := h
  simp only [execUpdateActivate, hacc, hop, decide_true, Bool.true_and]
  rfl

section
variable {s : State} {t : Nat} {q : QId} {e : QEntry} {i : Fin 4} {x : Image} {now : Bool} (hready : Ready s t q 0xA003 false e)
  (hl : (s.accepted t e).len = 4) (h2 : rsv ((s.accepted t e).w 0) 2 6 = true) (h9 : rsvHigh ((s.accepted t e).w 0) 9 = true)
  (hi : slotOf ((s.accepted t e).w 0) = i) (hx : s.sys.fw.slots[i].image = some x) (hver : s.sys.fw.slots[i].verified = true)
  (hv : s.sys.fw.verifyImage s.sys.optionW i x = none) (hb : bit ((s.accepted t e).w 0) 8 = now)
include hready hl h2 h9 hi hx hver hv hb

theorem runCmd_updateActivate (hnow : now = true → isConfigSlot i = false ∧ ((s.running t q e).q.q0 ++ (s.running t q e).q.q2).any
      (fun y => decide (y.phase ≠ .replied ∧ y.seq ≠ (s.accepted t e).seq)) = false) :
    runCmd t q 0xA003 false cmdUpdateActivate s =
      (((s.running t q e).activateSlot i now).replyTo q (s.accepted t e) .ok []).sweep := by
  rw [runCmd_ready hready, cmdUpdateActivate_verified hl h2 h9 hi (by rwa [State.running_sys]) (by rwa [State.running_sys])
    (by rwa [State.running_sys]) hb hnow, settle_ok fun _ => Nat.zero_le _]

theorem updateActivate_later (hlater : now = false) :
    Replied (exec (.updateActivate t q) s) q (s.accepted t e) .ok [] ((s.running t q e).activateSlot i false) := by
  subst hlater
  refine (execUpdateActivate_ready hready).trans ?_
  rw [runCmd_updateActivate hready hl h2 h9 hi hx hver hv hb (fun h => absurd h Bool.false_ne_true), hb]
  rfl

theorem updateActivate_now (hnow : now = true) (hslot : isConfigSlot i = false) (halone : ((s.running t q e).q.q0 ++ (s.running t q e).q.q2).any
      (fun y => decide (y.phase ≠ .replied ∧ y.seq ≠ (s.accepted t e).seq)) = false) :
    exec (.updateActivate t q) s =
      .next (((s.running t q e).activateSlot i true).replyTo q (s.accepted t e) .ok []).sweep.restartNow := by
  subst hnow
  have hseq : (((s.running t q e).activateSlot i true).replyTo q (s.accepted t e) .ok []).sweep.sys.fw.record.seq =
      s.sys.fw.record.seq + 1 := by
    obtain ⟨hrecords, -⟩ := State.boot_of_device_eq ((State.sweep_device _).trans
      (((s.running t q e).activateSlot i true).replyTo_device q (s.accepted t e) .ok []))
    rw [Firmware.record_congr hrecords]
    exact ((s.running t q e).sys.fw.activate_seq i).trans (by rw [State.running_sys])
  refine (execUpdateActivate_ready hready).trans ?_
  rw [runCmd_updateActivate hready hl h2 h9 hi hx hver hv hb fun _ => ⟨hslot, halone⟩, hb]
  refine congrArg Host.Outcome.next (if_pos ?_)
  rw [hseq, Bool.true_and]
  exact decide_eq_true (Nat.succ_ne_self _)

end

/-! ### The boot ROM and BOOT_DONE (R488, R489, R491) -/

/-- A restart over a running data path and a device in recovery execute no configuration (R488, R491). -/
theorem bootRom_configures (kind : BootKind) (recovery : Bool) (config : Option Image) (s : State) :
    (match kind, recovery, config with
      | .restart, _, _ => s
      | _, false, some x => s.queueConfig x
      | _, _, _ => s) =
      if kind = .restart ∨ recovery = true then s else match config with | some x => s.queueConfig x | none => s := by
  cases kind <;> cases recovery <;> cases config <;> rfl

/-- A boot ROM run takes the record, the slots that verify and the configuration, and logs the shutdowns before it (R488, R503). -/
theorem execBootRomRun_due {s : State} {t : Nat} {kind : BootKind} (hk : s.sys.fw.romDue = some kind) (hh : s.sys.pow.held = false)
    (hp : s.sys.pow.powered = true) :
    execBootRomRun t s = .next (
      let f := s.sys.fw.bootRom s.sys.optionW
      let s1 : State := { s.advanceTo t with
        q := { (s.advanceTo t).q with q3 := (s.advanceTo t).q.q3.filter fun e => !e.local' }
        sys := { s.sys with
          booted := false, pstate := if kind = .restart then s.sys.pstate else 4, bootCount := f.record.count, log := []
          logSeq := match s.sys.fw.flashLog.getLast? with | some e => (e.seq + 1) % 2 ^ 32 | none => 0
          fw := { f with romDue := none, boot := some (kind, max s.now t), fromDeep := decide (kind = .deep), q3Wait := f.q3Wait.filter fun c => !c.2 } } }
      let s2 := (s1.forEach s.sys.pow.shutRails fun r s => s.logEntry 0x0403 0 2 0xFFFF [r]).modPow fun p => { p with shutRails := [] }
      (if kind = .restart ∨ f.recovery = true then s2 else match f.config with | some x => s2.queueConfig x | none => s2).sweep) := by
  have hgo : ¬ (s.sys.pow.held = true ∨ s.sys.pow.powered = false) := by simp [hh, hp]
  simp only [execBootRomRun, State.advanceTo_sys, State.advanceTo_now, hk]
  refine (if_neg hgo).trans (congrArg (fun u : State => Host.Outcome.next u.sweep) ?_)
  exact bootRom_configures ..

/-- The state that reports BOOT_DONE: the image confirmed, the device open, the IBI requested, the event and the log entry made (R489, R490). -/
def State.reportBoot (s : State) (kind : BootKind) (began : Instant) : State :=
  let f := s.sys.fw
  let w1 := pack [(f.runCode, 4), (flag f.trial, 1), (flag f.fallback, 1), (flag f.recovery, 1), (flag f.activated, 1), (flag f.fromDeep, 1),
    (flag f.cfgSlot.isNone, 1), (0, 6), (f.configErrors, 8)]
  let s1 := s.confirm.modSys fun y => { y with
    booted := true, pstate := if kind = .restart then y.pstate else 0
    fw := { y.fw with boot := none, activated := false }
    pow := { y.pow with restricted := match y.pow.wake with | some w => if w.recovery then some s.now else y.pow.restricted | none => y.pow.restricted } }
  let s2 : State := { s1 with bus := { s1.bus with ibiBoot := s1.bus.ibiBoot || s1.bus.enint } }
  (s2.event 0xE000 0 (wordsLe [f.version, w1, s.sys.bootCount % 65536, s.microsSince began])).logEntry 0x0501 0 0 0xFFFF [w1, f.version]

theorem execBootDone_due {s : State} {t : Nat} {kind : BootKind} {began : Instant} (hb : s.sys.fw.boot = some (kind, began))
    (hr : s.sys.recovering = false) (hh : s.sys.fw.halted = false) (hq : (s.q.q3.any fun e => e.local') = false) :
    execBootDone t s = .next ((s.advanceTo t).reportBoot kind began).sweep := by
  have hboot : (s.advanceTo t).sys.fw.boot = some (kind, began) := by rwa [State.advanceTo_sys]
  have hgo : ¬ ((s.advanceTo t).sys.recovering = true ∨ (s.advanceTo t).sys.fw.halted = true ∨
      ((s.advanceTo t).q.q3.any fun e => e.local') = true) := by
    simp only [State.advanceTo_sys, State.advanceTo_q, hr, hh, hq, Bool.false_eq_true, or_self, not_false_eq_true]
  unfold execBootDone
  simp only [hboot]
  exact if_neg hgo

/-- An event leaves the request for the IBI of BOOT_DONE. -/
@[simp] theorem State.event_ibiBoot (s : State) (code tag : Nat) (p : List Byte) : (s.event code tag p).bus.ibiBoot = s.bus.ibiBoot := by
  unfold State.event
  dsimp only
  (repeat' split) <;> simp [State.push]

/-- What the confirmation of an image leaves: it writes the trial's end and the counter (R489, R500). -/
theorem State.confirm_sys (s : State) :
    s.confirm.bus = s.bus ∧ s.confirm.sys.pstate = s.sys.pstate ∧
      s.confirm.sys.fw.trial = (s.sys.fw.trial && s.sys.fw.running.isNone) := by
  unfold State.confirm
  cases hrun : s.sys.fw.running with
  | none => simp
  | some x =>
    dsimp only
    cases htrial : s.sys.fw.trial <;> split <;> simp [State.modFw, State.modSys, Firmware.writeRecord, State.logEntry, htrial]

/-- BOOT_DONE confirms the image, opens the device and requests its IBI (R489). -/
theorem State.reportBoot_opens (s : State) (kind : BootKind) (began : Instant) :
    let u := (s.reportBoot kind began).sweep
    u.sys.booted = true ∧ u.sys.pstate = (if kind = .restart then s.sys.pstate else 0) ∧ u.sys.fw.boot = none ∧
      u.sys.fw.trial = (s.sys.fw.trial && s.sys.fw.running.isNone) ∧ u.bus.ibiBoot = (s.bus.ibiBoot || s.bus.enint) := by
  obtain ⟨hbus, hps, htrial⟩ := s.confirm_sys
  obtain ⟨-, hb, hp, hboot, ht, hibi⟩ := State.boot_of_device_eq (State.sweep_device (s.reportBoot kind began))
  simp only [hb, hp, hboot, ht, hibi]
  simp [State.reportBoot, State.modSys, State.logEntry, hbus, hps, htrial]

/-- Settles O46: the reception, the activation, the boot ROM and BOOT_DONE.  That the power state is kept through a restart of the firmware is log
entry 121, that hashes and signatures are operands log entry 15. -/
theorem bootAndUpdate : Obligations.BootAndUpdate := by
  unfold Obligations.BootAndUpdate
  refine ⟨?begin, fun i n => ?chunk, fun key sigOk digestOk i n => ?verified, fun key sigOk digestOk i n => updateEnd_refused key sigOk digestOk i n _,
    fun s t q e key sigOk digestOk i n st hready hl hrec hn hv => ?refused, fun s t q e i x hready hl h2 h9 hi hx hver hv hb => ?later,
    fun s t q e i x hready hl h2 h9 hi hx hver hv hb hslot halone => ?now, fun _ _ _ => execBootRomRun_due,
    fun s t kind began hb hr hh hq => ?done⟩
  case begin =>
    refine completes_ok cmdUpdateBegin (fun _ _ _ => rfl) fun q e s hpre => ?_
    obtain ⟨hl, h2, hlo, hhi, huse, hrec⟩ := hpre
    unfold cmdUpdateBegin
    refine (checked_pass (by simp [hl]) (by rw [h2, Bool.true_and]; exact decide_eq_true ⟨hlo, hhi⟩)).trans ?_
    exact (if_neg (ne_true_of_eq_false huse)).trans (if_neg (by simp [hrec]))
  case chunk =>
    refine completes_ok cmdUpdateChunk (fun _ _ _ => rfl) fun q e s hpre => ?_
    obtain ⟨hl, hlo, hhi, h11, hrec, hin, hagree⟩ := hpre
    unfold cmdUpdateChunk
    refine (checked_pass (by simp [hl]) (by simp [hlo, hhi, h11])).trans ?_
    simp only [hrec]
    exact (if_neg (Nat.not_lt.mpr hin)).trans (if_pos hagree)
  case verified =>
    refine completes_ok (cmdUpdateEnd key sigOk digestOk) (fun _ _ _ => rfl) fun q e s hpre => ?_
    obtain ⟨hl, hrec, hn, hv⟩ := hpre
    exact cmdUpdateEnd_verified hl hrec hn hv
  case refused =>
    refine updateEnd_refused key sigOk digestOk i n st s t q e hready ⟨hl, ?_, ?_, hv⟩ fun _ => Nat.zero_le _
    · rwa [State.running_sys]
    · rwa [State.running_sys]
  case later => exact updateActivate_later hready hl h2 h9 hi hx hver hv hb rfl
  case now => exact updateActivate_now hready hl h2 h9 hi hx hver hv hb rfl hslot halone
  case done =>
    obtain ⟨hbooted, hps, hboot, htrial, hibi⟩ := (s.advanceTo t).reportBoot_opens kind began
    refine ⟨_, execBootDone_due hb hr hh hq, hbooted, ?_, hboot, ?_, ?_⟩
    · rw [hps, State.advanceTo_sys]
    · rw [htrial, State.advanceTo_sys]
    · rw [hibi, State.advanceTo_bus]

end Sys2Proof.Machine

namespace Sys2Proof.Machine

/-! ## The CMIS window (R508, R509) -/

@[simp] theorem State.advanceTo_cmisOpen (s : State) (t : Instant) : (s.advanceTo t).cmisOpen = s.cmisOpen := by simp [State.cmisOpen]

/-- The window is closed in SLEEP and DEEP, and while reset is held (R509; the last is log entry 21). -/
theorem State.cmisOpen_eq_false {s : State} (h : s.sys.pstate = 2 ∨ s.sys.pstate = 3 ∨ s.sys.pow.held = true) : s.cmisOpen = false := by
  rcases h with h | h | h <;> simp [State.cmisOpen, h]

/-! ### Runs of bytes -/

theorem cmisRun_length (n off : Nat) : (cmisRun n off).length = n := by
  induction n generalizing off with
  | zero => rfl
  | succ n ih => rw [cmisRun, List.length_cons, ih]

theorem execCmisRead_open {s : State} (t : Nat) (off : Fin 256) (n : Nat) (h : s.cmisOpen = true) :
    execCmisRead t off n s = .next (((s.advanceTo t).draw.2).answer
      (.data ((cmisRun n off.val).map fun o => (s.advanceTo t).draw.2.cmisByte o (s.advanceTo t).draw.1))) := by
  simp only [execCmisRead, State.advanceTo_cmisOpen, h, if_true]

theorem execCmisRead_closed {s : State} (t : Nat) (off : Fin 256) (n : Nat) (h : s.cmisOpen = false) :
    execCmisRead t off n s = .next ((s.advanceTo t).answer .nack) := by
  simp only [execCmisRead, State.advanceTo_cmisOpen, h, Bool.false_eq_true, if_false]

/-- The bytes that a write leaves, before its answer: none are taken until BOOT_DONE, and at most eight after it. -/
def State.cmisTake (s : State) (off : Fin 256) (bytes : List Byte) : State :=
  if s.bootDone then s.forEach ((cmisRun 8 off.val).zip (bytes.take 8)) fun x s => s.cmisPut x.1 x.2 else s

theorem State.bootDone_iff {s : State} : s.bootDone = true ↔ s.sys.booted = true ∨ s.restarting = true := by simp [State.bootDone]

/-- A write to a window that answers takes at most eight bytes, and is NACKed with the ninth (R509; log entry 20). -/
theorem execCmisWrite_open {s : State} (t : Nat) (off : Fin 256) (bytes : List Byte) (h : s.cmisOpen = true) :
    execCmisWrite t off bytes s = .next (((s.advanceTo t).cmisTake off bytes).answer (if 8 < bytes.length then .nack else .ack)) := by
  simp only [execCmisWrite, State.advanceTo_cmisOpen, h, Bool.true_eq_false, if_false, State.cmisTake, State.bootDone_iff]

theorem execCmisWrite_closed {s : State} (t : Nat) (off : Fin 256) (bytes : List Byte) (h : s.cmisOpen = false) :
    execCmisWrite t off bytes s = .next ((s.advanceTo t).answer .nack) := by
  simp only [execCmisWrite, State.advanceTo_cmisOpen, h, if_true]

/-! ### One byte -/

/-- Before BOOT_DONE only the module state is there (R508). -/
theorem State.cmisByte_early {s : State} (off k : Nat) (h : s.bootDone = false) : s.cmisByte off k = if off = 3 then 0x04 else 0 :=
  if_pos (by simpa [State.bootDone] using h)

/-- Past BOOT_DONE a byte that the window has been given, and that is neither the bank nor the page, reads what it holds. -/
theorem State.cmisByte_given {s : State} {off key : Nat} {x : Nat × Byte} (k : Nat) (h : s.bootDone = true)
    (hkey : s.sys.fw.cmisKey off = some key) (h126 : key ≠ 126) (h127 : key ≠ 127)
    (hx : s.sys.fw.cmis.find? (fun x => decide (x.1 = key)) = some x) : s.cmisByte off k = x.2 := by
  have hdone : ¬ (s.sys.booted = false ∧ s.restarting = false) := by simpa [State.bootDone, or_iff_not_imp_left] using h
  simp only [State.cmisByte, hdone, hkey, h126, h127, hx, if_false]

/-- A byte set reads back. -/
theorem find?_setByte (m : List (Nat × Byte)) (a : Nat) (v : Byte) : (setByte m a v).find? (fun x => decide (x.1 = a)) = some (a, v) := by
  have hlow : (m.filter fun x => decide (x.1 < a)).find? (fun x => decide (x.1 = a)) = none :=
    List.find?_eq_none.mpr fun x hx hxa =>
      (of_decide_eq_true (List.mem_filter.mp hx).2).ne (of_decide_eq_true hxa)
  have hset : setByte m a v = m.filter (fun x => decide (x.1 < a)) ++ [(a, v)] ++ m.filter fun x => decide (a + 1 ≤ x.1) := rfl
  rw [hset, List.find?_append, List.find?_append, hlow]
  simp

theorem State.cmisPut_writable {s : State} {off key : Nat} (v : Byte) (hkey : s.sys.fw.cmisKey off = some key) (hw : cmisWritable key = true)
    (h126 : key ≠ 126) (h127 : key ≠ 127) : s.cmisPut off v = s.modFw fun f => { f with cmis := setByte f.cmis key v } := by
  simp only [State.cmisPut, hkey, hw, h126, h127, Bool.true_eq_false, if_false]

/-- Settles O9: reads and writes by whether the window answers, then a byte of it.  That a longer write stores its first eight bytes and is
NACKed, and that 128 follows 255 in a write too, is log entry 20, the bytes of firmware policy and the NACK under reset log entry 21. -/
theorem cmisWindow : Obligations.CmisWindow := by
  unfold Obligations.CmisWindow
  refine ⟨fun _ => execCmisRead_open, fun n off => ⟨cmisRun_length n off.val, rfl⟩, fun _ => State.cmisByte_early,
    fun s t off bytes hopen hdone => ?taken, fun s off key k v hdone hkey hw h126 h127 => ?back, fun s t off bytes hopen hdone hlen => ?early,
    fun s t off n bytes h => ?closed⟩
  case taken =>
    refine (execCmisWrite_open t off bytes hopen).trans ?_
    rw [State.cmisTake, State.advanceTo_bootDone, if_pos hdone]
    rfl
  case back =>
    rw [State.cmisPut_writable v hkey hw h126 h127]
    exact State.cmisByte_given (x := (key, v)) k hdone hkey h126 h127 (find?_setByte s.sys.fw.cmis key v)
  case early =>
    refine (execCmisWrite_open t off bytes hopen).trans ?_
    rw [State.cmisTake, State.advanceTo_bootDone, if_neg (ne_true_of_eq_false hdone), if_neg (Nat.not_lt.mpr hlen)]
  case closed =>
    have hclosed := State.cmisOpen_eq_false h
    exact ⟨execCmisRead_closed t off n hclosed, execCmisWrite_closed t off bytes hclosed⟩

end Sys2Proof.Machine
